-- ==== Sys2Proof/Word.lean ====
section
/-! DEFINITION. The word types of the machine (R3, R4, R8): bit vectors for what the manual numbers as bits. -/

namespace Sys2Proof

/-- One byte of memory. -/
abbrev Byte := BitVec 8

/-- A scalar register or an op word. -/
abbrev X64 := BitVec 64

/-- A vector register, 2,048 bits (R8). -/
abbrev VBits := BitVec 2048

/-- A predicate register, one bit per byte lane (R8, R11). -/
abbrev PBits := BitVec 256

/-- An accumulator: 128 × 128 cells of 32 bits, cell (i, j) at bits 32·(128·i + j) (R8, R133). -/
abbrev ABits := BitVec 524288

/-- A claim name (R201). -/
abbrev ClaimName := BitVec 128

/-- A thresher vector register (R424). -/
abbrev WBits := BitVec 512

end Sys2Proof
end

