-- ==== Sys2Proof/Config.lean ====
section
/-! DEFINITION. The values the manual leaves open: each an opaque constant, so that no proof can use a value of it. -/

namespace Sys2Proof.Config

/-- Which of the two values of R31 and R351 an undersized read returns when a slot may have slipped:
the arguments are the reading bundle and slot, and the number of the writing bundle and the register (log 4). -/
opaque freeSlip : Nat → Nat → Nat → Bool

/-- Which of the two bundles of R37 a fetch of stored-over code reads (log 10). -/
opaque freeFetch : Nat → Nat → Bool

/-- How many cycles a wait or a fetch lasts beyond its first: the durations are not architectural (log 9). -/
opaque waitCycles : Nat → Nat

/-- The measured terms of the energy charge (R461), in 1/64 µJ, at each charge (log 9). -/
opaque measuredEnergy : Nat → Nat

/-- The byte a location holds where R7 leaves it open between a stated set: the arguments are the free
counter and the address; an odd value takes the newer byte of the set (log 11). -/
opaque freeByte : Nat → Nat → Byte

/-- Where in a strand's save area the layout puts a register (R171): the arguments are the number of the save, the register's file
and its number (log 46). -/
opaque savePlace : Nat → Nat → Nat → Nat

/-- What the memory under a rick does to the pop of a given counter value, as bits (R327; log 66). -/
opaque streamErrors : Nat → Nat

/-- Whether another device of the domain, silent or far away, has answered by now (R386, R387): the arguments are the free counter and its index
(log 68). -/
opaque linkAnswers : Nat → Nat → Bool

/-- A free choice among several: which of the values that a byte has had an MMA reads (R147) or an aborted round leaves in it (R420, log 11),
the arguments being the free counter and the address; and which of the module's threshers goes on (R425, R451, log 57). -/
opaque freePick : Nat → Nat → Nat

/-- Whether the host answers an engine's access with a completion error (R278): the arguments are the free counter and
the address (log 11). -/
opaque hostFails : Nat → Nat → Bool

/-- ATTR of a claim whose type's chapter gives none (R212, log 35). -/
opaque claimAttr : ClaimName → X64

/-- What the table of another device answers for a name of its own (R205 to R208), none where it holds no such entry: the type's code,
then the words of R212 from byte 16 on: uses, holders, owner and state, HOME, BASE, SIZE, ATTR (log 19). -/
opaque remoteClaim : Nat → ClaimName → Option (Nat × X64 × X64 × X64 × X64 × X64)

/-- How many cold starts a device of the map has had since its generation was last noted (R202, R389): the arguments are the free counter
and its serial (log 19). -/
opaque coldStarts : Nat → Nat → Nat

/-- The 32-bit digest of a collective record's bytes (R408): the manual names it and gives no computation (log 27). -/
opaque recordDigest : List Byte → BitVec 32

/-- The device index, in its own domain, of the sender behind a route (R439, log 36). -/
opaque foreignIndex : Nat → Nat

/-- The SM3 digest of a byte string (R471): the manual names the standard and gives no computation (log 12). -/
opaque sm3 : List Byte → BitVec 256

/-- Whether an SM2 signature over a digest verifies against the fused Lumrum key (R471, log 12). -/
opaque sm2Verify : BitVec 256 → BitVec 512 → Bool

/-- The SM2 signature the boot ROM's service makes with the device identity key (R472, R473, log 12). -/
opaque sm2Sign : List Byte → BitVec 512

/-- The factory image of a kind code and a die, with its signature and version (R471, R475, log 12). -/
opaque factoryImage : Nat → Nat → List Byte × BitVec 512 × Nat

/-- The fused configuration measurement 5 holds beside the minimum version (R473, log 12). -/
opaque fusedConfig : List Byte

/-- The certificate chain of the device identity key (R472, log 12). -/
opaque certChain : List Byte

/-- The boot ROM whose digest is measurement 1 (R473, log 12). -/
opaque bootRom : List Byte

end Sys2Proof.Config
end

