-- ==== Sys2Proof/Syntax.lean ====
section
/-! DEFINITION. The instructions: one constructor for every row of spec/opcode_table.json. The core's ops take the
fields of their op-word format (R89 to R94), the thresher's the fields of R429 and R430; the other rows are the
part's events, and take what the event brings with it. -/

namespace Sys2Proof

/-! ### Field types -/

/-- The formats of R45. -/
inductive Fmt where
  | fp32 | fp16 | bf16 | int8 | int16 | int32 | sx3 | sx5 | sx8 | bfp64 | raw
  deriving DecidableEq, Repr

/-- The geometries of R45. -/
inductive Geo where
  | packed | planar
  deriving DecidableEq, Repr

/-- The rounding modes of R51. -/
inductive RMode where
  | rne | rtz | rup | rdn | rna | sr
  deriving DecidableEq, Repr

/-- The rounding selection of an op (R51, R95). -/
inductive Rnd where
  | dyn
  | mode (m : RMode)
  deriving DecidableEq, Repr

/-- The loss scale selection (R67, R95). -/
inductive Scl where
  | none | ls | lsn
  deriving DecidableEq, Repr

/-- The conditions of R95. -/
inductive Cond where
  | eq | ne | lt | le | gt | ge | ltu | leu | gtu | geu
  deriving DecidableEq, Repr

/-- Which register field names a stream register (R95, R109). -/
inductive QSel where
  | none | d | a | b | c
  deriving DecidableEq, Repr

/-- Access widths (R95). -/
inductive Width where
  | w8 | w16 | w32 | w64
  deriving DecidableEq, Repr

/-- The scopes of R255. -/
inductive Scope where
  | core | cluster | die | device | domain | host
  deriving DecidableEq, Repr

/-- The atomic operations of R298. -/
inductive AmoOp where
  | add | and | or | xor | min | max | minu | maxu | swap | cas | incw | addb
  deriving DecidableEq, Repr

/-- The reduction operations of R302. -/
inductive RedOp where
  | add | fadd32 | min | max | minu | maxu | and | or | xor | bfpadd
  deriving DecidableEq, Repr

/-- The claim types of R204. -/
inductive ClaimType where
  | tensor | rick | chute | group | queue | strand | kernel | bins | lease | coll | cword
  deriving DecidableEq, Repr

/-- The direction of a stream (R291). -/
inductive Dir where
  | rd | wr
  deriving DecidableEq, Repr

/-- An architectural register number field. -/
abbrev Reg := BitVec 6

/-- The kind mask of a FENCE (R94, R256). -/
structure Kinds where
  so : Bool
  rc : Bool
  un : Bool
  deriving DecidableEq, Repr

/-- The CTL fields every C-slot op carries (R26, R94). -/
structure Ctl where
  stall : BitVec 4
  mark : Bool
  qp : Bool
  hwin : Bool
  chk : Bool
  realign : BitVec 8
  deriving DecidableEq, Repr

/-! ### Op-word formats -/

/-- Format RG (R89). -/
structure RG where
  d : Reg
  a : Reg
  b : Reg
  c : Reg
  g : BitVec 4
  t : Fmt
  t2 : Fmt
  rnd : Rnd
  sat : Bool
  scl : Scl
  cond : Cond
  qsel : QSel
  deriving DecidableEq, Repr

/-- Format IM (R90). -/
structure IM where
  d : Reg
  a : Reg
  imm : BitVec 40
  deriving DecidableEq, Repr

/-- Format MW (R90). -/
structure MW where
  d : Reg
  imm : BitVec 46
  deriving DecidableEq, Repr

/-- Format BRF (R90). -/
structure BRF where
  d : Reg
  cond : Cond
  off : BitVec 42
  deriving DecidableEq, Repr

/-- Format RP (R90). -/
structure RP where
  n : BitVec 7
  cnt : BitVec 13
  deriving DecidableEq, Repr

/-- Format VI (R90). -/
structure VI where
  d : Reg
  g : BitVec 4
  t : Fmt
  imm : BitVec 32
  deriving DecidableEq, Repr

/-- Format MM (R91). `oa`, `ob`: true is COL order. -/
structure MM where
  acc : BitVec 2
  cha : BitVec 3
  chb : BitVec 3
  t : Fmt
  oa : Bool
  ob : Bool
  kq : BitVec 6
  pat : BitVec 32
  deriving DecidableEq, Repr

/-- Format MX (R91). -/
structure MX where
  acc : BitVec 2
  a : Reg
  t : Fmt
  rnd : Rnd
  sat : Bool
  scl : Scl
  deriving DecidableEq, Repr

/-- EPLD's form of MX: `n` instruction words at the address in `a` (R91, R156). -/
structure MXE where
  a : Reg
  n : BitVec 6
  deriving DecidableEq, Repr

/-- Format MS (R92). -/
structure MS where
  d : Reg
  a : Reg
  w : Width
  u : Bool
  ord : Bool
  off : BitVec 32
  deriving DecidableEq, Repr

/-- Format MV of the contiguous vector accesses (R92). -/
structure MV where
  d : Reg
  a : Reg
  g : BitVec 4
  t : Fmt
  rnd : Rnd
  sat : Bool
  scl : Scl
  ord : Bool
  q : Bool
  off : BitVec 22
  deriving DecidableEq, Repr

/-- Format MV of the strided and indexed vector accesses (R92). -/
structure MVX where
  d : Reg
  a : Reg
  g : BitVec 4
  t : Fmt
  rnd : Rnd
  sat : Bool
  scl : Scl
  q : Bool
  b : Reg
  off : BitVec 16
  deriving DecidableEq, Repr

/-- Format LF (R92). -/
structure LF where
  a : Reg
  b : Reg
  t : Fmt
  geo : Geo
  deriving DecidableEq, Repr

/-- Format EA with its register fields alone (R93). -/
structure EA where
  d : Reg
  a : Reg
  b : Reg
  c : Reg
  h : BitVec 4
  deriving DecidableEq, Repr

/-- COPY's fields of EA (R282). -/
structure EACopy where
  d : Reg
  a : Reg
  b : Reg
  c : Reg
  t : Fmt
  rnd : Rnd
  scl : Scl
  deriving DecidableEq, Repr

/-- STRB's fields of EA (R291). -/
structure EAStrb where
  a : Reg
  h : BitVec 4
  dir : Dir
  deriving DecidableEq, Repr

/-- PUSHT's fields of EA (R93, R323). -/
structure EAPush where
  d : Reg
  a : Reg
  b : Reg
  h : BitVec 4
  t : Fmt
  scl : Scl
  skip : Bool
  len : BitVec 9
  deriving DecidableEq, Repr

/-- AMO's fields of EA (R297). -/
structure EAAmo where
  d : Reg
  a : Reg
  b : Reg
  c : Reg
  op : AmoOp
  w : Width
  deriving DecidableEq, Repr

/-- RED's fields of EA (R302). -/
structure EARed where
  a : Reg
  b : Reg
  op : RedOp
  w : Width
  deriving DecidableEq, Repr

/-- CLAIM's and RESOLVE's fields of EA (R210, R211); RESOLVE's `a` and `b` are 0. -/
structure EAClaim where
  d : Reg
  a : Reg
  b : Reg
  h : BitVec 4
  ty : ClaimType
  deriving DecidableEq, Repr

/-- CASN's fields of EA (R217). -/
structure EACasn where
  d : Reg
  a : Reg
  b : Reg
  h : BitVec 4
  live : Bool
  deriving DecidableEq, Repr

/-- Format CG with register fields (R94). -/
structure CG where
  d : Reg
  a : Reg
  b : Reg
  ctl : Ctl
  deriving DecidableEq, Repr

/-- Format CG of FENCE (R256). -/
structure CGFence where
  scope : Scope
  kinds : Kinds
  ctl : Ctl
  deriving DecidableEq, Repr

/-- Format CG with CODE (TRAP, SVC; R355). -/
structure CGCode where
  d : Reg
  a : Reg
  code : BitVec 16
  ctl : Ctl
  deriving DecidableEq, Repr

/-- Format CG with SRN (RDSR, WRSR, BKPT; R355). -/
structure CGSr where
  d : Reg
  a : Reg
  srn : BitVec 12
  ctl : Ctl
  deriving DecidableEq, Repr

/-! ### Thresher formats (R429, R430) -/

/-- Thresher types (R429). -/
inductive TType where
  | int32 | fp32 | bf16
  deriving DecidableEq, Repr

/-- The bin atomics of R440. -/
inductive BamoOp where
  | add | min | max | minu | maxu | swap | fadd32 | and | or | xor
  deriving DecidableEq, Repr

/-- Format TR; the fields an op does not use are 0. -/
structure TR where
  d : BitVec 4
  a : BitVec 4
  b : BitVec 4
  c : BitVec 4
  t : TType
  s : Bool
  bz : Bool
  deriving DecidableEq, Repr

/-- CMP's form of TR. -/
structure TRCmp where
  d : BitVec 4
  a : BitVec 4
  b : BitVec 4
  t : TType
  s : Bool
  bz : Bool
  cond : Cond
  deriving DecidableEq, Repr

/-- CVT's form of TR. -/
structure TRCvt where
  d : BitVec 4
  a : BitVec 4
  t : TType
  t2 : TType
  s : Bool
  deriving DecidableEq, Repr

/-- The form of VEXT, VBC and HDR: two registers and a lane or field number. -/
structure TRLane where
  d : BitVec 4
  a : BitVec 4
  x : BitVec 4
  deriving DecidableEq, Repr

/-- BAMO's form of TR. -/
structure TRBamo where
  d : BitVec 4
  a : BitVec 4
  b : BitVec 4
  op : BamoOp
  deriving DecidableEq, Repr

/-- MOVI's form of TI. -/
structure TIMov where
  d : BitVec 4
  h : Bool
  imm : BitVec 21
  deriving DecidableEq, Repr

/-- ADDI's form of TI. -/
structure TIAdd where
  d : BitVec 4
  a : BitVec 4
  imm : BitVec 18
  deriving DecidableEq, Repr

/-- Format TM. -/
structure TM where
  d : BitVec 4
  a : BitVec 4
  s : Bool
  off : BitVec 16
  deriving DecidableEq, Repr

/-- Format TC: a 4-bit field (COND or CNT), a register and a 16-bit field. -/
structure TC where
  k : BitVec 4
  a : BitVec 4
  o : BitVec 16
  deriving DecidableEq, Repr

/-! ### What the events bring with them -/

/-- A firmware image of R471. -/
inductive ImageKind where
  | foreman | switch | baler | power
  deriving DecidableEq, Repr

structure FwImage where
  kind : ImageKind
  bytes : List Byte
  sig : BitVec 512
  secver : Nat
  deriving DecidableEq, Repr

/-- An access that reaches this device from elsewhere (R386, R371): a read, a write with the poison of its bytes, an atomic or a name swap;
or a write of the other device's own agents into its own memory, which this device's L5 entries map. -/
inductive RemoteOp where
  | load (addr len : Nat)
  | store (addr : Nat) (bytes : List Byte) (poisoned : List Bool)
  | amo (op : AmoOp) (w : Width) (addr : Nat) (b c : X64) (poisoned : Bool)
  | red (op : RedOp) (w : Width) (addr : Nat) (b : X64) (lanes : VBits) (poisoned : Bool)
  | casn (addr : Nat) (exp new : ClaimName) (live : Bool) (tenant : Nat)
  | ownStore (addr : Nat) (bytes : List Byte) (poisoned : List Bool)
  deriving DecidableEq, Repr

/-- A link-queue message (R390): the sending device or route, the tenant, TAG and entries of 256 bytes, and whether a kernel at another
switch has redirected it here (R425, R427). -/
structure LinkMsg where
  tenant : Nat
  peer : Nat
  tag : Nat
  seq : Nat
  bytes : List Byte
  poisoned : List Bool
  redirected : Bool := false
  deriving DecidableEq, Repr

/-- What the header of every frame holds (R399): its version, its kind, and whether the zero bytes are zero. -/
structure FrameHead where
  ver : Nat
  kind : Nat
  zeros : Bool
  deriving DecidableEq, Repr

/-- An inter-domain frame (R399): its header, whether the zero bytes are zero, and its payload; the tenant is the one whose queue it is
for (log 25). -/
structure Frame where
  tenant : Nat
  ver : Nat
  kind : Nat
  srcRoute : Nat
  seq : Nat
  tag : Nat
  entries : Nat
  frag : Nat
  nfrag : Nat
  zeros : Bool
  payload : List Byte
  deriving DecidableEq, Repr

def Frame.head (f : Frame) : FrameHead := { ver := f.ver, kind := f.kind, zeros := f.zeros }

/-- A collective message (R408, R410): a whole tile of a round from the member of a rank to another; or, with `agree`, the exponent words of
the agreement (R413). Under ARITH 5 `data` holds 8 words of 4-bit mantissas a block, and `exps` their exponents (R414). -/
structure CollMsg where
  tenant : Nat
  key : X64
  round : Nat
  iter : Nat
  fromRank : Nat
  toRank : Nat
  tile : Nat
  digest : BitVec 32
  agree : Bool
  data : List (BitVec 32)
  drops : List Nat
  satmarks : List Bool
  exps : List Nat
  deriving DecidableEq, Repr

/-- What the root decides for a round (R418, R450). -/
inductive Decision where
  | slots | walk | noslot | gone
  deriving DecidableEq, Repr

/-- A decision as the root sends it (R418). -/
structure DecisionMsg where
  tenant : Nat
  key : X64
  round : Nat
  digest : BitVec 32
  decision : Decision
  deriving DecidableEq, Repr

/-- A request to a slot allocator, or the release of what it has granted (R417): with the record of the collective, from which the switch
knows its tree and operation, and the image of a kernel that another module holds (log 70). -/
structure SlotReq where
  tenant : Nat
  key : X64
  release : Bool
  record : List Byte
  image : List Byte
  deriving DecidableEq, Repr

/-- The tenant and the KEY of a collective's rounds (R408). -/
structure CollKey where
  tenant : Nat
  key : X64
  deriving DecidableEq, Repr

/-- What a slot beat carries (R419, R426): up from the switch of a child port, or down from the root; its 64 words, its drop count, its
saturation mark (R413) and its poison. -/
structure BeatIn where
  pass : Nat
  beat : Nat
  port : Nat
  down : Bool
  words : List (BitVec 32)
  drops : Nat
  satmark : Bool
  poisoned : Bool
  deriving DecidableEq, Repr

/-- A slot beat on its way to a switch, of a round (R408). -/
structure Beat extends BeatIn where
  tenant : Nat
  key : X64
  round : Nat
  digest : BitVec 32
  deriving DecidableEq, Repr

/-- The inputs of one thresher invocation (R424 to R427). -/
structure InvSpec where
  kernel : ClaimName
  slot : Bool
  input : List Byte
  partialIn : List Byte
  poisoned : Bool
  sender : Nat
  dest : Nat
  tenant : Nat
  tag : Nat
  key : X64
  beat : Nat
  count : Nat
  round : Nat
  pass : Nat
  deriving DecidableEq, Repr

/-- The declaration of a chute (R81, R144, R197): bytes of a slot, slots, format, geometry and the member cores of HOME's
cluster. -/
structure ChuteDecl where
  slotBytes : Nat
  slots : Nat
  fmt : Fmt
  geo : Geo
  cores : BitVec 8
  deriving DecidableEq, Repr

/-- Whose TAIL is written, and whether the write submits the first blocks of a launch that has no directive: with one, the launch begins at its
first directive (log 77). -/
structure TailPlace where
  tenant : Nat
  launch : Bool
  deriving DecidableEq, Repr

/-- What the owner runtime creates (R204): the type, the owner, HOME, base, size and attributes, a chute's declaration, and
whether a directive of a launch asks for it. The base is a chute's local-store offset, and the address of a rick's tables. -/
structure NewClaim where
  ty : ClaimType
  owner : Nat
  home : Nat
  base : Nat
  size : Nat
  attr : X64
  chute : Option ChuteDecl
  launch : Bool
  deriving DecidableEq, Repr

/-- Where a `.kname` places its 16 bytes (R81, R454): in the local store, or in a page of the tenant's space. -/
inductive NamePlace where
  | ls (off : Nat)
  | page (addr : Nat)
  deriving DecidableEq, Repr

/-- A load of a thresher kernel (R445, R454): for a launch or not; a launch's kernel with a bin set brings its size and its offset in bin memory;
the places that receive the kernel's name; and, where another module holds image 0, what its load has answered: the name, or that it refuses
the kernel or its bin set. -/
structure KernelLoad where
  tenant : Nat
  launch : Bool
  bins : Option (Nat × Nat)
  knames : List NamePlace
  elsewhere : Option (Option ClaimName)
  deriving DecidableEq, Repr

/-- Who has a name looked up at this device (R206, R214): a resolution in flight on this core; a cache of another core, of this or
another device, for a strand of a tenant; an operation of another core or device that takes a use; or one that releases it. -/
inductive Asker where
  | own
  | cache (dev core tenant : Nat)
  | use (dev tenant : Nat)
  | release (dev : Nat)
  deriving DecidableEq, Repr

/-- A lookup of a name at this device. -/
structure ClaimAsk where
  name : ClaimName
  who : Asker
  deriving DecidableEq, Repr

/-- A place of BAR0 of a function, 0 being the physical one (R396). -/
structure RegPlace where
  fn : Nat
  off : Nat
  deriving DecidableEq, Repr

/-- Where a host read goes: BAR2 of a function, or its BAR0 (R396, R476). -/
structure ReadPlace where
  fn : Nat
  bar0 : Bool
  deriving DecidableEq, Repr

/-! ### The instructions -/

/-- One constructor for every row of spec/opcode_table.json: the 163 ops of the core (R96), the 38 of the thresher
(R431), and the part's 112 events, each step whole and indivisible. -/
inductive Instr where
  -- S slot (R96)
  | add (f : RG)
  | sub (f : RG)
  | mul (f : RG)
  | mulh (f : RG)
  | mulhu (f : RG)
  | div (f : RG)
  | divu (f : RG)
  | rem (f : RG)
  | remu (f : RG)
  | and (f : RG)
  | or (f : RG)
  | xor (f : RG)
  | shl (f : RG)
  | shr (f : RG)
  | sra (f : RG)
  | rotr (f : RG)
  | clz (f : RG)
  | popc (f : RG)
  | min (f : RG)
  | max (f : RG)
  | minu (f : RG)
  | maxu (f : RG)
  | cmp (f : RG)
  | sel (f : RG)
  | extr (f : RG)
  | insr (f : RG)
  | addi (f : IM)
  | andi (f : IM)
  | ori (f : IM)
  | xori (f : IM)
  | shli (f : IM)
  | shri (f : IM)
  | srai (f : IM)
  | movi (f : MW)
  | movhi (f : MW)
  | fadd (f : RG)
  | fsub (f : RG)
  | fmul (f : RG)
  | ffma (f : RG)
  | fmin (f : RG)
  | fmax (f : RG)
  | fcmp (f : RG)
  | fcvt (f : RG)
  | br (f : BRF)
  | bc (f : BRF)
  | brl (f : BRF)
  | call (f : BRF)
  | ret (f : RG)
  | jmpx (f : RG)
  | rep (f : RP)
  | loopb (f : RP)
  -- VA and VB slots
  | vadd (f : RG)
  | vsub (f : RG)
  | vadds (f : RG)
  | vsubs (f : RG)
  | vmul (f : RG)
  | vmulh (f : RG)
  | vmulw (f : RG)
  | vmacw (f : RG)
  | vfma (f : RG)
  | vfms (f : RG)
  | vneg (f : RG)
  | vabs (f : RG)
  | vmin (f : RG)
  | vmax (f : RG)
  | vand (f : RG)
  | vor (f : RG)
  | vxor (f : RG)
  | vnot (f : RG)
  | vshl (f : RG)
  | vshr (f : RG)
  | vsra (f : RG)
  | vcmp (f : RG)
  | vsel (f : RG)
  | vrcp (f : RG)
  | vrsq (f : RG)
  | vsqrt (f : RG)
  | vexp2 (f : RG)
  | vlog2 (f : RG)
  | vcvt (f : RG)
  | vredadd (f : RG)
  | vredmax (f : RG)
  | vredmin (f : RG)
  | vbcast (f : RG)
  | vext (f : RG)
  | vins (f : RG)
  | vperm (f : RG)
  | vslide (f : RG)
  | viota (f : RG)
  | vmov (f : RG)
  | vmovi (f : VI)
  | vpacksx (f : RG)
  | vunpksx (f : RG)
  | pand (f : RG)
  | por (f : RG)
  | pxor (f : RG)
  | pnot (f : RG)
  | plen (f : RG)
  | pset (f : RG)
  | pcnt (f : RG)
  | pmov (f : RG)
  -- M slot
  | mma (f : MM)
  | mzero (f : MX)
  | mdrain (f : MX)
  | maccld (f : MX)
  | maccst (f : MX)
  | epld (f : MXE)
  -- L and ST slots
  | ld (f : MS)
  | fld (f : MS)
  | st (f : MS)
  | fst (f : MS)
  | vld (f : MV)
  | vfld (f : MV)
  | vst (f : MV)
  | vfst (f : MV)
  | vlds (f : MVX)
  | vldx (f : MVX)
  | vsts (f : MVX)
  | vstx (f : MVX)
  | lsfmt (f : LF)
  -- E slot
  | copy (f : EACopy)
  | strb (f : EAStrb)
  | pusht (f : EAPush)
  | amo (f : EAAmo)
  | red (f : EARed)
  | claim (f : EAClaim)
  | resolve (f : EAClaim)
  | casn (f : EACasn)
  | copya (f : EA)
  | stru (f : EA)
  | popt (f : EA)
  | markr (f : EA)
  | splitr (f : EA)
  | joinr (f : EA)
  | rickq (f : EA)
  | popq (f : EA)
  | qclaim (f : EA)
  | retire (f : EA)
  | chopen (f : EA)
  | chcommit (f : EA)
  | send (f : EA)
  | recv (f : EA)
  | coll (f : EA)
  -- C slot
  | ctl (f : CG)
  | barg (f : CG)
  | joing (f : CG)
  | leaveg (f : CG)
  | spawn (f : CG)
  | susp (f : CG)
  | exit (f : CG)
  | yield (f : CG)
  | nextt (f : CG)
  | rett (f : CG)
  | tstpsn (f : CG)
  | rdeng (f : CG)
  | rdcyc (f : CG)
  | lsstep (f : CG)
  | fence (f : CGFence)
  | trap (f : CGCode)
  | svc (f : CGCode)
  | rdsr (f : CGSr)
  | wrsr (f : CGSr)
  | bkpt (f : CGSr)
  -- threshers (R431)
  | thrAdd (f : TR)
  | thrSub (f : TR)
  | thrMul (f : TR)
  | thrFma (f : TR)
  | thrMin (f : TR)
  | thrMax (f : TR)
  | thrAbs (f : TR)
  | thrNeg (f : TR)
  | thrAnd (f : TR)
  | thrOr (f : TR)
  | thrXor (f : TR)
  | thrShl (f : TR)
  | thrShr (f : TR)
  | thrSra (f : TR)
  | thrAdds (f : TR)
  | thrSel (f : TR)
  | thrEx2 (f : TR)
  | thrLg2 (f : TR)
  | thrCmp (f : TRCmp)
  | thrCvt (f : TRCvt)
  | thrMovi (f : TIMov)
  | thrAddi (f : TIAdd)
  | thrVext (f : TRLane)
  | thrVbc (f : TRLane)
  | thrHdr (f : TRLane)
  | thrPld (f : TM)
  | thrPst (f : TM)
  | thrBld (f : TM)
  | thrBst (f : TM)
  | thrBamo (f : TRBamo)
  | thrBr (f : TC)
  | thrBc (f : TC)
  | thrLoopi (f : TC)
  | thrFwd (f : TC)
  | thrDrop (f : TC)
  | thrRedir (f : TC)
  | thrTrap (f : TC)
  | thrEnd (f : TC)
  -- events of the outside
  | coldStart (flashOk : Bool)
  | recoveryImageAccept (img : FwImage)
  | overtempPowerOff (temp : Int)
  | pageMadePresent (backed : Bool)
  | remoteAccess (dev : Nat) (op : RemoteOp)
  | hostWrite (tenant off : Nat) (bytes : List Byte)
  | hostRead (p : ReadPlace) (off len : Nat)
  | windowTimeout (die : Nat)
  | pendingTokenArrival (k : Nat) (reg : Reg) (value : X64)
  | park (k : Nat)
  | unpark (k : Nat)
  | kill (k : Nat)
  | resume (k : Nat)
  | changeAffinity (k : Nat) (cluster : Nat) (cores : BitVec 8)
  | tailWrite (place : TailPlace) (value : BitVec 32)
  | shootDownRequest (tenant : Nat)
  | migration (src dst len : Nat)
  | forwardedAccess (op : RemoteOp)
  | powerStep (watts : Nat) (temp : Int) (amps : Nat × Nat)
  | ownerRuntimeCreatesClaim (c : NewClaim)
  | ownerRuntimeRetiresClaim (name : ClaimName)
  | svcReply (reply : Option X64)
  | flitReceive (port origin : Nat) (crcOk : Bool)
  | portDown (port : Nat)
  | losttoExpiry (dev : Nat)
  | lossNotice (dev : Nat)
  | messageArrival (m : LinkMsg)
  | creditReturn (tenant peer k : Nat)
  | dataFrame (f : Frame)
  | ackFrame (head : FrameHead) (route seq : Nat)
  | retransmitTimeout (tenant route : Nat)
  | collMessage (m : CollMsg)
  | slotRequest (first : SlotReq) (more : List SlotReq)
  | algorithmDecision (m : DecisionMsg) (answers : List (Nat × Bool))
  | slotBeat (tenant : Nat) (key : X64) (round : Nat) (digest : BitVec 32) (b : BeatIn)
  | abortNotice (c : CollKey) (round status : Nat)
  | roundTimeout (c : CollKey)
  | thresherInvocation (spec : InvSpec)
  | kernelLoad (l : KernelLoad) (image : List Byte)
  | hookWrite (h w : Nat) (value : X64)
  | binWindowAccess (off len : Nat) (write : Option X64)
  | registerWrite (p : RegPlace) (value : X64)
  | errCounterWrite (e : Nat)
  -- events without operands
  | powerDown
  | bundleDispatch
  | icacheFill
  | fixedLatencyWrite
  | lookupFault
  | restartPointCommit
  | pickup
  | strandEnd
  | sliceExpiry
  | deschedule
  | classPreemption
  | preempt
  | contextSave
  | shootDownAck
  | qpwdogExpiry
  | lineCopy
  | colStagingDone
  | mmaRetire
  | drainComplete
  | rampDutyStep
  | arrayFeedFree
  | pwrbrkAssert
  | pwrbrkDeassert
  | pwrbrkHoldExpiry
  | quiesce
  | getVersion
  | getCapabilities
  | getDigests
  | keyExchange
  -- the other events
  | farLoadReturn (k : Nat)
  | farStorePerformed (k : Nat)
  | waitEventOccurred (k : Nat)
  | blockRead (tenant : Nat)
  | sheafRelease (k : Nat)
  | blockComplete (k : Nat)
  | chuteCommitLands (k : Nat)
  | claimShootDown (name : ClaimName)
  | recallAck (name : ClaimName) (cache : Nat)
  | claimLookup (q : ClaimAsk)
  | engineTokenWrite (k : Nat)
  | streamFetch (q : BitVec 3)
  | streamWriteback (q : BitVec 3)
  | atomicPerformed (k : Nat)
  | rickEngineApply (k : Nat)
  | idleFlit (port : Nat)
  | baleCheckpoint (die : Nat)
  | baleRestore (die : Nat)
  | balerComplete (die : Nat)
  | indomWrite (value : X64)
  | firmwareUpdate (die : Nat) (img : FwImage)
  | portRetrain (port : Nat)
  | portRetrainDone (port : Nat)
  | channelGroupRetrain (g : Nat)
  | channelGroupRetrainDone (g : Nat)
  | sensorRecalibration (die : Nat)
  | sensorRecalibrationDone (die : Nat)
  | clusterFencing (c : Nat)
  | fenceDeadline (c : Nat)
  | clusterUnfence (c : Nat)
  | tenantCreate (t : Nat)
  | tenantRemove (t : Nat)
  | negotiateAlgorithms (asym hash : Nat)
  | getCertificate (off len : Nat)
  | challenge (nonce : List Byte)
  | getMeasurements (index : Nat) (nonce : List Byte)
  | chstWrite (value : X64)
  | errinjRickStream (value : X64)
  | errinjPoisonLoad (value : X64)
  | errinjCorrected (value : X64)
  deriving DecidableEq, Repr

end Sys2Proof
end

