-- ==== Sys2Proof/Decode.lean ====
section
/-! DEFINITION. Op words (R87 to R99) and thresher words (R429 to R431): the decoder, total on any number and rejecting
by name, and the encoder written from the same tables. -/

namespace Sys2Proof

/-! ### Fields of a word -/

/-- The fields of `x`, of the given widths, from bit 0 up. -/
def unpack : List Nat → Nat → List Nat
  | [], _ => []
  | w :: ws, x => x % 2 ^ w :: unpack ws (x / 2 ^ w)

/-- The word whose fields of the given widths, from bit 0 up, hold the given values. -/
def pack : List Nat → List Nat → Nat
  | w :: ws, v :: vs => v % 2 ^ w + 2 ^ w * pack ws vs
  | _, _ => 0

/-- Field `i` of a list of fields; 0 beyond its end. -/
def fv (v : List Nat) (i : Nat) : Nat := v.getD i 0

/-- The bit number of the lowest set bit; `fuel` bounds the search. -/
def lowBit : Nat → Nat → Nat
  | 0, _ => 0
  | fuel + 1, x => if x % 2 == 1 then 0 else lowBit fuel (x / 2) + 1

/-! ### Field codes (R45, R51, R95, R429) -/

def Fmt.code : Fmt → Nat
  | .fp32 => 0 | .fp16 => 1 | .bf16 => 2 | .int8 => 3 | .int16 => 4 | .int32 => 5
  | .sx3 => 6 | .sx5 => 7 | .sx8 => 8 | .bfp64 => 9 | .raw => 31

/-- The format of a code of R45; codes 10 to 30 are reserved, and no op word that holds one decodes. -/
def Fmt.ofCode : Nat → Fmt
  | 0 => .fp32 | 1 => .fp16 | 2 => .bf16 | 3 => .int8 | 4 => .int16 | 5 => .int32
  | 6 => .sx3 | 7 => .sx5 | 8 => .sx8 | 9 => .bfp64 | _ => .raw

def Geo.code : Geo → Nat
  | .packed => 0 | .planar => 1

def Geo.ofCode (c : Nat) : Geo := if c == 1 then .planar else .packed

def RMode.code : RMode → Nat
  | .rne => 0 | .rtz => 1 | .rup => 2 | .rdn => 3 | .rna => 4 | .sr => 5

def RMode.ofCode : Nat → RMode
  | 0 => .rne | 1 => .rtz | 2 => .rup | 3 => .rdn | 4 => .rna | _ => .sr

def Rnd.code : Rnd → Nat
  | .dyn => 0
  | .mode m => 8 + m.code

def Rnd.ofCode (c : Nat) : Rnd := if c == 0 then .dyn else .mode (RMode.ofCode (c - 8))

def Scl.code : Scl → Nat
  | .none => 0 | .ls => 1 | .lsn => 2

def Scl.ofCode : Nat → Scl
  | 0 => .none | 1 => .ls | _ => .lsn

def Cond.code : Cond → Nat
  | .eq => 0 | .ne => 1 | .lt => 2 | .le => 3 | .gt => 4 | .ge => 5 | .ltu => 6 | .leu => 7 | .gtu => 8 | .geu => 9

def Cond.ofCode : Nat → Cond
  | 0 => .eq | 1 => .ne | 2 => .lt | 3 => .le | 4 => .gt | 5 => .ge | 6 => .ltu | 7 => .leu | 8 => .gtu | _ => .geu

def QSel.code : QSel → Nat
  | .none => 0 | .d => 1 | .a => 2 | .b => 3 | .c => 4

def QSel.ofCode : Nat → QSel
  | 0 => .none | 1 => .d | 2 => .a | 3 => .b | _ => .c

def Width.code : Width → Nat
  | .w8 => 0 | .w16 => 1 | .w32 => 2 | .w64 => 3

def Width.ofCode : Nat → Width
  | 0 => .w8 | 1 => .w16 | 2 => .w32 | _ => .w64

def Scope.code : Scope → Nat
  | .core => 0 | .cluster => 1 | .die => 2 | .device => 3 | .domain => 4 | .host => 5

def Scope.ofCode : Nat → Scope
  | 0 => .core | 1 => .cluster | 2 => .die | 3 => .device | 4 => .domain | _ => .host

def AmoOp.code : AmoOp → Nat
  | .add => 0 | .and => 1 | .or => 2 | .xor => 3 | .min => 4 | .max => 5 | .minu => 6 | .maxu => 7 | .swap => 8
  | .cas => 9 | .incw => 10 | .addb => 11

def AmoOp.ofCode : Nat → AmoOp
  | 0 => .add | 1 => .and | 2 => .or | 3 => .xor | 4 => .min | 5 => .max | 6 => .minu | 7 => .maxu | 8 => .swap
  | 9 => .cas | 10 => .incw | _ => .addb

def RedOp.code : RedOp → Nat
  | .add => 0 | .fadd32 => 1 | .min => 2 | .max => 3 | .minu => 4 | .maxu => 5 | .and => 6 | .or => 7 | .xor => 8
  | .bfpadd => 9

def RedOp.ofCode : Nat → RedOp
  | 0 => .add | 1 => .fadd32 | 2 => .min | 3 => .max | 4 => .minu | 5 => .maxu | 6 => .and | 7 => .or | 8 => .xor
  | _ => .bfpadd

def ClaimType.code : ClaimType → Nat
  | .tensor => 1 | .rick => 2 | .chute => 3 | .group => 4 | .queue => 5 | .strand => 6 | .kernel => 7 | .bins => 8
  | .lease => 9 | .coll => 10 | .cword => 11

def ClaimType.ofCode : Nat → ClaimType
  | 1 => .tensor | 2 => .rick | 3 => .chute | 4 => .group | 5 => .queue | 6 => .strand | 7 => .kernel | 8 => .bins
  | 9 => .lease | 10 => .coll | _ => .cword

def Dir.code : Dir → Nat
  | .rd => 0 | .wr => 1

def Dir.ofCode (c : Nat) : Dir := if c == 0 then .rd else .wr

/-- KIND: bit 0 SO, bit 1 RC, bit 2 UN (R94). -/
def Kinds.code (k : Kinds) : Nat := k.so.toNat + 2 * k.rc.toNat + 4 * k.un.toNat

def Kinds.ofCode (c : Nat) : Kinds := ⟨c % 2 == 1, c / 2 % 2 == 1, c / 4 % 2 == 1⟩

/-- Bits 15:0 of a C-slot op (R94). -/
def Ctl.code (c : Ctl) : Nat :=
  pack [4, 1, 1, 1, 1, 8] [c.stall.toNat, c.mark.toNat, c.qp.toNat, c.hwin.toNat, c.chk.toNat, c.realign.toNat]

def Ctl.ofCode (x : Nat) : Ctl :=
  let v := unpack [4, 1, 1, 1, 1, 8] x
  { stall := BitVec.ofNat _ (fv v 0), mark := fv v 1 == 1, qp := fv v 2 == 1, hwin := fv v 3 == 1, chk := fv v 4 == 1,
    realign := BitVec.ofNat _ (fv v 5) }

def TType.code : TType → Nat
  | .int32 => 0 | .fp32 => 1 | .bf16 => 2

def TType.ofCode : Nat → TType
  | 0 => .int32 | 1 => .fp32 | _ => .bf16

def BamoOp.code : BamoOp → Nat
  | .add => 0 | .min => 1 | .max => 2 | .minu => 3 | .maxu => 4 | .swap => 5 | .fadd32 => 6 | .and => 7 | .or => 8
  | .xor => 9

def BamoOp.ofCode : Nat → BamoOp
  | 0 => .add | 1 => .min | 2 => .max | 3 => .minu | 4 => .maxu | 5 => .swap | 6 => .fadd32 | 7 => .and | 8 => .or
  | _ => .xor

/-! ### What a field may hold -/

/-- What an op accepts in a field: `no` is a field the op does not use (R88). -/
inductive Use where
  | no
  | any
  | lt (n : Nat)
  | range (lo hi : Nat)
  | oneOf (l : List Nat)
  deriving DecidableEq, Repr

/-- Whether a used field accepts the value; an unused field accepts 0 alone. -/
def Use.accepts : Use → Nat → Bool
  | .no, v => v == 0
  | .any, _ => true
  | .lt n, v => decide (v < n)
  | .range lo hi, v => decide (lo ≤ v) && decide (v < hi)
  | .oneOf l, v => l.contains v

/-- The checks between fields of one word. -/
inductive Cross where
  | rndInt (t rnd lo : Nat)
  | rndRaw (t rnd lo : Nat)
  | sclInt
  | vcvtTypes
  | condFloat
  | bitRange
  | immBelow (n : Nat)
  | immWidth
  | qDest (q d : Nat)
  | qRange
  | storeMods (t rnd sat scl : Nat)
  | amoForm
  | redForm
  | geoForm
  | bzScalar (s bz : Nat)
  | cvtDistinct
  | thrCond
  deriving DecidableEq, Repr

def isIntOrBlock (t : Nat) : Bool := decide (3 ≤ t) && decide (t ≤ 9)

def isIntCode (t : Nat) : Bool := decide (3 ≤ t) && decide (t ≤ 5)

def isSxCode (t : Nat) : Bool := decide (6 ≤ t) && decide (t ≤ 8)

/-- The lowest bits of the fields that a check between fields refuses (R97, R99): RND with an integer or block type
(R97, R107), SCL with two integer types (R118), the type pairs of VCVT (R127), float conditions (R124), B + C + 1 > 64
(R114), immediates out of range (R90), register numbers beyond the stream registers (R92, R109), the modifiers of
stores (R234) and copies (R283), the widths of AMO and RED (R297, R302), PLANAR without SX (R45), BZ with S = 1, and
equal types of CVT (R431), unsigned conditions of a thresher's float compare (R434). -/
def Cross.faults (c : Cross) (v : List Nat) : List Nat :=
  match c with
  | .rndInt t rnd lo => if isIntOrBlock (fv v t) && fv v rnd != 0 then [lo] else []
  | .rndRaw t rnd lo =>
    (if (isIntOrBlock (fv v t) || fv v t == 31) && fv v rnd != 0 then [lo] else []) ++ (if fv v t == 31 && fv v 1 != 0 then [13] else [])
  | .sclInt => if isIntCode (fv v 6) && isIntCode (fv v 5) && fv v 2 != 0 then [7] else []
  | .vcvtTypes =>
    if isSxCode (fv v 5) || (isSxCode (fv v 6) && fv v 5 != 0 && fv v 5 != 31) then [14] else []
  | .condFloat => if decide (fv v 6 < 3) && decide (6 ≤ fv v 1) then [3] else []
  | .bitRange => if fv v 9 + fv v 8 + 1 > 64 then [28] else []
  | .immBelow n => if fv v 0 < n then [] else [0]
  | .immWidth =>
    if fv v 0 < 2 ^ (if fv v 2 == 3 then 8 else if fv v 2 == 1 || fv v 2 == 2 || fv v 2 == 4 then 16 else 32) then [] else [0]
  | .qDest q d => if fv v q == 1 && decide (7 < fv v d) then [46] else []
  | .qRange =>
    match fv v 0 with
    | 1 => if 7 < fv v 11 then [46] else []
    | 2 => if 7 < fv v 10 then [40] else []
    | 3 => if 7 < fv v 9 then [34] else []
    | 4 => if 7 < fv v 8 then [28] else []
    | _ => []
  | .storeMods t rnd sat scl =>
    if isIntOrBlock (fv v t) || fv v t == 31 then
      (if fv v scl != 0 then [24] else []) ++ (if !isIntCode (fv v t) && fv v sat != 0 then [26] else []) ++
        (if fv v rnd != 0 then [27] else [])
    else []
  | .amoForm =>
    (if fv v 1 < 2 then [6] else []) ++ (if fv v 2 != 9 && fv v 2 != 11 && fv v 4 != 0 then [28] else [])
  | .redForm =>
    if fv v 2 == 1 then (if fv v 1 == 2 then [] else [6])
    else if fv v 2 == 9 then (if fv v 1 == 3 then [] else [6])
    else if fv v 1 < 2 then [6] else []
  | .geoForm => if fv v 1 == 1 && !isSxCode (fv v 2) then [26] else []
  | .bzScalar s bz => if fv v s == 1 && fv v bz == 1 then [6] else []
  | .cvtDistinct => if fv v 1 == fv v 4 then [4] else []
  | .thrCond => if fv v 4 != 0 && decide (6 ≤ fv v 0) then [0] else []

/-- One row of the tables of R97 and R431: the widths of the format's fields from bit 0 up, what the op accepts in
each, the checks between them, and the op they stand for. -/
structure OpRow where
  widths : List Nat
  uses : List Use
  cross : List Cross
  build : List Nat → Instr

/-- The lowest offending bits of the fields from bit `lo` up (R99). -/
def fieldFaults : List Nat → List Use → List Nat → Nat → List Nat
  | w :: ws, u :: us, v :: vs, lo =>
    let rest := fieldFaults ws us vs (lo + w)
    if u.accepts v then rest else (if u = .no then lo + lowBit w v else lo) :: rest
  | _, _, _, _ => []

/-- The least of a list. -/
def leastOf : List Nat → Option Nat
  | [] => none
  | x :: xs => match leastOf xs with
    | none => some x
    | some y => some (min x y)

/-- The bit that R99 reports for a word's fields, if any. -/
def OpRow.fault (r : OpRow) (x : Nat) : Option Nat :=
  let v := unpack r.widths x
  leastOf (fieldFaults r.widths r.uses v 0 ++ (r.cross.map (fun c => c.faults v)).flatten)

/-- Why a word is not an op: an unallocated opcode, a field, or an op word with no legal slot structure. -/
inductive Reject where
  | opcode
  | field (bit : Nat)
  deriving DecidableEq, Repr

/-! ### The formats -/

abbrev no : Use := .no
abbrev any : Use := .any

/-- The fields of format RG from bit 0 up. -/
def RG.widths : List Nat := [3, 4, 2, 1, 4, 5, 5, 4, 6, 6, 6, 6]

def RG.ofFields (v : List Nat) : RG :=
  { d := BitVec.ofNat _ (fv v 11), a := BitVec.ofNat _ (fv v 10), b := BitVec.ofNat _ (fv v 9),
    c := BitVec.ofNat _ (fv v 8), g := BitVec.ofNat _ (fv v 7), t := Fmt.ofCode (fv v 6),
    t2 := Fmt.ofCode (fv v 5), rnd := Rnd.ofCode (fv v 4), sat := (fv v 3) == 1, scl := Scl.ofCode (fv v 2),
    cond := Cond.ofCode (fv v 1), qsel := QSel.ofCode (fv v 0) }

def RG.fields (f : RG) : List Nat :=
  [f.qsel.code, f.cond.code, f.scl.code, f.sat.toNat, f.rnd.code, f.t2.code, f.t.code, f.g.toNat, f.c.toNat, f.b.toNat, f.a.toNat, f.d.toNat]

/-- The fields of format IM from bit 0 up. -/
def IM.widths : List Nat := [40, 6, 6]

def IM.ofFields (v : List Nat) : IM :=
  { d := BitVec.ofNat _ (fv v 2), a := BitVec.ofNat _ (fv v 1), imm := BitVec.ofNat _ (fv v 0) }

def IM.fields (f : IM) : List Nat :=
  [f.imm.toNat, f.a.toNat, f.d.toNat]

/-- The fields of format MW from bit 0 up. -/
def MW.widths : List Nat := [46, 6]

def MW.ofFields (v : List Nat) : MW :=
  { d := BitVec.ofNat _ (fv v 1), imm := BitVec.ofNat _ (fv v 0) }

def MW.fields (f : MW) : List Nat :=
  [f.imm.toNat, f.d.toNat]

/-- The fields of format BRF from bit 0 up. -/
def BRF.widths : List Nat := [42, 4, 6]

def BRF.ofFields (v : List Nat) : BRF :=
  { d := BitVec.ofNat _ (fv v 2), cond := Cond.ofCode (fv v 1), off := BitVec.ofNat _ (fv v 0) }

def BRF.fields (f : BRF) : List Nat :=
  [f.off.toNat, f.cond.code, f.d.toNat]

/-- The fields of format RP from bit 0 up. -/
def RP.widths : List Nat := [32, 13, 7]

def RP.ofFields (v : List Nat) : RP :=
  { n := BitVec.ofNat _ (fv v 2), cnt := BitVec.ofNat _ (fv v 1) }

def RP.fields (f : RP) : List Nat :=
  [0, f.cnt.toNat, f.n.toNat]

/-- The fields of format VI from bit 0 up. -/
def VI.widths : List Nat := [32, 5, 5, 4, 6]

def VI.ofFields (v : List Nat) : VI :=
  { d := BitVec.ofNat _ (fv v 4), g := BitVec.ofNat _ (fv v 3), t := Fmt.ofCode (fv v 2),
    imm := BitVec.ofNat _ (fv v 0) }

def VI.fields (f : VI) : List Nat :=
  [f.imm.toNat, 0, f.t.code, f.g.toNat, f.d.toNat]

/-- The fields of format MM from bit 0 up. -/
def MM.widths : List Nat := [32, 6, 1, 1, 4, 3, 3, 2]

def MM.ofFields (v : List Nat) : MM :=
  { acc := BitVec.ofNat _ (fv v 7), cha := BitVec.ofNat _ (fv v 6), chb := BitVec.ofNat _ (fv v 5),
    t := Fmt.ofCode (fv v 4), oa := (fv v 3) == 1, ob := (fv v 2) == 1, kq := BitVec.ofNat _ (fv v 1),
    pat := BitVec.ofNat _ (fv v 0) }

def MM.fields (f : MM) : List Nat :=
  [f.pat.toNat, f.kq.toNat, f.ob.toNat, f.oa.toNat, f.t.code, f.chb.toNat, f.cha.toNat, f.acc.toNat]

/-- The fields of format MX from bit 0 up. -/
def MX.widths : List Nat := [32, 2, 1, 4, 5, 6, 2]

def MX.ofFields (v : List Nat) : MX :=
  { acc := BitVec.ofNat _ (fv v 6), a := BitVec.ofNat _ (fv v 5), t := Fmt.ofCode (fv v 4),
    rnd := Rnd.ofCode (fv v 3), sat := (fv v 2) == 1, scl := Scl.ofCode (fv v 1) }

def MX.fields (f : MX) : List Nat :=
  [0, f.scl.code, f.sat.toNat, f.rnd.code, f.t.code, f.a.toNat, f.acc.toNat]

/-- The fields of format MXE from bit 0 up. -/
def MXE.widths : List Nat := [38, 6, 6, 2]

def MXE.ofFields (v : List Nat) : MXE :=
  { a := BitVec.ofNat _ (fv v 2), n := BitVec.ofNat _ (fv v 1) }

def MXE.fields (f : MXE) : List Nat :=
  [0, f.n.toNat, f.a.toNat, 0]

/-- The fields of format MS from bit 0 up. -/
def MS.widths : List Nat := [32, 4, 1, 1, 2, 6, 6]

def MS.ofFields (v : List Nat) : MS :=
  { d := BitVec.ofNat _ (fv v 6), a := BitVec.ofNat _ (fv v 5), w := Width.ofCode (fv v 4),
    u := (fv v 3) == 1, ord := (fv v 2) == 1, off := BitVec.ofNat _ (fv v 0) }

def MS.fields (f : MS) : List Nat :=
  [f.off.toNat, 0, f.ord.toNat, f.u.toNat, f.w.code, f.a.toNat, f.d.toNat]

/-- The fields of format MV from bit 0 up. -/
def MV.widths : List Nat := [22, 1, 1, 2, 1, 4, 5, 4, 6, 6]

def MV.ofFields (v : List Nat) : MV :=
  { d := BitVec.ofNat _ (fv v 9), a := BitVec.ofNat _ (fv v 8), g := BitVec.ofNat _ (fv v 7),
    t := Fmt.ofCode (fv v 6), rnd := Rnd.ofCode (fv v 5), sat := (fv v 4) == 1, scl := Scl.ofCode (fv v 3),
    ord := (fv v 2) == 1, q := (fv v 1) == 1, off := BitVec.ofNat _ (fv v 0) }

def MV.fields (f : MV) : List Nat :=
  [f.off.toNat, f.q.toNat, f.ord.toNat, f.scl.code, f.sat.toNat, f.rnd.code, f.t.code, f.g.toNat, f.a.toNat, f.d.toNat]

/-- The fields of format MVX from bit 0 up. -/
def MVX.widths : List Nat := [16, 6, 1, 1, 2, 1, 4, 5, 4, 6, 6]

def MVX.ofFields (v : List Nat) : MVX :=
  { d := BitVec.ofNat _ (fv v 10), a := BitVec.ofNat _ (fv v 9), g := BitVec.ofNat _ (fv v 8),
    t := Fmt.ofCode (fv v 7), rnd := Rnd.ofCode (fv v 6), sat := (fv v 5) == 1, scl := Scl.ofCode (fv v 4),
    q := (fv v 2) == 1, b := BitVec.ofNat _ (fv v 1), off := BitVec.ofNat _ (fv v 0) }

def MVX.fields (f : MVX) : List Nat :=
  [f.off.toNat, f.b.toNat, f.q.toNat, 0, f.scl.code, f.sat.toNat, f.rnd.code, f.t.code, f.g.toNat, f.a.toNat, f.d.toNat]

/-- The fields of format LF from bit 0 up. -/
def LF.widths : List Nat := [26, 3, 5, 6, 6, 6]

def LF.ofFields (v : List Nat) : LF :=
  { a := BitVec.ofNat _ (fv v 4), b := BitVec.ofNat _ (fv v 3), t := Fmt.ofCode (fv v 2),
    geo := Geo.ofCode (fv v 1) }

def LF.fields (f : LF) : List Nat :=
  [0, f.geo.code, f.t.code, f.b.toNat, f.a.toNat, 0]

/-- The fields of format EA from bit 0 up. -/
def EA.widths : List Nat := [24, 4, 6, 6, 6, 6]

def EA.ofFields (v : List Nat) : EA :=
  { d := BitVec.ofNat _ (fv v 5), a := BitVec.ofNat _ (fv v 4), b := BitVec.ofNat _ (fv v 3),
    c := BitVec.ofNat _ (fv v 2), h := BitVec.ofNat _ (fv v 1) }

def EA.fields (f : EA) : List Nat :=
  [0, f.h.toNat, f.c.toNat, f.b.toNat, f.a.toNat, f.d.toNat]

/-- The fields of format EACopy from bit 0 up. -/
def EACopy.widths : List Nat := [13, 2, 4, 5, 4, 6, 6, 6, 6]

def EACopy.ofFields (v : List Nat) : EACopy :=
  { d := BitVec.ofNat _ (fv v 8), a := BitVec.ofNat _ (fv v 7), b := BitVec.ofNat _ (fv v 6),
    c := BitVec.ofNat _ (fv v 5), t := Fmt.ofCode (fv v 3), rnd := Rnd.ofCode (fv v 2),
    scl := Scl.ofCode (fv v 1) }

def EACopy.fields (f : EACopy) : List Nat :=
  [0, f.scl.code, f.rnd.code, f.t.code, 0, f.c.toNat, f.b.toNat, f.a.toNat, f.d.toNat]

/-- The fields of format EAStrb from bit 0 up. -/
def EAStrb.widths : List Nat := [8, 5, 11, 4, 12, 6, 6]

def EAStrb.ofFields (v : List Nat) : EAStrb :=
  { a := BitVec.ofNat _ (fv v 5), h := BitVec.ofNat _ (fv v 3), dir := Dir.ofCode (fv v 1) }

def EAStrb.fields (f : EAStrb) : List Nat :=
  [0, f.dir.code, 0, f.h.toNat, 0, f.a.toNat, 0]

/-- The fields of format EAPush from bit 0 up. -/
def EAPush.widths : List Nat := [3, 9, 1, 2, 4, 5, 4, 6, 6, 6, 6]

def EAPush.ofFields (v : List Nat) : EAPush :=
  { d := BitVec.ofNat _ (fv v 10), a := BitVec.ofNat _ (fv v 9), b := BitVec.ofNat _ (fv v 8),
    h := BitVec.ofNat _ (fv v 6), t := Fmt.ofCode (fv v 5), scl := Scl.ofCode (fv v 3),
    skip := (fv v 2) == 1, len := BitVec.ofNat _ (fv v 1) }

def EAPush.fields (f : EAPush) : List Nat :=
  [0, f.len.toNat, f.skip.toNat, f.scl.code, 0, f.t.code, f.h.toNat, 0, f.b.toNat, f.a.toNat, f.d.toNat]

/-- The fields of format EAAmo from bit 0 up. -/
def EAAmo.widths : List Nat := [6, 2, 5, 15, 6, 6, 6, 6]

def EAAmo.ofFields (v : List Nat) : EAAmo :=
  { d := BitVec.ofNat _ (fv v 7), a := BitVec.ofNat _ (fv v 6), b := BitVec.ofNat _ (fv v 5),
    c := BitVec.ofNat _ (fv v 4), op := AmoOp.ofCode (fv v 2), w := Width.ofCode (fv v 1) }

def EAAmo.fields (f : EAAmo) : List Nat :=
  [0, f.w.code, f.op.code, 0, f.c.toNat, f.b.toNat, f.a.toNat, f.d.toNat]

/-- The fields of format EARed from bit 0 up. -/
def EARed.widths : List Nat := [6, 2, 5, 21, 6, 6, 6]

def EARed.ofFields (v : List Nat) : EARed :=
  { a := BitVec.ofNat _ (fv v 5), b := BitVec.ofNat _ (fv v 4), op := RedOp.ofCode (fv v 2),
    w := Width.ofCode (fv v 1) }

def EARed.fields (f : EARed) : List Nat :=
  [0, f.w.code, f.op.code, 0, f.b.toNat, f.a.toNat, 0]

/-- The fields of format EAClaim from bit 0 up. -/
def EAClaim.widths : List Nat := [8, 5, 11, 4, 6, 6, 6, 6]

def EAClaim.ofFields (v : List Nat) : EAClaim :=
  { d := BitVec.ofNat _ (fv v 7), a := BitVec.ofNat _ (fv v 6), b := BitVec.ofNat _ (fv v 5),
    h := BitVec.ofNat _ (fv v 3), ty := ClaimType.ofCode (fv v 1) }

def EAClaim.fields (f : EAClaim) : List Nat :=
  [0, f.ty.code, 0, f.h.toNat, 0, f.b.toNat, f.a.toNat, f.d.toNat]

/-- The fields of format EACasn from bit 0 up. -/
def EACasn.widths : List Nat := [8, 1, 15, 4, 6, 6, 6, 6]

def EACasn.ofFields (v : List Nat) : EACasn :=
  { d := BitVec.ofNat _ (fv v 7), a := BitVec.ofNat _ (fv v 6), b := BitVec.ofNat _ (fv v 5),
    h := BitVec.ofNat _ (fv v 3), live := (fv v 1) == 1 }

def EACasn.fields (f : EACasn) : List Nat :=
  [0, f.live.toNat, 0, f.h.toNat, 0, f.b.toNat, f.a.toNat, f.d.toNat]

/-- The fields of format CG from bit 0 up. -/
def CG.widths : List Nat := [16, 18, 6, 6, 6]

def CG.ofFields (v : List Nat) : CG :=
  { d := BitVec.ofNat _ (fv v 4), a := BitVec.ofNat _ (fv v 3), b := BitVec.ofNat _ (fv v 2),
    ctl := Ctl.ofCode (fv v 0) }

def CG.fields (f : CG) : List Nat :=
  [f.ctl.code, 0, f.b.toNat, f.a.toNat, f.d.toNat]

/-- The fields of format CGFence from bit 0 up. -/
def CGFence.widths : List Nat := [16, 3, 3, 30]

def CGFence.ofFields (v : List Nat) : CGFence :=
  { scope := Scope.ofCode (fv v 2), kinds := Kinds.ofCode (fv v 1), ctl := Ctl.ofCode (fv v 0) }

def CGFence.fields (f : CGFence) : List Nat :=
  [f.ctl.code, f.kinds.code, f.scope.code, 0]

/-- The fields of format CGCode from bit 0 up. -/
def CGCode.widths : List Nat := [16, 16, 8, 6, 6]

def CGCode.ofFields (v : List Nat) : CGCode :=
  { d := BitVec.ofNat _ (fv v 4), a := BitVec.ofNat _ (fv v 3), code := BitVec.ofNat _ (fv v 1),
    ctl := Ctl.ofCode (fv v 0) }

def CGCode.fields (f : CGCode) : List Nat :=
  [f.ctl.code, f.code.toNat, 0, f.a.toNat, f.d.toNat]

/-- The fields of format CGSr from bit 0 up. -/
def CGSr.widths : List Nat := [16, 12, 12, 6, 6]

def CGSr.ofFields (v : List Nat) : CGSr :=
  { d := BitVec.ofNat _ (fv v 4), a := BitVec.ofNat _ (fv v 3), srn := BitVec.ofNat _ (fv v 1),
    ctl := Ctl.ofCode (fv v 0) }

def CGSr.fields (f : CGSr) : List Nat :=
  [f.ctl.code, f.srn.toNat, 0, f.a.toNat, f.d.toNat]

/-- The system register numbers of R474. -/
def srns : List Nat :=
  [0, 1, 2, 3, 4, 5, 6, 7, 8, 9, 10, 11, 12, 13, 14, 15, 16, 17, 18, 19, 20, 21, 22, 23, 24, 32, 33, 34, 35, 36, 37, 38, 39, 48, 49, 50, 51, 52, 53, 54, 55, 56, 57, 58, 59]

/-! ### The opcode map -/

/-- Slot S (R96, R97). -/
def sRow : Nat → Option OpRow
  | 0x00 => some ⟨RG.widths, [no, no, no, no, no, no, no, no, no, any, any, any],
      [], fun v => .add (RG.ofFields v)⟩
  | 0x01 => some ⟨IM.widths, [any, any, any],
      [], fun v => .addi (IM.ofFields v)⟩
  | 0x02 => some ⟨RG.widths, [no, no, no, no, no, no, no, no, no, any, any, any],
      [], fun v => .sub (RG.ofFields v)⟩
  | 0x03 => some ⟨RG.widths, [no, no, no, no, no, no, no, no, no, any, any, any],
      [], fun v => .mul (RG.ofFields v)⟩
  | 0x04 => some ⟨RG.widths, [no, no, no, no, no, no, no, no, no, any, any, any],
      [], fun v => .mulh (RG.ofFields v)⟩
  | 0x05 => some ⟨RG.widths, [no, no, no, no, no, no, no, no, no, any, any, any],
      [], fun v => .mulhu (RG.ofFields v)⟩
  | 0x06 => some ⟨RG.widths, [no, no, no, no, no, no, no, no, no, any, any, any],
      [], fun v => .div (RG.ofFields v)⟩
  | 0x07 => some ⟨RG.widths, [no, no, no, no, no, no, no, no, no, any, any, any],
      [], fun v => .divu (RG.ofFields v)⟩
  | 0x08 => some ⟨RG.widths, [no, no, no, no, no, no, no, no, no, any, any, any],
      [], fun v => .rem (RG.ofFields v)⟩
  | 0x09 => some ⟨RG.widths, [no, no, no, no, no, no, no, no, no, any, any, any],
      [], fun v => .remu (RG.ofFields v)⟩
  | 0x0A => some ⟨RG.widths, [no, no, no, no, no, no, no, no, no, any, any, any],
      [], fun v => .and (RG.ofFields v)⟩
  | 0x0B => some ⟨IM.widths, [any, any, any],
      [], fun v => .andi (IM.ofFields v)⟩
  | 0x0C => some ⟨RG.widths, [no, no, no, no, no, no, no, no, no, any, any, any],
      [], fun v => .or (RG.ofFields v)⟩
  | 0x0D => some ⟨IM.widths, [any, any, any],
      [], fun v => .ori (IM.ofFields v)⟩
  | 0x0E => some ⟨RG.widths, [no, no, no, no, no, no, no, no, no, any, any, any],
      [], fun v => .xor (RG.ofFields v)⟩
  | 0x0F => some ⟨IM.widths, [any, any, any],
      [], fun v => .xori (IM.ofFields v)⟩
  | 0x10 => some ⟨RG.widths, [no, no, no, no, no, no, no, no, no, any, any, any],
      [], fun v => .shl (RG.ofFields v)⟩
  | 0x11 => some ⟨RG.widths, [no, no, no, no, no, no, no, no, no, any, any, any],
      [], fun v => .shr (RG.ofFields v)⟩
  | 0x12 => some ⟨RG.widths, [no, no, no, no, no, no, no, no, no, any, any, any],
      [], fun v => .sra (RG.ofFields v)⟩
  | 0x13 => some ⟨IM.widths, [any, any, any],
      [.immBelow 64], fun v => .shli (IM.ofFields v)⟩
  | 0x14 => some ⟨IM.widths, [any, any, any],
      [.immBelow 64], fun v => .shri (IM.ofFields v)⟩
  | 0x15 => some ⟨IM.widths, [any, any, any],
      [.immBelow 64], fun v => .srai (IM.ofFields v)⟩
  | 0x16 => some ⟨RG.widths, [no, no, no, no, no, no, no, no, no, any, any, any],
      [], fun v => .rotr (RG.ofFields v)⟩
  | 0x17 => some ⟨RG.widths, [no, no, no, no, no, no, no, no, no, no, any, any],
      [], fun v => .clz (RG.ofFields v)⟩
  | 0x18 => some ⟨RG.widths, [no, no, no, no, no, no, no, no, no, no, any, any],
      [], fun v => .popc (RG.ofFields v)⟩
  | 0x19 => some ⟨RG.widths, [no, no, no, no, no, no, no, no, no, any, any, any],
      [], fun v => .min (RG.ofFields v)⟩
  | 0x1A => some ⟨RG.widths, [no, no, no, no, no, no, no, no, no, any, any, any],
      [], fun v => .max (RG.ofFields v)⟩
  | 0x1B => some ⟨RG.widths, [no, no, no, no, no, no, no, no, no, any, any, any],
      [], fun v => .minu (RG.ofFields v)⟩
  | 0x1C => some ⟨RG.widths, [no, no, no, no, no, no, no, no, no, any, any, any],
      [], fun v => .maxu (RG.ofFields v)⟩
  | 0x1D => some ⟨RG.widths, [no, .lt 10, no, no, no, no, no, no, no, any, any, any],
      [], fun v => .cmp (RG.ofFields v)⟩
  | 0x1E => some ⟨RG.widths, [no, no, no, no, no, no, no, no, any, any, any, any],
      [], fun v => .sel (RG.ofFields v)⟩
  | 0x1F => some ⟨RG.widths, [no, no, no, no, no, no, no, no, any, any, any, any],
      [.bitRange], fun v => .extr (RG.ofFields v)⟩
  | 0x20 => some ⟨RG.widths, [no, no, no, no, no, no, no, no, any, any, any, any],
      [.bitRange], fun v => .insr (RG.ofFields v)⟩
  | 0x21 => some ⟨MW.widths, [any, any],
      [], fun v => .movi (MW.ofFields v)⟩
  | 0x22 => some ⟨MW.widths, [any, any],
      [.immBelow (2 ^ 18)], fun v => .movhi (MW.ofFields v)⟩
  | 0x30 => some ⟨RG.widths,
      [no, no, no, any, .oneOf [0, 8, 9, 10, 11, 12, 13], no, .oneOf [0, 1, 2, 31], no, no, any, any, any],
      [.rndInt 6 4 10], fun v => .fadd (RG.ofFields v)⟩
  | 0x31 => some ⟨RG.widths,
      [no, no, no, any, .oneOf [0, 8, 9, 10, 11, 12, 13], no, .oneOf [0, 1, 2, 31], no, no, any, any, any],
      [.rndInt 6 4 10], fun v => .fsub (RG.ofFields v)⟩
  | 0x32 => some ⟨RG.widths,
      [no, no, no, any, .oneOf [0, 8, 9, 10, 11, 12, 13], no, .oneOf [0, 1, 2, 31], no, no, any, any, any],
      [.rndInt 6 4 10], fun v => .fmul (RG.ofFields v)⟩
  | 0x33 => some ⟨RG.widths,
      [no, no, no, any, .oneOf [0, 8, 9, 10, 11, 12, 13], no, .oneOf [0, 1, 2, 31], no, any, any, any, any],
      [.rndInt 6 4 10], fun v => .ffma (RG.ofFields v)⟩
  | 0x34 => some ⟨RG.widths,
      [no, no, no, any, .oneOf [0, 8, 9, 10, 11, 12, 13], no, .oneOf [0, 1, 2, 31], no, no, any, any, any],
      [.rndInt 6 4 10], fun v => .fmin (RG.ofFields v)⟩
  | 0x35 => some ⟨RG.widths,
      [no, no, no, any, .oneOf [0, 8, 9, 10, 11, 12, 13], no, .oneOf [0, 1, 2, 31], no, no, any, any, any],
      [.rndInt 6 4 10], fun v => .fmax (RG.ofFields v)⟩
  | 0x36 => some ⟨RG.widths, [no, .lt 6, no, no, no, no, .oneOf [0, 1, 2, 31], no, no, any, any, any],
      [], fun v => .fcmp (RG.ofFields v)⟩
  | 0x37 => some ⟨RG.widths,
      [no, no, .lt 3, any, .oneOf [0, 8, 9, 10, 11, 12, 13], .oneOf [0, 1, 2, 3, 4, 5, 31], .oneOf [0, 1, 2, 3, 4, 5, 31], no, no, no, any, any],
      [.rndInt 6 4 10, .sclInt], fun v => .fcvt (RG.ofFields v)⟩
  | 0x40 => some ⟨BRF.widths, [any, no, no],
      [], fun v => .br (BRF.ofFields v)⟩
  | 0x41 => some ⟨BRF.widths, [any, .lt 10, any],
      [], fun v => .bc (BRF.ofFields v)⟩
  | 0x42 => some ⟨BRF.widths, [any, no, any],
      [], fun v => .brl (BRF.ofFields v)⟩
  | 0x43 => some ⟨BRF.widths, [any, no, any],
      [], fun v => .call (BRF.ofFields v)⟩
  | 0x44 => some ⟨RG.widths, [no, no, no, no, no, no, no, no, no, no, any, no],
      [], fun v => .ret (RG.ofFields v)⟩
  | 0x45 => some ⟨RG.widths, [no, no, no, no, no, no, no, no, no, no, any, any],
      [], fun v => .jmpx (RG.ofFields v)⟩
  | 0x46 => some ⟨RP.widths, [no, any, any],
      [], fun v => .rep (RP.ofFields v)⟩
  | 0x47 => some ⟨RP.widths, [no, no, any],
      [], fun v => .loopb (RP.ofFields v)⟩
  | _ => none

/-- Slot VA and VB (R96, R97). -/
def vRow : Nat → Option OpRow
  | 0x00 => some ⟨RG.widths,
      [.oneOf [0, 1, 2, 3], no, no, no, .oneOf [0, 8, 9, 10, 11, 12, 13], no, .oneOf [0, 1, 2, 3, 4, 5, 31], any, no, any, any, any],
      [.rndInt 6 4 10, .qRange], fun v => .vadd (RG.ofFields v)⟩
  | 0x01 => some ⟨RG.widths,
      [.oneOf [0, 1, 2, 3], no, no, no, .oneOf [0, 8, 9, 10, 11, 12, 13], no, .oneOf [0, 1, 2, 3, 4, 5, 31], any, no, any, any, any],
      [.rndInt 6 4 10, .qRange], fun v => .vsub (RG.ofFields v)⟩
  | 0x02 => some ⟨RG.widths, [.oneOf [0, 1, 2, 3], no, no, no, no, no, .oneOf [3, 4, 5, 31], any, no, any, any, any],
      [.qRange], fun v => .vadds (RG.ofFields v)⟩
  | 0x03 => some ⟨RG.widths, [.oneOf [0, 1, 2, 3], no, no, no, no, no, .oneOf [3, 4, 5, 31], any, no, any, any, any],
      [.qRange], fun v => .vsubs (RG.ofFields v)⟩
  | 0x04 => some ⟨RG.widths,
      [.oneOf [0, 1, 2, 3], no, no, no, .oneOf [0, 8, 9, 10, 11, 12, 13], no, .oneOf [0, 1, 2, 3, 4, 5, 31], any, no, any, any, any],
      [.rndInt 6 4 10, .qRange], fun v => .vmul (RG.ofFields v)⟩
  | 0x05 => some ⟨RG.widths, [.oneOf [0, 1, 2, 3], no, no, no, no, no, .oneOf [3, 4, 5, 31], any, no, any, any, any],
      [.qRange], fun v => .vmulh (RG.ofFields v)⟩
  | 0x06 => some ⟨RG.widths, [.oneOf [0, 1, 2, 3], no, no, no, no, no, .oneOf [3, 4, 5, 31], any, no, any, any, any],
      [.qRange], fun v => .vmulw (RG.ofFields v)⟩
  | 0x07 => some ⟨RG.widths, [.oneOf [0, 2, 3], no, no, no, no, no, .oneOf [3, 4, 31], any, no, any, any, any],
      [.qRange], fun v => .vmacw (RG.ofFields v)⟩
  | 0x08 => some ⟨RG.widths,
      [.oneOf [0, 1, 2, 3, 4], no, no, no, .oneOf [0, 8, 9, 10, 11, 12, 13], no, .oneOf [0, 1, 2, 31], any, any, any, any, any],
      [.rndInt 6 4 10, .qRange], fun v => .vfma (RG.ofFields v)⟩
  | 0x09 => some ⟨RG.widths,
      [.oneOf [0, 1, 2, 3, 4], no, no, no, .oneOf [0, 8, 9, 10, 11, 12, 13], no, .oneOf [0, 1, 2, 31], any, any, any, any, any],
      [.rndInt 6 4 10, .qRange], fun v => .vfms (RG.ofFields v)⟩
  | 0x0A => some ⟨RG.widths,
      [.oneOf [0, 1, 2], no, no, no, .oneOf [0, 8, 9, 10, 11, 12, 13], no, .oneOf [0, 1, 2, 3, 4, 5, 31], any, no, no, any, any],
      [.rndInt 6 4 10, .qRange], fun v => .vneg (RG.ofFields v)⟩
  | 0x0B => some ⟨RG.widths,
      [.oneOf [0, 1, 2], no, no, no, .oneOf [0, 8, 9, 10, 11, 12, 13], no, .oneOf [0, 1, 2, 3, 4, 5, 31], any, no, no, any, any],
      [.rndInt 6 4 10, .qRange], fun v => .vabs (RG.ofFields v)⟩
  | 0x0C => some ⟨RG.widths,
      [.oneOf [0, 1, 2, 3], no, no, no, .oneOf [0, 8, 9, 10, 11, 12, 13], no, .oneOf [0, 1, 2, 3, 4, 5, 31], any, no, any, any, any],
      [.rndInt 6 4 10, .qRange], fun v => .vmin (RG.ofFields v)⟩
  | 0x0D => some ⟨RG.widths,
      [.oneOf [0, 1, 2, 3], no, no, no, .oneOf [0, 8, 9, 10, 11, 12, 13], no, .oneOf [0, 1, 2, 3, 4, 5, 31], any, no, any, any, any],
      [.rndInt 6 4 10, .qRange], fun v => .vmax (RG.ofFields v)⟩
  | 0x0E => some ⟨RG.widths, [.oneOf [0, 1, 2, 3], no, no, no, no, no, .oneOf [3, 4, 5, 31], any, no, any, any, any],
      [.qRange], fun v => .vand (RG.ofFields v)⟩
  | 0x0F => some ⟨RG.widths, [.oneOf [0, 1, 2, 3], no, no, no, no, no, .oneOf [3, 4, 5, 31], any, no, any, any, any],
      [.qRange], fun v => .vor (RG.ofFields v)⟩
  | 0x10 => some ⟨RG.widths, [.oneOf [0, 1, 2, 3], no, no, no, no, no, .oneOf [3, 4, 5, 31], any, no, any, any, any],
      [.qRange], fun v => .vxor (RG.ofFields v)⟩
  | 0x11 => some ⟨RG.widths, [.oneOf [0, 1, 2], no, no, no, no, no, .oneOf [3, 4, 5, 31], any, no, no, any, any],
      [.qRange], fun v => .vnot (RG.ofFields v)⟩
  | 0x12 => some ⟨RG.widths, [.oneOf [0, 1, 2, 3], no, no, no, no, no, .oneOf [3, 4, 5, 31], any, no, any, any, any],
      [.qRange], fun v => .vshl (RG.ofFields v)⟩
  | 0x13 => some ⟨RG.widths, [.oneOf [0, 1, 2, 3], no, no, no, no, no, .oneOf [3, 4, 5, 31], any, no, any, any, any],
      [.qRange], fun v => .vshr (RG.ofFields v)⟩
  | 0x14 => some ⟨RG.widths, [.oneOf [0, 1, 2, 3], no, no, no, no, no, .oneOf [3, 4, 5, 31], any, no, any, any, any],
      [.qRange], fun v => .vsra (RG.ofFields v)⟩
  | 0x15 => some ⟨RG.widths,
      [.oneOf [0, 2, 3], .lt 10, no, no, no, no, .oneOf [0, 1, 2, 3, 4, 5, 31], any, no, any, any, .lt 16],
      [.condFloat, .qRange], fun v => .vcmp (RG.ofFields v)⟩
  | 0x16 => some ⟨RG.widths,
      [.oneOf [0, 1, 2, 3], no, no, no, no, no, .oneOf [0, 1, 2, 3, 4, 5, 31], any, .lt 16, any, any, any],
      [.qRange], fun v => .vsel (RG.ofFields v)⟩
  | 0x18 => some ⟨RG.widths,
      [.oneOf [0, 1, 2], no, no, no, .oneOf [0, 8, 9, 10, 11, 12, 13], no, .oneOf [0, 1, 2, 31], any, no, no, any, any],
      [.rndInt 6 4 10, .qRange], fun v => .vrcp (RG.ofFields v)⟩
  | 0x19 => some ⟨RG.widths,
      [.oneOf [0, 1, 2], no, no, no, .oneOf [0, 8, 9, 10, 11, 12, 13], no, .oneOf [0, 1, 2, 31], any, no, no, any, any],
      [.rndInt 6 4 10, .qRange], fun v => .vrsq (RG.ofFields v)⟩
  | 0x1A => some ⟨RG.widths,
      [.oneOf [0, 1, 2], no, no, no, .oneOf [0, 8, 9, 10, 11, 12, 13], no, .oneOf [0, 1, 2, 31], any, no, no, any, any],
      [.rndInt 6 4 10, .qRange], fun v => .vsqrt (RG.ofFields v)⟩
  | 0x1B => some ⟨RG.widths,
      [.oneOf [0, 1, 2], no, no, no, .oneOf [0, 8, 9, 10, 11, 12, 13], no, .oneOf [0, 1, 2, 31], any, no, no, any, any],
      [.rndInt 6 4 10, .qRange], fun v => .vexp2 (RG.ofFields v)⟩
  | 0x1C => some ⟨RG.widths,
      [.oneOf [0, 1, 2], no, no, no, .oneOf [0, 8, 9, 10, 11, 12, 13], no, .oneOf [0, 1, 2, 31], any, no, no, any, any],
      [.rndInt 6 4 10, .qRange], fun v => .vlog2 (RG.ofFields v)⟩
  | 0x1D => some ⟨RG.widths,
      [.oneOf [0, 1, 2], no, .lt 3, any, .oneOf [0, 8, 9, 10, 11, 12, 13], .oneOf [0, 1, 2, 3, 4, 5, 6, 7, 8, 31], .oneOf [0, 1, 2, 3, 4, 5, 6, 7, 8, 31], any, no, no, any, any],
      [.rndInt 6 4 10, .sclInt, .vcvtTypes, .qRange], fun v => .vcvt (RG.ofFields v)⟩
  | 0x20 => some ⟨RG.widths,
      [no, no, no, no, .oneOf [0, 8, 9, 10, 11, 12, 13], no, .oneOf [0, 1, 2, 3, 4, 5, 31], any, no, no, any, any],
      [.rndInt 6 4 10], fun v => .vredadd (RG.ofFields v)⟩
  | 0x21 => some ⟨RG.widths,
      [no, no, no, no, .oneOf [0, 8, 9, 10, 11, 12, 13], no, .oneOf [0, 1, 2, 3, 4, 5, 31], any, no, no, any, any],
      [.rndInt 6 4 10], fun v => .vredmax (RG.ofFields v)⟩
  | 0x22 => some ⟨RG.widths,
      [no, no, no, no, .oneOf [0, 8, 9, 10, 11, 12, 13], no, .oneOf [0, 1, 2, 3, 4, 5, 31], any, no, no, any, any],
      [.rndInt 6 4 10], fun v => .vredmin (RG.ofFields v)⟩
  | 0x28 => some ⟨RG.widths,
      [.oneOf [0, 1, 2], no, no, no, no, no, .oneOf [0, 1, 2, 3, 4, 5, 31], any, no, any, any, any],
      [.qRange], fun v => .vbcast (RG.ofFields v)⟩
  | 0x29 => some ⟨RG.widths,
      [.oneOf [0, 2], no, no, no, no, no, .oneOf [0, 1, 2, 3, 4, 5, 31], any, no, any, any, any],
      [.qRange], fun v => .vext (RG.ofFields v)⟩
  | 0x2A => some ⟨RG.widths, [.oneOf [0], no, no, no, no, no, .oneOf [0, 1, 2, 3, 4, 5, 31], any, no, any, any, any],
      [.qRange], fun v => .vins (RG.ofFields v)⟩
  | 0x2B => some ⟨RG.widths,
      [.oneOf [0, 1, 2, 3], no, no, no, no, no, .oneOf [0, 1, 2, 3, 4, 5, 31], any, no, any, any, any],
      [.qRange], fun v => .vperm (RG.ofFields v)⟩
  | 0x2C => some ⟨RG.widths,
      [.oneOf [0, 1, 2], no, no, no, no, no, .oneOf [0, 1, 2, 3, 4, 5, 31], any, no, any, any, any],
      [.qRange], fun v => .vslide (RG.ofFields v)⟩
  | 0x2D => some ⟨RG.widths, [no, no, no, no, no, no, .oneOf [3, 4, 5, 31], any, no, no, no, any],
      [], fun v => .viota (RG.ofFields v)⟩
  | 0x2E => some ⟨RG.widths,
      [.oneOf [0, 1, 2], no, no, no, no, no, .oneOf [0, 1, 2, 3, 4, 5, 31], any, no, no, any, any],
      [.qRange], fun v => .vmov (RG.ofFields v)⟩
  | 0x2F => some ⟨VI.widths, [any, no, .oneOf [0, 1, 2, 3, 4, 5, 31], any, any],
      [.immWidth], fun v => .vmovi (VI.ofFields v)⟩
  | 0x30 => some ⟨RG.widths,
      [no, no, no, any, .oneOf [0, 8, 9, 10, 11, 12, 13], no, .oneOf [6, 7, 8, 31], any, no, no, any, any],
      [.rndInt 6 4 10], fun v => .vpacksx (RG.ofFields v)⟩
  | 0x31 => some ⟨RG.widths, [no, no, no, no, no, no, .oneOf [6, 7, 8, 31], any, no, no, any, any],
      [], fun v => .vunpksx (RG.ofFields v)⟩
  | 0x40 => some ⟨RG.widths, [no, no, no, no, no, no, no, no, no, .lt 16, .lt 16, .lt 16],
      [], fun v => .pand (RG.ofFields v)⟩
  | 0x41 => some ⟨RG.widths, [no, no, no, no, no, no, no, no, no, .lt 16, .lt 16, .lt 16],
      [], fun v => .por (RG.ofFields v)⟩
  | 0x42 => some ⟨RG.widths, [no, no, no, no, no, no, no, no, no, .lt 16, .lt 16, .lt 16],
      [], fun v => .pxor (RG.ofFields v)⟩
  | 0x43 => some ⟨RG.widths, [no, no, no, no, no, no, no, no, no, no, .lt 16, .lt 16],
      [], fun v => .pnot (RG.ofFields v)⟩
  | 0x44 => some ⟨RG.widths,
      [no, no, no, no, no, no, .oneOf [0, 1, 2, 3, 4, 5, 6, 7, 8, 31], no, no, no, any, .lt 16],
      [], fun v => .plen (RG.ofFields v)⟩
  | 0x45 => some ⟨RG.widths, [no, no, no, no, no, no, no, no, no, no, any, .lt 16],
      [], fun v => .pset (RG.ofFields v)⟩
  | 0x46 => some ⟨RG.widths, [no, no, no, no, no, no, no, no, no, no, .lt 16, any],
      [], fun v => .pcnt (RG.ofFields v)⟩
  | 0x47 => some ⟨RG.widths, [no, no, no, no, no, no, no, no, no, no, .lt 16, .lt 16],
      [], fun v => .pmov (RG.ofFields v)⟩
  | _ => none

/-- Slot M (R96, R97). -/
def mRow : Nat → Option OpRow
  | 0x00 => some ⟨MM.widths, [any, any, any, any, .oneOf [0, 1, 2, 3, 6, 7, 8], any, any, any],
      [], fun v => .mma (MM.ofFields v)⟩
  | 0x01 => some ⟨MX.widths, [no, no, no, no, no, no, any],
      [], fun v => .mzero (MX.ofFields v)⟩
  | 0x02 => some ⟨MX.widths,
      [no, .lt 3, any, .oneOf [0, 8, 9, 10, 11, 12, 13], .oneOf [0, 1, 2, 3, 4, 5, 6, 7, 8, 31], any, any],
      [.rndInt 4 3 35], fun v => .mdrain (MX.ofFields v)⟩
  | 0x03 => some ⟨MX.widths, [no, no, no, no, no, any, any],
      [], fun v => .maccld (MX.ofFields v)⟩
  | 0x04 => some ⟨MX.widths, [no, no, no, no, no, any, any],
      [], fun v => .maccst (MX.ofFields v)⟩
  | 0x05 => some ⟨MXE.widths, [no, .range 1 33, any, no],
      [], fun v => .epld (MXE.ofFields v)⟩
  | _ => none

/-- Slot L (R96, R97). -/
def lRow : Nat → Option OpRow
  | 0x00 => some ⟨MS.widths, [any, no, no, any, any, any, any],
      [], fun v => .ld (MS.ofFields v)⟩
  | 0x01 => some ⟨MV.widths, [any, any, no, no, no, no, .oneOf [0, 1, 2, 3, 4, 5, 6, 7, 8, 9, 31], any, any, any],
      [.qDest 1 9], fun v => .vld (MV.ofFields v)⟩
  | 0x02 => some ⟨MVX.widths,
      [any, any, any, no, no, no, no, .oneOf [0, 1, 2, 3, 4, 5, 6, 7, 8, 9, 31], any, any, any],
      [.qDest 2 10], fun v => .vlds (MVX.ofFields v)⟩
  | 0x03 => some ⟨MVX.widths,
      [any, any, any, no, no, no, no, .oneOf [0, 1, 2, 3, 4, 5, 6, 7, 8, 9, 31], any, any, any],
      [.qDest 2 10], fun v => .vldx (MVX.ofFields v)⟩
  | 0x04 => some ⟨MS.widths, [any, no, any, any, any, any, any],
      [], fun v => .fld (MS.ofFields v)⟩
  | 0x05 => some ⟨MV.widths, [any, any, any, no, no, no, .oneOf [0, 1, 2, 3, 4, 5, 6, 7, 8, 9, 31], any, any, any],
      [.qDest 1 9], fun v => .vfld (MV.ofFields v)⟩
  | 0x06 => some ⟨LF.widths, [no, .lt 2, .oneOf [0, 1, 2, 3, 4, 5, 6, 7, 8, 9, 31], any, any, no],
      [.geoForm], fun v => .lsfmt (LF.ofFields v)⟩
  | _ => none

/-- Slot ST (R96, R97). -/
def stRow : Nat → Option OpRow
  | 0x00 => some ⟨MS.widths, [any, no, no, no, any, any, any],
      [], fun v => .st (MS.ofFields v)⟩
  | 0x01 => some ⟨MV.widths,
      [any, any, no, .lt 3, any, .oneOf [0, 8, 9, 10, 11, 12, 13], .oneOf [0, 1, 2, 3, 4, 5, 6, 7, 8, 9, 31], any, any, any],
      [.qDest 1 9, .storeMods 6 5 4 3], fun v => .vst (MV.ofFields v)⟩
  | 0x02 => some ⟨MVX.widths,
      [any, any, any, no, .lt 3, any, .oneOf [0, 8, 9, 10, 11, 12, 13], .oneOf [0, 1, 2, 3, 4, 5, 6, 7, 8, 9, 31], any, any, any],
      [.qDest 2 10, .storeMods 7 6 5 4], fun v => .vsts (MVX.ofFields v)⟩
  | 0x03 => some ⟨MVX.widths,
      [any, any, any, no, .lt 3, any, .oneOf [0, 8, 9, 10, 11, 12, 13], .oneOf [0, 1, 2, 3, 4, 5, 6, 7, 8, 9, 31], any, any, any],
      [.qDest 2 10, .storeMods 7 6 5 4], fun v => .vstx (MVX.ofFields v)⟩
  | 0x04 => some ⟨MS.widths, [any, no, any, no, any, any, any],
      [], fun v => .fst (MS.ofFields v)⟩
  | 0x05 => some ⟨MV.widths,
      [any, any, any, .lt 3, any, .oneOf [0, 8, 9, 10, 11, 12, 13], .oneOf [0, 1, 2, 3, 4, 5, 6, 7, 8, 9, 31], any, any, any],
      [.qDest 1 9, .storeMods 6 5 4 3], fun v => .vfst (MV.ofFields v)⟩
  | _ => none

/-- Slot E (R96, R97). -/
def eRow : Nat → Option OpRow
  | 0x00 => some ⟨EACopy.widths,
      [no, .lt 3, .oneOf [0, 8, 9, 10, 11, 12, 13], .oneOf [0, 1, 2, 3, 4, 5, 6, 7, 8, 9, 31], no, any, any, any, any],
      [.rndRaw 3 2 15], fun v => .copy (EACopy.ofFields v)⟩
  | 0x01 => some ⟨EA.widths, [no, no, no, no, any, any],
      [], fun v => .copya (EA.ofFields v)⟩
  | 0x02 => some ⟨EAStrb.widths, [no, .lt 2, no, .lt 8, no, any, no],
      [], fun v => .strb (EAStrb.ofFields v)⟩
  | 0x03 => some ⟨EA.widths, [no, .lt 8, no, no, no, any],
      [], fun v => .stru (EA.ofFields v)⟩
  | 0x08 => some ⟨EAPush.widths,
      [no, .range 1 257, any, .lt 3, no, .oneOf [0, 1, 2, 3, 4, 5, 6, 7, 8, 9, 31], .lt 4, no, any, any, any],
      [], fun v => .pusht (EAPush.ofFields v)⟩
  | 0x09 => some ⟨EA.widths, [no, .lt 4, no, any, any, any],
      [], fun v => .popt (EA.ofFields v)⟩
  | 0x0A => some ⟨EA.widths, [no, .lt 4, no, no, any, any],
      [], fun v => .markr (EA.ofFields v)⟩
  | 0x0B => some ⟨EA.widths, [no, .lt 4, no, any, any, any],
      [], fun v => .splitr (EA.ofFields v)⟩
  | 0x0C => some ⟨EA.widths, [no, .lt 4, no, any, any, any],
      [], fun v => .joinr (EA.ofFields v)⟩
  | 0x0D => some ⟨EA.widths, [no, .lt 4, no, .lt 8, any, any],
      [], fun v => .rickq (EA.ofFields v)⟩
  | 0x10 => some ⟨EAAmo.widths, [no, any, .lt 12, no, any, any, any, any],
      [.amoForm], fun v => .amo (EAAmo.ofFields v)⟩
  | 0x11 => some ⟨EARed.widths, [no, any, .lt 10, no, any, any, no],
      [.redForm], fun v => .red (EARed.ofFields v)⟩
  | 0x12 => some ⟨EA.widths, [no, no, no, no, no, any],
      [], fun v => .popq (EA.ofFields v)⟩
  | 0x18 => some ⟨EAClaim.widths, [no, .range 1 12, no, .lt 8, no, any, any, any],
      [], fun v => .claim (EAClaim.ofFields v)⟩
  | 0x19 => some ⟨EAClaim.widths, [no, .range 1 12, no, .lt 8, no, no, no, any],
      [], fun v => .resolve (EAClaim.ofFields v)⟩
  | 0x1A => some ⟨EA.widths, [no, .lt 8, no, no, any, any],
      [], fun v => .qclaim (EA.ofFields v)⟩
  | 0x1B => some ⟨EA.widths, [no, .lt 8, no, no, no, any],
      [], fun v => .retire (EA.ofFields v)⟩
  | 0x1C => some ⟨EACasn.widths, [no, any, no, .lt 8, no, .lt 8, any, any],
      [], fun v => .casn (EACasn.ofFields v)⟩
  | 0x20 => some ⟨EA.widths, [no, .lt 8, no, no, .lt 8, any],
      [], fun v => .chopen (EA.ofFields v)⟩
  | 0x21 => some ⟨EA.widths, [no, .lt 8, no, no, no, any],
      [], fun v => .chcommit (EA.ofFields v)⟩
  | 0x28 => some ⟨EA.widths, [no, no, any, any, any, any],
      [], fun v => .send (EA.ofFields v)⟩
  | 0x29 => some ⟨EA.widths, [no, no, any, any, any, any],
      [], fun v => .recv (EA.ofFields v)⟩
  | 0x2A => some ⟨EA.widths, [no, no, any, any, any, any],
      [], fun v => .coll (EA.ofFields v)⟩
  | _ => none

/-- Slot C (R96, R97, R355). -/
def cRow : Nat → Option OpRow
  | 0x00 => some ⟨CG.widths, [any, no, no, no, no],
      [], fun v => .ctl (CG.ofFields v)⟩
  | 0x01 => some ⟨CGFence.widths, [any, .range 1 8, .lt 6, no],
      [], fun v => .fence (CGFence.ofFields v)⟩
  | 0x10 => some ⟨CG.widths, [any, no, no, .lt 8, any],
      [], fun v => .barg (CG.ofFields v)⟩
  | 0x11 => some ⟨CG.widths, [any, no, no, .lt 8, any],
      [], fun v => .joing (CG.ofFields v)⟩
  | 0x12 => some ⟨CG.widths, [any, no, no, .lt 8, any],
      [], fun v => .leaveg (CG.ofFields v)⟩
  | 0x20 => some ⟨CG.widths, [any, no, any, any, any],
      [], fun v => .spawn (CG.ofFields v)⟩
  | 0x21 => some ⟨CG.widths, [any, no, any, any, no],
      [], fun v => .susp (CG.ofFields v)⟩
  | 0x22 => some ⟨CG.widths, [any, no, no, no, no],
      [], fun v => .exit (CG.ofFields v)⟩
  | 0x23 => some ⟨CG.widths, [any, no, no, no, no],
      [], fun v => .yield (CG.ofFields v)⟩
  | 0x24 => some ⟨CG.widths, [any, no, no, no, any],
      [], fun v => .nextt (CG.ofFields v)⟩
  | 0x28 => some ⟨CGCode.widths, [any, any, no, no, no],
      [], fun v => .trap (CGCode.ofFields v)⟩
  | 0x29 => some ⟨CG.widths, [any, no, no, no, no],
      [], fun v => .rett (CG.ofFields v)⟩
  | 0x2A => some ⟨CGCode.widths, [any, any, no, any, any],
      [], fun v => .svc (CGCode.ofFields v)⟩
  | 0x2B => some ⟨CG.widths, [any, no, no, any, any],
      [], fun v => .tstpsn (CG.ofFields v)⟩
  | 0x30 => some ⟨CGSr.widths, [any, .oneOf srns, no, no, any],
      [], fun v => .rdsr (CGSr.ofFields v)⟩
  | 0x31 => some ⟨CGSr.widths, [any, .oneOf srns, no, any, no],
      [], fun v => .wrsr (CGSr.ofFields v)⟩
  | 0x32 => some ⟨CGSr.widths, [any, any, no, any, no],
      [], fun v => .bkpt (CGSr.ofFields v)⟩
  | 0x33 => some ⟨CG.widths, [any, no, no, no, any],
      [], fun v => .rdeng (CG.ofFields v)⟩
  | 0x34 => some ⟨CG.widths, [any, no, no, no, any],
      [], fun v => .rdcyc (CG.ofFields v)⟩
  | 0x3A => some ⟨CG.widths, [any, no, no, no, no],
      [], fun v => .lsstep (CG.ofFields v)⟩
  | _ => none

/-- The fields of the thresher format TR from bit 0 up. -/
def TR.widths : List Nat := [4, 2, 1, 1, 2, 4, 4, 4, 4]

def TR.ofFields (v : List Nat) : TR :=
  { d := BitVec.ofNat _ (fv v 8), a := BitVec.ofNat _ (fv v 7), b := BitVec.ofNat _ (fv v 6), c := BitVec.ofNat _ (fv v 5),
    t := TType.ofCode (fv v 4), s := (fv v 3) == 1, bz := (fv v 2) == 1 }

def TR.fields (f : TR) : List Nat := [0, 0, f.bz.toNat, f.s.toNat, f.t.code, f.c.toNat, f.b.toNat, f.a.toNat, f.d.toNat]

/-- The fields of the thresher format TRCmp from bit 0 up. -/
def TRCmp.widths : List Nat := [4, 2, 1, 1, 2, 4, 4, 4, 4]

def TRCmp.ofFields (v : List Nat) : TRCmp :=
  { d := BitVec.ofNat _ (fv v 8), a := BitVec.ofNat _ (fv v 7), b := BitVec.ofNat _ (fv v 6), t := TType.ofCode (fv v 4),
    s := (fv v 3) == 1, bz := (fv v 2) == 1, cond := Cond.ofCode (fv v 0) }

def TRCmp.fields (f : TRCmp) : List Nat := [f.cond.code, 0, f.bz.toNat, f.s.toNat, f.t.code, 0, f.b.toNat, f.a.toNat, f.d.toNat]

/-- The fields of the thresher format TRCvt from bit 0 up. -/
def TRCvt.widths : List Nat := [4, 2, 1, 1, 2, 4, 4, 4, 4]

def TRCvt.ofFields (v : List Nat) : TRCvt :=
  { d := BitVec.ofNat _ (fv v 8), a := BitVec.ofNat _ (fv v 7), t := TType.ofCode (fv v 4), t2 := TType.ofCode (fv v 1), s := (fv v 3) == 1 }

def TRCvt.fields (f : TRCvt) : List Nat := [0, f.t2.code, 0, f.s.toNat, f.t.code, 0, 0, f.a.toNat, f.d.toNat]

/-- The fields of the thresher format TRLane from bit 0 up. -/
def TRLane.widths : List Nat := [4, 14, 4, 4]

def TRLane.ofFields (v : List Nat) : TRLane :=
  { d := BitVec.ofNat _ (fv v 3), a := BitVec.ofNat _ (fv v 2), x := BitVec.ofNat _ (fv v 0) }

def TRLane.fields (f : TRLane) : List Nat := [f.x.toNat, 0, f.a.toNat, f.d.toNat]

/-- The fields of the thresher format TRBamo from bit 0 up. -/
def TRBamo.widths : List Nat := [4, 10, 4, 4, 4]

def TRBamo.ofFields (v : List Nat) : TRBamo :=
  { d := BitVec.ofNat _ (fv v 4), a := BitVec.ofNat _ (fv v 3), b := BitVec.ofNat _ (fv v 2), op := BamoOp.ofCode (fv v 0) }

def TRBamo.fields (f : TRBamo) : List Nat := [f.op.code, 0, f.b.toNat, f.a.toNat, f.d.toNat]

/-- The fields of the thresher format TIMov from bit 0 up. -/
def TIMov.widths : List Nat := [21, 1, 4]

def TIMov.ofFields (v : List Nat) : TIMov :=
  { d := BitVec.ofNat _ (fv v 2), h := (fv v 1) == 1, imm := BitVec.ofNat _ (fv v 0) }

def TIMov.fields (f : TIMov) : List Nat := [f.imm.toNat, f.h.toNat, f.d.toNat]

/-- The fields of the thresher format TIAdd from bit 0 up. -/
def TIAdd.widths : List Nat := [18, 4, 4]

def TIAdd.ofFields (v : List Nat) : TIAdd :=
  { d := BitVec.ofNat _ (fv v 2), a := BitVec.ofNat _ (fv v 1), imm := BitVec.ofNat _ (fv v 0) }

def TIAdd.fields (f : TIAdd) : List Nat := [f.imm.toNat, f.a.toNat, f.d.toNat]

/-- The fields of the thresher format TM from bit 0 up. -/
def TM.widths : List Nat := [16, 1, 1, 4, 4]

def TM.ofFields (v : List Nat) : TM :=
  { d := BitVec.ofNat _ (fv v 4), a := BitVec.ofNat _ (fv v 3), s := (fv v 2) == 1, off := BitVec.ofNat _ (fv v 0) }

def TM.fields (f : TM) : List Nat := [f.off.toNat, 0, f.s.toNat, f.a.toNat, f.d.toNat]

/-- The fields of the thresher format TC from bit 0 up. -/
def TC.widths : List Nat := [16, 2, 4, 4]

def TC.ofFields (v : List Nat) : TC :=
  { k := BitVec.ofNat _ (fv v 3), a := BitVec.ofNat _ (fv v 2), o := BitVec.ofNat _ (fv v 0) }

def TC.fields (f : TC) : List Nat := [f.o.toNat, 0, f.a.toNat, f.k.toNat]

/-- The thresher's opcodes (R431). -/
def thrRow : Nat → Option OpRow
  | 0x00 => some ⟨TR.widths, [no, no, any, any, .lt 3, no, any, any, any], [.bzScalar 3 2], fun v => .thrAdd (TR.ofFields v)⟩
  | 0x01 => some ⟨TR.widths, [no, no, any, any, .lt 3, no, any, any, any], [.bzScalar 3 2], fun v => .thrSub (TR.ofFields v)⟩
  | 0x02 => some ⟨TR.widths, [no, no, any, any, .lt 3, no, any, any, any], [.bzScalar 3 2], fun v => .thrMul (TR.ofFields v)⟩
  | 0x03 => some ⟨TR.widths, [no, no, any, any, .range 1 3, any, any, any, any], [.bzScalar 3 2], fun v => .thrFma (TR.ofFields v)⟩
  | 0x04 => some ⟨TR.widths, [no, no, any, any, .lt 3, no, any, any, any], [.bzScalar 3 2], fun v => .thrMin (TR.ofFields v)⟩
  | 0x05 => some ⟨TR.widths, [no, no, any, any, .lt 3, no, any, any, any], [.bzScalar 3 2], fun v => .thrMax (TR.ofFields v)⟩
  | 0x06 => some ⟨TR.widths, [no, no, no, any, .lt 3, no, no, any, any], [], fun v => .thrAbs (TR.ofFields v)⟩
  | 0x07 => some ⟨TR.widths, [no, no, no, any, .lt 3, no, no, any, any], [], fun v => .thrNeg (TR.ofFields v)⟩
  | 0x08 => some ⟨TR.widths, [no, no, any, any, .lt 1, no, any, any, any], [.bzScalar 3 2], fun v => .thrAnd (TR.ofFields v)⟩
  | 0x09 => some ⟨TR.widths, [no, no, any, any, .lt 1, no, any, any, any], [.bzScalar 3 2], fun v => .thrOr (TR.ofFields v)⟩
  | 0x0A => some ⟨TR.widths, [no, no, any, any, .lt 1, no, any, any, any], [.bzScalar 3 2], fun v => .thrXor (TR.ofFields v)⟩
  | 0x0B => some ⟨TR.widths, [no, no, any, any, .lt 1, no, any, any, any], [.bzScalar 3 2], fun v => .thrShl (TR.ofFields v)⟩
  | 0x0C => some ⟨TR.widths, [no, no, any, any, .lt 1, no, any, any, any], [.bzScalar 3 2], fun v => .thrShr (TR.ofFields v)⟩
  | 0x0D => some ⟨TR.widths, [no, no, any, any, .lt 1, no, any, any, any], [.bzScalar 3 2], fun v => .thrSra (TR.ofFields v)⟩
  | 0x0E => some ⟨TR.widths, [no, no, any, any, .lt 1, no, any, any, any], [.bzScalar 3 2], fun v => .thrAdds (TR.ofFields v)⟩
  | 0x0F => some ⟨TRCmp.widths, [.lt 10, no, any, any, .lt 3, no, any, any, any], [.bzScalar 3 2, .thrCond], fun v => .thrCmp (TRCmp.ofFields v)⟩
  | 0x10 => some ⟨TR.widths, [no, no, any, any, .lt 3, any, any, any, any], [.bzScalar 3 2], fun v => .thrSel (TR.ofFields v)⟩
  | 0x11 => some ⟨TRCvt.widths, [no, .lt 3, no, any, .lt 3, no, no, any, any], [.cvtDistinct], fun v => .thrCvt (TRCvt.ofFields v)⟩
  | 0x12 => some ⟨TR.widths, [no, no, no, any, .range 1 2, no, no, any, any], [], fun v => .thrEx2 (TR.ofFields v)⟩
  | 0x13 => some ⟨TR.widths, [no, no, no, any, .range 1 2, no, no, any, any], [], fun v => .thrLg2 (TR.ofFields v)⟩
  | 0x14 => some ⟨TIMov.widths, [any, any, any], [], fun v => .thrMovi (TIMov.ofFields v)⟩
  | 0x15 => some ⟨TIAdd.widths, [any, any, any], [], fun v => .thrAddi (TIAdd.ofFields v)⟩
  | 0x16 => some ⟨TRLane.widths, [any, no, any, any], [], fun v => .thrVext (TRLane.ofFields v)⟩
  | 0x17 => some ⟨TRLane.widths, [no, no, any, any], [], fun v => .thrVbc (TRLane.ofFields v)⟩
  | 0x18 => some ⟨TM.widths, [any, no, any, any, any], [], fun v => .thrPld (TM.ofFields v)⟩
  | 0x19 => some ⟨TM.widths, [any, no, any, any, any], [], fun v => .thrPst (TM.ofFields v)⟩
  | 0x1A => some ⟨TRLane.widths, [.lt 11, no, no, any], [], fun v => .thrHdr (TRLane.ofFields v)⟩
  | 0x1B => some ⟨TM.widths, [any, no, any, any, any], [], fun v => .thrBld (TM.ofFields v)⟩
  | 0x1C => some ⟨TM.widths, [any, no, any, any, any], [], fun v => .thrBst (TM.ofFields v)⟩
  | 0x1D => some ⟨TRBamo.widths, [.lt 10, no, any, any, any], [], fun v => .thrBamo (TRBamo.ofFields v)⟩
  | 0x1E => some ⟨TC.widths, [any, no, no, no], [], fun v => .thrBr (TC.ofFields v)⟩
  | 0x1F => some ⟨TC.widths, [any, no, any, .lt 6], [], fun v => .thrBc (TC.ofFields v)⟩
  | 0x20 => some ⟨TC.widths, [any, no, any, any], [], fun v => .thrLoopi (TC.ofFields v)⟩
  | 0x21 => some ⟨TC.widths, [no, no, no, no], [], fun v => .thrFwd (TC.ofFields v)⟩
  | 0x22 => some ⟨TC.widths, [no, no, no, no], [], fun v => .thrDrop (TC.ofFields v)⟩
  | 0x23 => some ⟨TC.widths, [no, no, any, no], [], fun v => .thrRedir (TC.ofFields v)⟩
  | 0x24 => some ⟨TC.widths, [any, no, no, no], [], fun v => .thrTrap (TC.ofFields v)⟩
  | 0x25 => some ⟨TC.widths, [no, no, no, no], [], fun v => .thrEnd (TC.ofFields v)⟩
  | _ => none

/-! ### Decoding -/

/-- The row of an opcode in its slot (R96): VA and VB share one space. -/
def opRow (slot opc : Nat) : Option OpRow :=
  match slot with
  | 0 => sRow opc
  | 1 | 2 => vRow opc
  | 3 => mRow opc
  | 4 => lRow opc
  | 5 => stRow opc
  | 6 => eRow opc
  | _ => cRow opc

def wordStop (w : Nat) : Bool := w / 2 ^ 63 % 2 == 1

def wordSlot (w : Nat) : Nat := w / 2 ^ 60 % 8

def wordOpc (w : Nat) : Nat := w / 2 ^ 52 % 256

/-- R98 step 1, the part one word shows: slot C without STOP, and the ranges of R35 and R36 (R90). -/
def wordBroken (w : Nat) : Bool :=
  (wordSlot w == 7 && !wordStop w) ||
  (wordSlot w == 0 && wordOpc w == 0x46 &&
    !(decide (1 ≤ w / 2 ^ 45 % 128) && decide (w / 2 ^ 45 % 128 ≤ 16) &&
      decide (1 ≤ w / 2 ^ 32 % 8192) && decide (w / 2 ^ 32 % 8192 ≤ 4096))) ||
  (wordSlot w == 0 && wordOpc w == 0x47 &&
    !(decide (1 ≤ w / 2 ^ 45 % 128) && decide (w / 2 ^ 45 % 128 ≤ 64) && w / 2 ^ 32 % 8192 == 0))

/-- The op a word stands for by R98 steps 2 and 3; STOP is the bundle's. -/
def decodeOp (w : Nat) : Except Reject Instr :=
  match opRow (wordSlot w) (wordOpc w) with
  | none => .error .opcode
  | some r =>
    match r.fault (w % 2 ^ 52) with
    | some b => .error (.field b)
    | none => .ok (r.build (unpack r.widths (w % 2 ^ 52)))

/-- The thresher instruction of a word (R431). -/
def decodeThr (w : Nat) : Except Reject Instr :=
  match thrRow (w / 2 ^ 26 % 64) with
  | none => .error .opcode
  | some r =>
    match r.fault (w % 2 ^ 26) with
    | some b => .error (.field b)
    | none => .ok (r.build (unpack r.widths (w % 2 ^ 26)))

/-- The little-endian number of a byte string. -/
def natOfBytes : List Byte → Nat
  | [] => 0
  | b :: bs => b.toNat + 256 * natOfBytes bs

/-- The first `n` little-endian bytes of a number. -/
def bytesOfNat : Nat → Nat → List Byte
  | 0, _ => []
  | n + 1, x => BitVec.ofNat 8 x :: bytesOfNat n (x / 256)

/-- The decoder on a row of spec/opcode_table.json: 32-bit words are a thresher's (R429), longer ones an op word whose
words lie little-endian in memory (R100). -/
def decodeTableWord (nbits w : Nat) : Option Instr :=
  if nbits ≤ 32 then (decodeThr (natOfBytes (bytesOfNat 4 w))).toOption
  else if wordBroken (w % 2 ^ 63 + 2 ^ 63) then none
  else (decodeOp (natOfBytes (bytesOfNat 8 w))).toOption

/-! ### Encoding -/

/-- Slot, opcode, field widths and field values of a core op; none for a thresher instruction or an event.
The vector ops are encoded in slot VA, whose words VB shares (R87). -/
def opFields : Instr → Option (Nat × Nat × List Nat × List Nat)
  | .add f => some (0, 0x00, RG.widths, f.fields)
  | .sub f => some (0, 0x02, RG.widths, f.fields)
  | .mul f => some (0, 0x03, RG.widths, f.fields)
  | .mulh f => some (0, 0x04, RG.widths, f.fields)
  | .mulhu f => some (0, 0x05, RG.widths, f.fields)
  | .div f => some (0, 0x06, RG.widths, f.fields)
  | .divu f => some (0, 0x07, RG.widths, f.fields)
  | .rem f => some (0, 0x08, RG.widths, f.fields)
  | .remu f => some (0, 0x09, RG.widths, f.fields)
  | .xor f => some (0, 0x0E, RG.widths, f.fields)
  | .shl f => some (0, 0x10, RG.widths, f.fields)
  | .shr f => some (0, 0x11, RG.widths, f.fields)
  | .sra f => some (0, 0x12, RG.widths, f.fields)
  | .rotr f => some (0, 0x16, RG.widths, f.fields)
  | .min f => some (0, 0x19, RG.widths, f.fields)
  | .max f => some (0, 0x1A, RG.widths, f.fields)
  | .minu f => some (0, 0x1B, RG.widths, f.fields)
  | .maxu f => some (0, 0x1C, RG.widths, f.fields)
  | .and f => some (0, 0x0A, RG.widths, f.fields)
  | .or f => some (0, 0x0C, RG.widths, f.fields)
  | .addi f => some (0, 0x01, IM.widths, f.fields)
  | .andi f => some (0, 0x0B, IM.widths, f.fields)
  | .ori f => some (0, 0x0D, IM.widths, f.fields)
  | .xori f => some (0, 0x0F, IM.widths, f.fields)
  | .shli f => some (0, 0x13, IM.widths, f.fields)
  | .shri f => some (0, 0x14, IM.widths, f.fields)
  | .srai f => some (0, 0x15, IM.widths, f.fields)
  | .clz f => some (0, 0x17, RG.widths, f.fields)
  | .popc f => some (0, 0x18, RG.widths, f.fields)
  | .cmp f => some (0, 0x1D, RG.widths, f.fields)
  | .sel f => some (0, 0x1E, RG.widths, f.fields)
  | .extr f => some (0, 0x1F, RG.widths, f.fields)
  | .insr f => some (0, 0x20, RG.widths, f.fields)
  | .movi f => some (0, 0x21, MW.widths, f.fields)
  | .movhi f => some (0, 0x22, MW.widths, f.fields)
  | .fadd f => some (0, 0x30, RG.widths, f.fields)
  | .fsub f => some (0, 0x31, RG.widths, f.fields)
  | .fmul f => some (0, 0x32, RG.widths, f.fields)
  | .fmin f => some (0, 0x34, RG.widths, f.fields)
  | .fmax f => some (0, 0x35, RG.widths, f.fields)
  | .ffma f => some (0, 0x33, RG.widths, f.fields)
  | .fcmp f => some (0, 0x36, RG.widths, f.fields)
  | .fcvt f => some (0, 0x37, RG.widths, f.fields)
  | .br f => some (0, 0x40, BRF.widths, f.fields)
  | .bc f => some (0, 0x41, BRF.widths, f.fields)
  | .brl f => some (0, 0x42, BRF.widths, f.fields)
  | .call f => some (0, 0x43, BRF.widths, f.fields)
  | .ret f => some (0, 0x44, RG.widths, f.fields)
  | .jmpx f => some (0, 0x45, RG.widths, f.fields)
  | .rep f => some (0, 0x46, RP.widths, f.fields)
  | .loopb f => some (0, 0x47, RP.widths, f.fields)
  | .vadd f => some (1, 0x00, RG.widths, f.fields)
  | .vsub f => some (1, 0x01, RG.widths, f.fields)
  | .vmul f => some (1, 0x04, RG.widths, f.fields)
  | .vmin f => some (1, 0x0C, RG.widths, f.fields)
  | .vmax f => some (1, 0x0D, RG.widths, f.fields)
  | .vadds f => some (1, 0x02, RG.widths, f.fields)
  | .vsubs f => some (1, 0x03, RG.widths, f.fields)
  | .vmulh f => some (1, 0x05, RG.widths, f.fields)
  | .vmulw f => some (1, 0x06, RG.widths, f.fields)
  | .vand f => some (1, 0x0E, RG.widths, f.fields)
  | .vor f => some (1, 0x0F, RG.widths, f.fields)
  | .vxor f => some (1, 0x10, RG.widths, f.fields)
  | .vshl f => some (1, 0x12, RG.widths, f.fields)
  | .vshr f => some (1, 0x13, RG.widths, f.fields)
  | .vsra f => some (1, 0x14, RG.widths, f.fields)
  | .vmacw f => some (1, 0x07, RG.widths, f.fields)
  | .vfma f => some (1, 0x08, RG.widths, f.fields)
  | .vfms f => some (1, 0x09, RG.widths, f.fields)
  | .vneg f => some (1, 0x0A, RG.widths, f.fields)
  | .vabs f => some (1, 0x0B, RG.widths, f.fields)
  | .vnot f => some (1, 0x11, RG.widths, f.fields)
  | .vcmp f => some (1, 0x15, RG.widths, f.fields)
  | .vsel f => some (1, 0x16, RG.widths, f.fields)
  | .vrcp f => some (1, 0x18, RG.widths, f.fields)
  | .vrsq f => some (1, 0x19, RG.widths, f.fields)
  | .vsqrt f => some (1, 0x1A, RG.widths, f.fields)
  | .vexp2 f => some (1, 0x1B, RG.widths, f.fields)
  | .vlog2 f => some (1, 0x1C, RG.widths, f.fields)
  | .vcvt f => some (1, 0x1D, RG.widths, f.fields)
  | .vredadd f => some (1, 0x20, RG.widths, f.fields)
  | .vredmax f => some (1, 0x21, RG.widths, f.fields)
  | .vredmin f => some (1, 0x22, RG.widths, f.fields)
  | .vbcast f => some (1, 0x28, RG.widths, f.fields)
  | .vext f => some (1, 0x29, RG.widths, f.fields)
  | .vins f => some (1, 0x2A, RG.widths, f.fields)
  | .vperm f => some (1, 0x2B, RG.widths, f.fields)
  | .vslide f => some (1, 0x2C, RG.widths, f.fields)
  | .viota f => some (1, 0x2D, RG.widths, f.fields)
  | .vmov f => some (1, 0x2E, RG.widths, f.fields)
  | .vmovi f => some (1, 0x2F, VI.widths, f.fields)
  | .vpacksx f => some (1, 0x30, RG.widths, f.fields)
  | .vunpksx f => some (1, 0x31, RG.widths, f.fields)
  | .pand f => some (1, 0x40, RG.widths, f.fields)
  | .por f => some (1, 0x41, RG.widths, f.fields)
  | .pxor f => some (1, 0x42, RG.widths, f.fields)
  | .pnot f => some (1, 0x43, RG.widths, f.fields)
  | .plen f => some (1, 0x44, RG.widths, f.fields)
  | .pset f => some (1, 0x45, RG.widths, f.fields)
  | .pcnt f => some (1, 0x46, RG.widths, f.fields)
  | .pmov f => some (1, 0x47, RG.widths, f.fields)
  | .mma f => some (3, 0x00, MM.widths, f.fields)
  | .mzero f => some (3, 0x01, MX.widths, f.fields)
  | .mdrain f => some (3, 0x02, MX.widths, f.fields)
  | .maccld f => some (3, 0x03, MX.widths, f.fields)
  | .maccst f => some (3, 0x04, MX.widths, f.fields)
  | .epld f => some (3, 0x05, MXE.widths, f.fields)
  | .ld f => some (4, 0x00, MS.widths, f.fields)
  | .fld f => some (4, 0x04, MS.widths, f.fields)
  | .st f => some (5, 0x00, MS.widths, f.fields)
  | .fst f => some (5, 0x04, MS.widths, f.fields)
  | .vld f => some (4, 0x01, MV.widths, f.fields)
  | .vfld f => some (4, 0x05, MV.widths, f.fields)
  | .vst f => some (5, 0x01, MV.widths, f.fields)
  | .vfst f => some (5, 0x05, MV.widths, f.fields)
  | .vlds f => some (4, 0x02, MVX.widths, f.fields)
  | .vldx f => some (4, 0x03, MVX.widths, f.fields)
  | .vsts f => some (5, 0x02, MVX.widths, f.fields)
  | .vstx f => some (5, 0x03, MVX.widths, f.fields)
  | .lsfmt f => some (4, 0x06, LF.widths, f.fields)
  | .copy f => some (6, 0x00, EACopy.widths, f.fields)
  | .copya f => some (6, 0x01, EA.widths, f.fields)
  | .strb f => some (6, 0x02, EAStrb.widths, f.fields)
  | .stru f => some (6, 0x03, EA.widths, f.fields)
  | .pusht f => some (6, 0x08, EAPush.widths, f.fields)
  | .popt f => some (6, 0x09, EA.widths, f.fields)
  | .markr f => some (6, 0x0A, EA.widths, f.fields)
  | .splitr f => some (6, 0x0B, EA.widths, f.fields)
  | .joinr f => some (6, 0x0C, EA.widths, f.fields)
  | .rickq f => some (6, 0x0D, EA.widths, f.fields)
  | .amo f => some (6, 0x10, EAAmo.widths, f.fields)
  | .red f => some (6, 0x11, EARed.widths, f.fields)
  | .popq f => some (6, 0x12, EA.widths, f.fields)
  | .claim f => some (6, 0x18, EAClaim.widths, f.fields)
  | .resolve f => some (6, 0x19, EAClaim.widths, f.fields)
  | .qclaim f => some (6, 0x1A, EA.widths, f.fields)
  | .retire f => some (6, 0x1B, EA.widths, f.fields)
  | .casn f => some (6, 0x1C, EACasn.widths, f.fields)
  | .chopen f => some (6, 0x20, EA.widths, f.fields)
  | .chcommit f => some (6, 0x21, EA.widths, f.fields)
  | .send f => some (6, 0x28, EA.widths, f.fields)
  | .recv f => some (6, 0x29, EA.widths, f.fields)
  | .coll f => some (6, 0x2A, EA.widths, f.fields)
  | .ctl f => some (7, 0x00, CG.widths, f.fields)
  | .fence f => some (7, 0x01, CGFence.widths, f.fields)
  | .barg f => some (7, 0x10, CG.widths, f.fields)
  | .joing f => some (7, 0x11, CG.widths, f.fields)
  | .leaveg f => some (7, 0x12, CG.widths, f.fields)
  | .spawn f => some (7, 0x20, CG.widths, f.fields)
  | .susp f => some (7, 0x21, CG.widths, f.fields)
  | .exit f => some (7, 0x22, CG.widths, f.fields)
  | .yield f => some (7, 0x23, CG.widths, f.fields)
  | .nextt f => some (7, 0x24, CG.widths, f.fields)
  | .trap f => some (7, 0x28, CGCode.widths, f.fields)
  | .rett f => some (7, 0x29, CG.widths, f.fields)
  | .svc f => some (7, 0x2A, CGCode.widths, f.fields)
  | .tstpsn f => some (7, 0x2B, CG.widths, f.fields)
  | .rdsr f => some (7, 0x30, CGSr.widths, f.fields)
  | .wrsr f => some (7, 0x31, CGSr.widths, f.fields)
  | .bkpt f => some (7, 0x32, CGSr.widths, f.fields)
  | .rdeng f => some (7, 0x33, CG.widths, f.fields)
  | .rdcyc f => some (7, 0x34, CG.widths, f.fields)
  | .lsstep f => some (7, 0x3A, CG.widths, f.fields)
  | _ => none

/-- The op word of an instruction, as the last of its bundle (STOP = 1). -/
def encodeOp (i : Instr) : Nat :=
  match opFields i with
  | none => 0
  | some (slot, opc, ws, vs) => pack ws vs + 2 ^ 52 * opc + 2 ^ 60 * slot + 2 ^ 63

/-- Opcode, field widths and field values of a thresher instruction. -/
def thrFields : Instr → Option (Nat × List Nat × List Nat)
  | .thrAdd f => some (0x00, TR.widths, f.fields)
  | .thrSub f => some (0x01, TR.widths, f.fields)
  | .thrMul f => some (0x02, TR.widths, f.fields)
  | .thrFma f => some (0x03, TR.widths, f.fields)
  | .thrMin f => some (0x04, TR.widths, f.fields)
  | .thrMax f => some (0x05, TR.widths, f.fields)
  | .thrAbs f => some (0x06, TR.widths, f.fields)
  | .thrNeg f => some (0x07, TR.widths, f.fields)
  | .thrAnd f => some (0x08, TR.widths, f.fields)
  | .thrOr f => some (0x09, TR.widths, f.fields)
  | .thrXor f => some (0x0A, TR.widths, f.fields)
  | .thrShl f => some (0x0B, TR.widths, f.fields)
  | .thrShr f => some (0x0C, TR.widths, f.fields)
  | .thrSra f => some (0x0D, TR.widths, f.fields)
  | .thrAdds f => some (0x0E, TR.widths, f.fields)
  | .thrCmp f => some (0x0F, TRCmp.widths, f.fields)
  | .thrSel f => some (0x10, TR.widths, f.fields)
  | .thrCvt f => some (0x11, TRCvt.widths, f.fields)
  | .thrEx2 f => some (0x12, TR.widths, f.fields)
  | .thrLg2 f => some (0x13, TR.widths, f.fields)
  | .thrMovi f => some (0x14, TIMov.widths, f.fields)
  | .thrAddi f => some (0x15, TIAdd.widths, f.fields)
  | .thrVext f => some (0x16, TRLane.widths, f.fields)
  | .thrVbc f => some (0x17, TRLane.widths, f.fields)
  | .thrPld f => some (0x18, TM.widths, f.fields)
  | .thrPst f => some (0x19, TM.widths, f.fields)
  | .thrHdr f => some (0x1A, TRLane.widths, f.fields)
  | .thrBld f => some (0x1B, TM.widths, f.fields)
  | .thrBst f => some (0x1C, TM.widths, f.fields)
  | .thrBamo f => some (0x1D, TRBamo.widths, f.fields)
  | .thrBr f => some (0x1E, TC.widths, f.fields)
  | .thrBc f => some (0x1F, TC.widths, f.fields)
  | .thrLoopi f => some (0x20, TC.widths, f.fields)
  | .thrFwd f => some (0x21, TC.widths, f.fields)
  | .thrDrop f => some (0x22, TC.widths, f.fields)
  | .thrRedir f => some (0x23, TC.widths, f.fields)
  | .thrTrap f => some (0x24, TC.widths, f.fields)
  | .thrEnd f => some (0x25, TC.widths, f.fields)
  | _ => none

/-- The thresher word of an instruction (R429). -/
def encodeThr (i : Instr) : Nat :=
  match thrFields i with
  | none => 0
  | some (opc, ws, vs) => pack ws vs + 2 ^ 26 * opc

/-- The words of an instruction: one op word of 64 bits or one thresher word of 32; an event has none. -/
def encode (i : Instr) : List Nat :=
  if (thrFields i).isSome then [encodeThr i] else if (opFields i).isSome then [encodeOp i] else []

end Sys2Proof
end

