-- ==== Sys2Proof/Machine/Num.lean ====
section
/-! DEFINITION. Numbers to the bit (R45 to R57): exact reals, the formats, rounding, overflow, comparison and the draw. -/

namespace Sys2Proof

/-- Width of an element of format `t` in bits (R107); 8 for the block formats and RAW (R132, R233). -/
def Fmt.width : Fmt → Nat
  | .fp32 | .int32 => 32
  | .fp16 | .bf16 | .int16 => 16
  | _ => 8

def Fmt.isFloat : Fmt → Bool
  | .fp32 | .fp16 | .bf16 => true
  | _ => false

def Fmt.isInt : Fmt → Bool
  | .int8 | .int16 | .int32 => true
  | _ => false

def Fmt.isSx : Fmt → Bool
  | .sx3 | .sx5 | .sx8 => true
  | _ => false

/-- Exponent and fraction bits of a float format (R46). -/
def Fmt.floatBits : Fmt → Nat × Nat
  | .fp16 => (5, 10)
  | .bf16 => (8, 7)
  | _ => (8, 23)

end Sys2Proof

namespace Sys2Proof.Machine

/-- An exact real result before rounding: (−1)^neg · m · 2^e, or, when `sticky`, a real strictly between
m · 2^e and (m + 1) · 2^e in magnitude. The maker of a sticky value supplies at least 34 bits below the
last place it can be rounded to, so that every comparison of R53 is decided. -/
inductive Num where
  | nan
  | inf (neg : Bool)
  | fin (neg : Bool) (m : Nat) (e : Int) (sticky : Bool)
  deriving DecidableEq, Repr

/-- Zero with a sign. -/
def Num.zero (neg : Bool) : Num := .fin neg 0 0 false

/-- An integer as a number; 0 is +0. -/
def Num.ofInt (i : Int) : Num := .fin (decide (i < 0)) i.natAbs 0 false

def Num.isNan : Num → Bool
  | .nan => true
  | _ => false

def Num.isFinite : Num → Bool
  | .fin .. => true
  | _ => false

def Num.isZero : Num → Bool
  | .fin _ m _ st => m == 0 && !st
  | _ => false

def Num.sign : Num → Bool
  | .nan => false
  | .inf n => n
  | .fin n _ _ _ => n

/-- −x; a NaN stays NaN. -/
def Num.neg : Num → Num
  | .nan => .nan
  | .inf n => .inf (!n)
  | .fin n m e s => .fin (!n) m e s

/-- |x|. -/
def Num.abs : Num → Num
  | .nan => .nan
  | .inf _ => .inf false
  | .fin _ m e s => .fin false m e s

/-- x · 2^k exactly. -/
def Num.scale (x : Num) (k : Int) : Num :=
  match x with
  | .fin n m e s => .fin n m (e + k) s
  | y => y

/-! ### Formats (R45, R46) -/

/-- Bits of +infinity in a float format. -/
def infBits (t : Fmt) : Nat := (2 ^ t.floatBits.1 - 1) * 2 ^ t.floatBits.2

/-- The canonical NaN of R47. -/
def canonNan (t : Fmt) : Nat := infBits t + 2 ^ (t.floatBits.2 - 1)

/-- The sign bit's weight. -/
def signBit (t : Fmt) : Nat := 2 ^ (t.floatBits.1 + t.floatBits.2)

/-- The exponent of the last place of a subnormal: 1 − bias − fraction bits. -/
def minExp (t : Fmt) : Int := 2 - (2 ^ (t.floatBits.1 - 1) : Nat) - (t.floatBits.2 : Nat)

/-- The value of the bits `w` in a float format (R46). -/
def decodeFloat (t : Fmt) (w : Nat) : Num :=
  let mb := t.floatBits.2
  let neg := (w / signBit t) % 2 == 1
  let ef := (w / 2 ^ mb) % 2 ^ t.floatBits.1
  let fr := w % 2 ^ mb
  if ef == 2 ^ t.floatBits.1 - 1 then (if fr == 0 then .inf neg else .nan)
  else if ef == 0 then .fin neg fr (minExp t) false
  else .fin neg (2 ^ mb + fr) (minExp t + (ef - 1 : Nat)) false

/-- The two's complement value of the low `w` bits of `v` (R50). -/
def signedOf (w v : Nat) : Int :=
  let u := v % 2 ^ w
  if u < 2 ^ (w - 1) then (u : Int) else (u : Int) - (2 ^ w : Nat)

/-- The two's complement encoding of an integer in `w` bits (wraps modulo 2^w, R50). -/
def wrapInt (w : Nat) (i : Int) : Nat := (i % ((2 ^ w : Nat) : Int)).toNat

/-- Saturation to the signed range of `w` bits (R50). -/
def satInt (w : Nat) (i : Int) : Int :=
  let hi : Int := (2 ^ (w - 1) : Nat) - 1
  let lo : Int := -((2 ^ (w - 1) : Nat) : Int)
  if i > hi then hi else if i < lo then lo else i

/-- The value of an element in one of the formats 0 to 5. -/
def decodeElem (t : Fmt) (w : Nat) : Num :=
  if t.isFloat then decodeFloat t w else Num.ofInt (signedOf t.width w)

/-! ### Rounding (R51 to R55) -/

/-- Whether the magnitude rounds away from zero, given the discarded part `rem` of 2^shift, whether it
is more than `rem`, the last kept bit, and the draw. Exact values never reach the modes. -/
def roundsUp (mode : RMode) (neg odd : Bool) (rem shift : Nat) (sticky : Bool) (r : Nat) : Bool :=
  if rem == 0 && !sticky then false
  else
    let twice := 2 * rem
    let unit := 2 ^ shift
    let above := decide (twice > unit) || (twice == unit && sticky)
    let tie := twice == unit && !sticky
    match mode with
    | .rne => above || (tie && odd)
    | .rna => above || tie
    | .rtz => false
    | .rup => !neg
    | .rdn => neg
    | .sr =>
      if sticky then decide (r * 2 ^ (shift - 32) ≤ rem)
      else decide (r * 2 ^ shift < rem * 2 ^ 32)

/-- The magnitude m · 2^e as a multiple of 2^q, rounded by `mode` with draw `r`. -/
def roundMag (mode : RMode) (neg : Bool) (m : Nat) (e : Int) (sticky : Bool) (q : Int) (r : Nat) : Nat :=
  if q ≤ e then m * 2 ^ (e - q).toNat
  else
    let sh := (q - e).toNat
    let k := m / 2 ^ sh
    if roundsUp mode neg (k % 2 == 1) (m % 2 ^ sh) sh sticky r then k + 1 else k

/-- `overflow(s, mode, fmt)` of R54, with `.sat`. -/
def overflowBits (t : Fmt) (mode : RMode) (neg sat : Bool) : Nat :=
  let fin := match mode with
    | .rtz => true
    | .rup => neg
    | .rdn => !neg
    | _ => false
  (if sat || fin then infBits t - 1 else infBits t) + (if neg then signBit t else 0)

/-- A rounded element and whether `overflow` was called (R68). -/
structure Rounded where
  bits : Nat
  ovf : Bool
  deriving DecidableEq, Repr

/-- `round(v, mode, fmt, r)` of R53 into a float format. -/
def roundFloat (t : Fmt) (mode : RMode) (sat : Bool) (r : Nat) (v : Num) : Rounded :=
  match v with
  | .nan => ⟨canonNan t, false⟩
  | .inf n => ⟨infBits t + (if n then signBit t else 0), false⟩
  | .fin n m e st =>
    if m == 0 && !st then ⟨if n then signBit t else 0, false⟩
    else
      let q := max (e + (Nat.log2 m : Nat) - (t.floatBits.2 : Nat)) (minExp t)
      let k := roundMag mode n m e st q r
      let b := (q - minExp t).toNat * 2 ^ t.floatBits.2 + k
      if b ≥ infBits t then ⟨overflowBits t mode n sat, true⟩
      else ⟨b + (if n then signBit t else 0), false⟩

/-- A finite value rounded to an integer by R53. -/
def roundInt (mode : RMode) (r : Nat) (v : Num) : Int :=
  match v with
  | .fin n m e st =>
    let k : Int := roundMag mode n m e st 0 r
    if n then -k else k
  | _ => 0

/-- Float to integer of `w` bits (R55): rounds, saturates; NaN gives 0. -/
def toInt (w : Nat) (mode : RMode) (r : Nat) (v : Num) : Rounded :=
  match v with
  | .nan => ⟨0, false⟩
  | .inf n => ⟨wrapInt w (if n then -((2 ^ (w - 1) : Nat) : Int) else (2 ^ (w - 1) : Nat) - 1), true⟩
  | x =>
    let i := roundInt mode r x
    ⟨wrapInt w (satInt w i), satInt w i != i⟩

/-- Conversion of an exact value into one of the formats 0 to 5 by R53 to R55. -/
def convertTo (t : Fmt) (mode : RMode) (sat : Bool) (r : Nat) (v : Num) : Rounded :=
  if t.isInt then toInt t.width mode r v else roundFloat t mode sat r v

/-! ### Exact arithmetic (R48) -/

/-- The signed integer of a finite number at exponent `q ≤ e`. -/
def atExp (n : Bool) (m : Nat) (e q : Int) : Int :=
  let k : Int := m * 2 ^ (e - q).toNat
  if n then -k else k

/-- The exact sum; zeros by R48 under `mode`. -/
def addNum (mode : RMode) (x y : Num) : Num :=
  match x, y with
  | .nan, _ => .nan
  | _, .nan => .nan
  | .inf a, .inf b => if a == b then .inf a else .nan
  | .inf a, _ => .inf a
  | _, .inf b => .inf b
  | .fin a m e _, .fin b k f _ =>
    if m == 0 && k == 0 && a == b then Num.zero a
    else
      let q := min e f
      let s := atExp a m e q + atExp b k f q
      if s == 0 then Num.zero (mode == .rdn)
      else .fin (decide (s < 0)) s.natAbs q false

/-- The exact product. -/
def mulNum (x y : Num) : Num :=
  match x, y with
  | .nan, _ => .nan
  | _, .nan => .nan
  | .inf a, y => if y.isZero then .nan else .inf (a != y.sign)
  | x, .inf b => if x.isZero then .nan else .inf (x.sign != b)
  | .fin a m e _, .fin b k f _ => .fin (a != b) (m * k) (e + f) false

/-- The exact a·b + c of a fused multiply-add. -/
def fmaNum (mode : RMode) (a b c : Num) : Num := addNum mode (mulNum a b) c

/-- a − b, taken as a + (−b) (R48). -/
def subNum (mode : RMode) (a b : Num) : Num := addNum mode a b.neg

/-! ### Comparison (R49, R113, R117) -/

/-- x < y as reals, neither NaN; −0 and +0 are equal. -/
def ltNum (x y : Num) : Bool :=
  match x, y with
  | .nan, _ => false
  | _, .nan => false
  | .inf a, .inf b => a && !b
  | .inf a, _ => a
  | _, .inf b => !b
  | .fin a m e _, .fin b k f _ => decide (atExp a m e (min e f) < atExp b k f (min e f))

def eqNum (x y : Num) : Bool := !x.isNan && !y.isNan && !ltNum x y && !ltNum y x

/-- The float comparison of R117: with a NaN only ne holds. -/
def floatCond (c : Cond) (x y : Num) : Bool :=
  if x.isNan || y.isNan then c == .ne
  else match c with
    | .eq => eqNum x y
    | .ne => !eqNum x y
    | .lt => ltNum x y
    | .le => ltNum x y || eqNum x y
    | .gt => ltNum y x
    | .ge => ltNum y x || eqNum x y
    | _ => false

/-- The integer comparison of R113 on `w`-bit values. -/
def intCond (c : Cond) (w a b : Nat) : Bool :=
  let s := signedOf w a
  let t := signedOf w b
  match c with
  | .eq => a == b
  | .ne => a != b
  | .lt => decide (s < t)
  | .le => decide (s ≤ t)
  | .gt => decide (s > t)
  | .ge => decide (s ≥ t)
  | .ltu => decide (a < b)
  | .leu => decide (a ≤ b)
  | .gtu => decide (a > b)
  | .geu => decide (a ≥ b)

/-- R49: x orders below y, −0 below +0. -/
def belowNum (x y : Num) : Bool :=
  ltNum x y || (eqNum x y && x.sign && !y.sign)

/-- The minimum of R49. -/
def minNum (x y : Num) : Num :=
  if x.isNan then y else if y.isNan then x else if belowNum y x then y else x

/-- The maximum of R49. -/
def maxNum (x y : Num) : Num :=
  if x.isNan then y else if y.isNan then x else if belowNum x y then y else x

/-! ### The stochastic draw (R56) -/

def mix64 (z : BitVec 64) : BitVec 64 :=
  let z := (z ^^^ (z >>> 30)) * 0xBF58476D1CE4E5B9#64
  let z := (z ^^^ (z >>> 27)) * 0x94D049BB133111EB#64
  z ^^^ (z >>> 31)

/-- What an op captures at its issue for its draws (R72): SRSEED, SEQ and the strand number. -/
structure Draw where
  seed : BitVec 64
  seq : Nat
  strand : Nat
  deriving DecidableEq, Repr

/-- `sr_draw(e)`: a 32-bit draw. -/
def srDraw (d : Draw) (e : Nat) : Nat :=
  (mix64 (mix64 (d.seed ^^^ BitVec.ofNat 64 d.seq) ^^^
    BitVec.ofNat 64 ((d.strand % 2 ^ 32) * 2 ^ 32 + e))).toNat % 2 ^ 32

end Sys2Proof.Machine
end

