-- ==== Sys2Proof/Machine/State.lean ====
section
/-! DEFINITION. The state of the machine, as plain data: the core with the strand it runs, the device around it, memory,
the thresher's invocation, and the model's own two fields (`agenda` and `freeCtr`, log 2 and 5). -/

namespace Sys2Proof.Machine

/-! ### Outcomes -/

/-- Why the machine stops. -/
inductive Fault where
  /-- Raised by a step with no power, after OVERTEMP_POWER_OFF or POWER_DOWN (R459, R202): nothing runs until the next
  cold start. Safe: the machine stops where the hardware is off. -/
  | poweredOff
  deriving DecidableEq, Repr

/-- Why an instruction has no effect in the model. -/
inductive Refusal where
  /-- Raised by an arm of `exec` that has no meaning yet. Safe: the machine stops. -/
  | notModelled (mnemonic : String)
  /-- Raised by a step on a thresher word that the kernel load refuses (R431, R445): it never runs. Safe. -/
  | illegalThresherWord
  deriving DecidableEq, Repr

/-! ### Registers of a strand (R8, R19, R474) -/

/-- A chute or rick handle register (R12, R215). -/
inductive Handle where
  | invalid
  | valid (name : ClaimName)
  | dead (name : ClaimName)
  deriving DecidableEq, Repr

/-- The loops of an affine record (R288): bound, source stride, destination stride, outermost first. -/
structure Loop where
  bound : Nat
  sstride : Int
  dstride : Int
  deriving DecidableEq, Repr

/-- An affine pattern (R288, R290). -/
structure Affine where
  dst : X64
  src : X64
  elem : Nat
  loops : List Loop
  deriving DecidableEq, Repr

/-- The kind of a page (R224). -/
inductive Kind where
  | so | rc | un
  deriving DecidableEq, Repr

/-- A piece of a far access under one entry (R237, R251): the home byte's global address, its length and its kind;
`lost` says its device is declared lost (R387); `entry` is the entry's base, by which an access is split. -/
structure Part where
  addr : Nat
  len : Nat
  kind : Kind
  lost : Bool
  entry : Nat := 0
  deriving DecidableEq, Repr

/-- The parts of a split access, each with its pieces under one entry (R237, R251). -/
def partGroups : List Part → List (List Part)
  | [] => []
  | p :: t =>
    match partGroups t with
    | (q :: g) :: gs => if p.entry = q.entry then (p :: q :: g) :: gs else [p] :: (q :: g) :: gs
    | gs => [p] :: gs

/-- A bound stream register (R291 to R295): the direction, the pattern, how many images the program has taken or supplied,
the bundle of its STRB (R277), the home pieces of its pattern (R304), and the lowest error code met before its strand was
last saved (R278). -/
structure Stream where
  dir : Dir
  pat : Affine
  taken : Nat
  bundle : Nat
  home : List Part
  code : Nat
  deriving DecidableEq, Repr

/-- The stream engine's side of a binding: the images fetched and not read, with their poison; the images released and not
yet performed, each with the cycle in which it is appended, in that order (R293); how many images it has fetched or
performed, and the lowest error code met (R278). -/
structure StreamEngine where
  images : List (VBits × BitVec 64)
  coming : List (Nat × VBits × BitVec 64)
  moved : Nat
  code : Nat
  deriving DecidableEq, Repr

def StreamEngine.empty : StreamEngine := { images := [], coming := [], moved := 0, code := 0 }

/-- An entry of the atomic return queue (R300): its AMO, and the value once filled, with its poison. -/
structure ArqEntry where
  id : Nat
  value : Option (X64 × Bool)
  deriving DecidableEq, Repr

/-- The REP in progress (R35): the body's first bundle, the body's next bundle, its length in bundles, the bundles left in
this pass and the passes left after it. A bundle at another address (a handler's) is not of the body (log 16). -/
structure RepState where
  start : Nat
  cursor : Nat
  len : Nat
  left : Nat
  passes : Nat
  deriving DecidableEq, Repr

/-- The pinned range of LOOPB (R36): its first bundle, bundles still to be found, the addresses found, and the words of those
that the buffer holds. -/
structure LoopBuf where
  start : Nat
  left : Nat
  addrs : List Nat
  words : List (Nat × List Nat)
  deriving DecidableEq, Repr

/-- The system registers of a strand that a rollback restores (R349, R474). -/
structure SysRegs where
  rmode : X64
  srseed : X64
  lscale : X64
  lsmin : X64
  lsmax : X64
  lsgrow : X64
  lsstat : X64
  lssat : X64
  chkctl : X64
  trapv : X64
  trapc : X64
  trappc : X64
  trapval : X64
  poison : X64
  collto : X64
  errinj : X64
  chst : X64
  lswz : Vector X64 8
  bka : Vector X64 4
  bkm : Vector X64 4
  bkc : Vector X64 4
  deriving DecidableEq, Repr

/-- The register files of a strand with their poison bits (R8, R358), and the rest of the context that R349 restores. -/
structure Regs where
  x : Vector X64 64
  v : Vector VBits 64
  p : Vector PBits 16
  a : Vector ABits 4
  xPoison : Vector Bool 64
  vPoison : Vector (BitVec 64) 64
  pPoison : Vector Bool 16
  aPoison : Vector Bool 4
  ch : Vector Handle 8
  k : Vector Handle 4
  n : Vector ClaimName 8
  q : Vector (Option Stream) 8
  rrb : X64
  seq : Nat
  arq : List ArqEntry
  rep : Option RepState
  loopb : Option LoopBuf
  epi : List (BitVec 32)
  sys : SysRegs
  deriving DecidableEq, Repr

/-! ### Results on their way -/

/-- A register and the value a result writes to it; numbers are physical (R14). `ovfs` is the completion of a scaled conversion,
which sets OVFS where its argument says so (R68); `loaded` counts a load that delivered poison (R362); `brk` sets CHST.BRK of a
handle (R199); `uninject` clears ERRINJ.TARGET (R375). -/
inductive Dest where
  | x (n : Nat) (v : X64) (poison : Bool)
  | v (n : Nat) (v : VBits) (mask : PBits) (poison : BitVec 64)
  | p (n : Nat) (v : PBits) (mask : PBits) (poison : Bool)
  | a (n : Nat) (v : ABits) (poison : Bool)
  | name (n : Nat) (v : ClaimName)
  | ch (n : Nat) (h : Handle)
  | k (n : Nat) (h : Handle)
  | ovfs (set : Bool)
  | loaded
  | brk (n : Nat)
  | uninject
  deriving DecidableEq, Repr

/-- A fixed-latency result in flight (R28 to R33): where it goes, the scheduled cycle at which it lands, its bundle and
slot, whether a read before that may return it (R31, R351), and whether a later bundle's write has landed before it: then it writes
nothing, and only a read before its time still meets it (R32). -/
structure PWrite where
  dest : Dest
  due : Nat
  bundle : Nat
  slot : Nat
  slip : Bool
  dead : Bool := false
  deriving DecidableEq, Repr

/-- A register that an interlocked result will write (R29). -/
inductive RegName where
  | x (n : Nat)
  | v (n : Nat)
  | ch (n : Nat)
  | k (n : Nat)
  | n (n : Nat)
  deriving DecidableEq, Repr

/-- An outstanding interlocked result: its register, the operation that will write it, that operation's bundle and slot,
whether its command still waits in the store gate (R347), and the bundles of the later writes of its register (R32). -/
structure Inter where
  reg : RegName
  id : Nat
  bundle : Nat
  slot : Nat
  gated : Bool
  later : List Nat
  deriving DecidableEq, Repr

/-- How a vector access moves elements between memory and a register (R233, R234): bits unchanged, element by element
converted, SX blocks, a BFP64 block, or bytes. -/
inductive Move where
  | bits | conv | sx | bfp | bytes
  deriving DecidableEq, Repr

/-- The shape of a vector access: the width and number of its register elements, how they move, and the bytes of a memory
element. -/
structure Shape where
  rw : Nat
  n : Nat
  mv : Move
  e : Nat
  deriving DecidableEq, Repr

/-- A unit of a vector access (R236): the register elements it covers and its bytes, as ranges of addresses in order. -/
structure Piece where
  elems : List Nat
  ranges : List (Nat × Nat)
  deriving DecidableEq, Repr

/-- How a load's bytes become its register's value: a scalar of `width` bytes, or vector elements. -/
inductive LoadForm where
  | scalar (unsigned : Bool)
  | vector (sh : Shape) (t : Fmt) (fmt : Fmt) (geo : Geo) (units : List (List Nat × Nat)) (guard : PBits) (gpois : Bool)
  deriving DecidableEq, Repr

/-- A far load in flight (R242): the pieces it reads, in byte order, how they are written to its register, the bytes of its
parts that have been performed (R251), and the stream that takes its image in place of a register (R238, R293). -/
structure FarLoad where
  id : Nat
  strand : Nat
  bundle : Nat
  slot : Nat
  acq : Bool
  parts : List Part
  form : LoadForm
  reg : Nat
  inject : Bool
  got : List (Nat × List (Byte × Bool)) := []
  stream : Option Nat := none
  deriving DecidableEq, Repr

/-- The numbers of a load's parts that are still to be performed; a load of no byte has one empty part. -/
def FarLoad.todo (l : FarLoad) : List Nat :=
  if l.parts.isEmpty then [0] else (List.range (partGroups l.parts).length).filter (fun i => !l.got.any (fun q => q.1 == i))

/-- The pieces of part `i` of a load. -/
def FarLoad.part (l : FarLoad) (i : Nat) : List Part := (partGroups l.parts).getD i []

/-- The pieces still to be performed. -/
def FarLoad.left (l : FarLoad) : List Part := (l.todo.map l.part).flatten

/-- Bytes a store will write: the cells in writing order, the poison of its bytes, whether it sets OVFS (R68) when
performed, and whether it carries .ls or .lsn (R71). -/
structure StoreData where
  cells : List Host.Cell
  poisoned : List Nat
  ovfs : Bool
  scaled : Bool := false
  deriving DecidableEq, Repr

/-- An atomic's operation (R254): AMO, RED or CASN; `po` is the poison of its operands. -/
inductive AtomOp where
  | amo (op : AmoOp) (b c : X64) (po : Bool)
  | red (op : RedOp) (b : X64) (po : Bool)
  | bfp (lanes : VBits) (poisoned : Bool)
  | casn (exp new : ClaimName) (live : Bool) (nb : Nat) (bVal : ClaimName)
  deriving DecidableEq, Repr

/-- A far store, atomic or reduction that has left the gate or waits in it (R242, R302): the pieces that it is performed at, those of the
other parts of a split one that have been performed (R251), and whether one of them found its device lost (R387). -/
structure FarOp where
  id : Nat
  strand : Nat
  bundle : Nat
  slot : Nat
  rel : Bool
  parts : List Part
  data : StoreData
  atom : Option AtomOp
  bytes : Nat
  tok : Nat
  performed : List Part := []
  missed : Bool := false
  deriving DecidableEq, Repr

/-- What a conversion captures at issue (R72, R304). -/
structure Snap where
  mode : RMode
  k : Int
  draw : Draw
  deriving DecidableEq, Repr

/-- A run of a copy (R284, R290) with its home pieces: the format and geometry of its source, its number of source
bytes, and the index of its first element. -/
structure CopyRun where
  src : List Part
  dst : List Part
  fs : Fmt
  gs : Geo
  len : Nat
  first : Nat
  deriving DecidableEq, Repr

/-- A copy command (R282, R289); the K of its snapshot carries the sign of its scale selection. -/
structure CopyCmd where
  t : Fmt
  scaled : Bool
  snap : Snap
  runs : List CopyRun
  deriving DecidableEq, Repr

/-- The commands of the rick engine (R323). -/
inductive RickOp where
  | push (skip : Bool) (len : Nat) (t : Fmt) (src : Nat) (fs : Fmt) (gs : Geo) (scaled : Bool) (snap : Snap)
  | pushTile (len : Nat) (t : Fmt) (bytes : List Byte) (poisoned ovfs scaled : Bool)
  | pop (dst : Nat)
  | mark
  | split (n : Nat)
  | join (n : Nat)
  | query (dst : Nat)
  | inject (tile : Nat)
  deriving DecidableEq, Repr

/-- A rick command: the rick's name, the segment and the operation. -/
structure RickCmd where
  rick : ClaimName
  seg : Nat
  op : RickOp
  deriving DecidableEq, Repr

/-- A collective's captured record (R405): its address, its home pieces, its fields, the own rank and the digest of
R408. -/
structure CollRec where
  addr : X64
  home : List Part
  name : ClaimName
  key : X64
  n : Nat
  alg : Nat
  arith : Nat
  dfmt : Bool
  levels : Nat
  accsteps : Nat
  ntile : Nat
  tileq : Nat
  timeout : Nat
  work : Nat
  glean : Nat
  kernel : ClaimName
  bounds : List Nat
  speer : List Int
  stile : List Int
  rpeer : List Int
  rtile : List Int
  members : List Nat
  digest : BitVec 32
  rank : Nat
  deriving DecidableEq, Repr

/-- The engine commands that a token completes (R278); `chwait` is a commit that waits with its number (R146). -/
inductive Cmd where
  | copy (c : CopyCmd)
  | rick (c : RickCmd)
  | claim (nh : Nat) (ty : ClaimType) (base size : X64) (home : Nat)
  | retire (name : ClaimName)
  | chcommit (chute : ClaimName) (value : X64)
  | chwait (chute : ClaimName) (number : Nat)
  | send (peer tag src k : Nat) (gone : Bool)
  | recv (peer tag dst k : Nat) (msg : Option LinkMsg)
  | coll (r : CollRec) (src dst : List Part)
  | resolve (name : ClaimName) (ty : ClaimType)
  | qclaim (name : ClaimName) (dst : Nat)
  | chopen (chute : ClaimName)
  | stru (q : Nat)
  | popq
  deriving DecidableEq, Repr

/-- An engine command in flight: its number, its strand, bundle, slot, the physical token register (0: none, R280) and, once every
access is performed, the token. `begun` says that a SEND reads its source (R392), and `kept` holds what stores have replaced of the source
of a SEND since then, and of a COLL that has not forked, the strand's later stores since its release (R423). -/
structure Engine where
  id : Nat
  strand : Nat
  bundle : Nat
  slot : Nat
  tok : Nat
  cmd : Cmd
  done : Option X64
  begun : Bool := false
  kept : List (Nat × (Byte × Bool)) := []
  deriving DecidableEq, Repr

/-! ### The matrix unit -/

/-- An MMA in flight (R143, R149): the op with what it captured at issue and the accumulator before it, for each operand its chute's
name, first slot and number of slots, when its feed ends and when it retires, and whether its pop is released. -/
structure MmaFlight where
  id : Nat
  bundle : Nat
  op : MM
  snap : Snap
  input : ABits
  inPoison : Bool
  chutes : List (ClaimName × Nat × Nat)
  fed : Nat
  due : Nat
  released : Bool
  deriving DecidableEq, Repr

/-- The matrix array (R140, R160, R161): until when the feed is busy, the duty, when it last stepped, the interval to
its next step and its direction, the operands staged, the MMAs not yet popped, and until when the drain engine is busy (R152). -/
structure Matrix where
  feedUntil : Nat
  duty : Nat
  dutyAt : Nat
  ramp : Nat
  feeding : Bool
  staged : List ClaimName
  mmas : List MmaFlight
  drainUntil : Nat
  launch : Option Nat := none
  deriving DecidableEq, Repr

/-! ### The store gate (R345) -/

/-- What waits in the gate; `imageOf` is the place of an image that a far load still brings. -/
inductive GateOp where
  | store (d : StoreData)
  | output (d : StoreData)
  | far (f : FarOp)
  | tag (first count : Nat) (fmt : Fmt) (geo : Geo)
  | image (q land : Nat) (v : VBits) (poison : BitVec 64)
  | imageOf (q load : Nat)
  | cmd (e : Engine)
  | drainChute (d : StoreData) (chute : ClaimName)
  | drainPush (d : StoreData) (e : Engine)
  | pop (mma : Nat)
  deriving DecidableEq, Repr

structure GateEntry where
  bundle : Nat
  slot : Nat
  op : GateOp
  deriving DecidableEq, Repr

/-! ### Translation (R224) -/

/-- A table entry. -/
structure Entry where
  vbase : Nat
  size : Nat
  dev : Nat
  pbase : Nat
  fmt : Fmt
  geo : Geo
  kind : Kind
  win : Bool
  r : Bool
  w : Bool
  x : Bool
  sync : Bool
  migrating : Bool
  absent : Bool
  deriving DecidableEq, Repr

/-! ### The core -/

/-- A lookup fault found after issue (R230, R352): the cause and the lowest failing byte address. -/
structure LFault where
  cause : Nat
  addr : X64
  deriving DecidableEq, Repr

/-- The place of an op in issue (R22, R30): its slot, its bundle's number, address and CTL, the address after the bundle,
the scheduled cycle of its bundle, RRB as it governs the bundle (R14), whether the bundle is of a REP body or of the
pinned loop (R16), and the SEQ that the op has received at its dispatch, where it receives one (R56). -/
structure Ctx where
  slot : Nat
  bundle : Nat
  addr : Nat
  after : Nat
  ctl : Ctl
  sched : Nat
  rrb : X64
  loop : Bool
  seq : Nat := 0
  deriving DecidableEq, Repr

/-- What a waiting strand waits for (R177), or what a strand that has issued its wait will receive (BARG, SVC). A chute wait
is for a number of committed slots, or, at 0, for space. -/
inductive WaitFor where
  | barg (group : ClaimName) (phase : Nat)
  | svc
  | chute (name : ClaimName) (slots : Nat)
  | nextt
  | send (peer entries : Nat)
  | recv (peer : Nat)
  | other
  deriving DecidableEq, Repr

/-- An op in its slot's queue (R22); once it has had to wait (R23), what for and since which cycle. -/
structure Slotted where
  ctx : Ctx
  op : Instr
  wait : Option WaitFor
  since : Nat
  deriving DecidableEq, Repr

/-- Where the next bundle comes from once the current one has issued (R119): the one after it, the first of a REP body for
its next pass (R35), or the target of a taken branch. -/
inductive Next where
  | seq
  | again (addr : Nat)
  | taken (addr : Nat)
  deriving DecidableEq, Repr

/-- Dispatch and issue: the next bundle's address and number, its scheduled cycle (R30), the ops dispatched and not issued, the
eight queues together, in bundle and slot order (R22), by how many bundles each slot trails the next one (R24), by how many a slot
that has waited at dispatch may still trail (R23, R24, log 4), the idle cycles before the next dispatch (R27), the bundle dispatched last, the op in issue, whether it is an MMA for which the array has kept its duty (R161), what it waits for where it has not issued,
results in flight, what control selected, whether a slot slips (R31), the lookup fault pending, what the strand waits for after
issuing (BARG, SVC) and the register it will write, whether the next bundle follows a RETT (R356), whether the strand waits for
an absent page (R352), and whether the core is halted at its restart point (R364). -/
structure Issue where
  pc : Nat
  bundle : Nat
  sched : Nat
  iq : List Slotted
  lag : Vector Nat 8
  drift : Nat
  stall : Nat
  top : Ctx
  cur : Ctx
  waited : Bool
  held : Option WaitFor
  pend : List PWrite
  next : Next
  slip : Bool
  fault : Option LFault
  waits : Option WaitFor
  waitReg : Nat
  rett : Bool
  absent : Bool
  halted : Bool
  deriving DecidableEq, Repr

/-- The state at the last committed restart point (R349) and the results of earlier bundles still in flight there. -/
structure Shadow where
  regs : Regs
  pend : List PWrite
  pc : Nat
  bundle : Nat
  deriving DecidableEq, Repr

/-- Counters of the running strand (R20, R194): cycles, energy in 1/64 µJ, cycles since pickup, and how long its op has
waited. -/
structure Meter where
  cycle : Nat
  energy : Nat
  since : Nat
  waited : Nat
  gddr : Nat := 0
  evgil : Nat := 0
  deriving DecidableEq, Repr

/-- The core: registers and allocation (R8, R13), issue, the last committed restart point (R349), the store gate (R345),
the outstanding interlocked results, far loads, far-store queue and engine commands (R242, R287, R324), the matrix unit,
the accumulators targeted in the interval (R350), the locked table, whose list it holds and for which launch (R224, R227), the claim cache
(R206), the instruction cache (R37; each line by its number, with the line after it as both stood when it was filled, log 10), the strand it runs, its cycles since reset, the strand's counters, a shoot-down
request (R368), the numbering of operations, and the SLICE of the strand's class and the WAITQ that were in force at the last pick (R482). -/
structure Core where
  regs : Regs
  nV : Nat
  nA : Nat
  iss : Issue
  shadow : Shadow
  gate : List GateEntry
  inter : List Inter
  loads : List FarLoad
  fars : List FarOp
  engs : List Engine
  strm : Vector StreamEngine 8
  mx : Matrix
  accs : List Nat
  table : List Entry
  tableOf : Option Nat
  tableLaunch : Option Nat := none
  cache : List ClaimName
  icache : List (Nat × List Byte)
  running : Option Nat
  number : Nat
  tenant : Nat
  now : Nat
  meter : Meter
  shootDown : Bool
  opId : Nat
  slice : Nat := 2 ^ 20
  waitq : Nat := 4096
  deriving DecidableEq, Repr

/-! ### Strands and blocks -/

/-- The states of R168. -/
inductive StrandState where
  | runnable | running | waiting | parked | trapped | done | killed
  deriving DecidableEq, Repr

/-- A strand of the die's scheduler (R166 to R168): the record's fields, the saved context, and what its block and
groups need. `pool`: its record and save area lie in a reaper pool, at no architectural place (R184); `ending`: it has left
the core for good and STRAND_END is due (R176); `rett`: it goes on as after RETT (R178); `byFence`: a fence has parked it
(R470); `issuing`: a serialising op whose restart point is committed and whose wait is not over (R344); `saved`: what the free
bytes of its last save are drawn from (R171). -/
structure Strand where
  recAddr : Nat
  pool : Bool
  number : Nat
  tenant : Nat
  cls : Nat
  cluster : Nat
  cores : BitVec 8
  nA : Nat
  nV : Nat
  state : StrandState
  fresh : Bool
  groupsAddr : X64
  save : X64
  xlive : X64
  vlive : BitVec 32
  plive : BitVec 16
  alive : BitVec 4
  full : Bool
  pendMask : X64
  arg : X64
  pc : Nat
  regs : Regs
  pending : List Inter
  cycle : Nat
  energy : Nat
  gddr : Nat := 0
  evgil : Nat := 0
  block : Option Nat
  persistent : Bool
  groups : List (ClaimName × Nat)
  waits : Option WaitFor
  waitReg : Nat
  since : Nat
  debugHold : Bool
  wasWaiting : Bool
  broken : Nat
  ending : Bool
  rett : Bool
  byFence : Bool
  issuing : List Slotted
  saved : Nat
  deriving DecidableEq, Repr

/-- A loop level of an operator block (R184). -/
structure Level where
  start : X64
  bound : Nat
  stride : Int
  deriving DecidableEq, Repr

/-- A template record (R183). -/
structure Template where
  pc : X64
  srseed : X64
  nA : Nat
  nV : Nat
  chk : Nat
  lsgrow : Nat
  lsmax : BitVec 8
  lsmin : BitVec 8
  lscale : BitVec 8
  rmode : Nat
  lswz : List Nat
  deriving DecidableEq, Repr

/-- An operator block being run (R184 to R191); `launch` numbers its launch, `killedAt` is the cycle of its first kill, `ballast` what
its launch has been charged of ballast (R161), and `home` where its completion record lay when the block was read. -/
structure Block where
  tenant : Nat
  template : Template
  pcount : Nat
  cores : BitVec 8
  die : Nat
  clusters : BitVec 16
  scope : Nat
  serial : Bool
  cls : Nat
  persist : Bool
  completion : X64
  home : List Part
  seq : X64
  strandBase : Nat
  levels : List Level
  args : List X64
  sheaves : Nat
  placed : Nat
  drawn : Nat
  checked : Bool
  rejected : Option Nat
  complete : Bool
  killed : Nat
  cause : Nat
  firstKilled : Nat
  killedAt : Nat
  trappc : X64
  trapval : X64
  energy : Nat
  cycles : Nat
  broken : Nat
  debugHold : Bool
  names : List ClaimName
  ricks : List ClaimName
  launch : Nat := 0
  ballast : Nat := 0
  deriving DecidableEq, Repr

/-- The scheduler's deficits and round-robin pointers (R195): DEF by class and tenant, RR by class. -/
structure Sched where
  deficit : List ((Nat × Nat) × Int)
  rr : Vector (Option Nat) 4
  deriving DecidableEq, Repr

/-! ### Claims and the objects they name -/

inductive ClaimState where
  | live | retiring | gone
  deriving DecidableEq, Repr

/-- A claim entry (R205): `holders` lists caches other than this core's (of core `c` of device `d` of the domain by 1024 · (d + 1) + c, of
another core of this device by its number), and from a recall on this core's too; `uses` has the device of each use that an operation of
another core or device holds; `token` is the operation whose token the recall writes (R213). An entry of another device's name holds what
its table has answered. -/
structure Claim where
  name : ClaimName
  ty : ClaimType
  state : ClaimState
  owner : Nat
  home : Nat
  base : X64
  size : X64
  attr : X64
  uses : List Nat
  holders : List Nat
  token : Option Nat
  deriving DecidableEq, Repr

/-- A group (R179); `waiters` holds the strands waiting in BARG with the phase of their arrival. -/
structure Group where
  name : ClaimName
  members : Nat
  expected : Nat
  arrived : Nat
  arrnext : Nat
  phase : Nat
  waiters : List (Nat × Nat)
  deriving DecidableEq, Repr

/-- A member's side of a chute (R197): the core, its head, reserved count and the commits landed in it. -/
structure ChuteMember where
  core : Nat
  head : Nat
  reserved : Nat
  landed : Nat
  deriving DecidableEq, Repr

/-- A chute (R144, R197, R198). `commits` counts the commits made; its producer is a strand's place. `dirty` holds every byte that a store into a committed slot has
replaced (R147). -/
structure Chute where
  name : ClaimName
  base : Nat
  slotBytes : Nat
  slots : Nat
  fmt : Fmt
  geo : Geo
  commits : Nat
  extents : List (Nat × Nat)
  members : List ChuteMember
  producer : Option Nat
  dirty : List Host.Cell
  broken : Bool
  closed : Bool
  deriving DecidableEq, Repr

/-- A run of a rick (R315, R317): its lane states, its stream (last word first), its depth, whether it is closed, and
the tiles marked damaged. -/
structure Run where
  id : Nat
  lanes : List Nat
  words : List (BitVec 32)
  depth : Nat
  closed : Bool
  damaged : List Nat
  deriving DecidableEq, Repr

/-- An item boundary of a segment's stack: runs separated by split nodes, the top first; a node holds its children. -/
structure Layer where
  run : Run
  children : List Nat
  deriving DecidableEq, Repr

inductive SegState where
  | open | split | sealed
  deriving DecidableEq, Repr

/-- A segment (R315, R316). `layers` lists its runs, top first; `children` of a layer are those of the split node below
its run. -/
structure Segment where
  state : SegState
  parent : Nat
  owed : Nat
  layers : List Layer
  deriving DecidableEq, Repr

/-- A mark (R328). -/
structure Mark where
  seg : Nat
  run : Nat
  depth : Nat
  pos : Nat
  lanes : List Nat
  deriving DecidableEq, Repr

/-- A rick (R312 to R332). -/
structure Rick where
  name : ClaimName
  capacity : Nat
  top : Nat
  tables : List (List Nat)
  segs : List Segment
  marks : List Mark
  nextRun : Nat
  pushed : Nat
  popped : Nat
  lost : Nat
  corrected : Nat
  deriving DecidableEq, Repr

/-- A loaded thresher kernel (R444, R445). -/
structure Kernel where
  name : ClaimName
  tenant : Nat
  words : List (BitVec 32)
  slot : Bool
  forward : Bool
  bins : Option ClaimName
  bound : Nat
  traps : Nat
  deriving DecidableEq, Repr

/-! ### Links and collectives -/

/-- The link queue of a tenant from and to one peer (R390): messages received, the entries of those that RECVs have reserved and not yet
freed (R393), credits held toward the peer. -/
structure LinkQueue where
  tenant : Nat
  peer : Nat
  msgs : List LinkMsg
  taken : Nat
  credits : Nat
  deriving DecidableEq, Repr

/-- A SEND on a route that waits for its acknowledgement (R399), the cycle at which its frames last went out, and words 0 and 1 of the
route's entry as the message started with it (R479). -/
structure Unacked where
  tenant : Nat
  route : Nat
  seq : Nat
  tries : Nat
  id : Nat
  since : Nat
  entry : Nat × Nat := (0, 0)
  deriving DecidableEq, Repr

/-- Where an Ethernet frame goes (R398, R479): the interface, the VLAN, 0 for an untagged frame, and the MAC address. -/
structure Ether where
  iface : Nat
  vlan : Nat
  mac : Nat
  deriving DecidableEq, Repr

/-- A route's numbers (R399): the next SEQ to send and the next to place, and the fragments received. -/
structure RouteState where
  route : Nat
  sendSeq : Nat
  recvSeq : Nat
  frags : List Frame
  deriving DecidableEq, Repr

/-- Where a round stands (R407): waiting for the record's earlier round, waiting for the decision of R418, agreeing exponents (the ring
step, and whether its own message has gone, R413), on the walk (R409), or at a beat of a slot pass (R419), where `up` says that this
switch's own partial result has gone on. -/
inductive Stage where
  | queued
  | deciding
  | agreeing (step : Nat) (sent : Bool)
  | walking
  | passing (pass beat : Nat) (up : Bool)
  deriving DecidableEq, Repr

/-- The domain as a round finds it at its start: the modules declared lost, and the others of the map (R388). -/
structure Net where
  lost : List Nat
  live : List Nat
  deriving DecidableEq, Repr

/-- A collective round on this device (R407 to R420): the COLL that runs it, its record, its round number and
tenant, the cycle of its fork, the buffers, SRC as it stood at the fork with the poison of its blocks, the drop count and the saturation
mark of each DST block (log 26), the exponent words, the new gleanings, the messages that wait, the tuples whose send and whose receive
is done, what DST and WORK have held so far (R420), whether the round runs on slots and on leases, the answers to its requests, its
kernel, the drops of the exponent pass, and the domain as it was at its start. -/
structure Round where
  id : Nat
  record : CollRec
  q : Nat
  tenant : Nat
  since : Nat
  src : List Part
  dst : List Part
  srcWords : List (BitVec 32)
  srcBad : List Bool
  stage : Stage
  drops : List Nat
  sats : List Bool
  exps : List Nat
  glean : List (BitVec 32)
  early : List CollMsg
  sent : List Nat
  got : List Nat
  past : List (List (Byte × Bool))
  pastWork : List (List (Byte × Bool))
  slots : Bool
  leased : Bool
  answers : List (Nat × Bool)
  kernel : Option Kernel
  lostExps : Nat
  net : Net := ⟨[], []⟩
  deriving DecidableEq, Repr

/-- The slot leases of a record (R417), by its name: those on this switch, and the other switches that its root holds one on. -/
structure RecordState where
  name : ClaimName
  tenant : Nat
  key : X64
  leases : List ClaimName
  switches : List Nat
  deriving DecidableEq, Repr

/-- What this switch has granted (R417): a slot for the collective of a tenant and KEY, with the record that the request brought, the lease,
the kernel that it brought or that this module holds (R449, R450), and the domain as it was then. -/
structure Grant where
  tenant : Nat
  key : X64
  record : CollRec
  lease : ClaimName
  kernel : Option Kernel
  net : Net := ⟨[], []⟩
  deriving DecidableEq, Repr

/-! ### The device -/

/-- A tenant page (R397, R448, R461, R462, R478, R261); `names` and `ricks` are the objects that the tenant's launch places in
registers (R179, R313), `launched` that a block has taken them, `launchBad`
that a directive of the launch could not be met (R202, R312), `launchNo` numbers the tenant's launches (R227), and `debugHold` says that the tenant's launches start under debug hold (R178). -/
structure Page where
  active : Bool
  qbase : X64
  qsize : Nat
  errint : Bool
  inten : Bool
  en : Bool
  tail : BitVec 32
  head : BitVec 32
  wbase : X64
  badwr : Nat
  dropped : Nat
  badtail : Nat
  trbase : X64
  trq : Nat
  trcount : BitVec 32
  tenergy : X64
  mapbase : X64
  weight : BitVec 32
  winlate : Nat
  names : List ClaimName
  ricks : List ClaimName
  launched : Bool
  launchBad : Bool
  launchNo : Nat := 0
  debugHold : Bool
  deriving DecidableEq, Repr

/-- The device register block (R477), the names' counters (R202) and what boot leaves (R471); `index` is the index that governs,
`indexReg` the register's; `gens` has the current generation of the map's devices, by serial, and `lostSerials` the serials of devices declared lost that have not been
admitted again (R207, R389). -/
structure Ident where
  powered : Bool
  recovery : Bool
  issuing : Bool
  gen : Nat
  serial : Nat
  count : Nat
  indom : Bool
  index : Nat
  indexReg : Nat
  map : List (Nat × Nat)
  gens : List (Nat × Nat)
  lost : List Nat
  lostSerials : List Nat := []
  deriving DecidableEq, Repr

/-- The devices of the domain, by index and serial: outside a domain the map holds only the module itself (R384, R477). -/
def Ident.members (d : Ident) : List (Nat × Nat) := if d.indom then d.map else [(d.index, d.serial)]

/-- The owner runtime's settings (R458, R460, R369, R477). -/
structure Settings where
  ownlvl : Nat
  pblvl : Nat
  limit : Nat
  rampt : Nat
  qpwdog : Nat
  lostto : Nat
  waitq : Nat
  winto : Nat
  slice : Vector Nat 4
  quant : Vector Nat 4
  deriving DecidableEq, Repr

/-- The power manager (R459): the level each cause asks for, CURRENT's die by die, a held sensor by die (R469), and OWNLVL and PBLVL as the last
power step took them (R482). -/
structure Power where
  power : Nat
  thermal : Nat
  current : Nat × Nat
  pwrbrk : Bool
  pwrbrkHold : Bool
  sensorHeld : List Nat
  ownlvl : Nat := 0
  pblvl : Nat := 6
  deriving DecidableEq, Repr

/-- A command that a baler works through (R463, R464): what it captured, the blocks done, the bytes of the bale up to there, the words of
the block that is being read as its reading began, with their poison, and whether the bale did not fit. -/
structure BaleRun where
  cpl : X64
  dir : Bool
  base : Nat
  len : Nat
  bale : Nat
  block : Nat
  off : Nat
  old : Option (List (BitVec 32 × Bool))
  failed : Bool
  deriving DecidableEq, Repr

/-- A baler's registers (R480), and the command that runs. -/
structure Baler where
  rbase : X64
  rlen : X64
  bale : X64
  cpl : X64
  dir : Bool
  running : Option BaleRun
  deriving DecidableEq, Repr

/-- A window write waiting in an ingress buffer (R259), the cycle of its arrival, and WINTO then (R261, R482). -/
structure WinWrite where
  tenant : Nat
  die : Nat
  cells : List Host.Cell
  since : Nat := 0
  winto : Nat := 100
  deriving DecidableEq, Repr

/-- A shoot-down in progress (R368): the tenant, the cycle at which the request was noted at this core, and the watchdog's
limit then (R482). -/
structure ShootDown where
  tenant : Nat
  since : Nat
  limit : Nat
  deriving DecidableEq, Repr

/-- A migration in progress (R370): the range, the new home and how many lines have moved. -/
structure Migration where
  src : Nat
  dst : Nat
  len : Nat
  moved : Nat
  deriving DecidableEq, Repr

/-- What the SPDM responder has answered last (R473). -/
inductive Spdm where
  | none
  | version
  | capabilities
  | algorithms
  | digests (d : BitVec 256)
  | certificate (bytes : List Byte)
  | challengeAuth (sig : BitVec 512)
  | measurements (blocks : List (Nat × List Byte)) (sig : BitVec 512)
  | unsupported
  deriving DecidableEq, Repr

/-- The service processor's firmware: the images that flash holds other than as made, by die, the fused minimum version, and the images that
the last boot has refused (R471); and the last answer of R473. -/
structure Firmware where
  images : List (Nat × FwImage)
  minVersion : Nat
  response : Spdm
  refused : List (Nat × ImageKind) := []
  deriving DecidableEq, Repr

/-- Services around the core: links, routing, fences, memory groups (R388, R389, R398, R469, R470). What leaves the module is
kept in order: messages, frames with where they go (R398), credits returned (tenant, peer, count), acknowledgements (where each goes, its
SRCROUTE and SEQ), messages that a kernel has redirected, with their targets, which wait for room there and those gone on (R427),
the device that each loss notice names, and the shoot-downs of names with the caches they go to
(R214). `heard` has the cycle at which the last flit of a device of the domain came, and `losttoAt` that of the last write of LOSTTO (R389,
R482). -/
structure Links where
  down : List Nat
  retraining : List Nat
  queues : List LinkQueue
  routes : List RouteState
  unacked : List Unacked
  sent : List LinkMsg
  framesOut : List (Ether × Frame)
  creditsOut : List (Nat × Nat × Nat)
  acksOut : List (Ether × Nat × Nat)
  waiting : List (Nat × LinkMsg)
  forwarded : List (Nat × LinkMsg)
  groupsOut : List Nat
  fenced : List Nat
  fencing : List Nat
  notices : List Nat
  shotOut : List (ClaimName × Nat)
  heard : List (Nat × Nat) := []
  losttoAt : Nat := 0
  deriving DecidableEq, Repr

/-- The device. `early`, `earlyBeats`, `earlyAborts` and `earlyDecisions` hold what has come for rounds that have not started, or whose turn it
is not (R408); `collOut`, `abortsOut` (tenant, KEY, number, status), `decisionsOut`, `requestsOut` (switch, tenant, KEY, whether a release),
`answersOut` (tenant, KEY, whether granted) and `beatsOut` (the port it leaves by) what its rounds and its switch have sent; `aborted` the
rounds, by tenant, KEY and number, whose later messages are discarded (R420); `grants` what its switch has granted. `block` holds the register
block's words by offset, and `entries` the words of its routes and hooks as they have taken effect (R479). `pieces` holds what is left of the host's writes that are no window writes (R260).
`answer` is what the last read from outside received: none for Unsupported Request, and no byte where memory
is poisoned; `reply` is the status of the last atomic from outside (R217, R298, R300). -/
structure Dev where
  ident : Ident
  set : Settings
  power : Power
  pages : Vector Page 64
  block : List (Nat × X64)
  entries : List (Nat × X64) := []
  errors : Vector X64 6
  msix : List (Nat × Nat)
  strands : List Strand
  blocks : List Block
  sched : Sched
  claims : List Claim
  groups : List Group
  chutes : List Chute
  ricks : List Rick
  kernels : List Kernel
  bins : List Host.Cell
  slots : Vector (Option (Nat × ClaimName)) 64
  rounds : List Round
  records : List RecordState
  grants : List Grant
  early : List CollMsg
  earlyBeats : List Beat
  earlyAborts : List (Nat × X64 × Nat × Nat)
  earlyDecisions : List DecisionMsg
  collOut : List CollMsg
  abortsOut : List (Nat × X64 × Nat × Nat)
  decisionsOut : List DecisionMsg
  requestsOut : List (Nat × Nat × X64 × Bool)
  answersOut : List (Nat × X64 × Bool)
  beatsOut : List Beat
  aborted : List (Nat × X64 × Nat)
  links : Links
  ingress : List WinWrite
  pieces : List (List Host.Cell)
  shootDowns : List ShootDown
  migrations : List Migration
  balers : Vector Baler 2
  quiesced : Bool := false
  fw : Firmware
  svc : List (Nat × Nat × BitVec 16 × X64)
  answer : Option (List (Option Byte))
  reply : Nat
  deriving DecidableEq, Repr

/-! ### Memory -/

/-- Memory (R220): the bytes of every device's physical space that differ from 0, by device · 2^46 + physical address;
the poisoned 4-byte words (R360), by word number; the format tags of the local-store regions that differ from RAW,
PACKED (R40), by global region number. -/
structure Memory where
  cells : List Host.Cell
  poison : List Nat
  tags : List (Nat × (Fmt × Geo))
  deriving DecidableEq, Repr

/-! ### The thresher (R424) -/

inductive Disp where
  | fwd
  | drop
  | redir (target : BitVec 32)
  deriving DecidableEq, Repr

/-- A LOOPI in progress (R442): its first word, the word past its body, and the passes left after this one. -/
structure Trip where
  start : Nat
  stop : Nat
  left : Nat
  deriving DecidableEq, Repr

/-- How an invocation ended, once it has: the disposition, or the trap's cause and value (R447). -/
inductive ThrEnd where
  | disp (d : Disp)
  | trap (cause value word : Nat)
  deriving DecidableEq, Repr

/-- An invocation (R424 to R427, R439). -/
structure Invocation where
  w : Vector WBits 16
  z : Vector (BitVec 32) 16
  window : List Byte
  disp : Disp
  trip : Option Trip
  pc : Nat
  last : Nat
  left : Nat
  kernel : Kernel
  binGone : Bool
  spec : InvSpec
  deriving DecidableEq, Repr

/-! ### The machine -/

/-- The whole machine. `thr` is the invocation that runs now, `threshers` those on the module's other threshers, seven at most (R1, R425), and
`results` how invocations have ended. `agenda` lists the events that happen before the core's next bundle (log 5); `freeCtr` counts
the free values taken (log 2). -/
structure State where
  core : Core
  dev : Dev
  mem : Memory
  thr : Option Invocation
  threshers : List Invocation
  results : List (InvSpec × ThrEnd × List Byte)
  agenda : List Instr
  freeCtr : Nat
  deriving DecidableEq, Repr

/-! ### Reset -/

/-- A system register block as a strand finds it with no template: zeros, and COLLTO's 500 (R421). -/
def SysRegs.reset : SysRegs :=
  { rmode := 0, srseed := 0, lscale := 0, lsmin := 0, lsmax := 0, lsgrow := 0, lsstat := 0, lssat := 0, chkctl := 0,
    trapv := 0, trapc := 0, trappc := 0, trapval := 0, poison := 0, collto := 500, errinj := 0, chst := 0,
    lswz := Vector.replicate 8 0, bka := Vector.replicate 4 0, bkm := Vector.replicate 4 0,
    bkc := Vector.replicate 4 0 }

/-- The register files as the register clear leaves them (R42). -/
def Regs.cleared : Regs :=
  { x := Vector.replicate 64 0, v := Vector.replicate 64 0, p := (Vector.replicate 16 0).set 0 (BitVec.allOnes 256),
    a := Vector.replicate 4 0, xPoison := Vector.replicate 64 false, vPoison := Vector.replicate 64 0,
    pPoison := Vector.replicate 16 false, aPoison := Vector.replicate 4 false,
    ch := Vector.replicate 8 .invalid, k := Vector.replicate 4 .invalid, n := Vector.replicate 8 0,
    q := Vector.replicate 8 none, rrb := 0, seq := 0, arq := [], rep := none, loopb := none, epi := [],
    sys := SysRegs.reset }

/-- CTL of a bundle without a C op (R26). -/
def Ctl.none : Ctl := { stall := 0, mark := false, qp := false, hwin := false, chk := false, realign := 0 }

def Ctx.reset : Ctx := { slot := 0, bundle := 0, addr := 0, after := 0, ctl := Ctl.none, sched := 0, rrb := 0, loop := false }

def Issue.reset : Issue :=
  { pc := 0, bundle := 1, sched := 0, iq := [], lag := Vector.replicate 8 0, drift := 0, stall := 0, top := Ctx.reset, cur := Ctx.reset,
    waited := false, held := none, pend := [], next := .seq, slip := false, fault := none, waits := none, waitReg := 0, rett := false, absent := false, halted := false }

def Matrix.reset : Matrix :=
  { feedUntil := 0, duty := 0, dutyAt := 0, ramp := 1050, feeding := false, staged := [], mmas := [], drainUntil := 0 }

/-- The core with no strand: the registers hold what the register clear would leave, with every register allocated
(log 7). -/
def Core.reset : Core :=
  { regs := Regs.cleared, nV := 64, nA := 4, iss := Issue.reset,
    shadow := { regs := Regs.cleared, pend := [], pc := 0, bundle := 0 },
    gate := [], inter := [], loads := [], fars := [], engs := [],
    strm := Vector.replicate 8 StreamEngine.empty, mx := Matrix.reset, accs := [], table := [],
    tableOf := none, cache := [], icache := [], running := none, number := 0, tenant := 0, now := 0,
    meter := { cycle := 0, energy := 0, since := 0, waited := 0 }, shootDown := false, opId := 0 }

/-- A tenant page at reset (R397, R448, R462, R478). Tenant 0, the owner runtime, exists from the start (R396). -/
def Page.reset : Page :=
  { active := false, qbase := 0, qsize := 0, errint := false, inten := false, en := false, tail := 0, head := 0,
    wbase := 0, badwr := 0, dropped := 0, badtail := 0, trbase := 0, trq := 0, trcount := 0, tenergy := 0, mapbase := 0,
    weight := 0, winlate := 0, names := [], ricks := [], launched := false, launchBad := false,
    debugHold := false }

def Baler.reset : Baler :=
  { rbase := 0, rlen := 0, bale := 0, cpl := 0, dir := false, running := none }

/-- The device after its first cold start: GEN 1, the names' counter at 1 (R202), SERIAL 1 (fused, log 7). -/
def Dev.reset : Dev :=
  { ident := { powered := true, recovery := false, issuing := true, gen := 1, serial := 1, count := 1, indom := false,
               index := 0, indexReg := 0, map := [], gens := [], lost := [] },
    set := { ownlvl := 0, pblvl := 6, limit := 1600, rampt := 1050, qpwdog := 52500, lostto := 1000, waitq := 4096,
             winto := 100, slice := Vector.replicate 4 (2 ^ 20), quant := Vector.replicate 4 (2 ^ 16) },
    power := { power := 0, thermal := 0, current := (0, 0), pwrbrk := false, pwrbrkHold := false, sensorHeld := [] },
    pages := (Vector.replicate 64 Page.reset).set 0 { Page.reset with active := true },
    block := [], errors := Vector.replicate 6 0, msix := [], strands := [], blocks := [],
    sched := { deficit := [], rr := Vector.replicate 4 none },
    claims := [], groups := [], chutes := [], ricks := [], kernels := [], bins := [],
    slots := Vector.replicate 64 none, rounds := [], records := [], grants := [], early := [], earlyBeats := [], earlyAborts := [],
    earlyDecisions := [], collOut := [], abortsOut := [], decisionsOut := [], requestsOut := [], answersOut := [], beatsOut := [], aborted := [],
    links := { down := [], retraining := [], queues := [], routes := [], unacked := [], sent := [], framesOut := [],
               creditsOut := [], acksOut := [], waiting := [], forwarded := [], groupsOut := [],
               fenced := [], fencing := [], notices := [], shotOut := [] },
    ingress := [], pieces := [], shootDowns := [], migrations := [], balers := Vector.replicate 2 Baler.reset,
    fw := { images := [], minVersion := 0, response := .none },
    svc := [], answer := none, reply := 0 }

/-- The machine right after reset: the device has booted, memory lists nothing, no strand runs. -/
def State.reset : State :=
  { core := Core.reset, dev := Dev.reset, mem := { cells := [], poison := [], tags := [] }, thr := none, threshers := [], results := [],
    agenda := [], freeCtr := 0 }

end Sys2Proof.Machine
end

