-- ==== Sys2Proof/Machine/Mem.lean ====
section
/-! DEFINITION. Memory: the physical map (R220), bytes and poison (R245, R360), format tags (R40). -/

namespace Sys2Proof.Machine

/-! ### Canonical lists -/

/-- The byte at an address: an unlisted byte reads as 0 (log 1). -/
def cellsGet : List Host.Cell → Nat → Byte
  | [], _ => 0
  | (k, v) :: t, a => if k = a then v else if a < k then 0 else cellsGet t a

/-- The list after a write of one byte: sorted, and without zero bytes. -/
def cellsPut : List Host.Cell → Nat → Byte → List Host.Cell
  | [], a, b => if b = 0 then [] else [(a, b)]
  | (k, v) :: t, a, b =>
    if a < k then (if b = 0 then (k, v) :: t else (a, b) :: (k, v) :: t)
    else if a = k then (if b = 0 then t else (k, b) :: t)
    else (k, v) :: cellsPut t a b

/-- Strictly rising addresses, all at or above `lo`, and no zero byte. -/
def cellsWf : Nat → List Host.Cell → Bool
  | _, [] => true
  | lo, (k, v) :: t => decide (lo ≤ k) && decide (v ≠ 0) && cellsWf (k + 1) t

def setHas : List Nat → Nat → Bool
  | [], _ => false
  | k :: t, a => if k = a then true else if a < k then false else setHas t a

def setAdd : List Nat → Nat → List Nat
  | [], a => [a]
  | k :: t, a => if a < k then a :: k :: t else if a = k then k :: t else k :: setAdd t a

def setDel : List Nat → Nat → List Nat
  | [], _ => []
  | k :: t, a => if a < k then k :: t else if a = k then t else k :: setDel t a

def setWf : Nat → List Nat → Bool
  | _, [] => true
  | lo, k :: t => decide (lo ≤ k) && setWf (k + 1) t

/-- The tag of a region; an unlisted region is RAW, PACKED (R40). -/
def tagsGet : List (Nat × (Fmt × Geo)) → Nat → Fmt × Geo
  | [], _ => (.raw, .packed)
  | (k, v) :: t, a => if k = a then v else if a < k then (.raw, .packed) else tagsGet t a

def tagsPut : List (Nat × (Fmt × Geo)) → Nat → Fmt × Geo → List (Nat × (Fmt × Geo))
  | [], a, b => if b = (.raw, .packed) then [] else [(a, b)]
  | (k, v) :: t, a, b =>
    if a < k then (if b = (.raw, .packed) then (k, v) :: t else (a, b) :: (k, v) :: t)
    else if a = k then (if b = (.raw, .packed) then t else (k, b) :: t)
    else (k, v) :: tagsPut t a b

def tagsWf : Nat → List (Nat × (Fmt × Geo)) → Bool
  | _, [] => true
  | lo, (k, v) :: t => decide (lo ≤ k) && decide (v ≠ (.raw, .packed)) && tagsWf (k + 1) t

/-- The canonical form of memory: equal memories are equal data. -/
def Memory.wf (m : Memory) : Bool := cellsWf 0 m.cells && setWf 0 m.poison && tagsWf 0 m.tags

/-! ### The physical map (R220) -/

/-- A device's physical space. -/
def physSpace : Nat := 2 ^ 46

def lsBase : Nat := 0x4200000000
def lsSize : Nat := 0x200000
def sramBase : Nat := 0x4000000000
def syncBase : Nat := 0x4220000000
def hostBase : Nat := 0x100000000000
def gddrEnd : Nat := 0x2400000000

/-- The core the model follows: core 0, of cluster 0 and die 0 (log 3). -/
def ownCore : Nat := 0

/-- The level of a physical address. -/
inductive Home where
  | gddr | sram | local | sync | host | none
  deriving DecidableEq, Repr

def homeOf (pa : Nat) : Home :=
  if pa < gddrEnd then .gddr
  else if pa < sramBase then .none
  else if pa < lsBase then .sram
  else if pa < 0x4220000000 then .local
  else if pa < 0x4221000000 then .sync
  else if hostBase ≤ pa && decide (pa < 2 * hostBase) then .host
  else .none

/-- The physical part of a global address. -/
def physOf (a : Nat) : Nat := a % physSpace

def devOf (a : Nat) : Nat := a / physSpace

/-- The global address of a byte of a device. -/
def globalAddr (dev pa : Nat) : Nat := dev * physSpace + pa

/-- The core whose local store or base SRAM slice holds a byte (R220). -/
def coreOf (pa : Nat) : Nat :=
  match homeOf pa with
  | .local => (pa - lsBase) / lsSize
  | .sram => (pa - sramBase) / 0x2000000
  | _ => 0

/-- The die of a home; GDDR7 and host memory lie in no die (R204, R259). -/
def dieOf (pa : Nat) : Nat :=
  match homeOf pa with
  | .local | .sram => coreOf pa / 128
  | .sync => (pa - syncBase) / 0x800000
  | _ => 0

/-- HOME's device, die, cluster and engine fields (R204). -/
def homeField (dev die cluster engine : Nat) : Nat := dev + die * 2 ^ 6 + cluster * 2 ^ 7 + engine * 2 ^ 12

/-! ### Bytes -/

def Memory.byte (m : Memory) (a : Nat) : Byte := cellsGet m.cells a

def Memory.setByte (m : Memory) (a : Nat) (b : Byte) : Memory := { m with cells := cellsPut m.cells a b }

/-- The words whose poison one location shares: a 32-byte granule in GDDR7, a 4-byte word elsewhere (R360). -/
def granule (a : Nat) : List Nat :=
  if homeOf (physOf a) = .gddr then (List.range 8).map (fun i => a / 32 * 8 + i) else [a / 4]

/-- Whether a byte carries memory poison; host memory holds none (R360). -/
def Memory.poisoned (m : Memory) (a : Nat) : Bool := setHas m.poison (a / 4)

def Memory.mark (m : Memory) (a : Nat) : Memory :=
  if homeOf (physOf a) = .host then m else { m with poison := (granule a).foldl setAdd m.poison }

def Memory.unmark (m : Memory) (a : Nat) : Memory := { m with poison := (granule a).foldl setDel m.poison }

def Memory.tag (m : Memory) (region : Nat) : Fmt × Geo := tagsGet m.tags region

def Memory.setTag (m : Memory) (region : Nat) (f : Fmt) (g : Geo) : Memory :=
  { m with tags := tagsPut m.tags region (f, g) }

/-- The bytes from `a` up. -/
def Memory.bytes (m : Memory) (a n : Nat) : List Byte := (List.range n).map (fun i => m.byte (a + i))

/-- The little-endian number held from `a` up. -/
def Memory.num (m : Memory) (a n : Nat) : Nat := natOfBytes (m.bytes a n)

/-- The cells of a byte string at `a`. -/
def cellsAt (a : Nat) (bs : List Byte) : List Host.Cell := bs.zipIdx.map (fun p => (a + p.2, p.1))

/-- The addresses at the start of the poison granules that a list of addresses touches. -/
def granulesOf (addrs : List Nat) : List Nat :=
  addrs.foldl (fun acc a => setAdd acc (if homeOf (physOf a) = .gddr then a / 32 * 32 else a / 4 * 4)) []

def granuleLen (a : Nat) : Nat := if homeOf (physOf a) = .gddr then 32 else 4

/-- A store (R360): the bytes in order, poison marked where a poisoned byte falls, and cleared in the words and granules
that the store covers whole with clean bytes. A poisoned byte at an L4 home is written as 0. -/
def Memory.store (m : Memory) (cells : List Host.Cell) (pois : List Nat) : Memory :=
  let m1 := cells.foldl (fun m c =>
    m.setByte c.1 (if homeOf (physOf c.1) = .host && pois.contains c.1 then 0 else c.2)) m
  let addrs := cells.map (·.1)
  (granulesOf addrs).foldl (fun m g =>
    let inside := addrs.filter (fun a => decide (g ≤ a) && decide (a < g + granuleLen g))
    if inside.any (fun a => pois.contains a) then m.mark g
    else if (List.range (granuleLen g)).all (fun i => inside.contains (g + i)) then m.unmark g
    else m) m1

/-- The global address of an offset of the core's own local store (R220). -/
def ownLs (off : Nat) : Nat := lsBase + ownCore * lsSize + off

/-- The global number of a local store's 4 KiB region (R40). -/
def regionOf (a : Nat) : Nat := a / 4096

end Sys2Proof.Machine
end

