-- ==== Sys2Proof/Machine/Sx.lean ====
section
/-! DEFINITION. The block formats: SX (R58 to R61) and BFP64 (R62, R63). -/

namespace Sys2Proof.Machine

/-- Magnitude bits m of an SX format (R58). -/
def sxMag : Fmt → Nat
  | .sx3 => 2
  | .sx5 => 4
  | _ => 7

/-- Bytes of a packed block (R45): 8, 12 or 18; 256 for BFP64. -/
def blockBytes : Fmt → Nat
  | .sx3 => 8
  | .sx5 => 12
  | .sx8 => 18
  | .bfp64 => 256
  | t => t.width / 8

/-- An SX block (R58): E, the micro-exponent bits, the signs and the magnitudes. -/
structure SxBlock where
  e : Nat
  mu : Nat
  signs : List Bool
  mags : List Nat
  deriving DecidableEq, Repr

/-- `sx_decode(block, i)` of R58. -/
def sxDecode (m : Nat) (b : SxBlock) (i : Nat) : Num :=
  let s := b.signs.getD i false
  if b.e == 0 then Num.zero s
  else if b.e == 255 then (if b.mags.all (· == 0) then .inf s else .nan)
  else .fin s (b.mags.getD i 0)
    ((b.e : Int) - 127 - ((m - 1 : Nat) : Int) - ((b.mu / 2 ^ (i / 2)) % 2 : Nat)) false

/-- A value's magnitude as an integer multiple of 2^(−k), rounded with the value's own sign (R61). -/
def rndScaled (mode : RMode) (x : Num) (k : Int) (r : Nat) : Nat := (roundInt mode r (x.scale k)).natAbs

/-- Index of the largest magnitude of a list, the lowest-numbered on a tie (R61). -/
def largestIdx (xs : List Num) : Nat :=
  (xs.zipIdx.foldl (fun (best : Nat × Num) p => if ltNum best.2 p.1.abs then (p.2, p.1.abs) else best)
    (0, (xs.headD (Num.zero false)).abs)).1

/-- ⌊log2 |x|⌋ of a finite nonzero value. -/
def log2Num : Num → Int
  | .fin _ m e _ => (Nat.log2 m : Int) + e
  | _ => 0

/-- `sx_encode` of R61 on 16 exact values with their draws; the flag says E > 254 was reached (R68). -/
def sxEncode (m : Nat) (mode : RMode) (sat : Bool) (xs : List Num) (draws : Nat → Nat) : SxBlock × Bool :=
  let sg := xs.map Num.sign
  let x := fun i => xs.getD i (Num.zero false)
  if xs.any Num.isNan then (⟨255, 0, List.replicate 16 false, List.replicate 16 1⟩, false)
  else if xs.any (fun y => !y.isFinite) then (⟨255, 0, sg, List.replicate 16 0⟩, false)
  else
    let big := largestIdx xs
    if (x big).isZero then (⟨0, 0, sg, List.replicate 16 0⟩, false)
    else
      let e0 := max 1 (log2Num (x big) + 127)
      let e1 := if rndScaled mode (x big) ((m : Int) - 1 + 127 - e0) (draws big) == 2 ^ m then e0 + 1 else e0
      let ovf := decide (e1 > 254)
      if ovf && !sat then (⟨255, 0, sg, List.replicate 16 0⟩, true)
      else
        let e := if ovf then 254 else e1
        let muBit := fun j =>
          let i := if ltNum (x (2 * j)).abs (x (2 * j + 1)).abs then 2 * j + 1 else 2 * j
          decide (rndScaled mode (x i) ((m : Int) + 127 - e) (draws i) ≤ 2 ^ m - 1)
        let mu := ((List.range 8).map (fun j => if muBit j then 2 ^ j else 0)).sum
        let mags := (List.range 16).map (fun i =>
          min (rndScaled mode (x i) ((m : Int) - 1 + 127 - e + (if muBit (i / 2) then 1 else 0)) (draws i))
            (2 ^ m - 1))
        (⟨if mags.all (· == 0) then 0 else e.toNat, mu, sg, mags⟩, ovf)

/-- The integer value of a packed block (R59). -/
def sxPack (m : Nat) (b : SxBlock) : Nat :=
  b.e + b.mu * 2 ^ 8 +
    ((List.range 16).map (fun i =>
      ((if b.signs.getD i false then 2 ^ m else 0) + b.mags.getD i 0) * 2 ^ (16 + i * (m + 1)))).sum

/-- The block a packed integer holds (R59). -/
def sxUnpack (m : Nat) (w : Nat) : SxBlock :=
  let f := fun i => (w / 2 ^ (16 + i * (m + 1))) % 2 ^ (m + 1)
  ⟨w % 256, (w / 256) % 256, (List.range 16).map (fun i => f i / 2 ^ m == 1),
    (List.range 16).map (fun i => f i % 2 ^ m)⟩

/-- The planar magnitude-plane byte of element i (R60). -/
def sxPlanarByte (b : SxBlock) (i : Nat) : Nat :=
  (if b.signs.getD i false then 128 else 0) + b.mags.getD i 0

/-- A block from its 16 planar bytes and its exponent-plane pair (R60). -/
def sxOfPlanar (m : Nat) (bytes : List Nat) (e mu : Nat) : SxBlock :=
  ⟨e, mu, bytes.map (fun b => b / 128 == 1), bytes.map (fun b => b % 2 ^ m)⟩

/-! ### BFP64 (R62, R63) -/

/-- A BFP64 block: X, the flags and the 64 mantissas. -/
structure Bfp where
  x : Nat
  poisoned : Bool
  saturated : Bool
  dropped : Nat
  m : List Int
  deriving DecidableEq, Repr

/-- The value of element i: mᵢ · 2^(X − 150). -/
def bfpElem (b : Bfp) (i : Nat) : Num := (Num.ofInt (b.m.getD i 0)).scale ((b.x : Int) - 150)

/-- The block of 64 little-endian words (R62). -/
def bfpOfWords (ws : List Nat) : Bfp :=
  let f := ws.getD 1 0 / 2 ^ 24
  ⟨ws.getD 0 0 / 2 ^ 24 % 256, f % 2 == 1, f / 2 % 2 == 1, f / 4 % 64,
    (List.range 64).map (fun i => signedOf 24 (ws.getD i 0))⟩

/-- The 64 words of a block (R62): bits 31:24 of words 2 to 63 are 0. -/
def bfpWords (b : Bfp) : List Nat :=
  (List.range 64).map (fun i =>
    wrapInt 24 (b.m.getD i 0) +
      (if i == 0 then b.x * 2 ^ 24
       else if i == 1 then
        ((if b.poisoned then 1 else 0) + (if b.saturated then 2 else 0) + b.dropped * 4) * 2 ^ 24
       else 0))

/-- `bfp_align(block, X2)`. -/
def bfpAlign (b : Bfp) (x2 : Nat) : Bfp :=
  { b with x := x2, m := b.m.map (fun v => roundInt .rne 0 ((Num.ofInt v).scale ((b.x : Int) - x2))) }

/-- Whether an integer is a 24-bit mantissa. -/
def fits24 (i : Int) : Bool := satInt 24 i == i

/-- The loop of `bfp_add`; `fuel` bounds the 256 exponents. -/
def bfpAddLoop (c : List Num) : Nat → Bfp → Bfp
  | 0, b => b
  | fuel + 1, b =>
    let t := (List.range 64).map (fun i =>
      b.m.getD i 0 + roundInt .rne 0 ((c.getD i (Num.zero false)).scale (150 - (b.x : Int))))
    if t.all fits24 then { b with m := t }
    else if b.x ≥ 255 then { b with m := t.map (satInt 24), saturated := true }
    else bfpAddLoop c fuel (bfpAlign b (b.x + 1))

/-- `bfp_add` of R63 on a whole contribution. -/
def bfpAdd (b : Bfp) (c : List Num) (poisoned : Bool) : Bfp :=
  if poisoned then { b with poisoned := true, dropped := min (b.dropped + 1) 63 }
  else if c.any (fun y => !y.isFinite) then { b with dropped := min (b.dropped + 1) 63 }
  else bfpAddLoop c 257 b

end Sys2Proof.Machine
end

