-- ==== Sys2Proof/Machine/Cells.lean ====
section
/-! DEFINITION. Fields of a number (R10), and the array's arithmetic: an operand's elements in its chute's slots (R136, R141), and the
cells of an accumulator (R142). -/

namespace Sys2Proof.Machine

/-! ### Lists and fields -/

/-- The first `n` fields of `w` bits of a number, from bit 0 up. -/
def lanesOf (w : Nat) : Nat → Nat → List Nat
  | 0, _ => []
  | n + 1, x => x % 2 ^ w :: lanesOf w n (x / 2 ^ w)

/-- The number whose fields of `w` bits, from bit 0 up, are the listed values. -/
def ofLanes (w : Nat) : List Nat → Nat
  | [] => 0
  | x :: xs => x % 2 ^ w + 2 ^ w * ofLanes w xs

/-- A list in groups of sixteen. -/
def groupsOf {α : Type} (n : Nat) : Nat → List α → List (List α)
  | 0, _ => []
  | fuel + 1, xs => if xs.isEmpty then [] else xs.take n :: groupsOf n fuel (xs.drop n)

/-- OR of flags. -/
def orAll (l : List Bool) : Bool := l.any id

/-! ### Operands (R136, R137, R141) -/

/-- The bytes of one element of a format. -/
def elemBytes (t : Fmt) : Nat := t.width / 8

def Chute.slotOff (c : Chute) (slot : Nat) : Nat := c.base + slot % c.slots * c.slotBytes

/-- An operand's bytes B_op (R136). -/
def operandBytes (t : Fmt) (g : Geo) (k : Nat) : Nat :=
  if t.isSx then (if g = .planar then 144 * k else 8 * k * blockBytes t) else 128 * k * elemBytes t

/-- Slots an operand fills (R136). -/
def Chute.need (c : Chute) (t : Fmt) (k : Nat) : Nat := (operandBytes t c.geo k + c.slotBytes - 1) / c.slotBytes

/-- K of the op. -/
def MM.steps (f : MM) : Nat := 16 * (f.kq.toNat + 1)

/-- One operand of an MMA: its chute, first slot, order, type and number of steps. -/
structure Operand where
  chute : Chute
  first : Nat
  col : Bool
  t : Fmt
  k : Nat
  deriving DecidableEq, Repr

/-- What an operand is read from: memory as performed, as the MMA's own bundle sees it, and the count of free values. -/
structure OperandMem where
  mem : Memory
  view : Memory
  ctr : Nat
  deriving DecidableEq, Repr

/-- Byte `o` of an operand with its poison. A byte stored over since its slot's commit is any that it has held since (R147). -/
def Operand.byte (q : Operand) (m : OperandMem) (o : Nat) : Byte × Bool :=
  let a := ownLs (q.chute.slotOff (q.first + o / q.chute.slotBytes) + o % q.chute.slotBytes)
  let new := m.view.byte a
  let old := m.mem.byte a :: (q.chute.dirty.filter (fun d => d.1 == a)).map (fun d => d.2)
  (if old.all (fun b => b == new) then new else (new :: old).getD (Config.freePick m.ctr a % (old.length + 1)) new, m.view.poisoned a)

/-- Linear index of element (o, k) (R136). -/
def Operand.index (q : Operand) (o k : Nat) : Nat := if q.col then o * q.k + k else k * 128 + o

/-- The extent of an operand's first slot (R141): outputs and steps inside. -/
def Operand.extent (q : Operand) : Nat × Nat :=
  let e := q.chute.extents.getD (q.first % q.chute.slots) (0, 0)
  (if e.1 = 0 then 128 else e.1, e.2)

def Operand.inside (q : Operand) (o k : Nat) : Bool :=
  decide (o < q.extent.1) && (q.extent.2 == 0 || decide (k < q.extent.2))

/-- Whether linear index `n` lies inside the extent. -/
def Operand.insideAt (q : Operand) (n : Nat) : Bool :=
  if q.col then q.inside (n / q.k) (n % q.k) else q.inside (n % 128) (n / 128)

/-- An element after edge fill: its bits as a value and an integer, and its poison. -/
structure MElem where
  val : Num
  int : Int
  poison : Bool
  deriving DecidableEq, Repr

def MElem.zero : MElem := { val := Num.zero false, int := 0, poison := false }

/-- The block that holds linear index `n`, its outside elements filled (R141), with its poison. -/
def Operand.sxBlock (q : Operand) (m : OperandMem) (b : Nat) : SxBlock × Bool :=
  let ins := (List.range 16).map (fun i => q.insideAt (16 * b + i))
  if !orAll ins then (⟨0, 0, List.replicate 16 false, List.replicate 16 0⟩, false)
  else
    let raw : SxBlock × Bool := if q.chute.geo = .planar then
        let g := 1152 * (b / 64)
        let mags := (List.range 16).map (fun i => q.byte m (g + 16 * (b % 64) + i))
        let e := q.byte m (g + 1024 + 2 * (b % 64))
        let u := q.byte m (g + 1025 + 2 * (b % 64))
        (sxOfPlanar (sxMag q.t) (mags.map (fun p => p.1.toNat)) e.1.toNat u.1.toNat,
          e.2 || u.2 || orAll ((mags.zip ins).map (fun p => p.1.2 && p.2)))
      else
        let bs := (List.range (blockBytes q.t)).map (fun i => q.byte m (b * blockBytes q.t + i))
        (sxUnpack (sxMag q.t) (ofLanes 8 (bs.map (fun p => p.1.toNat))), orAll (bs.map (·.2)))
    ({ raw.1 with
        signs := (raw.1.signs.zip ins).map (fun p => p.1 && p.2)
        mags := (raw.1.mags.zip ins).map (fun p => if p.2 then p.1 else 0) }, raw.2)

/-- All elements of an operand by linear index (R136, R141, R142). -/
def Operand.elems (q : Operand) (m : OperandMem) : List MElem :=
  if q.t.isSx then
    ((List.range (8 * q.k)).map (fun b =>
      let k := q.sxBlock m b
      (List.range 16).map (fun i => (MElem.mk (sxDecode (sxMag q.t) k.1 i) 0 (k.2 && q.insideAt (16 * b + i)))))).flatten
  else
    let w := elemBytes q.t
    (List.range (128 * q.k)).map (fun n =>
      if q.insideAt n then
        let bs := (List.range w).map (fun i => q.byte m (n * w + i))
        let v := ofLanes 8 (bs.map (fun p => p.1.toNat))
        ⟨decodeElem q.t v, signedOf (8 * w) v, orAll (bs.map (·.2))⟩
      else MElem.zero)

/-- The K elements of output index `o`, in ascending step. -/
def Operand.line (q : Operand) (es : List MElem) (o : Nat) : List MElem :=
  if q.col then (es.drop (o * q.k)).take q.k
  else (List.range q.k).map (fun k => es.getD (k * 128 + o) MElem.zero)

/-! ### The cell operations (R142) -/

/-- One step of an INT8 cell. -/
def cellInt (op : Nat) (c a b : Int) : Int :=
  signedOf 32 (wrapInt 32 (match op with
    | 0 => c + a * b
    | 1 => c + (a - b).natAbs
    | 2 => max c (a + b)
    | _ => min c (a + b)))

/-- One step of an FP32 cell, with draw `r`. -/
def cellFloat (mode : RMode) (op r : Nat) (c a b : Num) : Num :=
  let rnd := fun (x : Num) => decodeFloat .fp32 (roundFloat .fp32 mode false r x).bits
  match op with
  | 0 => rnd (fmaNum mode a b c)
  | 1 => rnd (addNum mode c (subNum mode a b).abs)
  | 2 => maxNum c (rnd (addNum mode a b))
  | _ => minNum c (rnd (addNum mode a b))

/-- Bits 2i+1:2i of PAT for step k. -/
def patStep (pat : BitVec 32) (k : Nat) : Nat := pat.toNat / 4 ^ (k % 16) % 4

/-- A cell after the steps of its two lines, as 32 bits. -/
def cellRun (t : Fmt) (n : Snap) (pat : BitVec 32) (i j c : Nat) (la lb : List MElem) : Nat :=
  let steps := (la.zip lb).zipIdx
  if t = .int8 then
    wrapInt 32 (steps.foldl (fun c q => cellInt (patStep pat q.2) c q.1.1.int q.1.2.int) (signedOf 32 c))
  else
    (roundFloat .fp32 .rne false 0 (steps.foldl (fun c q =>
      cellFloat n.mode (patStep pat q.2) (srDraw n.draw (q.2 * 16384 + i * 128 + j)) c q.1.1.val q.1.2.val)
      (decodeFloat .fp32 c))).bits

/-- The accumulator after an MMA (R142), and its poison (R358): `n` is what the op captured at issue, `acc` the accumulator before
it with its poison. -/
def mmaResult (f : MM) (n : Snap) (acc : ABits × Bool) (m : OperandMem) (qa qb : Operand) : ABits × Bool :=
  let ea := qa.elems m
  let eb := qb.elems m
  let las := (List.range 128).map (fun i => (i, qa.line ea i))
  let lbs := (List.range 128).map (fun j => (j, qb.line eb j))
  let rows := groupsOf 128 128 (lanesOf 32 16384 acc.1.toNat)
  let out := ((las.zip rows).map (fun r => ((lbs.zip r.2).map (fun c =>
    cellRun f.t n f.pat r.1.1 c.1.1 c.2 r.1.2 c.1.2)))).flatten
  (BitVec.ofNat 524288 (ofLanes 32 out),
   acc.2 || orAll (ea.map (·.poison)) || orAll (eb.map (·.poison)))

end Sys2Proof.Machine
end

