-- ==== Sys2Proof/Machine/Sources.lean ====
section
/-! DEFINITION. What an op reads and writes: its source and destination registers, its stream, its use of memory, and when an op
of a later place must wait for it (R29 to R33, R39). -/

namespace Sys2Proof.Machine

/-! ### Rotation (R14, R17) -/

def rrbXB (r : X64) : Nat := r.toNat % 16
def rrbVB (r : X64) : Nat := r.toNat / 2 ^ 8 % 32
def rrbPB (r : X64) : Nat := r.toNat / 2 ^ 16 % 8

/-- RRB with the three bases and its reserved bits 0 (R17). -/
def rrbOf (xb vb pb : Nat) : X64 := BitVec.ofNat 64 (xb % 16 + 2 ^ 8 * (vb % 32) + 2 ^ 16 * (pb % 8))

def physX (rrb : X64) (n : Nat) : Nat := if n ≥ 48 then 48 + (n - 48 + rrbXB rrb) % 16 else n
def physV (rrb : X64) (n : Nat) : Nat := if n ≥ 32 then 32 + (n - 32 + rrbVB rrb) % 32 else n
def physP (rrb : X64) (n : Nat) : Nat := if n ≥ 8 then 8 + (n - 8 + rrbPB rrb) % 8 else n

/-! ### What an op reads and writes -/

/-- A register that an op reads as a source. -/
inductive Rd where
  | x (r : Reg)
  | v (r : Reg)
  | p (n : Nat)
  | a (n : Nat)
  | name (n : Nat)
  | ch (n : Nat)
  | k (n : Nat)
  deriving DecidableEq, Repr

/-- The vector sources in their fields, the stream that QSEL names apart. -/
def RG.vectors (f : RG) (l : List (QSel × Reg)) : List Rd := (l.filter (fun q => q.1 ≠ f.qsel)).map (fun q => .v q.2)

/-- The handle registers that an MDRAIN may read: its program names one (R154). -/
def drainHandles : List Rd := (List.range 8).map .ch ++ (List.range 4).map .k

/-- The source registers of an op in the order of its operands, the guard and handles last (R29, R34); a store's datum comes first. -/
def readsOf (i : Instr) : List Rd :=
  match i with
  | .add f | .sub f | .mul f | .mulh f | .mulhu f | .div f | .divu f | .rem f | .remu f | .and f | .or f
    | .xor f | .shl f | .shr f | .sra f | .rotr f | .min f | .max f | .minu f | .maxu f | .cmp f | .fadd f
    | .fsub f | .fmul f | .fmin f | .fmax f | .fcmp f =>
    [.x f.a, .x f.b]
  | .clz f | .popc f | .extr f | .fcvt f | .ret f | .jmpx f | .plen f | .pset f => [.x f.a]
  | .sel f | .ffma f => [.x f.a, .x f.b, .x f.c]
  | .insr f => [.x f.a, .x f.d]
  | .addi f | .andi f | .ori f | .xori f | .shli f | .shri f | .srai f => [.x f.a]
  | .movhi f => [.x f.d]
  | .bc f | .brl f => [.x f.d]
  | .vadd f | .vsub f | .vadds f | .vsubs f | .vmul f | .vmulh f | .vmulw f | .vmin f | .vmax f | .vand f
    | .vor f | .vxor f | .vshl f | .vshr f | .vsra f | .vcmp f | .vperm f =>
    RG.vectors f [(.a, f.a), (.b, f.b)] ++ [.p f.g.toNat]
  | .vmacw f => RG.vectors f [(.a, f.a), (.b, f.b), (.d, f.d)] ++ [.p f.g.toNat]
  | .vfma f | .vfms f => RG.vectors f [(.a, f.a), (.b, f.b), (.c, f.c)] ++ [.p f.g.toNat]
  | .vneg f | .vabs f | .vnot f | .vrcp f | .vrsq f | .vsqrt f | .vexp2 f | .vlog2 f | .vcvt f | .vredadd f
    | .vredmax f | .vredmin f | .vmov f | .vpacksx f | .vunpksx f =>
    RG.vectors f [(.a, f.a)] ++ [.p f.g.toNat]
  | .vsel f => RG.vectors f [(.a, f.a), (.b, f.b)] ++ [.p f.c.toNat, .p f.g.toNat]
  | .vbcast f | .vext f | .vslide f => RG.vectors f [(.a, f.a)] ++ [.x f.b, .p f.g.toNat]
  | .vins f => [.x f.a, .x f.b, .p f.g.toNat]
  | .viota f => [.p f.g.toNat]
  | .vmovi f => [.p f.g.toNat]
  | .pand f | .por f | .pxor f => [.p f.a.toNat, .p f.b.toNat]
  | .pnot f | .pcnt f | .pmov f => [.p f.a.toNat]
  | .mma f => [.a f.acc.toNat, .ch f.cha.toNat, .ch f.chb.toNat]
  | .mdrain f => [.a f.acc.toNat, .x f.a] ++ drainHandles
  | .maccst f => [.a f.acc.toNat, .x f.a]
  | .maccld f => [.x f.a]
  | .epld f => [.x f.a]
  | .ld f | .fld f => [.x f.a]
  | .st f | .fst f => [.x f.d, .x f.a]
  | .vld f | .vfld f => [.x f.a, .p f.g.toNat]
  | .vst f | .vfst f => (if f.q then [] else [.v f.d]) ++ [.x f.a, .p f.g.toNat]
  | .vlds f => [.x f.a, .x f.b, .p f.g.toNat]
  | .vldx f => [.x f.a, .v f.b, .p f.g.toNat]
  | .vsts f => (if f.q then [] else [.v f.d]) ++ [.x f.a, .x f.b, .p f.g.toNat]
  | .vstx f => (if f.q then [] else [.v f.d]) ++ [.x f.a, .v f.b, .p f.g.toNat]
  | .lsfmt f => [.x f.a, .x f.b]
  | .copy f => [.x f.a, .x f.b, .x f.c]
  | .copya f => [.x f.a]
  | .markr f => [.x f.a, .k f.h.toNat]
  | .strb f => [.x f.a]
  | .pusht f => [.x f.a, .x f.b, .k f.h.toNat]
  | .popt f | .splitr f | .joinr f => [.x f.a, .x f.b, .k f.h.toNat]
  | .rickq f => [.x f.a, .name f.b.toNat]
  | .send f | .recv f | .coll f => [.x f.a, .x f.b, .x f.c]
  | .amo f => [.x f.a, .x f.b, .x f.c]
  | .red f => [.x f.a, if f.op = .bfpadd then .v f.b else .x f.b]
  | .claim f => [.x f.a, .x f.b]
  | .resolve f => [.name f.h.toNat]
  | .qclaim f => [.x f.a, .name f.h.toNat]
  | .retire f => [.name f.h.toNat]
  | .casn f => [.x f.a, .name f.b.toNat, .name f.h.toNat]
  | .chopen f => [.name f.a.toNat]
  | .chcommit f => [.x f.d, .ch f.h.toNat]
  | .barg f | .joing f | .leaveg f => [.name f.a.toNat]
  | .spawn f | .susp f => [.x f.a, .x f.b]
  | .svc f => [.x f.a]
  | .wrsr f | .bkpt f => [.x f.a]
  | .tstpsn f => [.v f.a]
  | _ => []

/-- The X register that an op writes (R97). -/
def destX (i : Instr) : Option Reg :=
  match i with
  | .add f | .sub f | .mul f | .mulh f | .mulhu f | .div f | .divu f | .rem f | .remu f | .and f | .or f
    | .xor f | .shl f | .shr f | .sra f | .rotr f | .clz f | .popc f | .min f | .max f | .minu f | .maxu f | .cmp f
    | .sel f | .extr f | .insr f | .fadd f | .fsub f | .fmul f | .ffma f | .fmin f | .fmax f | .fcmp f | .fcvt f
    | .jmpx f | .vext f | .pcnt f => some f.d
  | .addi f | .andi f | .ori f | .xori f | .shli f | .shri f | .srai f => some f.d
  | .movi f | .movhi f => some f.d
  | .brl f | .call f => some f.d
  | .ld f | .fld f => some f.d
  | .copy f => some f.d
  | .pusht f => some f.d
  | .amo f => some f.d
  | .claim f | .resolve f => some f.d
  | .casn f => some f.d
  | .copya f | .stru f | .popt f | .markr f | .splitr f | .joinr f | .rickq f | .popq f | .qclaim f | .retire f
    | .chopen f | .chcommit f | .send f | .recv f | .coll f => some f.d
  | .barg f | .joing f | .leaveg f | .spawn f | .nextt f | .tstpsn f | .rdeng f | .rdcyc f => some f.d
  | .svc f => some f.d
  | .rdsr f => some f.d
  | _ => none

/-- The stream that QSEL names. -/
def streamReg (f : RG) : Option Nat :=
  match f.qsel with
  | .none => none
  | .d => some f.d.toNat
  | .a => some f.a.toNat
  | .b => some f.b.toNat
  | .c => some f.c.toNat

/-- The stream register that an op uses (R109, R238). -/
def opStream (i : Instr) : Option Nat :=
  match i with
  | .vadd f | .vsub f | .vadds f | .vsubs f | .vmul f | .vmulh f | .vmulw f | .vmacw f | .vmin f | .vmax f
    | .vand f | .vor f | .vxor f | .vshl f | .vshr f | .vsra f | .vsel f | .vperm f | .vfma f | .vfms f
    | .vcvt f | .vneg f | .vabs f | .vnot f | .vrcp f | .vrsq f | .vsqrt f | .vexp2 f | .vlog2 f | .vredadd f
    | .vredmax f | .vredmin f | .vbcast f | .vslide f | .vmov f | .vpacksx f | .vunpksx f | .vcmp f | .vext f
    | .vins f | .viota f =>
    streamReg f
  | .vld f | .vfld f | .vst f | .vfst f => if f.q then some f.d.toNat else none
  | .vlds f | .vldx f | .vsts f | .vstx f => if f.q then some f.d.toNat else none
  | _ => none

/-- The V register of a vector result, where QSEL does not name it as a stream (R109). -/
def vdest (f : RG) : List Rd := if f.qsel = .d then [] else [.v f.d]

/-- The registers that an op writes, token registers among them. -/
def writesOf (i : Instr) : List Rd :=
  (destX i).toList.map .x ++
  match i with
  | .vadd f | .vsub f | .vadds f | .vsubs f | .vmul f | .vmulh f | .vmulw f | .vmacw f | .vmin f | .vmax f
    | .vand f | .vor f | .vxor f | .vshl f | .vshr f | .vsra f | .vsel f | .vperm f | .vfma f | .vfms f
    | .vcvt f | .vneg f | .vabs f | .vnot f | .vrcp f | .vrsq f | .vsqrt f | .vexp2 f | .vlog2 f | .vredadd f
    | .vredmax f | .vredmin f | .vbcast f | .vslide f | .vmov f | .vpacksx f | .vunpksx f | .vins f | .viota f =>
    vdest f
  | .vmovi f => [.v f.d]
  | .vcmp f | .pand f | .por f | .pxor f | .pnot f | .pmov f | .plen f | .pset f => [.p f.d.toNat]
  | .mma f => [.a f.acc.toNat]
  | .mzero f | .maccld f => [.a f.acc.toNat]
  | .vld f | .vfld f => if f.q then [] else [.v f.d]
  | .vlds f | .vldx f => if f.q then [] else [.v f.d]
  | .claim f => [.name f.h.toNat]
  | .casn f => [.name f.b.toNat]
  | .chopen f => [.ch f.h.toNat]
  | .rickq f => [.k f.h.toNat]
  | _ => []

/-- The ops that receive a SEQ (R56). -/
def takesSeqOp (i : Instr) : Bool :=
  match i with
  | .fadd _ | .fsub _ | .fmul _ | .ffma _ | .fcvt _ | .vadd _ | .vsub _ | .vmul _ | .vfma _ | .vfms _ | .vrcp _ | .vrsq _
    | .vsqrt _ | .vexp2 _ | .vlog2 _ | .vcvt _ | .vredadd _ | .vpacksx _ | .mma _ | .mdrain _ | .vst _ | .vsts _ | .vstx _
    | .vfst _ | .copy _ | .copya _ | .pusht _ => true
  | _ => false

/-! ### Registers by file and number -/

/-- File and physical number of a register that an op names, under a rotating base (R14); X0 and P0 are none. -/
def Rd.key (rrb : X64) (r : Rd) : Option (Nat × Nat) :=
  match r with
  | .x r => if r = 0 then none else some (0, physX rrb r.toNat)
  | .v r => some (1, physV rrb r.toNat)
  | .p n => if n = 0 then none else some (2, physP rrb n)
  | .a n => some (3, n)
  | .name n => some (4, n)
  | .ch n => some (5, n)
  | .k n => some (6, n)

/-- The registers that a queued op reads, and those it writes. -/
def Slotted.reads (q : Slotted) : List (Nat × Nat) := (readsOf q.op).filterMap (Rd.key q.ctx.rrb)

def Slotted.writes (q : Slotted) : List (Nat × Nat) := (writesOf q.op).filterMap (Rd.key q.ctx.rrb)

/-! ### The order of queued ops -/

/-- Whether the op is the C slot's and more than CTL (R26). -/
def cOp (i : Instr) : Bool :=
  match i with
  | .barg _ | .joing _ | .leaveg _ | .spawn _ | .susp _ | .exit _ | .yield _ | .nextt _ | .rett _ | .tstpsn _ | .rdeng _
    | .rdcyc _ | .lsstep _ | .fence _ | .trap _ | .svc _ | .rdsr _ | .wrsr _ | .bkpt _ => true
  | _ => false

/-- The serialising ops (R343). -/
def serialising (i : Instr) : Bool :=
  match i with
  | .barg _ | .joing _ | .leaveg _ | .spawn _ | .susp _ | .exit _ | .yield _ | .nextt _ | .fence _ | .lsstep _ | .trap _
    | .svc _ | .rett _ => true
  | _ => false

/-- Branches, REP and LOOPB, which select the next bundle or how it is fetched (R35, R36, R119). -/
def steers (i : Instr) : Bool :=
  match i with
  | .br _ | .bc _ | .brl _ | .call _ | .ret _ | .jmpx _ | .rep _ | .loopb _ => true
  | _ => false

/-- Whether the op is an MMA. -/
def isMma (i : Instr) : Bool :=
  match i with
  | .mma _ => true
  | _ => false

/-- Whether an op is an MMA that has been waiting to issue ever since the feed had its last one: then no ballast has begun (R161). -/
def Matrix.keeps (m : Matrix) (q : Slotted) : Bool := isMma q.op && q.wait.isSome && decide (q.since ≤ m.feedUntil)

/-- Ops whose output waits in the gate, which no later access may overlap (R347). -/
def drains (i : Instr) : Bool :=
  match i with
  | .mdrain _ | .maccst _ => true
  | _ => false

/-- The E-slot ops that change which slots of a chute an MMA finds, or its handle or tags (R197, R347). -/
def changesChutes (i : Instr) : Bool :=
  match i with
  | .chopen _ | .chcommit _ | .lsfmt _ | .retire _ => true
  | _ => false

/-- The atomics, which a far load of the same bytes must not meet in the gate (R347). -/
def isAtomic (i : Instr) : Bool :=
  match i with
  | .amo _ | .red _ | .casn _ => true
  | _ => false

/-- Whether a place in program order lies before another. -/
def Ctx.before (a b : Ctx) : Bool := decide (a.bundle < b.bundle) || (a.bundle == b.bundle && decide (a.slot < b.slot))

/-- Whether the slot is one of M, L, ST and E. -/
def memorySlot (n : Nat) : Bool := decide (3 ≤ n) && decide (n ≤ 6)

/-- Whether the op `n` must not issue before the earlier op `q` of an earlier bundle has: it reads or writes a register that `q`
writes (R31, R32); or the two use memory, and `q` is a store or an E command, or a load ahead of what writes (R39, R347), or a drain
ahead of a command. Most ops may pass one of the M slot that waits, whose own bundle bounds the memory that it sees. -/
def Slotted.holdsBack (q n : Slotted) : Bool :=
  q.writes.any (fun k => n.reads.contains k || n.writes.contains k) ||
    (memorySlot n.ctx.slot &&
      ((q.ctx.slot == 4 && (n.ctx.slot == 5 || n.ctx.slot == 6 || drains n.op)) || (q.ctx.slot == 5 && n.ctx.slot != 5) ||
        (q.ctx.slot == 6 && (n.ctx.slot != 3 || drains n.op || changesChutes q.op)) || (drains q.op && n.ctx.slot == 6)))

/-- The stream register whose users keep their order: a binding (STRB, STRU), a read or a write. -/
def streamUse (i : Instr) : Option Nat :=
  match i with
  | .strb f => some f.h.toNat
  | .stru f => some f.h.toNat
  | i => opStream i

/-- Whether the op `n` waits for the earlier op `q`, of its own bundle or an earlier one: the users of one stream issue in program
order (R292), and an op of the C slot comes last (R344). -/
def Slotted.delays (q n : Slotted) : Bool :=
  q.ctx.before n.ctx &&
    (((streamUse q.op).isSome && streamUse q.op == streamUse n.op) || cOp n.op ||
      (decide (q.ctx.bundle < n.ctx.bundle) && q.holdsBack n))

end Sys2Proof.Machine
end

