-- ==== Sys2Proof/Machine/Ops.lean ====
section
/-! DEFINITION. The named operations over registers, results in flight, the store gate and restart points, and taking an
exception: every meaning is written over these. -/

namespace Sys2Proof.Machine

/-- The answer of an instruction. -/
abbrev Out := Host.Outcome State Fault Refusal

/-! ### Updates of one part of the state -/

def State.mapCore (s : State) (f : Core → Core) : State := { s with core := f s.core }
def State.mapDev (s : State) (f : Dev → Dev) : State := { s with dev := f s.dev }
def State.mapMem (s : State) (f : Memory → Memory) : State := { s with mem := f s.mem }
def State.mapRegs (s : State) (f : Regs → Regs) : State := { s with core := { s.core with regs := f s.core.regs } }
def State.mapIss (s : State) (f : Issue → Issue) : State := { s with core := { s.core with iss := f s.core.iss } }
def State.mapSys (s : State) (f : SysRegs → SysRegs) : State :=
  s.mapRegs (fun r => { r with sys := f r.sys })

/-- Counts a free value as taken (log 2). -/
def State.bump (s : State) : State := { s with freeCtr := s.freeCtr + 1 }

/-- Element `i` of a vector, or a default beyond it. -/
def vget {α : Type} {n : Nat} (v : Vector α n) (i : Nat) (d : α) : α := v.getD i d

def vset {α : Type} {n : Nat} (v : Vector α n) (i : Nat) (x : α) : Vector α n := v.setIfInBounds i x

/-- The bases that govern the op in issue (R14). -/
def State.rrb (s : State) : X64 := s.core.iss.cur.rrb

/-! ### Lanes (R10, R11) -/

/-- The 2,048-bit mask of a byte-lane mask. -/
def byteMask (m : PBits) : VBits :=
  BitVec.ofNat 2048 (ofLanes 8 ((lanesOf 1 256 m.toNat).map (fun b => if b == 1 then 255 else 0)))

/-- The 64-bit lane poison after a write with a byte-lane mask (R358): a lane written whole takes the result's poison,
one written in part the OR, an unwritten one keeps its own. -/
def mergePoison (old new : BitVec 64) (m : PBits) : BitVec 64 :=
  BitVec.ofNat 64 (ofLanes 1 (((lanesOf 4 64 m.toNat).zip ((lanesOf 1 64 old.toNat).zip (lanesOf 1 64 new.toNat))).map
    (fun q => if q.1 == 15 then q.2.2 else if q.1 == 0 then q.2.1 else max q.2.1 q.2.2)))

/-! ### Results landing in registers (R9, R32, R358) -/

/-- LSSTAT with OVFS set (R68, R70). -/
def SysRegs.setOvfs (y : SysRegs) : SysRegs := { y with lsstat := y.lsstat ||| 1 }

/-- POISON.LOADED, saturating (R362). -/
def SysRegs.countLoaded (y : SysRegs) : SysRegs :=
  if y.poison.toNat % 2 ^ 16 < 65535 then { y with poison := y.poison + 1 } else y

/-- A result written to its register. X0 and P0 discard it (R9). -/
def Dest.apply (d : Dest) (r : Regs) : Regs :=
  match d with
  | .x i val po => if i = 0 then r else { r with x := vset r.x i val, xPoison := vset r.xPoison i po }
  | .v i val m po =>
    let mask := byteMask m
    { r with v := vset r.v i ((val &&& mask) ||| (vget r.v i 0 &&& ~~~mask)),
             vPoison := vset r.vPoison i (mergePoison (vget r.vPoison i 0) po m) }
  | .p i val m po =>
    if i = 0 then r
    else { r with p := vset r.p i ((val &&& m) ||| (vget r.p i 0 &&& ~~~m)),
                  pPoison := vset r.pPoison i (po || (m != BitVec.allOnes 256 && vget r.pPoison i false)) }
  | .a i val po => { r with a := vset r.a i val, aPoison := vset r.aPoison i po }
  | .name i val => { r with n := vset r.n i val }
  | .ch i h => { r with ch := vset r.ch i h }
  | .k i h => { r with k := vset r.k i h }
  | .ovfs set => if set then { r with sys := r.sys.setOvfs } else r
  | .loaded => { r with sys := r.sys.countLoaded }
  | .brk n => { r with sys := { r.sys with chst := r.sys.chst ||| BitVec.ofNat 64 (2 ^ n) } }
  | .uninject => { r with sys := { r.sys with errinj := r.sys.errinj &&& ~~~(0xF#64) } }

/-- File and number of the register a result goes to; a field of a system register is none. -/
def Dest.key : Dest → Option (Nat × Nat)
  | .x n _ _ => some (0, n)
  | .v n _ _ _ => some (1, n)
  | .p n _ _ _ => some (2, n)
  | .a n _ _ => some (3, n)
  | .name n _ => some (4, n)
  | .ch n _ => some (5, n)
  | .k n _ => some (6, n)
  | .ovfs _ => none
  | .loaded => none
  | .brk _ => none
  | .uninject => none

/-- Whether `b` is of a later bundle than `a`, or of a higher slot of one bundle, and of the same register (R32). -/
def PWrite.overtakes (b a : PWrite) : Bool :=
  b.dest.key.isSome && b.dest.key == a.dest.key &&
    (decide (a.bundle < b.bundle) || (a.bundle == b.bundle && decide (a.slot < b.slot)))

/-- The results due land, but those that `keeps` holds back; a result that a later bundle's write overtakes, landed or due before
it, writes nothing, and stays to its time as the producer of reads before it (R32). -/
def landDue (sched : Nat) (keeps : PWrite → Bool) (pend : List PWrite) (r : Regs) : List PWrite × Regs :=
  let due := pend.filter (fun w => !w.dead && decide (w.due ≤ sched) && !keeps w)
  let gone := fun (w : PWrite) => w.dead || due.any (fun b => b.overtakes w)
  ((pend.filter (fun w => decide (sched < w.due) || (keeps w && !gone w))).map (fun w => { w with dead := gone w }),
   (due.filter (fun w => !due.any (fun b => b.overtakes w && decide (b.due < w.due)))).foldl (fun r w => w.dest.apply r) r)

/-- The registers once every result in flight has landed, each at its time: a result that a later bundle's earlier landing
overtakes is discarded (R32). -/
def landRest (pend : List PWrite) (r : Regs) : Regs :=
  (pend.filter (fun w => !w.dead && !pend.any (fun b => b.overtakes w && decide (b.due < w.due)))).foldl (fun r w => w.dest.apply r) r

/-- A write waits for every read of its register that has not issued, by an op of its own bundle or an earlier one (R29, R33), or by one
that is undersized against it, which may return either value (R31). -/
def Issue.keeps (i : Issue) (w : PWrite) : Bool :=
  match w.dest.key with
  | some k => i.iq.any (fun q => (decide (q.ctx.bundle ≤ w.bundle) || decide (q.ctx.sched < w.due)) && q.reads.contains k)
  | none => false

def State.land (s : State) : State :=
  let q := landDue s.core.iss.sched s.core.iss.keeps s.core.iss.pend s.core.regs
  { s with core := { s.core with regs := q.2, iss := { s.core.iss with pend := q.1 } } }

/-- Pending results stay in bundle and slot order. -/
def pendInsert (w : PWrite) : List PWrite → List PWrite
  | [] => [w]
  | b :: t => if (decide (w.bundle < b.bundle) || (w.bundle == b.bundle && decide (w.slot < b.slot))) then w :: b :: t
    else b :: pendInsert w t

/-- The register that a result goes to, where an interlocked result may also go to it. -/
def Dest.reg (d : Dest) : Option RegName :=
  match d with
  | .x n _ _ => some (.x n)
  | .v n _ _ _ => some (.v n)
  | .name n _ => some (.n n)
  | .ch n _ => some (.ch n)
  | .k n _ => some (.k n)
  | _ => none

/-- A later write of the bundle `b` to the register of an interlocked result (R32). -/
def Inter.overwritten (i : Inter) (r : RegName) (b : Nat) : Inter :=
  if i.reg = r then { i with later := i.later ++ [b] } else i

/-- Whether a later write of the register, among those of the listed bundles, has landed: the result is discarded (R32). -/
def superseded (i : Inter) (later : List Nat) (pend : List PWrite) (inter : List Inter) : Bool :=
  later.any (fun b => !pend.any (fun w => !w.dead && w.dest.reg == some i.reg && w.bundle == b) &&
    !inter.any (fun j => j.reg == i.reg && j.bundle == b && j.id != i.id))

/-- The op in issue will write `d` after `lat` cycles (R28, R106); for a serialising op that has waited, the result is one
of the bundles before the restart point (R344). -/
def State.writeAfter (s : State) (lat : Nat) (d : Dest) : State :=
  s.mapCore (fun c =>
    let i := c.iss
    let w : PWrite := { dest := d, due := i.cur.sched + lat, bundle := i.cur.bundle, slot := i.cur.slot, slip := i.slip }
    { c with iss := { i with pend := pendInsert w i.pend },
             inter := match d.reg with
               | some r => c.inter.map (fun j => j.overwritten r i.cur.bundle)
               | none => c.inter,
             shadow := if i.cur.bundle < c.shadow.bundle then { c.shadow with pend := pendInsert w c.shadow.pend }
               else c.shadow })

/-! ### Reading registers (R18, R30, R31) -/

/-- Whether a read by the op in issue sees a result still in flight: only where a slot has slipped, and then either way, the
same way whenever the op looks (R31, R351). -/
def State.seesPending (s : State) (w : PWrite) : Bool :=
  w.slip && decide (w.bundle < s.core.iss.cur.bundle) &&
    Config.freeSlip s.core.iss.cur.bundle s.core.iss.cur.slot
      (1024 * w.bundle + (w.dest.key.map (fun k => 64 * k.1 + k.2)).getD 0)

/-- The register files as the op in issue reads them. -/
def State.seen (s : State) : Regs :=
  (s.core.iss.pend.filter s.seesPending).foldl (fun r w => w.dest.apply r) s.core.regs

def State.px (s : State) (n : Reg) : Nat := physX s.rrb n.toNat
def State.pv (s : State) (n : Reg) : Nat := physV s.rrb n.toNat
def State.pp (s : State) (n : Nat) : Nat := physP s.rrb n

/-- `read_x(n)`. -/
def State.rdX (s : State) (n : Reg) : X64 := if n = 0 then 0 else vget s.seen.x (s.px n) 0

/-- The poison of Xn; X0 is clean. -/
def State.poisonX (s : State) (n : Reg) : Bool := if n = 0 then false else vget s.seen.xPoison (s.px n) false

/-- `read_v(n)`; the unallocated registers trap before a read (R13). -/
def State.rdV (s : State) (n : Reg) : VBits := vget s.seen.v (s.pv n) 0

def State.poisonV (s : State) (n : Reg) : BitVec 64 := vget s.seen.vPoison (s.pv n) 0

/-- `read_p(n)`. -/
def State.rdP (s : State) (n : Nat) : PBits := if n = 0 then BitVec.allOnes 256 else vget s.seen.p (s.pp n) 0

def State.poisonP (s : State) (n : Nat) : Bool := if n = 0 then false else vget s.seen.pPoison (s.pp n) false

def State.rdA (s : State) (n : Nat) : ABits := vget s.seen.a n 0

def State.poisonA (s : State) (n : Nat) : Bool := vget s.seen.aPoison n false

/-- A name register as of the bundle in issue. -/
def State.rdN (s : State) (n : Nat) : ClaimName := vget s.core.regs.n n 0

def State.rdCh (s : State) (n : Nat) : Handle := vget s.core.regs.ch n .invalid

def State.rdK (s : State) (n : Nat) : Handle := vget s.core.regs.k n .invalid

def State.rdQ (s : State) (n : Nat) : Option Stream := vget s.core.regs.q n none

/-! ### Interlocked results (R29, R279, R280) -/

/-- Whether a read by the op in issue waits for an interlocked result of the register. -/
def State.busy (s : State) (r : RegName) : Bool :=
  s.core.inter.any (fun i => i.reg == r && decide (i.bundle < s.core.iss.cur.bundle) &&
    !superseded i i.later s.core.iss.pend s.core.inter)

/-- A register whose result waits on a command of the interval's own gate (R347). -/
def State.gatedOwn (s : State) (r : RegName) : Bool :=
  s.core.inter.any (fun i => i.reg == r && i.gated && decide (i.bundle < s.core.iss.cur.bundle) &&
    !superseded i i.later s.core.iss.pend s.core.inter)

/-- The running strand's place among the die's strands. -/
def State.strandIdx (s : State) : Nat := s.core.running.getD 0

/-- The tenant of a strand. -/
def State.tenantOf (s : State) (k : Nat) : Nat := ((s.dev.strands[k]?).map (·.tenant)).getD 0

/-- A new operation number. -/
def State.newId (s : State) : Nat := s.core.opId

/-- Notes that operation `id` of the bundle in issue will write `r`. -/
def State.interlock (s : State) (r : RegName) (id : Nat) (gated : Bool) : State :=
  s.mapCore (fun c =>
    let i : Inter := { reg := r, id := id, bundle := c.iss.cur.bundle, slot := c.iss.cur.slot, gated := gated, later := [] }
    { c with inter := c.inter.map (fun j => j.overwritten r c.iss.cur.bundle) ++ [i] })

/-- A token goes to the physical register that D named at issue, or nowhere for X0 (R280). -/
def State.interlockTok (s : State) (tok id : Nat) (gated : Bool) : State :=
  if tok = 0 then s else s.interlock (.x tok) id gated

/-- The interlocked result `i` writes `d`: it lands at once, but no op of the bundle in issue sees it (R29); it is also
in flight at the restart point when the operation's bundle lies before the point (R349). -/
def Core.writeBack (c : Core) (i : Inter) (d : Dest) : Core :=
  let w : PWrite := { dest := d, due := 0, bundle := i.bundle, slot := i.slot, slip := false }
  let b := c.shadow.bundle
  { c with iss := if superseded i i.later c.iss.pend c.inter then c.iss else { c.iss with pend := pendInsert w c.iss.pend },
           shadow := if decide (i.bundle < b) && !superseded i (i.later.filter (fun o => decide (o < b))) c.shadow.pend
               (c.inter.filter (fun j => decide (j.bundle < b))) then
             { c.shadow with pend := pendInsert w c.shadow.pend } else c.shadow }

/-- Operation `id` writes `d` to the register that waits for it: on the core, or in the saved context of the strand that
has left the core, clearing its PENDING bit (R366). -/
def State.deliver (s : State) (id : Nat) (r : RegName) (d : Dest) : State :=
  match s.core.inter.find? (fun i => i.id == id && i.reg == r) with
  | some i => s.mapCore (fun c => { (c.writeBack i d) with inter := c.inter.filter (fun j => !(j.id == id && j.reg == r)) })
  | none => s.mapDev (fun dv => { dv with strands := dv.strands.map (fun t =>
      if t.pending.any (fun i => i.id == id && i.reg == r) then
        { t with regs := d.apply t.regs, pending := t.pending.filter (fun j => !(j.id == id && j.reg == r)),
                 pendMask := match r with
                   | .x n => t.pendMask &&& ~~~(BitVec.ofNat 64 (2 ^ n))
                   | _ => t.pendMask }
      else t) })

/-- The token of operation `id` (R278). -/
def State.deliverTok (s : State) (tok id : Nat) (v : X64) (poison : Bool) : State :=
  if tok = 0 then s else s.deliver id (.x tok) (.x tok v poison)

/-- Status and count of a token (R278). -/
def token (status count : Nat) : X64 := BitVec.ofNat 64 (status * 2 ^ 56 + count % 2 ^ 56)

/-- Device error counter `e` rises, saturating (R481). -/
def Dev.countErr (d : Dev) (e : Nat) : Dev :=
  { d with errors := vset d.errors e (let v := vget d.errors e 0; if v = BitVec.allOnes 64 then v else v + 1) }

/-- The same, by `n`. -/
def Dev.countErrs (d : Dev) (e n : Nat) : Dev :=
  { d with errors := vset d.errors e (BitVec.ofNat 64 (min ((vget d.errors e 0).toNat + n) (2 ^ 64 - 1))) }

/-! ### Cycles (R20, R461) -/

/-- `n` cycles pass; the strand is charged the static share and a measured amount (log 9). -/
def State.tick (s : State) (n : Nat) : State :=
  { s with
    core := { s.core with
      now := s.core.now + n,
      meter := { s.core.meter with
        cycle := s.core.meter.cycle + n, since := s.core.meter.since + n,
        energy := s.core.meter.energy + ((s.core.meter.cycle + n) / 32 - s.core.meter.cycle / 32) +
          Config.measuredEnergy s.freeCtr } },
    freeCtr := s.freeCtr + 1 }

/-! ### The route between modules (R384, R388) -/

/-- The port by which a module's traffic to another leaves, and the module it reaches, in the torus: x first, then y, then z, the shorter
way round, and + where both are as long (R384, R388). -/
def torusStep (a b : Nat) : Option (Nat × Nat) :=
  let dim := fun (i : Nat) =>
    let x := a / 4 ^ i % 4
    let d := (b / 4 ^ i % 4 + 4 - x) % 4
    if d = 0 then none
    else if d = 3 then some (2 * i + 1, a - x * 4 ^ i + (x + 3) % 4 * 4 ^ i) else some (2 * i, a - x * 4 ^ i + (x + 1) % 4 * 4 ^ i)
  ((dim 0).orElse (fun _ => dim 1)).orElse (fun _ => dim 2)

/-- The modules on the route from one module to another, both ends among them: six hops at most. -/
def routeTo (b : Nat) : Nat → Nat → List Nat
  | 0, a => [a]
  | fuel + 1, a => match torusStep a b with
    | none => [a]
    | some q => a :: routeTo b fuel q.2

/-- The hops from this module to another. A detour's further hops lie in the measured term (log 9). -/
def Dev.hops (d : Dev) (other : Nat) : Nat := (routeTo other 6 d.ident.index).length - 1

/-! ### The fixed terms of the charge (R461) -/

/-- Bytes charged to the strand that runs, as their access is performed: 1 for every 512 bytes homed in GDDR7, and 1 for every 256 bytes over a
hop between modules. -/
def Meter.charge (m : Meter) (gddr evgil : Nat) : Meter :=
  { m with gddr := m.gddr + gddr, evgil := m.evgil + evgil,
           energy := m.energy + ((m.gddr + gddr) / 512 - m.gddr / 512) + ((m.evgil + evgil) / 256 - m.evgil / 256) }

def State.charge (s : State) (strand gddr evgil : Nat) : State :=
  if s.core.running = some strand then s.mapCore (fun c => { c with meter := c.meter.charge gddr evgil }) else s

/-- The bytes of an access by their homes (R220, R385). -/
def State.chargeBytes (s : State) (strand : Nat) (homes : List (Nat × Nat)) : State :=
  s.charge strand (((homes.filter (fun q => homeOf (physOf q.1) == .gddr)).map (fun q => q.2)).sum)
    ((homes.map (fun q => if devOf q.1 = 0 then 0 else q.2 * s.dev.hops (devOf q.1 - 1))).sum)

/-- The pieces of an access. -/
def State.chargeParts (s : State) (strand : Nat) (ps : List Part) : State := s.chargeBytes strand (ps.map (fun p => (p.addr, p.len)))

/-- Bytes that the strand's engine `id` sends over hops. -/
def State.chargeEngine (s : State) (id bytes hops : Nat) : State :=
  match s.core.engs.find? (fun e => e.id == id) with
  | some e => s.charge e.strand 0 (bytes * hops)
  | none => s

/-- Bytes that the strand's engine `id` reads or writes, by their homes. -/
def State.chargeHomes (s : State) (id : Nat) (addrs : List Nat) : State :=
  match s.core.engs.find? (fun e => e.id == id) with
  | some e => s.chargeBytes e.strand (addrs.map (fun a => (a, 1)))
  | none => s

/-- A slot slips: results in flight may already have landed for a later read (R31). -/
def Issue.slipAll (i : Issue) : Issue :=
  { i with slip := true, pend := i.pend.map (fun w => { w with slip := true }) }

/-- The op in issue waits on a variable event (R23): it stays in its slot's queue. -/
def State.hold (s : State) (w : Option WaitFor) : State := s.mapIss (fun i => { i with held := some (w.getD .other) })

/-! ### The store gate (R345 to R348) -/

def gateSize : Nat := 64

/-- An entry taken by the op in issue. -/
def State.gatePush (s : State) (o : GateOp) : State :=
  s.mapCore (fun c => { c with gate := c.gate ++ [{ bundle := c.iss.cur.bundle, slot := c.iss.cur.slot, op := o }] })

/-- A local store is performed: its bytes and poison are written; OVFS follows (R38, R68, R360, R362). -/
def countStored (y : SysRegs) : SysRegs :=
  let n := y.poison.toNat / 2 ^ 16 % 2 ^ 16
  if n < 65535 then { y with poison := y.poison + 65536 } else y

/-- POISON.HOSTZ rises for a poisoned store to L4 (R360, R362). -/
def countHostz (y : SysRegs) : SysRegs :=
  let n := y.poison.toNat / 2 ^ 32 % 2 ^ 16
  if n < 65535 then { y with poison := y.poison + BitVec.ofNat 64 (2 ^ 32) } else y

/-- The bookkeeping of a performed store in the strand's registers. -/
def StoreData.book (d : StoreData) (y : SysRegs) : SysRegs :=
  let y := if d.ovfs then y.setOvfs else y
  let host := d.poisoned.any (fun a => homeOf (physOf a) == .host)
  let dev := d.poisoned.any (fun a => homeOf (physOf a) != .host)
  let y := if dev then countStored y else y
  if host then countHostz y else y

/-- A change of the running strand's system registers that a rollback does not undo: it holds in the shadow too. -/
def State.keepSys (s : State) (f : SysRegs → SysRegs) : State :=
  s.mapCore (fun c => { c with
    regs := { c.regs with sys := f c.regs.sys },
    shadow := { c.shadow with regs := { c.shadow.regs with sys := f c.shadow.regs.sys } } })

/-- A change of the system registers of strand `k`, on the core or in its saved context (R281, R366). -/
def State.sysOf (s : State) (k : Nat) (f : SysRegs → SysRegs) : State :=
  if s.core.running = some k then s.keepSys f
  else s.mapDev (fun d => { d with strands := (d.strands.zipIdx).map (fun p =>
    if p.2 == k then { p.1 with regs := { p.1.regs with sys := f p.1.regs.sys } } else p.1) })

/-- The tags of `count` regions from `first` are set. -/
def Memory.setTags (m : Memory) (first count : Nat) (f : Fmt) (g : Geo) : Memory :=
  (List.range count).foldl (fun m i => m.setTag (first + i) f g) m

/-- Where the byte of a home is performed: at the new home once its line has moved (R370, R371). -/
def State.route (s : State) (a : Nat) : Nat :=
  match s.dev.migrations.find? (fun m => decide (m.src ≤ a) && decide (a < m.src + 256 * m.moved)) with
  | some m => m.dst + (a - m.src)
  | none => a

/-- Memory as accesses at the old homes of moved lines find it: forwarded (R370). -/
def State.homeMem (s : State) : Memory :=
  s.dev.migrations.foldl (fun m g =>
    let n := 256 * g.moved
    m.store ((List.range n).map (fun i => (g.src + i, s.mem.byte (g.dst + i))))
      (((List.range n).filter (fun i => s.mem.poisoned (g.dst + i))).map (fun i => g.src + i))) s.mem

/-- Memory as the strand's own reads of bundle `b` see it: with its gated stores and tag changes of earlier bundles
applied (R347). Gated outputs of MDRAIN and MACCST are not: an access that overlaps one traps (R347). -/
def State.viewAt (s : State) (b : Nat) : Memory :=
  (s.core.gate.filter (fun e => decide (e.bundle < b))).foldl (fun m e =>
    match e.op with
    | .store d => m.store d.cells d.poisoned
    | .far f =>
      if f.atom.isNone then m.store (f.data.cells.map (fun c => (s.route c.1, c.2))) (f.data.poisoned.map s.route) else m
    | .tag first count f g => m.setTags first count f g
    | _ => m) s.mem

def State.view (s : State) : Memory := s.viewAt s.core.iss.cur.bundle

/-- The chute of a name. -/
def State.chute? (s : State) (nm : ClaimName) : Option Chute := s.dev.chutes.find? (fun c => c.name == nm)

def State.setChute (s : State) (c : Chute) : State :=
  s.mapDev (fun d => { d with chutes := d.chutes.map (fun o => if o.name == c.name then c else o) })

/-- Committed slots of a member (R197): landed commits minus pops. -/
def ChuteMember.committed (m : ChuteMember) : Nat := m.landed - m.head

/-- T of R197: the commits that every member has taken. -/
def Chute.taken (c : Chute) : Nat := c.members.foldl (fun m x => min m x.landed) c.commits

/-- Room for another commit: every member holds fewer committed slots than the chute has (R197). -/
def Chute.room (c : Chute) : Bool := c.members.all (fun m => decide (c.taken - m.head < c.slots))

/-- Slot number of the tail (R144). -/
def Chute.tail (c : Chute) : Nat := c.taken % c.slots

/-- The committed and unpopped slots of the own core's replica (R147), by slot count. -/
def Chute.liveSlots (c : Chute) : List Nat :=
  match c.members.find? (fun m => m.core == ownCore) with
  | some m => (List.range (m.landed - m.head)).map (fun i => m.head + i)
  | none => []

/-- Whether the address lies in slot `k` of the own core's replica. -/
def Chute.inSlot (c : Chute) (k a : Nat) : Bool :=
  decide (ownLs (c.slotOff k) ≤ a) && decide (a < ownLs (c.slotOff k) + c.slotBytes)

/-- A commit at the core's own member, its extent recorded (R146); the other members take it when their copy lands
(R198). -/
def Chute.commit (c : Chute) (vout vk : Nat) : Chute :=
  let slot := c.commits % c.slots
  { c with commits := c.commits + 1, dirty := c.dirty.filter (fun d => !c.inSlot slot d.1),
           extents := (c.extents ++ List.replicate (c.slots - c.extents.length) (0, 0)).set slot (vout, vk),
           members := c.members.map (fun m => if m.core == ownCore then { m with landed := c.commits + 1 } else m) }

/-- A SEND that reads its source keeps every byte of it that stores at these addresses replace (R392). -/
def Engine.noted (e : Engine) (m : Memory) (addrs : List Nat) : Engine :=
  match e.begun, e.cmd with
  | true, .send _ _ src k _ => { e with kept := e.kept ++
      (addrs.filter (fun a => decide (ownLs src ≤ a) && decide (a < ownLs src + 256 * k))).map (fun a => (a, (m.byte a, m.poisoned a))) }
  | _, _ => e

/-- Stores over committed slots (R147), and over what a SEND reads (R392), are remembered with every byte they replace. -/
def State.noteStores (s : State) (addrs : List Nat) : State :=
  (s.mapCore (fun c => { c with engs := c.engs.map (fun e => e.noted s.mem addrs) })).mapDev (fun d => { d with chutes := d.chutes.map (fun c =>
    let hit := addrs.filter (fun a => c.liveSlots.any (fun k => c.inSlot k a))
    { c with dirty := c.dirty ++ (hit.map (fun a => (a, s.mem.byte a))).filter (fun d => !c.dirty.contains d) }) })

/-- Memory as the M-slot reads of bundle `b` see it: the gated stores, tags and drain outputs of earlier bundles (R151, R347). -/
def State.viewMAt (s : State) (b : Nat) : Memory :=
  (s.core.gate.filter (fun e => decide (e.bundle < b))).foldl (fun m e =>
    match e.op with
    | .store d => m.store d.cells d.poisoned
    | .output d => m.store d.cells d.poisoned
    | .drainChute d _ => m.store d.cells d.poisoned
    | .drainPush d _ => m.store d.cells d.poisoned
    | .far f =>
      if f.atom.isNone then m.store (f.data.cells.map (fun c => (s.route c.1, c.2))) (f.data.poisoned.map s.route) else m
    | .tag first count f g => m.setTags first count f g
    | _ => m) s.mem

/-- What the operands of an MMA of bundle `b` are read from. -/
def State.operandMem (s : State) (b : Nat) : OperandMem := { mem := s.mem, view := s.viewMAt b, ctr := s.freeCtr }

/-- The MMAs whose feed lasts (R148) and whose operands' slots hold one of the addresses. -/
def State.mmasOver (s : State) (addrs : List Nat) : List MmaFlight :=
  s.core.mx.mmas.filter (fun m => decide (s.core.now < m.fed) && m.chutes.any (fun q =>
    match s.chute? q.1 with
    | some c => (List.range q.2.2).any (fun i => addrs.any (c.inSlot (q.2.1 + i)))
    | none => false))

/-- The result of an MMA in flight, whose operand bytes are now as memory and the chutes' replaced bytes say (R147). -/
def MmaFlight.again (m : MmaFlight) (s : State) (n : Nat) (d : Dest) : Dest :=
  match m.chutes with
  | [qa, qb] =>
    match s.chute? qa.1, s.chute? qb.1 with
    | some ca, some cb =>
      let r := mmaResult m.op m.snap (m.input, m.inPoison) (s.operandMem m.bundle)
        { chute := ca, first := qa.2.1, col := m.op.oa, t := m.op.t, k := MM.steps m.op }
        { chute := cb, first := qb.2.1, col := m.op.ob, t := m.op.t, k := MM.steps m.op }
      .a n r.1 r.2
    | _, _ => d
  | _ => d

/-- The results in flight of these MMAs, their operands stored over: each byte they read is the old or the new one (R147). -/
def State.redoMmas (s : State) (met : List MmaFlight) : State :=
  if met.isEmpty then s
  else
    let fix := fun (w : PWrite) => match w.dest, met.find? (fun m => m.bundle == w.bundle) with
      | .a n v po, some m => { w with dest := m.again s n (.a n v po) }
      | _, _ => w
    (s.mapCore (fun c => { c with
      iss := { c.iss with pend := c.iss.pend.map fix },
      shadow := { c.shadow with pend := c.shadow.pend.map fix } })).bump

/-- Bytes are written at their homes with their poison, by whatever agent (R147, R360). -/
def State.storeAt (s : State) (cells : List Host.Cell) (poisoned : List Nat) : State :=
  let addrs := cells.map (·.1)
  ((s.noteStores addrs).mapMem (fun m => m.store cells poisoned)).redoMmas (s.mmasOver addrs)

/-- A store is performed (R38, R242, R346). -/
def State.performStore (s : State) (d : StoreData) : State := (s.storeAt d.cells d.poisoned).keepSys d.book

/-- An image among those to be appended, after every one whose result lands no later (R293). -/
def comingInsert (x : Nat × VBits × BitVec 64) : List (Nat × VBits × BitVec 64) → List (Nat × VBits × BitVec 64)
  | [] => [x]
  | b :: t => if x.1 < b.1 then x :: b :: t else b :: comingInsert x t

/-- The parts of a store, performed independently (R251); an atomic is one access. -/
def FarOp.split (f : FarOp) : List FarOp :=
  match f.atom, partGroups f.parts with
  | none, g :: h :: gs => (g :: h :: gs).map (fun p => { f with parts := p })
  | _, _ => [f]

/-- Whether a released COLL has forked: it has a round, or its token (R407). -/
def State.collForked (s : State) (e : Engine) : Bool := e.done.isSome || s.dev.rounds.any (fun r => r.id == e.id)

/-- The bytes at `addrs` of a COLL's SRC as they stand before an access of a later place is performed: the first of each (R423). -/
def Engine.keepSrc (e : Engine) (s : State) (addrs : List Nat) : Engine :=
  match e.cmd with
  | .coll _ src _ => { e with kept := e.kept ++ (addrs.filter (fun a => !e.kept.any (fun q => q.1 == a) &&
      src.any (fun p => decide (p.addr ≤ a) && decide (a < p.addr + p.len)))).map (fun a =>
        (a, (s.mem.byte (s.route a), s.mem.poisoned (s.route a)))) }
  | _ => e

/-- An access of the strand at a place is to be performed at these addresses: every COLL that was released before it and has not forked keeps
its SRC as it stands (R423). -/
def State.keepSrc (s : State) (strand bundle slot : Nat) (addrs : List Nat) : State :=
  s.mapCore (fun c => { c with engs := c.engs.map (fun e =>
    if e.strand == strand && (decide (e.bundle < bundle) || (e.bundle == bundle && decide (e.slot < slot))) && !s.collForked e then
      e.keepSrc s addrs else e) })

/-- A local store of a gate entry is performed (R346, R423). -/
def State.releaseStore (s : State) (e : GateEntry) (d : StoreData) : State :=
  (s.keepSrc s.strandIdx e.bundle e.slot (d.cells.map (·.1))).performStore d

/-- An image is appended at the cycle `land` (R293). -/
def State.landImage (s : State) (q land : Nat) (val : VBits) (po : BitVec 64) : State :=
  s.mapCore (fun c =>
    let e := vget c.strm q StreamEngine.empty
    { c with strm := vset c.strm q { e with coming := comingInsert (land, val, po) e.coming } })

/-- Images of a `.wr` stream that released far loads still bring (R242, R293). -/
def Core.bringing (c : Core) (q : Nat) : Nat :=
  (c.loads.filter (fun l => l.stream == some q && !c.gate.any (fun e => match e.op with
    | .imageOf _ i => i == l.id
    | _ => false))).length

/-- What a released entry does (R346); a drain's commit takes its place among the chute's commits (R155). -/
def State.releaseOne (s : State) (e : GateEntry) : State :=
  match e.op with
  | .store d => s.releaseStore e d
  | .output d => s.releaseStore e d
  | .far f => s.mapCore (fun c => { c with fars := c.fars ++ f.split })
  | .tag first count f g => s.mapMem (fun m => m.setTags first count f g)
  | .image q land val po => s.landImage q land val po
  | .imageOf _ _ => s
  | .cmd g => s.mapCore (fun c => { c with engs := c.engs ++ [g] })
  | .drainChute d nm => (s.releaseStore e d).mapCore (fun c => { c with
      engs := c.engs ++ [{ id := c.opId, strand := s.strandIdx, bundle := e.bundle, slot := e.slot, tok := 0,
                           cmd := .chcommit nm 0, done := none }],
      opId := c.opId + 1 })
  | .drainPush d g => (s.releaseStore e d).mapCore (fun c => { c with engs := c.engs ++ [g] })
  | .pop id => s.mapCore (fun c => { c with mx := { c.mx with
      mmas := c.mx.mmas.map (fun m => if m.id == id then { m with released := true } else m) } })

/-- An entry in its place by bundle and slot, after the entries already there. -/
def gateInsert (e : GateEntry) : List GateEntry → List GateEntry
  | [] => [e]
  | b :: t => if decide (e.bundle < b.bundle) || (e.bundle == b.bundle && decide (e.slot < b.slot)) then e :: b :: t
    else b :: gateInsert e t

/-- The entries of every bundle before `b`, in bundle order and ascending slot order within a bundle (R345, R346). -/
def Core.releasing (c : Core) (b : Nat) : List GateEntry :=
  (c.gate.filter (fun e => decide (e.bundle < b))).foldl (fun l e => gateInsert e l) []

/-- A restart point before bundle number `b` commits (R344): the gate releases the entries of every bundle before it, in
the order they were taken, the interval's accumulator targets are forgotten (R350), and the shadow takes the state there,
from which the strand would resume at `pc`. -/
def State.commitAt (s : State) (b pc : Nat) : State :=
  let out := s.core.releasing b
  let t := out.foldl State.releaseOne (s.mapCore (fun c => { c with
    gate := c.gate.filter (fun e => !decide (e.bundle < b)),
    inter := c.inter.map (fun i => if i.bundle < b then { i with gated := false } else i),
    accs := [] }))
  t.mapCore (fun c => { c with
    shadow := { regs := c.regs, pend := c.iss.pend.filter (fun w => decide (w.bundle < b)), pc := pc, bundle := b } })

/-! ### Link queues (R390) -/

/-- The queue of a tenant and a peer; it starts empty, with 64 credits. -/
def Links.queue (l : Links) (tenant peer : Nat) : LinkQueue :=
  (l.queues.find? (fun q => q.tenant == tenant && q.peer == peer)).getD
    { tenant := tenant, peer := peer, msgs := [], taken := 0, credits := 64 }

def Links.setQueue (l : Links) (q : LinkQueue) : Links :=
  { l with queues := q :: l.queues.filter (fun o => !(o.tenant == q.tenant && o.peer == q.peer)) }

def Dev.mapQueue (d : Dev) (tenant peer : Nat) (f : LinkQueue → LinkQueue) : Dev :=
  { d with links := d.links.setQueue (f (d.links.queue tenant peer)) }

/-- A discarded SEND returns its credits, a discarded RECV its message to the head (R392, R393). -/
def Dev.returnCmd (d : Dev) (tenant : Nat) (c : Cmd) : Dev :=
  match c with
  | .send peer _ _ k gone =>
    if gone || decide (256 ≤ peer) then d else d.mapQueue tenant peer (fun q => { q with credits := q.credits + k })
  | .recv peer _ _ k (some m) => d.mapQueue tenant peer (fun q => { q with msgs := m :: q.msgs, taken := q.taken - k })
  | _ => d

/-- The commands of gate entries. -/
def gateCmds (g : List GateEntry) : List Cmd :=
  g.filterMap (fun e => match e.op with
    | .cmd e => some e.cmd
    | _ => none)

/-! ### Rollback (R349) -/

/-- The parts of CHKCTL and BKC0 to BKC3 that a rollback keeps: UCOUNT and HITS. -/
def keepCounts (now saved : SysRegs) : SysRegs :=
  let hi := fun (a b : X64) => (a &&& 0xFFFFFFFF00000000) ||| (b &&& 0x00000000FFFFFFFF)
  { saved with chkctl := hi now.chkctl saved.chkctl,
               bkc := Vector.ofFn (fun i => hi now.bkc[i] saved.bkc[i]) }

/-- A serialising op that has issued, its restart point committed, and that still waits (R344). -/
def Core.committed (c : Core) : List Slotted := c.iss.iq.filter (fun q => decide (q.ctx.bundle < c.shadow.bundle))

/-- The queues with only these ops in them, before the dispatch of bundle number `b`. -/
def lagOf (iq : List Slotted) (b : Nat) : Vector Nat 8 :=
  Vector.ofFn (fun n => ((iq.find? (fun q => q.ctx.slot == n.val)).map (fun q => b - q.ctx.bundle)).getD 0)

/-- The lowest nonzero code (R278). -/
def lowestCode (l : List Nat) : Nat := (l.filter (fun c => c != 0)).foldl (fun m c => if m = 0 then c else min m c) 0

/-- A binding of stream `q` with the lowest code its engine has met, where it is the binding that the engine serves (R278). -/
def Core.boundCode (c : Core) (old : Option Stream) (q : Nat) : Option Stream :=
  match old, vget c.regs.q q none with
  | some t, some u => some (if t.bundle = u.bundle then { t with code := lowestCode [t.code, (vget c.strm q StreamEngine.empty).code] } else t)
  | o, _ => o

/-- An MMA that has waited since the feed's last one leaves its queue without feeding: ballast begins now (R161). -/
def Core.endRise (c : Core) : Core := { c with mx := { c.mx with feedUntil := max c.mx.feedUntil c.now } }

/-- The same where such an MMA is queued. -/
def Core.dropQueue (c : Core) : Core := if c.iss.iq.any c.mx.keeps then c.endRise else c

/-- The core goes back to its last committed restart point: gate entries, results, far loads, reservations and images of
later bundles are discarded and the shadowed state is restored; results of earlier bundles still count as in flight until
their times, but a read that is undersized against one returns it now (R351). An op that has issued and waits is not undone. -/
def State.rollback (s : State) : State :=
  let c := s.core.dropQueue
  let b := c.shadow.bundle
  let n := c.iss.bundle + 1
  let q := landDue c.iss.sched (fun _ => false) c.shadow.pend
    { c.shadow.regs with sys := keepCounts c.regs.sys c.shadow.regs.sys }
  let undo := fun (d : Dev) => (c.mx.mmas.filter (fun m => decide (b ≤ m.bundle))).foldl (fun d m =>
    m.chutes.foldl (fun d (nm, _, k) => { d with chutes := d.chutes.map (fun o => if o.name == nm then
      { o with members := o.members.map (fun x => if x.core == ownCore then { x with reserved := x.reserved - k } else x) }
      else o) }) d) d
  { s with
    core := { c with
      regs := landRest (q.1.filter (fun w => w.dest.key.isSome)) q.2,
      iss := { c.iss with pc := c.shadow.pc, bundle := n, iq := c.committed, lag := lagOf c.committed n, drift := 0, stall := 0,
                          held := none, pend := q.1, next := .seq, fault := none, slip := false },
      gate := c.gate.filter (fun e => decide (e.bundle < b)),
      inter := (c.inter.filter (fun i => decide (i.bundle < b))).map (fun i =>
        { i with later := i.later.filter (fun o => decide (o < b)) }),
      loads := c.loads.filter (fun l => decide (l.bundle < b)),
      engs := c.engs.filter (fun e => decide (e.bundle < b)),
      strm := Vector.ofFn (fun i => match c.boundCode (vget c.shadow.regs.q i none) i with
        | some t => if t.dir = .rd then { c.strm[i] with images := [], moved := t.taken, code := t.code }
          else { c.strm[i] with moved := t.taken - c.strm[i].coming.length - c.bringing i, code := t.code }
        | none => c.strm[i]),
      mx := { c.mx with mmas := c.mx.mmas.filter (fun m => decide (m.bundle < b)) },
      accs := [] },
    dev := (gateCmds (c.gate.filter (fun e => decide (b ≤ e.bundle)))).foldr (fun m d => d.returnCmd c.tenant m) (undo s.dev) }

/-! ### Taking an exception (R18, R352, R353) -/

/-- TRAPV.EN with no handler running (R353, R354). -/
def SysRegs.handles (y : SysRegs) : Bool := y.trapv.getLsbD 0 && !y.trapc.getLsbD 8

/-- TRAPV.ADDR (R354). -/
def SysRegs.handler (y : SysRegs) : Nat := y.trapv.toNat % 2 ^ 56 / 8 * 8

/-- TRAPPC holds bits 55:3 of an address (R475). -/
def trapPc (a : Nat) : X64 := BitVec.ofNat 64 (a % 2 ^ 56 / 8 * 8)

/-- The stream bindings as a save keeps them, with the error codes their engines have met (R278). -/
def Core.savedStreams (c : Core) : Vector (Option Stream) 8 :=
  Vector.ofFn (fun i => c.regs.q[i].map (fun t => { t with code := c.strm[i].code }))

/-- Whether a strand that leaves the core in the state `st` is saved: one that ends is not, and one that traps only under debug hold
(R171, R176, R178). -/
def Strand.saves (t : Strand) (st : StrandState) : Bool :=
  match st with
  | .done | .killed => false
  | .trapped => t.debugHold
  | _ => true

/-- The core's live context goes back into the strand's table entry, in the state `st`, to resume at `pc` (R171); where it is a save, with the
masks of a full one, in which bit 0 of XLIVE and of PLIVE is 1 (DESIGN CHOICE, log 75). -/
def Strand.saveFrom (t : Strand) (c : Core) (st : StrandState) (pc : Nat) : Strand :=
  let left := c.inter.filter (fun i => i.later.isEmpty)
  let m := if t.saves st then { t with
      full := true, xlive := BitVec.allOnes 64, vlive := BitVec.ofNat 32 (2 ^ (c.nV / 2) - 1), plive := BitVec.allOnes 16,
      alive := BitVec.ofNat 4 (2 ^ c.nA - 1),
      pendMask := BitVec.ofNat 64 ((left.map (fun i => match i.reg with
        | .x n => 2 ^ n
        | _ => 0)).foldl (fun a b => a ||| b) 0) } else t
  { m with state := st, fresh := false, pc := pc, regs := { c.regs with q := c.savedStreams }, pending := left,
           issuing := c.committed,
           cycle := c.meter.cycle, energy := c.meter.energy, gddr := c.meter.gddr, evgil := c.meter.evgil }

/-- The deficit of R195. -/
def Sched.deficitOf (d : Sched) (cls tenant : Nat) : Int :=
  ((d.deficit.find? (fun p => p.1 == (cls, tenant))).map (·.2)).getD 0

def Sched.setDeficit (d : Sched) (cls tenant : Nat) (v : Int) : Sched :=
  { d with deficit := ((cls, tenant), v) :: d.deficit.filter (fun p => p.1 != (cls, tenant)) }

/-- `charge` of R195: the cycles since pickup. -/
def Sched.charge (d : Sched) (cls tenant n : Nat) : Sched := d.setDeficit cls tenant (d.deficitOf cls tenant - n)

/-- Every result in flight lands (R365). -/
def Core.landAll (c : Core) : Core :=
  { c with regs := landRest c.iss.pend c.regs, iss := { c.iss with pend := [] } }

/-- Cycles until the last result in flight lands (R43, R174, R365); a killed strand's are not awaited (R178). -/
def Core.landWait (c : Core) (st : StrandState) : Nat :=
  if st = .killed ∨ st = .trapped then 0 else ((c.iss.pend.filter (fun w => !w.dead)).map (fun w => w.due - c.iss.sched)).foldl max 0

/-- The strand leaves the core, its context saved, in the state `st`; it is charged for its cycles since pickup (R195).
The engine commands it released go on (R281). -/
def State.leaveCore (s : State) (st : StrandState) (pc : Nat) : State :=
  match s.core.running with
  | none => s
  | some k =>
    let s := (s.mapCore Core.dropQueue).tick (max 1 (s.core.landWait st))
    { s with
      dev := { s.dev with
        strands := (s.dev.strands.zipIdx).map (fun p => if p.2 == k then p.1.saveFrom s.core.landAll st pc else p.1),
        sched := match s.dev.strands[k]? with
          | some t => s.dev.sched.charge t.cls t.tenant s.core.meter.since
          | none => s.dev.sched },
      core := { s.core with running := none, inter := [], iss := { s.core.iss with
        iq := [], lag := Vector.replicate 8 0, drift := 0, stall := 0, held := none, pend := [], next := .seq, fault := none, waits := none,
        rett := false, absent := false, halted := false } } }

/-- Whether a bundle has been dispatched whose end is still to come. -/
def Issue.isOpen (i : Issue) : Bool := i.top.bundle == i.bundle

/-- Control goes to a handler, as after a taken branch (R119): nothing is queued, and no slot trails. A bundle that takes effect whole (TRAP's,
R352) keeps its stall count. A bundle that does not issue has none, and that it counts as 1 in a scheduled distance to the handler is the
model's choice (DESIGN CHOICE, log 74). -/
def Issue.enter (i : Issue) (handler : Nat) : Issue :=
  { i with iq := [], lag := Vector.replicate 8 0, drift := 0, stall := 0, held := none, next := .taken handler, pc := handler, fault := none,
           waits := none, rett := false,
           top := { i.top with bundle := i.bundle, ctl := { i.top.ctl with stall := if i.isOpen then i.top.ctl.stall else 0 } } }

/-- Delivery of a trap whose TRAPPC is `pc` (R353): with a handler armed and none running, TRAPC, TRAPPC and TRAPVAL are
written, TRAPC.IN is set, and the strand continues at TRAPV.ADDR from a committed restart point, as after a taken branch;
otherwise the strand enters STATE 4 (R178). -/
def State.takeTrap (s : State) (cause : Nat) (val : X64) (pc : Nat) : State :=
  let y := s.core.regs.sys
  let set := fun (inn : Nat) (y : SysRegs) =>
    { y with trapc := BitVec.ofNat 64 (cause % 256 + 256 * inn), trappc := trapPc pc, trapval := val }
  if y.handles then
    (((s.mapCore Core.dropQueue).mapSys (set 1)).mapIss (fun i => i.enter y.handler)).commitAt (s.core.iss.bundle + 1) y.handler
  else
    let t := s.mapSys (set (if y.trapc.getLsbD 8 then 1 else 0))
    ((t.mapCore Core.dropQueue).mapIss (fun i => { i with iq := [], held := none, next := .seq, fault := none, waits := none })).leaveCore .trapped pc

/-- An issue trap of the bundle in issue (R18, R352): no op of the bundle takes effect, the restart point before it counts
as committed and releases the gate, and TRAPPC is the bundle's address. -/
def State.issueTrap (s : State) (cause : Nat) (val : X64) : State :=
  let c := s.core.iss.cur
  let t := ((s.mapCore Core.dropQueue).mapIss (fun i => { i with
    iq := i.iq.filter (fun q => decide (q.ctx.bundle < c.bundle)),
    top := { i.top with ctl := { i.top.ctl with stall := 0 } },
    pend := i.pend.filter (fun w => decide (w.bundle < c.bundle)) })).mapCore (fun k => { k with
      gate := k.gate.filter (fun e => decide (e.bundle < c.bundle)),
      inter := k.inter.filter (fun i => decide (i.bundle < c.bundle)) })
  (t.commitAt c.bundle c.addr).takeTrap cause val c.addr

/-- A lookup of the op in issue has failed (R230, R352); the first failure of a bundle decides. -/
def State.lookupFails (s : State) (cause : Nat) (addr : X64) : State :=
  s.mapIss (fun i => { i with fault := match i.fault with
    | some f => some f
    | none => some { cause := cause, addr := addr } })

/-- A lookup fault is taken (R352): the core rolls back to its last committed restart point; a fault of cause 0x05 waits
for the foreman, any other is delivered with TRAPPC the point's address. -/
def State.lookupTrap (s : State) (f : LFault) : State :=
  let t := s.rollback
  if f.cause = 0x05 then t.mapIss (fun i => { i with absent := true, fault := some f })
  else t.takeTrap f.cause f.addr t.core.shadow.pc

/-- Return from an exception (R356): TRAPC.IN is cleared and the strand continues at TRAPPC, as after a taken branch; the
comparators do not match the first bundle after it. -/
def State.returnFromTrap (s : State) : State :=
  (s.mapSys (fun y => { y with trapc := y.trapc &&& ~~~(0x100#64) })).mapIss (fun i => { i with
    next := .taken s.core.regs.sys.trappc.toNat, rett := true })

/-! ### Issuing an op -/

/-- What the checks of an op say (R98, R352): it may issue, it traps before its bundle issues, or its lookup fails. -/
inductive Chk where
  | ok
  | trap (cause : Nat) (val : X64)
  | lookup (cause : Nat) (addr : X64)
  deriving DecidableEq, Repr

/-- The first of two checks that fails. -/
def Chk.and (a b : Chk) : Chk :=
  match a with
  | .ok => b
  | x => x

/-- A check that traps with a cause and value unless the condition holds. -/
def need (c : Bool) (cause : Nat) (val : X64) : Chk := if c then .ok else .trap cause val

/-- Whether an op issues, waits on a variable event (R23), or traps. -/
inductive Ready where
  | go
  | wait (w : Option WaitFor)
  deriving DecidableEq, Repr

/-- Where control goes after the bundle dispatched last. -/
def Issue.nextPc (i : Issue) : Nat :=
  if i.isOpen then
    match i.next with
    | .seq => i.top.after
    | .again a => a
    | .taken a => a
  else i.pc

/-- A serialising op's issue commits the restart point after its bundle (R344); an op that has issued and waits finds it
committed. -/
def State.serialPoint (s : State) : State :=
  if s.core.iss.cur.bundle < s.core.shadow.bundle then s
  else s.commitAt (s.core.iss.cur.bundle + 1) s.core.iss.nextPc

/-- A serialising op issues (R344): its checks, the wait `pre` before its issue (R188), the commit, then its waits and its
effect. -/
def issueSerial (s : State) (chk : Chk) (pre : Ready) (ready : State → Ready) (eff : State → State) : Out :=
  match chk with
  | .trap cause val => .next (s.issueTrap cause val)
  | .lookup cause addr => .next (s.lookupFails cause addr)
  | .ok =>
    match pre with
    | .wait w => .next (s.hold w)
    | .go =>
      match ready s.serialPoint with
      | .wait w => .next (s.serialPoint.hold w)
      | .go => .next (eff s.serialPoint)

/-- An op issues: its checks, its waits, then its effect. -/
def issueOp (s : State) (chk : Chk) (ready : Ready) (eff : State → State) : Out :=
  match chk with
  | .trap cause val => .next (s.issueTrap cause val)
  | .lookup cause addr => .next (s.lookupFails cause addr)
  | .ok =>
    match ready with
    | .wait w => .next (s.hold w)
    | .go => .next (eff s)

end Sys2Proof.Machine
end

