-- ==== Sys2Proof/Machine/Operands.lean ====
section
/-! DEFINITION. Operands: snapshots (R72), elements of vector registers with their poison (R10, R107, R358), guards
(R11, R108), stream registers (R109, R292, R293), and the destinations of the scalar, vector and predicate ops. -/

namespace Sys2Proof

/-- The mode of an op: its explicit one, or the dynamic selection (R51). -/
def Rnd.select (r : Rnd) (dyn : RMode) : RMode :=
  match r with
  | .dyn => dyn
  | .mode m => m

/-- The exponent an op's scale selection adds (R67). -/
def Scl.exp (s : Scl) (k : Int) : Int :=
  match s with
  | .none => 0
  | .ls => k
  | .lsn => -k

end Sys2Proof

namespace Sys2Proof.Machine

/-! ### System registers as operands -/

/-- The mode of a rounding code (R51); 6 and 7 never stand in RMODE. -/
def rmodeOf (n : Nat) : RMode :=
  match n with
  | 1 => .rtz
  | 2 => .rup
  | 3 => .rdn
  | 4 => .rna
  | 5 => .sr
  | _ => .rne

/-- RMODE.MODE (R52). -/
def SysRegs.mode (y : SysRegs) : RMode := rmodeOf (y.rmode.toNat % 8)

/-- The signed K of LSCALE, LSMIN or LSMAX (R69). -/
def scaleK (r : X64) : Int := signedOf 8 r.toNat

/-- What the op in issue captures (R72): its mode, LSCALE.K, and its draw, by the SEQ that its dispatch has given it. -/
def State.snap (s : State) (r : Rnd) : Snap :=
  let y := s.core.regs.sys
  { mode := r.select y.mode, k := scaleK y.lscale,
    draw := { seed := y.srseed, seq := s.core.iss.cur.seq, strand := s.core.number } }

/-- An op that has received a SEQ issues: the counter has the number of those issued, and an op at its dispatch receives it with those
queued before added (R56). -/
def State.takeSeq (s : State) : State := s.mapRegs (fun r => { r with seq := r.seq + 1 })

/-! ### Elements -/

/-- An element's bits and its poison. -/
abbrev Elem := Nat × Bool

/-- The elements of width `w` of a register's bits, with the poison of the lanes they lie in (R10, R358). -/
def elemsOf (w : Nat) (q : VBits × BitVec 64) : List Elem :=
  (lanesOf w (2048 / w) q.1.toNat).zipIdx.map (fun e =>
    (e.1, if w = 64 then q.2.getLsbD (2 * e.2) || q.2.getLsbD (2 * e.2 + 1) else q.2.getLsbD (e.2 * w / 32)))

def elemAt (l : List Elem) (i : Nat) : Elem := l.getD i (0, false)

/-- The guard's bits for elements of width `w` (R11), and its poison. -/
def guardBits (w : Nat) (p : PBits) : List Bool := (List.range (2048 / w)).map (fun i => p.getLsbD (i * w / 8))

def State.guard (s : State) (g : BitVec 4) : PBits × Bool := (s.rdP g.toNat, s.poisonP g.toNat)

/-- The byte lanes of the elements of width `w` whose flag is set. -/
def maskOf (w : Nat) (en : List Bool) : PBits :=
  BitVec.ofNat 256 (ofLanes (w / 8) (en.map (fun b => if b then 2 ^ (w / 8) - 1 else 0)))

/-- The lane poison of elements of width `w`: a lane takes the OR of its elements'. -/
def lanePoison (w : Nat) (po : List Bool) : BitVec 64 :=
  BitVec.ofNat 64 (ofLanes 1 ((List.range 64).map (fun l =>
    let n := if w < 32 then 32 / w else 1
    let b := if w = 64 then po.getD (l / 2) false else (List.range n).any (fun j => po.getD (l * n + j) false)
    if b then 1 else 0)))

/-- A vector result (R108): elements 0 and up of width `w`, written where the guard enables them. -/
structure VRes where
  w : Nat
  vals : List Elem
  deriving DecidableEq, Repr

/-- The value, byte mask and lane poison that a result writes under a guard; disabled elements are 0 in the value. -/
def VRes.image (r : VRes) (g : PBits × Bool) : VBits × PBits × BitVec 64 :=
  let en := (guardBits r.w g.1).take r.vals.length
  let kept := (r.vals.zip en).map (fun q => if q.2 then q.1.1 else 0)
  let po := (r.vals.zip en).map (fun q => q.2 && (q.1.2 || g.2))
  (BitVec.ofNat 2048 (ofLanes r.w kept), maskOf r.w en, lanePoison r.w po)

/-! ### Streams (R292, R293) -/

/-- Bytes of a pattern (R291). -/
def Affine.total (a : Affine) : Nat := a.elem * (a.loops.map (·.bound)).foldl (· * ·) 1

/-- Images of a pattern. -/
def Affine.images (a : Affine) : Nat := (a.total + 255) / 256

/-- The next image of a `.rd` stream. -/
def State.headImage (s : State) (q : Nat) : VBits × BitVec 64 :=
  ((vget s.core.strm q StreamEngine.empty).images).headD (0, 0)

/-- One image of the program's side of a stream is used. -/
def State.countImage (s : State) (q : Nat) : State :=
  s.mapRegs (fun r => { r with q := vset r.q q ((vget r.q q none).map (fun t => { t with taken := t.taken + 1 })) })

def State.takeImage (s : State) (q : Nat) : State :=
  (s.mapCore (fun c =>
    let e := vget c.strm q StreamEngine.empty
    { c with strm := vset c.strm q { e with images := e.images.drop 1 } })).countImage q

/-- Images of a `.wr` stream that hold a buffer: gated, brought by a far load, or appended and not performed (R293). -/
def State.buffered (s : State) (q : Nat) : Nat :=
  (vget s.core.strm q StreamEngine.empty).coming.length + s.core.bringing q +
    (s.core.gate.filter (fun e => match e.op with
      | .image r _ _ _ | .imageOf r _ => r == q
      | _ => false)).length

/-! ### Vector sources and destinations -/

/-- A vector source in a field: its stream's image where QSEL names the field (R109), else its register. -/
def State.vecSrc (s : State) (f : RG) (which : QSel) (r : Reg) : VBits × BitVec 64 :=
  if f.qsel = which then s.headImage r.toNat else (s.rdV r, s.poisonV r)

def State.srcA (s : State) (f : RG) (w : Nat) : List Elem := elemsOf w (s.vecSrc f .a f.a)
def State.srcB (s : State) (f : RG) (w : Nat) : List Elem := elemsOf w (s.vecSrc f .b f.b)
def State.srcC (s : State) (f : RG) (w : Nat) : List Elem := elemsOf w (s.vecSrc f .c f.c)

/-- A source image is used (R109). -/
def State.useStream (s : State) (f : RG) : State :=
  match f.qsel with
  | .a => s.takeImage f.a.toNat
  | .b => s.takeImage f.b.toNat
  | .c => s.takeImage f.c.toNat
  | _ => s

/-- The op in issue appends an image to a stream when its result lands, `lat` cycles on; it waits in the gate (R293, R345). -/
def State.append (s : State) (q lat : Nat) (v : VBits) (poison : BitVec 64) : State :=
  (s.gatePush (.image q (s.core.now + lat) v poison)).countImage q

/-- A vector result goes to its register after `lat` cycles under the guard, or to a stream as a whole image. -/
def State.putVWith (s : State) (f : RG) (lat : Nat) (g : PBits × Bool) (r : VRes) : State :=
  let m := r.image g
  if f.qsel = .d then s.append f.d.toNat lat m.1 m.2.2
  else s.writeAfter lat (.v (s.pv f.d) m.1 m.2.1 m.2.2)

def State.putV (s : State) (f : RG) (lat : Nat) (r : VRes) : State := s.putVWith f lat (s.guard f.g) r

/-- A scalar result. -/
def State.putX (s : State) (d : Reg) (lat : Nat) (v : X64) (po : Bool) : State := s.writeAfter lat (.x (s.px d) v po)

/-- A predicate result, written in the bits of a mask. -/
def State.putP (s : State) (d : Nat) (v m : PBits) (po : Bool) : State := s.writeAfter 2 (.p (s.pp d) v m po)

/-- A scaled conversion completes when its result lands; it sets OVFS where `b` says so (R68, R71). -/
def State.putOvfs (s : State) (lat : Nat) (scl : Scl) (b : Bool) : State :=
  if scl = .none then s else s.writeAfter lat (.ovfs b)

/-! ### Scalar values of a type (R110) -/

/-- An X operand as an element of width `w`. -/
def lowBits (w : Nat) (x : X64) : Nat := x.toNat % 2 ^ w

/-! ### Checks that several families share (R98, step 4) -/

/-- TRAPVAL's slot field. -/
def State.slotVal (s : State) : Nat := s.core.iss.cur.slot * 2 ^ 16

/-- A V or A register of the op beyond the strand's allocation (R13): cause 0x03, TRAPVAL by R99 (log 15). The pairs give
the field's lowest bit and whether its register is allocated. -/
def State.needAlloc (s : State) (fields : List (Nat × Bool)) : Chk :=
  match fields.filter (fun q => !q.2) with
  | [] => .ok
  | q :: qs => .trap 0x03 (BitVec.ofNat 64 (s.slotVal + 2 ^ 8 * qs.foldl (fun m r => min m r.1) q.1))

/-- Whether a V register is allocated. -/
def State.hasV (s : State) (r : Reg) : Bool := decide (r.toNat < s.core.nV)

def State.hasA (s : State) (n : Nat) : Bool := decide (n < s.core.nA)

/-- RAW as an element type (R45). -/
def needTyped (t : Fmt) : Chk := need (t ≠ .raw) 0x08 0

/-- A stream register that an op names is bound (R12). -/
def State.needBound (s : State) (q : Nat) : Chk := need (s.rdQ q).isSome 0x0E 0

/-- A stream register that an op reads (R12, R295). -/
def State.needRead (s : State) (q : Nat) : Chk :=
  match s.rdQ q with
  | none => .trap 0x0E 0
  | some t => need (t.dir = .rd && decide (t.taken < t.pat.images)) 0x0E 0

/-- A stream register that an op writes (R12, R295). -/
def State.needWrite (s : State) (q : Nat) : Chk :=
  match s.rdQ q with
  | none => .trap 0x0E 0
  | some t => need (t.dir = .wr && decide (t.taken < t.pat.images)) 0x0E 0

/-- A handle that an op names (R12); a dead one does not trap (R215). -/
def needHandle (h : Handle) : Chk := need (h ≠ .invalid) 0x0F 0

/-- An X register in a control use (R359). -/
def State.needCtl (s : State) (r : Reg) : Chk :=
  need (!s.poisonX r) 0x0B (BitVec.ofNat 64 (s.slotVal + r.toNat))

/-- The register checks of a load, a store or another op that names a stream and has control operands, in the order of R98:
allocations, the stream's binding, poisoned control, and then the stream's direction and its pattern's end (R295). -/
def State.chkRegs (s : State) (fields : List (Nat × Bool)) (q : Option Nat) (write : Bool) (ctl : Chk) : Chk :=
  match q with
  | none => (s.needAlloc fields).and ctl
  | some q => (s.needAlloc fields).and ((s.needBound q).and (ctl.and (if write then s.needWrite q else s.needRead q)))

/-- A gate entry for the op (R348): every entry the gate holds is of the op's own interval. -/
def State.needGate (s : State) : Chk := need (decide (s.core.gate.length < gateSize)) 0x09 (BitVec.ofNat 64 s.slotVal)

/-! ### The checks and waits of the vector ops -/

/-- Which fields of an RG word name V registers. -/
structure VFields where
  d : Bool
  a : Bool
  b : Bool
  c : Bool
  deriving DecidableEq, Repr

/-- The checks of a vector op: V registers, RAW, its stream, and the gate entry of an appended image (R98, R345). -/
def State.chkV (s : State) (f : RG) (v : VFields) (typed : List Fmt) : Chk :=
  (s.needAlloc [(46, !(v.d && f.qsel ≠ .d) || s.hasV f.d), (40, !(v.a && f.qsel ≠ .a) || s.hasV f.a),
      (34, !(v.b && f.qsel ≠ .b) || s.hasV f.b), (28, !(v.c && f.qsel ≠ .c) || s.hasV f.c)]).and
  ((typed.foldl (fun (k : Chk) t => k.and (needTyped t)) Chk.ok).and
  (match streamReg f with
   | none => .ok
   | some q => if f.qsel = .d then (s.needWrite q).and s.needGate else s.needRead q))

/-- A vector op waits for its stream's image or buffer (R292, R293). -/
def State.readyV (s : State) (f : RG) : Ready :=
  match streamReg f with
  | none => .go
  | some q =>
    if f.qsel = .d then (if s.buffered q < 8 then .go else .wait (some .other))
    else if (vget s.core.strm q StreamEngine.empty).images.isEmpty then .wait (some .other) else .go

end Sys2Proof.Machine
end

