-- ==== Sys2Proof/Machine/Flags.lean ====
section
/-! DEFINITION. The results that carry a flag: conversions and OVFS (R55, R61, R68, R118), and comparisons (R113, R117). -/

namespace Sys2Proof.Machine

/-- What a conversion is asked for: its formats, mode, saturation and exact scale (R67, R118). -/
structure ConvSpec where
  t : Fmt
  fs : Fmt
  mode : RMode
  sat : Bool
  scaled : Bool
  k : Int
  deriving DecidableEq, Repr

/-- The conversion an op asks for, with what it captures at issue (R72). -/
def convSpec (t fs : Fmt) (sat : Bool) (scl : Scl) (n : Snap) : ConvSpec :=
  { t := t, fs := fs, mode := n.mode, sat := sat, scaled := scl ≠ .none, k := scl.exp n.k }

/-- One element converted (R118, R55): `x` is its exact value, `bits` its bits in the source format. The flag is whether
the element sets OVFS (R68). -/
def ConvSpec.elem (c : ConvSpec) (bits draw : Nat) (x : Num) : Rounded :=
  if c.t.isInt && c.fs.isInt && !c.scaled then
    let i := signedOf c.fs.width bits
    ⟨wrapInt c.t.width (if c.sat then satInt c.t.width i else i), false⟩
  else
    let y := if c.scaled then x.scale c.k else x
    let r := convertTo c.t c.mode c.sat draw y
    ⟨r.bits, c.scaled && (r.ovf || !x.isFinite)⟩

/-- Sixteen values encoded as a block (R61), and whether that sets OVFS. -/
def ConvSpec.block (c : ConvSpec) (xs : List Num) (draw : Nat → Nat) : SxBlock × Bool :=
  let ys := if c.scaled then xs.map (fun x => x.scale c.k) else xs
  let r := sxEncode (sxMag c.t) c.mode c.sat ys draw
  (r.1, c.scaled && (r.2 || xs.any (fun x => !x.isFinite)))

/-- A compare of two elements of type `t` (R113, R117, R124). -/
def condElem (c : Cond) (t : Fmt) (a b : Nat) : Bool :=
  if t.isFloat then floatCond c (decodeFloat t a) (decodeFloat t b) else intCond c t.width a b

/-- The condition of BC: an X register against 0 (R120). -/
def condZero (c : Cond) (x : X64) : Bool := intCond c 64 x.toNat 0

end Sys2Proof.Machine
end

