-- ==== Sys2Proof/Machine/Xlate.lean ====
section
/-! DEFINITION. Translation: table entries and mapping lists (R224 to R230), ranges under entries (R237), and where a byte
is performed (R220, R370, R386). -/

namespace Sys2Proof.Machine

/-! ### Entries -/

/-- Field `hi:lo` of a number. -/
def bitsAt (x hi lo : Nat) : Nat := x / 2 ^ lo % 2 ^ (hi - lo + 1)

/-- The entry that two words hold (R224), if VALID; its bases are byte addresses. -/
def entryOfWords (w0 w1 : Nat) : Option Entry :=
  if bitsAt w0 63 63 = 0 then none
  else some {
    vbase := bitsAt w0 55 16 * 2 ^ 16, size := bitsAt w0 5 0, dev := bitsAt w1 63 58,
    pbase := bitsAt w1 57 28 * 2 ^ 16, fmt := Fmt.ofCode (bitsAt w1 27 23), geo := Geo.ofCode (bitsAt w1 22 20),
    kind := match bitsAt w1 19 18 with
      | 0 => .so
      | 1 => .rc
      | _ => .un
    win := bitsAt w1 17 17 == 1, r := bitsAt w1 16 16 == 1, w := bitsAt w1 15 15 == 1, x := bitsAt w1 14 14 == 1,
    sync := bitsAt w1 13 13 == 1, migrating := bitsAt w1 12 12 == 1, absent := bitsAt w1 11 11 == 1 }

/-- Whether a VALID entry's two words use only defined codes and keep reserved bits 0 (R226). -/
def entryCodesOk (w0 w1 : Nat) : Bool :=
  bitsAt w0 62 56 == 0 && bitsAt w0 15 6 == 0 && bitsAt w1 10 0 == 0 && bitsAt w1 19 18 != 3 &&
    (decide (bitsAt w1 27 23 ≤ 9) || bitsAt w1 27 23 == 31) && decide (bitsAt w1 22 20 ≤ 1)

def Entry.last (e : Entry) : Nat := e.vbase + 2 ^ e.size

/-- Whether the entry maps a virtual address (R225). -/
def Entry.maps (e : Entry) (v : Nat) : Bool := decide (e.vbase ≤ v) && decide (v < e.last)

/-- The physical address an entry yields (R225). -/
def Entry.phys (e : Entry) (v : Nat) : Nat := e.pbase + v % 2 ^ e.size

/-- The level of a whole physical range, and one channel group of GDDR7 not out of service (R222, R226). -/
def rangeHome (outOfService : List Nat) (pa size : Nat) : Home :=
  let h := homeOf pa
  if h ≠ homeOf (pa + size - 1) then .none
  else if h = .gddr then
    let g := pa / 0x600000000
    if g = (pa + size - 1) / 0x600000000 && !outOfService.contains g then .gddr else .none
  else h

/-- The conditions of R226 and R386 on one VALID entry; `index` is the device's own index. An entry on sync SRAM must have SYNC = 1: R226 gives
SYNC = 0 to every other range (DEDUCED, log 79). -/
def Entry.valid (e : Entry) (index : Nat) (map : List (Nat × Nat)) (outOfService : List Nat) : Bool :=
  let own := e.dev == index
  let h := rangeHome (if own then outOfService else []) e.pbase (2 ^ e.size)
  decide (16 ≤ e.size) && decide (e.size ≤ 40) && e.vbase % 2 ^ e.size == 0 && e.pbase % 2 ^ e.size == 0 &&
    h != .none && (e.geo == .packed || e.fmt.isSx) && (e.sync == (h == .sync)) &&
    (h != .local || (e.fmt == .raw && e.geo == .packed)) &&
    (own || (map.any (fun m => m.1 == e.dev) && !e.win && h != .host))

/-- No two entries overlap. -/
def disjoint : List Entry → Bool
  | [] => true
  | e :: t => t.all (fun f => decide (e.last ≤ f.vbase) || decide (f.last ≤ e.vbase)) && disjoint t

/-- The 256 words of the mapping list at a physical address (R227). -/
def listWords (m : Memory) (base : Nat) : List (Nat × Nat) :=
  (List.range 128).map (fun i => (m.num (base + 16 * i) 8, m.num (base + 16 * i + 8) 8))

/-- The table a mapping list gives, if the list is valid (R226). -/
def tableOfList (s : State) (base : Nat) : Option (List Entry) :=
  let ws := listWords s.homeMem base
  let es := ws.filterMap (fun w => entryOfWords w.1 w.2)
  let d := s.dev
  if (ws.filter (fun w => bitsAt w.1 63 63 == 1)).all (fun w => entryCodesOk w.1 w.2) &&
      es.all (fun e => e.valid d.ident.index d.ident.members d.links.groupsOut) && disjoint es then some es else none

/-! ### Ranges under entries -/

/-- A stretch of virtual bytes under one entry, or under none. -/
structure Stretch where
  addr : Nat
  len : Nat
  entry : Option Entry
  deriving DecidableEq, Repr

def entryAt (table : List Entry) (v : Nat) : Option Entry := table.find? (fun e => e.maps v)

/-- The stretches of `len` bytes from `v`; `fuel` bounds their number. -/
def stretches (table : List Entry) : Nat → Nat → Nat → List Stretch
  | 0, _, _ => []
  | fuel + 1, v, len =>
    if len = 0 then []
    else
      let q := entryAt table v
      let stop := match q with
        | some e => e.last
        | none => ((table.filter (fun e => decide (v < e.vbase))).map (·.vbase)).foldl min (v + len)
      let k := min len (stop - v)
      { addr := v, len := k, entry := q } :: stretches table fuel (v + k) (len - k)

/-- Three permissions (R230). -/
inductive Perm where
  | load | store | fetch
  deriving DecidableEq, Repr

def Entry.allows (e : Entry) (p : Perm) : Bool :=
  match p with
  | .load => e.r
  | .store => e.w
  | .fetch => e.x

/-- The lowest address of the stretches that fail. -/
def lowestOf (l : List Stretch) : Option Nat :=
  match l with
  | [] => none
  | q :: qs => some (qs.foldl (fun m r => min m r.addr) q.addr)

/-- The checks of R230 on stretches, each permission checked in turn: the first failing check and the lowest byte that
fails it. -/
def lookupFault (perms : List Perm) (l : List Stretch) : Option (Nat × Nat) :=
  match lowestOf (l.filter (fun q => q.entry.isNone)) with
  | some a => some (0x06, a)
  | none =>
    match lowestOf (l.filter (fun q => (q.entry.map (·.absent)).getD false)) with
    | some a => some (0x05, a)
    | none => (lowestOf (l.filter (fun q => !(q.entry.map (fun e => perms.all e.allows)).getD true))).map (fun a => (0x07, a))

/-- The stretches of several ranges, in order. -/
def stretchesOf (table : List Entry) (ranges : List (Nat × Nat)) : List Stretch :=
  (ranges.map (fun r => stretches table 300 r.1 r.2)).flatten

/-- The memory key of a device's physical address, the own device's being 0. -/
def keyOf (index dev pa : Nat) : Nat := globalAddr (if dev = index then 0 else dev + 1) pa

/-- The home piece of a stretch. -/
def State.partOf (s : State) (q : Stretch) : List Part :=
  match q.entry with
  | none => []
  | some e =>
    [{ addr := keyOf s.dev.ident.index e.dev (e.phys q.addr), len := q.len, kind := e.kind,
       lost := s.dev.ident.lost.contains e.dev && e.dev != s.dev.ident.index, entry := e.vbase }]

def State.partsOf (s : State) (l : List Stretch) : List Part := (l.map s.partOf).flatten

/-- The addresses of a part's bytes, where they are performed. -/
def State.partAddrs (s : State) (p : Part) : List Nat := (List.range p.len).map (fun i => s.route (p.addr + i))

/-- A part's device is lost when its access is performed (R387). -/
def State.lostNow (s : State) (p : Part) : Bool := p.lost || (decide (0 < devOf p.addr) && s.dev.ident.lost.contains (devOf p.addr - 1))

/-- The bytes of parts with their poison; bytes of a lost device read as poisoned zeros. -/
def State.readParts (s : State) (m : Memory) (ps : List Part) : List (Byte × Bool) :=
  (ps.map (fun p => if s.lostNow p then List.replicate p.len (0, true)
    else (s.partAddrs p).map (fun a => (m.byte a, m.poisoned a)))).flatten

/-! ### Check results of lookups -/

/-- A lookup that fails after issue rolls back (R352). -/
def lookupChk (perms : List Perm) (l : List Stretch) : Chk :=
  match lookupFault perms l with
  | none => .ok
  | some (c, a) => .lookup c (BitVec.ofNat 64 a)

/-- The range check of an engine command (R283, R352): cause 0x05 is a lookup fault, the others issue traps. -/
def rangeChk (perms : List Perm) (l : List Stretch) : Chk :=
  match lookupFault perms l with
  | none => .ok
  | some (c, a) => if c = 0x05 then .lookup c (BitVec.ofNat 64 a) else .trap c (BitVec.ofNat 64 a)

end Sys2Proof.Machine
end

