-- ==== Sys2Proof/Machine/Access.lean ====
section
/-! DEFINITION. Formats on the way (R232 to R241): the shape of a vector access, its pieces, its checks, and how bytes and
register elements turn into each other. -/

namespace Sys2Proof.Machine

/-! ### Pairs of register type and memory format (R233, R234) -/

/-- Whether a type is one of codes 0 to 5. -/
def isElem (t : Fmt) : Bool := t.isFloat || t.isInt

/-- The pair of a vector load (R233). -/
def loadShape (f : Fmt) (g : Geo) (t : Fmt) : Option Shape :=
  if t = .raw then some ⟨8, 256, .bytes, 1⟩
  else if isElem t then
    if f = .raw || f = t then some ⟨t.width, 2048 / t.width, .bits, elemBytes t⟩
    else if (t = .fp32 && (f = .fp16 || f = .bf16)) || (f = .int8 && (t = .int16 || t = .int32)) ||
        (f = .int16 && t = .int32) then some ⟨t.width, 2048 / t.width, .conv, elemBytes f⟩
    else if t = .fp32 && f.isSx then some ⟨32, 64, .sx, blockBytes f⟩
    else if t = .fp32 && f = .bfp64 then some ⟨32, 64, .bfp, 4⟩
    else none
  else if f = .raw || (f = t && g = .packed) then some ⟨8, 256, .bytes, 1⟩
  else none

/-- The pair of a vector store (R234). A raw store moves 256 one-byte elements, each under its own guard bit, also where
T = F is a block format: the model's choice (R236; log 18). -/
def storeShape (f : Fmt) (g : Geo) (t : Fmt) : Option Shape :=
  if t = .raw then (if f = .raw then some ⟨8, 256, .bytes, 1⟩ else none)
  else if isElem t then
    if f = .raw || f = t then some ⟨t.width, 2048 / t.width, .bits, elemBytes t⟩
    else if (t = .fp32 && (f = .fp16 || f = .bf16)) || (t = .int32 && (f = .int16 || f = .int8)) ||
        (t = .int16 && f = .int8) then some ⟨t.width, 2048 / t.width, .conv, elemBytes f⟩
    else if t = .fp32 && f.isSx then some ⟨32, 64, .sx, blockBytes f⟩
    else none
  else if f = .raw || (f = t && g = .packed) then some ⟨8, 256, .bytes, 1⟩
  else none

/-- The alignment of an access (R235). -/
def alignOf (sh : Shape) (g : Geo) (t : Fmt) : Nat :=
  match sh.mv with
  | .bits | .conv => sh.e
  | .sx => if g = .planar then 64 else 1
  | .bfp => 4
  | .bytes => if t = .bfp64 then 4 else 1

/-! ### The bytes of an access -/

/-- Where the elements lie: one after another, or each at its own address. -/
inductive Spread where
  | contiguous
  | strided (s : Int)
  | indexed (u : List Nat)
  deriving DecidableEq, Repr

/-- Address of element `i` of a strided or indexed access, modulo 2^64 (R240). -/
def spreadAddr (sp : Spread) (addr e i : Nat) : Nat :=
  match sp with
  | .contiguous => addr + i * e
  | .strided s => (((addr : Int) + i * s) % (2 ^ 64 : Nat)).toNat
  | .indexed u => (addr + u.getD i 0 * e) % 2 ^ 64

/-- The pieces of an access at `addr`, at the offset `o` in its planar group (R234, R236). -/
def piecesOf (sh : Shape) (g : Geo) (sp : Spread) (addr o : Nat) : List Piece :=
  match sh.mv with
  | .sx =>
    (List.range 4).map (fun b => ⟨(List.range 16).map (fun j => 16 * b + j),
      if g = .planar then [(addr + 16 * b, 16), (addr + (1024 + 2 * (o / 16 + b) - o), 2)]
      else [(addr + b * sh.e, sh.e)]⟩)
  | .bfp => [⟨List.range 64, [(addr, 256)]⟩]
  | _ => (List.range sh.n).map (fun i => ⟨[i], [(spreadAddr sp addr sh.e i, sh.e)]⟩)

/-- The pieces with at least one enabled element (R236). -/
def enabledPieces (sh : Shape) (g : PBits) (ps : List Piece) : List Piece :=
  let en := guardBits sh.rw g
  ps.filter (fun p => p.elems.any (fun i => en.getD i false))

def piecesRanges (ps : List Piece) : List (Nat × Nat) := (ps.map (·.ranges)).flatten

/-- Bytes of a piece. -/
def Piece.size (p : Piece) : Nat := (p.ranges.map (·.2)).sum

/-! ### Decoding loads -/

/-- One memory element as register bits (R233). -/
def decodeMove (f t : Fmt) (w : Nat) : Nat :=
  if t.isFloat then (roundFloat t .rne false 0 (decodeFloat f w)).bits
  else wrapInt t.width (signedOf f.width w)

/-- A block's values as FP32 bits. -/
def sxBits (f : Fmt) (g : Geo) (bs : List Nat) : List Nat :=
  let b := if g = .planar then sxOfPlanar (sxMag f) (bs.take 16) (bs.getD 16 0) (bs.getD 17 0)
    else sxUnpack (sxMag f) (ofLanes 8 bs)
  (List.range 16).map (fun j => (roundFloat .fp32 .rne false 0 (sxDecode (sxMag f) b j)).bits)

/-- A BFP64 block's values as FP32 bits, rounded under RNE (R62). -/
def bfpBits (bs : List Nat) : List Nat :=
  let b := bfpOfWords ((List.range 64).map (fun i => ofLanes 8 ((bs.drop (4 * i)).take 4)))
  (List.range 64).map (fun i => (roundFloat .fp32 .rne false 0 (bfpElem b i)).bits)

/-- The register elements that a piece's bytes give. -/
def decodePiece (sh : Shape) (f : Fmt) (g : Geo) (t : Fmt) (bs : List Nat) : List Nat :=
  match sh.mv with
  | .bits | .bytes => [ofLanes 8 bs]
  | .conv => [decodeMove f t (ofLanes 8 bs)]
  | .sx => sxBits f g bs
  | .bfp => bfpBits bs

/-- The elements that loaded bytes give, by element number; a piece with a poisoned byte gives poisoned zeros (R360). -/
def decodeUnits (sh : Shape) (f : Fmt) (g : Geo) (t : Fmt) : List (List Nat × Nat) → List (Byte × Bool) → List (Nat × Elem)
  | [], _ => []
  | (idx, k) :: us, bytes =>
    let mine := bytes.take k
    let po := orAll (mine.map (·.2))
    let vals := decodePiece sh f g t (mine.map (fun b => b.1.toNat))
    (idx.zip (if po then vals.map (fun _ => (0, true)) else vals.map (fun v => (v, false)))) ++
      decodeUnits sh f g t us (bytes.drop k)

/-- All elements of a register from those loaded; an element of no piece is 0 and, being disabled, is not written. -/
def fillElems (n : Nat) (l : List (Nat × Elem)) : List Elem :=
  (List.range n).map (fun i => ((l.find? (fun q => q.1 == i)).map (·.2)).getD (0, false))

/-- The value, mask and poison of a vector load's register (R236); `inject` delivers every element poisoned (R375). -/
def loadImage (sh : Shape) (t f : Fmt) (g : Geo) (units : List (List Nat × Nat)) (guard : PBits × Bool) (inject : Bool)
    (bytes : List (Byte × Bool)) : VBits × PBits × BitVec 64 :=
  (VRes.mk sh.rw ((fillElems sh.n (decodeUnits sh f g t units bytes)).map (fun e => (e.1, e.2 || inject)))).image guard

/-- The value of a scalar load (R239). -/
def scalarValue (bs : List (Byte × Bool)) (unsigned : Bool) : X64 × Bool :=
  let po := orAll (bs.map (·.2))
  let v := natOfBytes (bs.map (·.1))
  if po then (0, true)
  else (if unsigned then BitVec.ofNat 64 v else BitVec.ofInt 64 (signedOf (8 * bs.length) v), false)

/-! ### Encoding stores -/

/-- What a store asks of its conversion (R234). -/
structure StoreSpec where
  sh : Shape
  t : Fmt
  f : Fmt
  g : Geo
  snap : Snap
  sat : Bool
  scl : Scl
  deriving DecidableEq, Repr

/-- One element as memory bits, and whether it sets OVFS (R68, R234). -/
def StoreSpec.elem (c : StoreSpec) (i : Nat) (v : Nat) : Nat × Bool :=
  let draw := srDraw c.snap.draw i
  match c.sh.mv with
  | .bits =>
    if c.scl = .none then (v, false)
    else let r := (convSpec c.t c.t c.sat c.scl c.snap).elem v draw (decodeElem c.t v); (r.bits, r.ovf)
  | .conv =>
    let r := (convSpec c.f c.t c.sat c.scl c.snap).elem v draw (decodeElem c.t v)
    (r.bits, r.ovf)
  | _ => (v, false)

/-- Sixteen elements as a block's bytes in the piece's order; disabled elements enter as +0 (R236). -/
def StoreSpec.block (c : StoreSpec) (first : Nat) (vals : List (Nat × Bool)) : List Nat × Bool :=
  let xs := vals.map (fun q => if q.2 then decodeFloat .fp32 q.1 else Num.zero false)
  let r := (convSpec c.f .fp32 c.sat c.scl c.snap).block xs (fun j => srDraw c.snap.draw (first + j))
  (if c.g = .planar then (List.range 16).map (sxPlanarByte r.1) ++ [r.1.e, r.1.mu]
   else lanesOf 8 (blockBytes c.f) (sxPack (sxMag c.f) r.1), r.2)

/-- The bytes that a piece's elements become, its poison, and whether it sets OVFS. -/
def StoreSpec.piece (c : StoreSpec) (elems : List Elem) (en : List Bool) (gpois : Bool) (p : Piece) :
    List Nat × Bool × Bool :=
  let mine := p.elems.map (fun i => (elemAt elems i, en.getD i false))
  let po := orAll (mine.map (fun q => q.2 && (q.1.2 || gpois)))
  match c.sh.mv with
  | .sx =>
    let r := c.block (p.elems.headD 0) (mine.map (fun q => (q.1.1, q.2)))
    (r.1, po, r.2)
  | _ =>
    let r := c.elem (p.elems.headD 0) (mine.headD ((0, false), false)).1.1
    (lanesOf 8 p.size r.1, po, r.2)

/-- Addresses of a list of ranges. -/
def rangesAddrs (rs : List (Nat × Nat)) : List Nat := (rs.map (fun r => (List.range r.2).map (fun i => r.1 + i))).flatten

/-- What a vector store writes: bytes at the addresses of its pieces, in ascending element (R240), `addrs` naming the home
of each byte in order. A byte that two elements write is the higher one's, and it is poisoned where either of them wrote it poisoned (DESIGN
CHOICE, log 85). -/
def StoreSpec.data (c : StoreSpec) (elems : List Elem) (guard : PBits × Bool) (ps : List Piece) (addrs : List Nat) :
    StoreData :=
  let en := guardBits c.sh.rw guard.1
  let outs := ps.map (c.piece elems en guard.2)
  let bytes := (outs.map (fun o => o.1.map (fun b => (b, o.2.1)))).flatten
  { cells := (addrs.zip bytes).map (fun q => (q.1, BitVec.ofNat 8 q.2.1)),
    poisoned := ((addrs.zip bytes).filter (fun q => q.2.2)).map (·.1),
    ovfs := orAll (outs.map (fun o => o.2.2)), scaled := c.scl ≠ .none }

/-- What a scalar store writes (R239). -/
def scalarData (v : X64) (po : Bool) (addrs : List Nat) : StoreData :=
  let bytes := bytesOfNat addrs.length v.toNat
  { cells := addrs.zip bytes, poisoned := if po then addrs else [], ovfs := false }

/-! ### The tag of a place in a local store (R223, R234) -/

/-- Number of consecutive regions from `r` down, of the same local store, whose tags are all `q`. -/
def runBelow (m : Memory) (q : Fmt × Geo) : Nat → Nat → Nat
  | 0, r => r
  | fuel + 1, r => if r % 512 = 0 then r else if m.tag (r - 1) = q then runBelow m q fuel (r - 1) else r

/-- The base of the largest run of equal tags that holds an address of a local store. -/
def runBase (m : Memory) (a : Nat) : Nat := 4096 * runBelow m (m.tag (regionOf a)) 512 (regionOf a)

/-- The offset of an address of a local store within its planar group. -/
def groupOffset (m : Memory) (a : Nat) : Nat := (a - runBase m a) % 1152

/-! ### Gated entries that an access meets (R347) -/

/-- Whether a byte of the op in issue's access overlaps the output of a gated MDRAIN or MACCST of an earlier bundle. -/
def State.meetsOutput (s : State) (addrs : List Nat) : Bool :=
  s.core.gate.any (fun e => decide (e.bundle < s.core.iss.cur.bundle) && match e.op with
    | .output d => d.cells.any (fun c => addrs.contains c.1)
    | .drainChute d _ => d.cells.any (fun c => addrs.contains c.1)
    | .drainPush d _ => d.cells.any (fun c => addrs.contains c.1)
    | _ => false)

/-- Whether two parts overlap. -/
def Part.overlaps (p q : Part) : Bool := decide (p.addr < q.addr + q.len) && decide (q.addr < p.addr + p.len)

/-- Whether a far load overlaps a gated atomic or RED. -/
def State.meetsAtomic (s : State) (ps : List Part) : Bool :=
  s.core.gate.any (fun e => decide (e.bundle < s.core.iss.cur.bundle) && match e.op with
    | .far f => f.atom.isSome && f.parts.any (fun p => ps.any p.overlaps)
    | _ => false)

/-- The trap of R348 for a wait on the interval's own entry. -/
def State.needOwn (s : State) (meets : Bool) : Chk := need (!meets) 0x09 (BitVec.ofNat 64 (s.slotVal + 1))

/-! ### A vector access in full -/

/-- A vector access worked out: its address, format and geometry, shape, and enabled pieces. -/
structure VAccess where
  addr : Nat
  f : Fmt
  g : Geo
  sh : Shape
  guard : PBits × Bool
  pieces : List Piece
  deriving DecidableEq, Repr

def VAccess.ranges (v : VAccess) : List (Nat × Nat) := piecesRanges v.pieces

/-- The first address of a list that fails a test, lowest first. -/
def lowestBad (bad : Nat → Bool) (addrs : List Nat) : Option Nat :=
  match addrs.filter bad with
  | [] => none
  | a :: l => some (l.foldl min a)

/-- Alignment of the access's first address or of each element (R235, R240), and the place `o` of a planar access within its
group (R234). -/
def VAccess.aligned (v : VAccess) (sp : Spread) (t : Fmt) (o : Nat) : Bool :=
  let al := alignOf v.sh v.g t
  match sp with
  | .contiguous =>
    v.addr % al == 0 &&
      (!(v.sh.mv == .sx && v.g == .planar) || (o % 64 == 0 && decide (o < 1024)))
  | _ => v.pieces.all (fun p => p.ranges.all (fun r => r.1 % al == 0))

/-- A local access under the memory `m` that the strand sees. A strided or indexed access of a register type RAW or 6 to 9
moves 256 one-byte elements, over a region of an element format or RAW: the model's choice (R240; log 18). -/
def localAccess (m : Memory) (addr : Nat) (t : Fmt) (store : Bool) (sp : Spread) (guard : PBits × Bool) :
    Option VAccess :=
  let q := m.tag (regionOf (ownLs addr))
  match if store then storeShape q.1 q.2 t else loadShape q.1 q.2 t with
  | none => none
  | some sh =>
    if sp ≠ .contiguous && !(q.1 == .raw || isElem q.1) then none
    else
      some { addr := addr, f := q.1, g := q.2, sh := sh, guard := guard,
             pieces := enabledPieces sh guard.1 (piecesOf sh q.2 sp addr (groupOffset m (ownLs addr))) }

/-- The checks of a local vector access from its address on (R232 to R238, R244). -/
def State.chkLocal (s : State) (addr : Nat) (t : Fmt) (store : Bool) (sp : Spread) (guard : PBits × Bool) : Chk :=
  let m := s.view
  let at8 := Chk.trap 0x08 (BitVec.ofNat 64 addr)
  if addr ≥ lsSize then at8
  else match localAccess m addr t store sp guard with
    | none => at8
    | some v =>
      let bytes := rangesAddrs v.ranges
      if !v.aligned sp t (groupOffset m (ownLs addr)) then at8
      else match lowestBad (fun a => decide (lsSize ≤ a)) bytes with
        | some a => .trap 0x06 (BitVec.ofNat 64 a)
        | none =>
          match lowestBad (fun a => m.tag (regionOf (ownLs a)) != (v.f, v.g)) bytes with
          | some a => .trap 0x08 (BitVec.ofNat 64 a)
          | none => s.needOwn (s.meetsOutput (bytes.map ownLs))

/-- Format and geometry of a far access at a virtual address, and its offset within its planar group (R223, R232, R234). The
entry that maps the first byte gives them; where no entry does, the model takes RAW and PACKED, also where later bytes are
mapped: the model's choice (log 18). -/
def State.farFormat (s : State) (m : Memory) (v : Nat) : (Fmt × Geo) × Nat :=
  match entryAt s.core.table v with
  | none => ((.raw, .packed), 0)
  | some e =>
    if homeOf e.pbase = .local then
      let a := keyOf s.dev.ident.index e.dev (e.phys v)
      (m.tag (regionOf a), groupOffset m a)
    else ((e.fmt, e.geo), (v - e.vbase) % 1152)

def farAccess (s : State) (addr : Nat) (t : Fmt) (store : Bool) (guard : PBits × Bool) : Option VAccess :=
  let q := s.farFormat s.view addr
  match if store then storeShape q.1.1 q.1.2 t else loadShape q.1.1 q.1.2 t with
  | none => none
  | some sh => some { addr := addr, f := q.1.1, g := q.1.2, sh := sh, guard := guard,
                      pieces := enabledPieces sh guard.1 (piecesOf sh q.1.2 .contiguous addr q.2) }

/-- The checks of a far vector access (R230, R232 to R237, R244). Where some bytes differ in format and others fail their
lookup, the format decides: the model's choice (log 18). -/
def State.chkFar (s : State) (addr : Nat) (t : Fmt) (store : Bool) (guard : PBits × Bool) : Chk :=
  let at8 := Chk.trap 0x08 (BitVec.ofNat 64 addr)
  match farAccess s addr t store guard with
  | none => at8
  | some v =>
    let q := s.farFormat s.view addr
    if !v.aligned .contiguous t q.2 then at8
    else
      let bytes := rangesAddrs v.ranges
      let st := stretchesOf s.core.table v.ranges
      match lowestBad (fun a => (entryAt s.core.table a).isSome && (s.farFormat s.view a).1 != (v.f, v.g)) bytes with
      | some a => .trap 0x08 (BitVec.ofNat 64 a)
      | none =>
        (if store then Chk.ok else s.needOwn (s.meetsAtomic (s.partsOf st))).and
          (lookupChk [if store then .store else .load] st)

end Sys2Proof.Machine
end

