-- ==== Sys2Proof/Machine/Load.lean ====
section
/-! DEFINITION. The L slot: local and far loads (R238 to R242) and LSFMT (R243). -/

namespace Sys2Proof.Machine

/-- Bytes of an access width. -/
def widthBytes (w : Width) : Nat :=
  match w with
  | .w8 => 1
  | .w16 => 2
  | .w32 => 4
  | .w64 => 8

/-- A base register plus a signed offset, modulo 2^64 (R238). -/
def State.memAddr (s : State) (a : Reg) (off : Int) : Nat := (s.rdX a + BitVec.ofInt 64 off).toNat

/-! ### Scalar loads -/

/-- The checks of a scalar access to the own local store (R238, R237, R347). -/
def State.chkLocalScalar (s : State) (addr n : Nat) : Chk :=
  if addr ≥ lsSize then .trap 0x08 (BitVec.ofNat 64 addr)
  else if addr + n > lsSize then .trap 0x06 (BitVec.ofNat 64 lsSize)
  else s.needOwn (s.meetsOutput ((List.range n).map (fun i => ownLs (addr + i))))

def chkLd (f : MS) (s : State) : Chk :=
  (s.needCtl f.a).and (s.chkLocalScalar (s.memAddr f.a f.off.toInt) (widthBytes f.w))

/-- The bytes of a local range with their poison, as the strand sees them. -/
def State.localBytes (s : State) (addrs : List Nat) : List (Byte × Bool) :=
  let m := s.view
  addrs.map (fun a => (m.byte (ownLs a), m.poisoned (ownLs a)))

/-- LD. -/
def execLd (f : MS) (s : State) : Out :=
  issueOp s (chkLd f s) .go (fun s =>
    let a := s.memAddr f.a f.off.toInt
    let v := scalarValue (s.localBytes ((List.range (widthBytes f.w)).map (fun i => a + i))) f.u
    let t := s.putX f.d 6 v.1 v.2
    if v.2 then t.writeAfter 6 .loaded else t)

/-- The stretches of a scalar far access. -/
def State.scalarStretches (s : State) (a : Reg) (off : Int) (w : Width) : List Stretch :=
  stretches s.core.table 300 (s.memAddr a off) (widthBytes w)

def chkFld (f : MS) (s : State) : Chk :=
  let st := s.scalarStretches f.a f.off.toInt f.w
  (s.needCtl f.a).and ((s.needOwn (s.meetsAtomic (s.partsOf st))).and (lookupChk [.load] st))

/-- ERRINJ's next-load codes are used (R375): whether the load delivers poison, an uncorrectable error at counter 1 (R481; DEDUCED, log 83);
code 3 counts a corrected error. The other ops of the bundle still read the code (R29). -/
def State.useErrinj (s : State) : State × Bool :=
  let t := s.core.regs.sys.errinj.toNat % 16
  if t = 2 ∨ t = 3 then
    let s1 := s.writeAfter 1 .uninject
    (s1.mapDev (fun d => d.countErr (if t = 3 then 0 else 1)), t == 2)
  else (s, false)

/-- A far load leaves the core (R242), for a register or for a stream. -/
def State.launchLoad (s : State) (acq : Bool) (st : List Stretch) (form : LoadForm) (reg : Nat) (stream : Option Nat) : State :=
  let q := s.useErrinj
  let l : FarLoad := { id := q.1.newId, strand := s.strandIdx, bundle := s.core.iss.cur.bundle, slot := s.core.iss.cur.slot, acq := acq,
                       parts := s.partsOf st, form := form, reg := reg, inject := q.2, stream := stream }
  q.1.mapCore (fun c => { c with loads := c.loads ++ [l], opId := c.opId + 1 })

/-- A far load's register waits for it. -/
def State.sendLoad (s : State) (r : Option RegName) (acq : Bool) (st : List Stretch) (form : LoadForm) (reg : Nat) : State :=
  let t := s.launchLoad acq st form reg none
  match r with
  | some r => t.interlock r s.newId false
  | none => t

/-- A far load into a stream: its image has its place in the gate and in the stream at once, and comes with the load (R238, R293, R345). -/
def State.streamLoad (s : State) (q : Nat) (acq : Bool) (st : List Stretch) (form : LoadForm) : State :=
  ((s.launchLoad acq st form 0 (some q)).gatePush (.imageOf q s.newId)).countImage q

/-- Sixteen far loads may be outstanding (R242). -/
def State.readyLoad (s : State) : Ready := if s.core.loads.length < 16 then .go else .wait (some .other)

/-- FLD. -/
def execFld (f : MS) (s : State) : Out :=
  issueOp s (chkFld f s) s.readyLoad (fun s =>
    s.sendLoad (if f.d = 0 then none else some (.x (s.px f.d))) f.ord (s.scalarStretches f.a f.off.toInt f.w)
      (.scalar f.u) (s.px f.d))

/-! ### Vector loads -/

/-- The register checks of a vector load: its register or stream, its index register, and its control operands (R98). -/
def State.chkLoadRegs (s : State) (d : Reg) (q : Bool) (idx : List (Nat × Bool)) (ctl : Chk) : Chk :=
  s.chkRegs ((46, q || s.hasV d) :: idx) (if q then some d.toNat else none) true ctl

/-- The gate entry of a load into a stream (R345, R348), its last check. -/
def State.needImage (s : State) (q : Bool) : Chk := if q then s.needGate else .ok

/-- A load into a stream waits for one of its buffers (R293). -/
def State.readyQ (s : State) (d : Reg) (q : Bool) : Ready :=
  if q && !decide (s.buffered d.toNat < 8) then .wait (some .other) else .go

/-- The loaded image goes to its register after 6 cycles, or to its stream. -/
def State.putLoad (s : State) (d : Reg) (q : Bool) (m : VBits × PBits × BitVec 64) : State :=
  let t := if q then s.append d.toNat 6 m.1 m.2.2
    else s.writeAfter 6 (.v (s.pv d) m.1 m.2.1 m.2.2)
  if m.2.2 = 0 then t else t.writeAfter 6 .loaded

/-- The register image of a local vector load. -/
def State.localImage (s : State) (addr : Nat) (t : Fmt) (sp : Spread) (guard : PBits × Bool) :
    VBits × PBits × BitVec 64 :=
  match localAccess s.view addr t false sp guard with
  | none => (0, 0, 0)
  | some v => loadImage v.sh t v.f v.g (v.pieces.map (fun p => (p.elems, p.size))) guard false
      (s.localBytes (rangesAddrs v.ranges))

def chkVld (f : MV) (s : State) : Chk :=
  (s.chkLoadRegs f.d f.q [] (s.needCtl f.a)).and
    ((s.chkLocal (s.memAddr f.a f.off.toInt) f.t false .contiguous (s.guard f.g)).and (s.needImage f.q))

/-- VLD. -/
def execVld (f : MV) (s : State) : Out :=
  issueOp s (chkVld f s) (s.readyQ f.d f.q) (fun s =>
    s.putLoad f.d f.q (s.localImage (s.memAddr f.a f.off.toInt) f.t .contiguous (s.guard f.g)))

/-- The strided spread of an op. -/
def State.stride (s : State) (b : Reg) : Spread := .strided (s.rdX b).toInt

def chkVlds (f : MVX) (s : State) : Chk :=
  (s.chkLoadRegs f.d f.q [] ((s.needCtl f.a).and (s.needCtl f.b))).and
    ((s.chkLocal (s.memAddr f.a f.off.toInt) f.t false (s.stride f.b) (s.guard f.g)).and (s.needImage f.q))

/-- VLDS. -/
def execVlds (f : MVX) (s : State) : Out :=
  issueOp s (chkVlds f s) (s.readyQ f.d f.q) (fun s =>
    s.putLoad f.d f.q (s.localImage (s.memAddr f.a f.off.toInt) f.t (s.stride f.b) (s.guard f.g)))

/-- The indexed spread of an op: the elements of vb at the width of T, unsigned (R240). -/
def State.index (s : State) (b : Reg) (t : Fmt) : Spread := .indexed (lanesOf t.width (2048 / t.width) (s.rdV b).toNat)

/-- A poisoned index lane that the guard enables (R359). -/
def State.chkIndex (s : State) (b : Reg) (t : Fmt) (g : BitVec 4) : Chk :=
  let es := elemsOf t.width (0, s.poisonV b)
  need (!orAll ((es.zip (guardBits t.width (s.rdP g.toNat))).map (fun q => q.1.2 && q.2))) 0x0B
    (BitVec.ofNat 64 (s.slotVal + b.toNat))

def chkVldx (f : MVX) (s : State) : Chk :=
  (s.chkLoadRegs f.d f.q [(16, s.hasV f.b)] ((s.needCtl f.a).and (s.chkIndex f.b f.t f.g))).and
    ((s.chkLocal (s.memAddr f.a f.off.toInt) f.t false (s.index f.b f.t) (s.guard f.g)).and (s.needImage f.q))

/-- VLDX. -/
def execVldx (f : MVX) (s : State) : Out :=
  issueOp s (chkVldx f s) (s.readyQ f.d f.q) (fun s =>
    s.putLoad f.d f.q (s.localImage (s.memAddr f.a f.off.toInt) f.t (s.index f.b f.t) (s.guard f.g)))

def chkVfld (f : MV) (s : State) : Chk :=
  (s.chkLoadRegs f.d f.q [] (s.needCtl f.a)).and
    ((s.chkFar (s.memAddr f.a f.off.toInt) f.t false (s.guard f.g)).and (s.needImage f.q))

/-- How a far vector load is written. -/
def VAccess.form (v : VAccess) (t : Fmt) : LoadForm :=
  .vector v.sh t v.f v.g (v.pieces.map (fun p => (p.elems, p.size))) v.guard.1 v.guard.2

/-- A far load into a stream waits as another does, and for a buffer (R242, R293). -/
def readyVfld (f : MV) (s : State) : Ready :=
  match s.readyLoad with
  | .go => s.readyQ f.d f.q
  | w => w

/-- VFLD. -/
def execVfld (f : MV) (s : State) : Out :=
  issueOp s (chkVfld f s) (readyVfld f s) (fun s =>
    match farAccess s (s.memAddr f.a f.off.toInt) f.t false (s.guard f.g) with
    | none => s
    | some v =>
      let st := stretchesOf s.core.table v.ranges
      if f.q then s.streamLoad f.d.toNat f.ord st (v.form f.t)
      else s.sendLoad (some (.v (s.pv f.d))) f.ord st (v.form f.t) (s.pv f.d))

/-! ### LSFMT (R243) -/

def chkLsfmt (f : LF) (s : State) : Chk :=
  let a := (s.rdX f.a).toNat
  let n := (s.rdX f.b).toNat
  (s.needCtl f.a).and
  ((need (a % 4096 == 0 && n % 4096 == 0) 0x08 (BitVec.ofNat 64 a)).and
   ((need (n == 0 || decide (a + n ≤ lsSize)) 0x06 (BitVec.ofNat 64 (max a lsSize))).and s.needGate))

/-- LSFMT: the tag change waits in the gate (R345). -/
def execLsfmt (f : LF) (s : State) : Out :=
  issueOp s (chkLsfmt f s) .go (fun s =>
    s.gatePush (.tag (regionOf (ownLs (s.rdX f.a).toNat)) ((s.rdX f.b).toNat / 4096) f.t f.geo))

end Sys2Proof.Machine
end

