-- ==== Sys2Proof/Machine/Store.lean ====
section
/-! DEFINITION. The ST slot: local and far stores (R234, R238 to R242). Every store waits in the store gate (R345). -/

namespace Sys2Proof.Machine

/-! ### Scalar stores -/

def chkSt (f : MS) (s : State) : Chk :=
  (s.needCtl f.a).and ((s.chkLocalScalar (s.memAddr f.a f.off.toInt) (widthBytes f.w)).and s.needGate)

/-- ST. -/
def execSt (f : MS) (s : State) : Out :=
  issueOp s (chkSt f s) .go (fun s =>
    let a := s.memAddr f.a f.off.toInt
    s.gatePush (.store (scalarData (s.rdX f.d) (s.poisonX f.d)
      ((List.range (widthBytes f.w)).map (fun i => ownLs (a + i))))))

/-- The homes of the bytes of stretches, in order. -/
def State.homesOf (s : State) (st : List Stretch) : List Nat :=
  ((s.partsOf st).map (fun p => (List.range p.len).map (fun i => p.addr + i))).flatten

/-- A far store or atomic of the op in issue goes into the gate. -/
def State.gateFar (s : State) (rel : Bool) (ps : List Part) (d : StoreData) (atom : Option AtomOp) (tok bytes : Nat) :
    State :=
  let f : FarOp := { id := s.newId, strand := s.strandIdx, bundle := s.core.iss.cur.bundle,
                     slot := s.core.iss.cur.slot, rel := rel, parts := ps, data := d, atom := atom, bytes := bytes, tok := tok }
  (s.gatePush (.far f)).mapCore (fun c => { c with opId := c.opId + 1 })

/-- Stores and atomics in the far-store queue, a split one counted once. -/
def Core.queued (c : Core) : Nat := ((c.fars.map (·.id)).foldl setAdd []).length

/-- The far-store queue holds 32 (R242). -/
def State.readyStore (s : State) : Ready := if s.core.queued < 32 then .go else .wait (some .other)

def chkFst (f : MS) (s : State) : Chk :=
  (s.needCtl f.a).and ((lookupChk [.store] (s.scalarStretches f.a f.off.toInt f.w)).and s.needGate)

/-- FST. -/
def execFst (f : MS) (s : State) : Out :=
  issueOp s (chkFst f s) s.readyStore (fun s =>
    let st := s.scalarStretches f.a f.off.toInt f.w
    s.gateFar f.ord (s.partsOf st) (scalarData (s.rdX f.d) (s.poisonX f.d) (s.homesOf st)) none 0 (widthBytes f.w))

/-! ### Vector stores -/

/-- The register checks of a vector store: its register or stream, its index register, and its control operands (R98). -/
def State.chkStoreRegs (s : State) (d : Reg) (q : Bool) (idx : List (Nat × Bool)) (ctl : Chk) : Chk :=
  s.chkRegs ((46, q || s.hasV d) :: idx) (if q then some d.toNat else none) false ctl

/-- A store from a stream waits for its image (R292). -/
def State.readyImage (s : State) (d : Reg) (q : Bool) : Ready :=
  if q && (vget s.core.strm d.toNat StreamEngine.empty).images.isEmpty then .wait (some .other) else .go

/-- The data elements of a store. -/
def State.storeElems (s : State) (d : Reg) (q : Bool) (w : Nat) : List Elem :=
  elemsOf w (if q then s.headImage d.toNat else (s.rdV d, s.poisonV d))

def State.useImage (s : State) (d : Reg) (q : Bool) : State := if q then s.takeImage d.toNat else s

/-- What a vector store writes, its bytes' homes given. -/
def VAccess.data (v : VAccess) (s : State) (t : Fmt) (rnd : Rnd) (sat : Bool) (scl : Scl) (d : Reg) (q : Bool)
    (homes : List Nat) : StoreData :=
  (StoreSpec.mk v.sh t v.f v.g (s.snap rnd) sat scl).data (s.storeElems d q v.sh.rw) v.guard v.pieces homes

/-- A local vector store of the op in issue. -/
def State.storeLocal (s : State) (addr : Nat) (t : Fmt) (sp : Spread) (g : BitVec 4) (rnd : Rnd) (sat : Bool) (scl : Scl)
    (d : Reg) (q : Bool) : State :=
  match localAccess s.view addr t true sp (s.guard g) with
  | none => s
  | some v =>
    ((s.gatePush (.store (v.data s t rnd sat scl d q ((rangesAddrs v.ranges).map ownLs)))).useImage d q).takeSeq

def chkVst (f : MV) (s : State) : Chk :=
  (s.chkStoreRegs f.d f.q [] (s.needCtl f.a)).and
    ((s.chkLocal (s.memAddr f.a f.off.toInt) f.t true .contiguous (s.guard f.g)).and s.needGate)

/-- VST. -/
def execVst (f : MV) (s : State) : Out :=
  issueOp s (chkVst f s) (s.readyImage f.d f.q) (fun s =>
    s.storeLocal (s.memAddr f.a f.off.toInt) f.t .contiguous f.g f.rnd f.sat f.scl f.d f.q)

def chkVsts (f : MVX) (s : State) : Chk :=
  (s.chkStoreRegs f.d f.q [] ((s.needCtl f.a).and (s.needCtl f.b))).and
    ((s.chkLocal (s.memAddr f.a f.off.toInt) f.t true (s.stride f.b) (s.guard f.g)).and s.needGate)

/-- VSTS. -/
def execVsts (f : MVX) (s : State) : Out :=
  issueOp s (chkVsts f s) (s.readyImage f.d f.q) (fun s =>
    s.storeLocal (s.memAddr f.a f.off.toInt) f.t (s.stride f.b) f.g f.rnd f.sat f.scl f.d f.q)

def chkVstx (f : MVX) (s : State) : Chk :=
  (s.chkStoreRegs f.d f.q [(16, s.hasV f.b)] ((s.needCtl f.a).and (s.chkIndex f.b f.t f.g))).and
    ((s.chkLocal (s.memAddr f.a f.off.toInt) f.t true (s.index f.b f.t) (s.guard f.g)).and s.needGate)

/-- VSTX. -/
def execVstx (f : MVX) (s : State) : Out :=
  issueOp s (chkVstx f s) (s.readyImage f.d f.q) (fun s =>
    s.storeLocal (s.memAddr f.a f.off.toInt) f.t (s.index f.b f.t) f.g f.rnd f.sat f.scl f.d f.q)

def chkVfst (f : MV) (s : State) : Chk :=
  (s.chkStoreRegs f.d f.q [] (s.needCtl f.a)).and
    ((s.chkFar (s.memAddr f.a f.off.toInt) f.t true (s.guard f.g)).and s.needGate)

def readyVfst (f : MV) (s : State) : Ready :=
  match s.readyImage f.d f.q with
  | .go => s.readyStore
  | r => r

/-- VFST. -/
def execVfst (f : MV) (s : State) : Out :=
  issueOp s (chkVfst f s) (readyVfst f s) (fun s =>
    match farAccess s (s.memAddr f.a f.off.toInt) f.t true (s.guard f.g) with
    | none => s
    | some v =>
      let st := stretchesOf s.core.table v.ranges
      let homes := s.homesOf st
      ((s.gateFar f.ord (s.partsOf st) (v.data s f.t f.rnd f.sat f.scl f.d f.q homes) none 0 homes.length).useImage
        f.d f.q).takeSeq)

end Sys2Proof.Machine
end

