-- ==== Sys2Proof/Machine/Trans.lean ====
section
/-! DEFINITION. The correctly rounded functions (R66) and the epilogue's table functions (R158): each exact value as
a `Num` whose sticky part decides every rounding. Irrational values come from fixed-point sums whose error stays far
below the last place kept (log 14). -/

namespace Sys2Proof.Machine

/-- ⌊√n⌋ by the digits 2^k … 2^0. -/
def isqrtFrom (n : Nat) : Nat → Nat → Nat
  | 0, r => if (r + 1) * (r + 1) ≤ n then r + 1 else r
  | k + 1, r =>
    let t := r + 2 ^ (k + 1)
    isqrtFrom n k (if t * t ≤ n then t else r)

def isqrt (n : Nat) : Nat := isqrtFrom n (Nat.log2 n / 2 + 1) 0

/-- 1/x (R66). -/
def rcpNum : Num → Num
  | .nan => .nan
  | .inf n => Num.zero n
  | .fin n m e _ =>
    if m == 0 then .inf n
    else
      let k := Nat.log2 m + 64
      .fin n (2 ^ k / m) (-e - k) (2 ^ k % m != 0)

/-- √x (R66). -/
def sqrtNum : Num → Num
  | .nan => .nan
  | .inf n => if n then .nan else .inf false
  | .fin n m e _ =>
    if m == 0 then Num.zero n
    else if n then .nan
    else
      let k : Nat := 132 + (if (e - 132) % 2 == 0 then 0 else 1)
      let w := m * 2 ^ k
      let r := isqrt w
      .fin false r ((e - k) / 2) (r * r != w)

/-- 1/√x (R66). -/
def rsqNum : Num → Num
  | .nan => .nan
  | .inf n => if n then .nan else Num.zero false
  | .fin n m e _ =>
    if m == 0 then .inf n
    else if n then .nan
    else
      let w := if e % 2 == 0 then m else 2 * m
      let h := if e % 2 == 0 then e / 2 else (e - 1) / 2
      let k := 64 + Nat.log2 w
      let r := isqrt (2 ^ (2 * k) / w)
      .fin false r (-h - k) (r * r * w != 2 ^ (2 * k))

/-- Fraction bits of the fixed-point sums. -/
def fixBits : Nat := 320

/-- ln 2 in `p` fraction bits: Σ 1/(k·2^k), rounded down. -/
def ln2Fix (p : Nat) : Nat := ((List.range (p + 8)).map (fun k => 2 ^ p / ((k + 1) * 2 ^ (k + 1)))).sum

/-- Σ tⁿ/n! in `p` fraction bits from the term `n`, with `fuel` terms left. -/
def expSum (p t : Nat) : Nat → Nat → Nat → Nat → Nat
  | 0, _, _, acc => acc
  | fuel + 1, n, term, acc =>
    let next := term * t / (n * 2 ^ p)
    expSum p t fuel (n + 1) next (acc + next)

/-- e^t for t ≥ 0 in `p` fraction bits. -/
def expFix (p t : Nat) (terms : Nat) : Nat := expSum p t terms 1 (2 ^ p) (2 ^ p)

/-- 2^x (R66): an integer x gives exactly 2^x; another x = i + f gives 2^i · 2^f. -/
def exp2Num : Num → Num
  | .nan => .nan
  | .inf n => if n then Num.zero false else .inf false
  | .fin n m e _ =>
    if m == 0 then .fin false 1 0 false
    else
      let den : Nat := 2 ^ (-e).toNat
      let num : Int := (if n then -1 else 1) * (m * 2 ^ e.toNat : Nat)
      let i := num / (den : Int)
      let f : Nat := (num % (den : Int)).toNat
      if i > 4000 then .fin false 1 4000 false
      else if i < -4000 then .fin false 1 (-4000) false
      else if f == 0 then .fin false 1 i false
      else
        let s := expFix fixBits (f * ln2Fix fixBits / den) 100
        .fin false (s / 2 ^ (fixBits - 80)) (i - 80) true

/-- Σ z^(2k+1)/(2k+1) in `p` fraction bits. -/
def atanhSum (p zz : Nat) : Nat → Nat → Nat → Nat → Nat
  | 0, _, _, acc => acc
  | fuel + 1, k, pow, acc => atanhSum p zz fuel (k + 2) (pow * zz / 2 ^ p) (acc + pow / k)

/-- log2 x (R66): exactly the exponent for a power of two. -/
def log2Fn : Num → Num
  | .nan => .nan
  | .inf n => if n then .nan else .inf false
  | .fin n m e _ =>
    if m == 0 then .inf true
    else if n then .nan
    else
      let l := Nat.log2 m
      let i : Int := e + l
      if m == 2 ^ l then Num.ofInt i
      else
        let p := fixBits
        let z := (m - 2 ^ l) * 2 ^ p / (m + 2 ^ l)
        let a := atanhSum p (z * z / 2 ^ p) 110 1 z 0
        let q := 2 * a * 2 ^ p / ln2Fix p
        let v : Int := i * (2 ^ p : Nat) + q
        .fin (decide (v < 0)) (v.natAbs / 2 ^ (p - 120)) (-120) true

/-! ### The table functions of the epilogue (R158) -/

/-- The three table functions. -/
inductive TableFn where
  | gelu | sigm | tanh
  deriving DecidableEq, Repr

def tabBits : Nat := 640

/-- e^(a/64), a ≥ 0, in `tabBits` fraction bits. -/
def expQ (a : Nat) : Nat := expFix tabBits (a * 2 ^ tabBits / 64) 700

/-- Σ (−1)^k / ((2k+1)·x^(2k+1)) in `p` fraction bits: arctan(1/x). -/
def atanInv (p x : Nat) : Nat :=
  let t := (List.range (p / 2)).map (fun k => (k, 2 ^ p / ((2 * k + 1) * x ^ (2 * k + 1))))
  (t.map (fun q => if q.1 % 2 == 0 then q.2 else 0)).sum - (t.map (fun q => if q.1 % 2 == 1 then q.2 else 0)).sum

/-- π by Machin's formula. -/
def piFix : Nat := 16 * atanInv tabBits 5 - 4 * atanInv tabBits 239

/-- Σ x^(2k+1)/(1·3·…·(2k+1)) for x = a/8. -/
def phiSum (a : Nat) : Nat → Nat → Nat → Nat → Nat
  | 0, _, _, acc => acc
  | fuel + 1, k, term, acc =>
    let next := term * a * a / (64 * k)
    phiSum a fuel (k + 2) next (acc + next)

/-- The upper tail 1 − Φ(a/8) of the normal distribution for a ≥ 0, in `tabBits` fraction bits. -/
def tailFix (a : Nat) : Nat :=
  let one := 2 ^ tabBits
  let dens := one * one / (isqrt (2 * piFix * one))
  let phi := dens * one / expFix tabBits (a * a * one / 128) 700
  let first := a * one / 8
  one / 2 - phi * (phiSum a 700 3 first first) / one

/-- A nonnegative fixed-point value with `tabBits` fraction bits as a sticky number. -/
def ofTab (neg : Bool) (v : Nat) : Num := .fin neg (v / 2 ^ (tabBits - 300)) (-300) true

/-- The exact value of the table function at x = a/8 (a an integer, nonzero). -/
def tableExact (f : TableFn) (a : Int) : Num :=
  let one := 2 ^ tabBits
  let n := a.natAbs
  match f with
  | .sigm =>
    let e := expQ (8 * n)
    if a < 0 then ofTab false (one * one / (one + e)) else ofTab false (e * one / (one + e))
  | .tanh =>
    let e := expQ (16 * n)
    ofTab (decide (a < 0)) ((e - one) * one / (e + one))
  | .gelu =>
    let t := tailFix n
    if a < 0 then ofTab true (n * t / 8) else ofTab false (n * (one - t) / 8)

/-- Knot i of R158 as FP32 bits. -/
def knot (f : TableFn) (i : Nat) : Nat :=
  let a : Int := (i : Int) - 128
  if a == 0 then (match f with | .sigm => 0x3F000000 | _ => 0)
  else (roundFloat .fp32 .rne false 0 (tableExact f a)).bits

/-- R158 on an FP32 value: at a knot the knot value itself, sign and all. -/
def tableApply (f : TableFn) (x : Num) : Nat :=
  let r := fun v => (roundFloat .fp32 .rne false 0 v).bits
  let lo := Num.ofInt (-16)
  let hi := Num.ofInt 16
  if x.isNan then canonNan .fp32
  else if !ltNum x hi then (match f with | .gelu => r x | _ => 0x3F800000)
  else if ltNum x lo then (match f with | .gelu => 0x80000000 | .sigm => 0 | .tanh => 0xBF800000)
  else
    let s := (addNum .rne x hi).scale 3
    let i : Nat := (match s with | .fin n m e _ => roundMag .rtz n m e false 0 0 | _ => 0)
    let u := subNum .rne s (Num.ofInt i)
    if u.isZero then knot f i
    else
    let k0 := decodeFloat .fp32 (knot f i)
    let k1 := decodeFloat .fp32 (knot f (i + 1))
    r (addNum .rne k0 (mulNum u (subNum .rne k1 k0)))

end Sys2Proof.Machine
end

