-- ==== Sys2Proof/Machine/Matrix.lean ====
section
/-! DEFINITION. The M slot: MMA and its operands (R133 to R149), the accumulator ops (R150), the array's feed (R160, R161). -/

namespace Sys2Proof.Machine

/-- Memory as the M-slot reads of the op in issue see it. -/
def State.viewM (s : State) : Memory := s.viewMAt s.core.iss.cur.bundle

/-! ### The array's feed (R160, R161) -/

/-- Feed cycles for K steps (R133). -/
def feedCycles (t : Fmt) (k : Nat) : Nat :=
  match t with
  | .fp32 => 4 * k
  | .int8 | .sx8 => k / 2
  | .sx5 | .sx3 => k / 4
  | _ => k

/-- THRTST.LEVEL (R162): the highest level any cause asks for. -/
def Dev.ownerLevel (d : Dev) : Nat := d.power.ownlvl

def Power.brkLevel (p : Power) (pblvl : Nat) : Nat := if p.pwrbrk || p.pwrbrkHold then pblvl else 0

def Dev.level (d : Dev) : Nat :=
  max (max d.power.power d.power.thermal) (max (max (max d.power.current.1 d.power.current.2) (d.power.brkLevel d.power.pblvl)) d.ownerLevel)

/-- Duty steps taken by `t`: the first after the interval in force at the start, each later one after RAMPT (R161, R162). -/
def Matrix.stepsAt (m : Matrix) (t rampt : Nat) : Nat :=
  if t < m.dutyAt + m.ramp then 0 else 1 + (t - m.dutyAt - m.ramp) / rampt

/-- The duty at `now` (R161): rising while the feed has an MMA or one waits to issue, else falling from the feed's end. -/
def Matrix.dutyNow (m : Matrix) (now rampt : Nat) (waiting : Bool) : Nat :=
  let up := fun (t : Nat) => min 8 (max 1 m.duty + m.stepsAt t rampt)
  if m.feeding then
    (if decide (now ≤ m.feedUntil) || waiting then up now else up m.feedUntil - (now - m.feedUntil) / rampt)
  else m.duty - m.stepsAt now rampt

/-- Whether such an MMA waits. -/
def State.mmaWaits (s : State) : Bool := s.core.iss.iq.any s.core.mx.keeps

def State.duty (s : State) : Nat := s.core.mx.dutyNow s.core.now s.dev.set.rampt s.mmaWaits

/-- The array as ballast begins: no MMA feeds, and none waits. -/
def Matrix.ballast (m : Matrix) (rampt : Nat) : Matrix :=
  { m with feeding := false, duty := min 8 (max 1 m.duty + m.stepsAt m.feedUntil rampt), dutyAt := m.feedUntil, ramp := rampt }

/-- The array when RAMPT changes from `old`: the steps taken stand, the interval that runs keeps its length, and the change applies from
the next step (R460). -/
def Matrix.retime (m : Matrix) (now old : Nat) (waiting : Bool) : Matrix :=
  let b := if m.feeding && decide (m.feedUntil < now) && !waiting then m.ballast old else m
  let n := b.stepsAt now old
  if n = 0 then b
  else { b with duty := if b.feeding then min 8 (max 1 b.duty + n) else b.duty - n, dutyAt := b.dutyAt + b.ramp + (n - 1) * old,
                ramp := old }

/-- The matrix unit when an MMA with `f` feed cycles issues at `now` (R160, R161): a ramp starts where the array was idle or
stepping down. -/
def Matrix.feed (m : Matrix) (now rampt level f : Nat) (waiting : Bool) : Matrix :=
  let d := m.dutyNow now rampt waiting
  let rising := m.feeding && (decide (now ≤ m.feedUntil) || waiting)
  let d1 := min 8 (max 1 d)
  let cap := max 1 (min d1 (8 - level))
  { m with feeding := true, duty := if rising then m.duty else d, dutyAt := if rising then m.dutyAt else now,
           ramp := if rising then m.ramp else rampt,
           feedUntil := now + (8 * f + cap - 1) / cap }

/-! ### Shapes (R137) -/

/-- Formats legal in COL order (R137). -/
def colLegal (t : Fmt) (g : Geo) : Bool := !t.isSx || g == .planar || t == .sx3

/-- The shape faults of R137 for one operand. -/
def Chute.shapeOk (c : Chute) (t : Fmt) (k : Nat) (col : Bool) : Bool :=
  c.fmt == t && (!col || (colLegal t c.geo && decide (c.need t k ≤ 1))) && decide (c.need t k ≤ c.slots)

/-! ### MMA: slots, checks and waits -/

/-- The chute a handle names, if the handle is valid and the chute stands. -/
def State.chuteOf (s : State) (h : Nat) : Option Chute :=
  match s.rdCh h with
  | .valid n => s.chute? n
  | _ => none

def Chute.ownMember (c : Chute) : Option ChuteMember := c.members.find? (fun m => m.core == ownCore)

/-- The uses of a handle that trap (R12, R197): an invalid one, and a chute the core is no member of. -/
def State.needChute (s : State) (h : Nat) : Chk :=
  (needHandle (s.rdCh h)).and (need (((s.chuteOf h).map (fun c => c.ownMember.isSome)).getD true) 0x0F 0)

/-- Committed and unreserved slots of the own member (R149). -/
def Chute.available (c : Chute) : Nat :=
  match c.ownMember with
  | some m => m.landed - m.head - m.reserved
  | none => 0

/-- Whether the interval holds a gated commit of the chute, of a place before the op's (R347). -/
def State.gatedCommit (s : State) (name : ClaimName) : Bool :=
  s.core.gate.any (fun e => Ctx.before { s.core.iss.cur with bundle := e.bundle, slot := e.slot } s.core.iss.cur && (match e.op with
    | .cmd g => match g.cmd with
      | .chcommit c _ => c == name
      | _ => false
    | .drainChute _ c => c == name
    | _ => false))

/-- Whether both operands come from one chute (R149). The rule compares the register fields; that two handle registers which name one
chute act as CHA = CHB is the model's choice (log 62). -/
def MM.same (f : MM) (s : State) : Bool := f.cha == f.chb || s.rdCh f.cha.toNat == s.rdCh f.chb.toNat

/-- Slots an MMA needs of each operand's chute: of one chute for both operands, the sum. -/
def MM.needs (f : MM) (s : State) : Nat × Nat :=
  let qa := ((s.chuteOf f.cha.toNat).map (fun c => c.need f.t (MM.steps f))).getD 0
  let qb := ((s.chuteOf f.chb.toNat).map (fun c => c.need f.t (MM.steps f))).getD 0
  if MM.same f s then (qa + qb, 0) else (qa, qb)

/-- How an operand's handle stands at issue: slots ready, none to come (R199, R215), or a wait. -/
inductive SlotState where
  | ready | never | wait
  deriving DecidableEq, Repr

/-- Whether no further commit comes to the chute. -/
def Chute.final (c : Chute) : Bool := c.broken || c.closed

def State.slotState (s : State) (h q : Nat) : SlotState :=
  match s.chuteOf h with
  | none => .never
  | some c => if q ≤ c.available then .ready else if c.final then .never else .wait

/-- The shape faults of an MMA (R137). -/
def MM.shapeOk (f : MM) (s : State) : Bool :=
  let ok := fun (h : Nat) (col : Bool) => ((s.chuteOf h).map (fun c => c.shapeOk f.t (MM.steps f) col)).getD true
  ok f.cha.toNat f.oa && ok f.chb.toNat f.ob &&
    (!MM.same f s || ((s.chuteOf f.cha.toNat).map (fun c => decide ((MM.needs f s).1 ≤ c.slots))).getD true)

/-- Whether the op waits on a commit that only its own interval could release (R347). -/
def MM.waitsOwn (f : MM) (s : State) : Bool :=
  let w := fun (h q : Nat) => s.slotState h q == .wait && ((s.chuteOf h).map (fun c => s.gatedCommit c.name)).getD false
  w f.cha.toNat (MM.needs f s).1 || w f.chb.toNat (MM.needs f s).2

/-- The checks of MMA, in the order R143 gives. -/
def chkMma (f : MM) (s : State) : Chk :=
  (s.needAlloc [(50, s.hasA f.acc.toNat)]).and
  ((s.needChute f.cha.toNat).and ((s.needChute f.chb.toNat).and
  ((need (MM.shapeOk f s) 0x08 0).and
  ((need (!s.core.accs.contains f.acc.toNat) 0x0A (BitVec.ofNat 64 f.acc.toNat)).and
  ((s.needOwn (MM.waitsOwn f s)).and s.needGate)))))

/-- Whether an operand in COL order is not staged yet (R140). -/
def MM.unstaged (f : MM) (s : State) : Bool :=
  let w := fun (h : Nat) (col : Bool) => col && ((s.chuteOf h).map (fun c => !s.core.mx.staged.contains c.name)).getD false
  w f.cha.toNat f.oa || w f.chb.toNat f.ob

/-- Whether an operand's slots will never come. -/
def MM.void (f : MM) (s : State) : Bool :=
  s.slotState f.cha.toNat (MM.needs f s).1 == .never || s.slotState f.chb.toNat (MM.needs f s).2 == .never

/-- MMA's waits (R143): slots, staging, the feed. -/
def readyMma (f : MM) (s : State) : Ready :=
  if MM.void f s then .go
  else
    match s.slotState f.cha.toNat (MM.needs f s).1, s.slotState f.chb.toNat (MM.needs f s).2 with
    | .ready, .ready =>
      if MM.unstaged f s then .wait (some .other)
      else if s.core.now < s.core.mx.feedUntil then .wait (some .other) else .go
    | .ready, _ => .wait ((s.chuteOf f.chb.toNat).map (fun c => .chute c.name (MM.needs f s).2))
    | _, _ => .wait ((s.chuteOf f.cha.toNat).map (fun c => .chute c.name (MM.needs f s).1))

/-- CHST.BRK of a handle, which ops of later bundles see (R29, R199, R200). -/
def State.setBrk (s : State) (h : Nat) : State := s.writeAfter 1 (.brk h)

/-- An MMA that finds no slots to come issues with no effect but CHST; it feeds nothing (R161). -/
def State.voidMma (f : MM) (s : State) : State :=
  let mark := fun (t : State) (h q : Nat) => if s.slotState h q == .never then t.setBrk h else t
  let t := if s.core.iss.waited then s.mapCore Core.endRise else s
  mark (mark t f.cha.toNat (MM.needs f s).1) f.chb.toNat (if MM.same f s then (MM.needs f s).1 else (MM.needs f s).2)

/-- Reserves `q` slots of the own member (R149). -/
def Chute.reserve (c : Chute) (q : Nat) : Chute :=
  { c with members := c.members.map (fun m => if m.core == ownCore then { m with reserved := m.reserved + q } else m) }

/-- The first unreserved slot. -/
def Chute.firstFree (c : Chute) : Nat :=
  match c.ownMember with
  | some m => m.head + m.reserved
  | none => 0

/-- MMA (R142, R149): the slots are reserved, the result is written after F + 140 cycles, and the pop waits in the gate. -/
def State.doMma (f : MM) (s : State) : State :=
  match s.chuteOf f.cha.toNat, s.chuteOf f.chb.toNat with
  | some ca, some cb =>
    let k := MM.steps f
    let fa := ca.firstFree
    let fb := if MM.same f s then fa + ca.need f.t k else cb.firstFree
    let n := s.snap .dyn
    let acc := (s.rdA f.acc.toNat, s.poisonA f.acc.toNat)
    let r := mmaResult f n acc (s.operandMem s.core.iss.cur.bundle) { chute := ca, first := fa, col := f.oa, t := f.t, k := k }
      { chute := cb, first := fb, col := f.ob, t := f.t, k := k }
    let lat := feedCycles f.t k + 140
    let id := s.newId
    let mx := s.core.mx.feed s.core.now s.dev.set.rampt s.dev.level (feedCycles f.t k) s.core.iss.waited
    let fly : MmaFlight := { id := id, bundle := s.core.iss.cur.bundle, op := f, snap := n, input := acc.1, inPoison := acc.2,
                             chutes := [(ca.name, fa, ca.need f.t k), (cb.name, fb, cb.need f.t k)],
                             fed := mx.feedUntil, due := s.core.now + lat, released := false }
    let t := (s.setChute (ca.reserve (ca.need f.t k)))
    let t := match t.chute? cb.name with
      | some c => t.setChute (c.reserve (cb.need f.t k))
      | none => t
    let t := (t.writeAfter lat (.a f.acc.toNat r.1 r.2)).gatePush (.pop id)
    (t.mapCore (fun c => { c with
      accs := f.acc.toNat :: c.accs, opId := c.opId + 1,
      mx := { mx with
              staged := [], mmas := c.mx.mmas ++ [fly], launch := (s.dev.strands[s.strandIdx]?).bind (fun u => u.block) } })).bump
  | _, _ => s

/-- MMA. -/
def execMma (f : MM) (s : State) : Out :=
  issueOp s (chkMma f s) (readyMma f s) (fun s =>
    (if MM.void f s then State.voidMma f s else State.doMma f s).takeSeq)

/-! ### MZERO, MACCLD, MACCST (R150) -/

def chkMzero (f : MX) (s : State) : Chk := s.needAlloc [(50, s.hasA f.acc.toNat)]

/-- MZERO clears the accumulator and its poison (R358). -/
def execMzero (f : MX) (s : State) : Out :=
  issueOp s (chkMzero f s) .go (fun s => s.writeAfter 1 (.a f.acc.toNat 0 false))

/-- The 64 KiB of an accumulator at an address (R150). -/
def chkAccAddr (addr : Nat) : Chk :=
  (need (addr % 4 == 0 && decide (addr < lsSize)) 0x08 (BitVec.ofNat 64 addr)).and
    (need (decide (addr + 65536 ≤ lsSize)) 0x06 (BitVec.ofNat 64 lsSize))

def chkMaccld (f : MX) (s : State) : Chk :=
  (s.needAlloc [(50, s.hasA f.acc.toNat)]).and ((s.needCtl f.a).and (chkAccAddr (s.rdX f.a).toNat))

/-- MACCLD: a poisoned word poisons the accumulator (R358). -/
def execMaccld (f : MX) (s : State) : Out :=
  issueOp s (chkMaccld f s) .go (fun s =>
    let m := s.viewM
    let a := ownLs (s.rdX f.a).toNat
    let ws := (List.range 16384).map (fun i => (m.num (a + 4 * i) 4, m.poisoned (a + 4 * i)))
    let po := orAll (ws.map (·.2))
    let t := s.writeAfter 72 (.a f.acc.toNat (BitVec.ofNat 524288 (ofLanes 32 (ws.map (fun w => if w.2 then 0 else w.1)))) po)
    if po then t.writeAfter 72 .loaded else t)

def chkMaccst (f : MX) (s : State) : Chk :=
  (s.needAlloc [(50, s.hasA f.acc.toNat)]).and
    ((s.needCtl f.a).and ((chkAccAddr (s.rdX f.a).toNat).and s.needGate))

/-- MACCST: the output waits in the gate. -/
def execMaccst (f : MX) (s : State) : Out :=
  issueOp s (chkMaccst f s) .go (fun s =>
    let a := ownLs (s.rdX f.a).toNat
    let addrs := (List.range 65536).map (fun i => a + i)
    s.gatePush (.output { cells := addrs.zip (bytesOfNat 65536 (s.rdA f.acc.toNat).toNat),
                          poisoned := if s.poisonA f.acc.toNat then addrs else [], ovfs := false }))

end Sys2Proof.Machine
end

