-- ==== Sys2Proof/Machine/Drain.lean ====
section
/-! DEFINITION. The epilogue processor: its instruction words (R156, R157), MDRAIN (R152 to R155) and EPLD. -/

namespace Sys2Proof.Machine

/-! ### Epilogue instructions (R157) -/

/-- An epilogue instruction; `row` says whether the vector runs along the row (j) or down the rows (r). -/
inductive Epi where
  | eint
  | bias (row : Bool) (addr : Nat)
  | mul (row : Bool) (addr : Nat)
  | addk (k : Nat)
  | mulk (k : Nat)
  | scl2 (n : Int)
  | maxk (k : Nat)
  | mink (k : Nat)
  | relu
  | table (f : TableFn)
  | redr (kind addr : Nat)
  | out
  | chute (ch : Nat)
  | push (k : Nat)
  deriving DecidableEq, Repr

/-- The fields an EOP uses, as a mask of bits 26:0; none for an unallocated EOP. -/
def epiMask (eop : Nat) : Option Nat :=
  match eop with
  | 0x00 | 0x0A | 0x0B | 0x0C | 0x0D | 0x10 => some 0
  | 0x01 | 0x02 | 0x03 | 0x04 => some (2 ^ 21 - 1)
  | 0x05 | 0x06 | 0x08 | 0x09 => some 0xFFFF
  | 0x07 => some 0xFF
  | 0x0E => some (2 ^ 23 - 1)
  | 0x11 => some 7
  | 0x12 => some 3
  | _ => none

/-- The instruction of a word whose fields are legal. -/
def epiOf (w : Nat) : Epi :=
  let a := w % 2 ^ 21
  match w / 2 ^ 27 with
  | 0x00 => .eint
  | 0x01 => .bias true a
  | 0x02 => .bias false a
  | 0x03 => .mul true a
  | 0x04 => .mul false a
  | 0x05 => .addk (w % 2 ^ 16)
  | 0x06 => .mulk (w % 2 ^ 16)
  | 0x07 => .scl2 (signedOf 8 w)
  | 0x08 => .maxk (w % 2 ^ 16)
  | 0x09 => .mink (w % 2 ^ 16)
  | 0x0A => .relu
  | 0x0B => .table .gelu
  | 0x0C => .table .sigm
  | 0x0D => .table .tanh
  | 0x0E => .redr (w / 2 ^ 21 % 4) a
  | 0x11 => .chute (w % 8)
  | 0x12 => .push (w % 4)
  | _ => .out

def Epi.isOutput : Epi → Bool
  | .out | .chute _ | .push _ => true
  | _ => false

/-- A vector address that is not 4-byte aligned or lies above 0x1F_FE00 (R156). -/
def epiAddrBad (a : Nat) : Bool := a % 4 != 0 || decide (0x1FFE00 < a)

/-- Why word `i` of a program fails, `before` being the words before it and `last` whether it is the last (R156). -/
def epiFault (before : List Nat) (i w : Nat) (last : Bool) : Option Nat :=
  match epiMask (w / 2 ^ 27) with
  | none => some 0x02
  | some m =>
    if (w % 2 ^ 27) &&& (2 ^ 27 - 1 - m) ≠ 0 then some 0x03
    else
      let bad := match epiOf w with
        | .bias _ a | .mul _ a => epiAddrBad a
        | .redr k a => k == 3 || epiAddrBad a || before.any (fun u => u / 2 ^ 27 == 0x0E)
        | .eint => i != 0
        | .out | .chute _ | .push _ => !last
        | _ => false
      if bad then some 0x03 else none

/-- The first failing word of a program: cause and index. -/
def epiCheck (n : Nat) : List Nat → List Nat → Nat → Option (Nat × Nat)
  | [], _, _ => none
  | w :: ws, before, i =>
    match epiFault before i w (i + 1 == n) with
    | some c => some (c, i)
    | none => epiCheck n ws (w :: before) (i + 1)

/-! ### EPLD (R156) -/

/-- TRAPVAL of a failed EPLD: slot 3 and the word index. -/
def epldVal (i : Nat) : X64 := BitVec.ofNat 64 (3 * 2 ^ 16 + i)

/-- The words EPLD reads. -/
def epldWords (f : MXE) (s : State) : List Nat :=
  let m := s.viewM
  (List.range f.n.toNat).map (fun i => m.num (ownLs ((s.rdX f.a).toNat + 4 * i)) 4)

/-- The checks of EPLD. For a misaligned xa, or words past the end, TRAPVAL's word index is 0, and the trap precedes those of the words:
the model's choice (log 63). -/
def chkEpld (f : MXE) (s : State) : Chk :=
  let a := (s.rdX f.a).toNat
  (s.needCtl f.a).and
  ((need (a % 4 == 0 && decide (a + 4 * f.n.toNat ≤ lsSize)) 0x08 (epldVal 0)).and
   (match epiCheck f.n.toNat (epldWords f s) [] 0 with
    | some (c, i) => .trap c (epldVal i)
    | none => .ok))

/-- EPLD. -/
def execEpld (f : MXE) (s : State) : Out :=
  issueOp s (chkEpld f s) .go (fun s =>
    s.mapRegs (fun r => { r with epi := (epldWords f s).map (fun w => BitVec.ofNat 32 w) }))

/-! ### The drain (R153) -/

/-- A value of the row being drained, with its poison. -/
abbrev WVal := Num × Bool

/-- Rounds to FP32 under RNE. -/
def rne32 (x : Num) : Num := decodeFloat .fp32 (roundFloat .fp32 .rne false 0 x).bits

/-- The FP32 word of a vector at an address, as a load delivers it (R360). -/
def vecWord (m : Memory) (addr i : Nat) : WVal :=
  let a := ownLs (addr + 4 * i)
  if m.poisoned a then (Num.zero false, true) else (decodeFloat .fp32 (m.num a 4), false)

/-- One instruction on a row (R157). -/
def Epi.apply (e : Epi) (m : Memory) (r : Nat) (ws : List WVal) : List WVal :=
  let each := fun (g : Num → Num) => ws.map (fun (w : WVal) => (g w.1, w.2))
  let vec := fun (row : Bool) (addr : Nat) (g : Num → Num → Num) =>
    ws.zipIdx.map (fun (q : WVal × Nat) =>
      let v := vecWord m addr (if row then q.2 else r)
      (rne32 (g q.1.1 v.1), q.1.2 || v.2))
  let k := fun (b : Nat) => decodeFloat .bf16 b
  match e with
  | .bias row a => vec row a (addNum .rne)
  | .mul row a => vec row a mulNum
  | .addk b => each (fun x => rne32 (addNum .rne x (k b)))
  | .mulk b => each (fun x => rne32 (mulNum x (k b)))
  | .scl2 n => each (fun x => rne32 (x.scale n))
  | .maxk b => each (fun x => rne32 (maxNum x (k b)))
  | .mink b => each (fun x => rne32 (minNum x (k b)))
  | .relu => each (fun x => if x.isNan || ltNum (Num.zero false) x then x else Num.zero false)
  | .table f => each (fun x => decodeFloat .fp32 (tableApply f x))
  | _ => ws

/-- EREDR's value of a row: sum, maximum or minimum in ascending j. -/
def redRow (kind : Nat) (ws : List WVal) : WVal :=
  let step := fun (a x : Num) => match kind with
    | 0 => rne32 (addNum .rne a x)
    | 1 => maxNum a x
    | _ => minNum a x
  match ws with
  | [] => (Num.zero false, false)
  | w :: t => (t.foldl (fun a x => step a x.1) w.1, orAll ((w :: t).map (·.2)))

/-- The program of the strand. -/
def State.program (s : State) : List Epi := s.core.regs.epi.map (fun w => epiOf w.toNat)

/-- What a drain works with: the op, what it captured, the program, the memory it reads and the accumulator's poison. -/
structure DrainSpec where
  t : Fmt
  conv : ConvSpec
  snap : Snap
  prog : List Epi
  mem : Memory
  poison : Bool
  deriving DecidableEq, Repr

/-- One row: its output elements' bits (or blocks' integers), with their poison and OVFS, and EREDR's value. -/
structure DrainRow where
  elems : List (Nat × Bool)
  blocks : List (SxBlock × Bool)
  ovfs : Bool
  red : WVal
  deriving DecidableEq, Repr

/-- Row `r` of the drain (R153). -/
def DrainSpec.row (d : DrainSpec) (r : Nat) (cells : List Nat) : DrainRow :=
  if d.prog.isEmpty && (d.t == .fp32 || d.t == .int32) then
    { elems := cells.map (fun c => (c, d.poison)), blocks := [], ovfs := false, red := (Num.zero false, false) }
  else
    let int := d.prog.head? == some .eint
    let w0 : List WVal := cells.map (fun c =>
      (if int then rne32 (Num.ofInt (signedOf 32 c)) else decodeFloat .fp32 c, d.poison))
    let run := d.prog.foldl (fun (q : List WVal × WVal) e =>
      match e with
      | .redr k _ => (q.1, redRow k q.1)
      | e => (e.apply d.mem r q.1, q.2)) (w0, (Num.zero false, false))
    let draw := fun (j : Nat) => srDraw d.snap.draw (r * 128 + j)
    if d.t.isSx then
      let bs := ((groupsOf 16 8 run.1).zipIdx).map (fun g =>
        let b := d.conv.block (g.1.map (·.1)) (fun j => draw (16 * g.2 + j))
        (b.1, orAll (g.1.map (·.2)), b.2))
      { elems := [], blocks := bs.map (fun b => (b.1, b.2.1)), ovfs := orAll (bs.map (fun b => b.2.2)), red := run.2 }
    else
      let es := run.1.zipIdx.map (fun q =>
        let o := d.conv.elem (roundFloat .fp32 .rne false 0 q.1.1).bits (draw q.2) q.1.1
        (o.bits, q.1.2, o.ovf))
      { elems := es.map (fun e => (e.1, e.2.1)), blocks := [], ovfs := orAll (es.map (fun e => e.2.2)), red := run.2 }

/-- Bytes of a row (R154). -/
def rowBytes (t : Fmt) : Nat := if t.isSx then 8 * blockBytes t else 128 * elemBytes t

/-- A row's bytes with their poison, SX packed. -/
def DrainRow.bytes (w : DrainRow) (t : Fmt) : List (Byte × Bool) :=
  if t.isSx then (w.blocks.map (fun b => (bytesOfNat (blockBytes t) (sxPack (sxMag t) b.1)).map (fun x => (x, b.2)))).flatten
  else (w.elems.map (fun e => (bytesOfNat (elemBytes t) e.1).map (fun x => (x, e.2)))).flatten

/-- The bytes of a tile of 128 rows in a geometry, in ROW order: rows one after another, or the planes of R60. -/
def tileBytes (rows : List DrainRow) (t : Fmt) (g : Geo) : List (Byte × Bool) :=
  if g = .planar then
    let blocks := (rows.map (·.blocks)).flatten
    ((groupsOf 64 16 blocks).map (fun grp =>
      (grp.map (fun b => (List.range 16).map (fun i => (BitVec.ofNat 8 (sxPlanarByte b.1 i), b.2)))).flatten ++
      (grp.map (fun b => [(BitVec.ofNat 8 b.1.e, b.2), (BitVec.ofNat 8 b.1.mu, b.2)])).flatten)).flatten
  else (rows.map (fun r => r.bytes t)).flatten

/-! ### MDRAIN (R152 to R155) -/

def drainSpec (f : MX) (s : State) : DrainSpec :=
  let n := s.snap f.rnd
  { t := f.t, conv := convSpec f.t .fp32 f.sat f.scl n, snap := n, prog := s.program, mem := s.viewM,
    poison := s.poisonA f.acc.toNat }

/-- All 128 rows. -/
def drainRows (f : MX) (s : State) : List DrainRow :=
  let d := drainSpec f s
  ((groupsOf 128 128 (lanesOf 32 16384 (s.rdA f.acc.toNat).toNat)).zipIdx).map (fun q => d.row q.2 q.1)

/-- The output instruction of the program (R154). -/
def outputOf (p : List Epi) : Epi :=
  match p.getLast? with
  | some e => if e.isOutput then e else .out
  | none => .out

/-- The fields of xa for EOUT: base and pitch. -/
def outBase (x : X64) : Nat := x.toNat % 2 ^ 21
def outPitch (x : X64) (t : Fmt) : Nat := if bitsAt x.toNat 41 24 = 0 then rowBytes t else bitsAt x.toNat 41 24

/-- Addresses of the rows' bytes. -/
def outAddrs (x : X64) (t : Fmt) : List Nat :=
  ((List.range 128).map (fun r => (List.range (rowBytes t)).map (fun i => outBase x + r * outPitch x t + i))).flatten

/-- EREDR's side vector: its address and bytes. -/
def redOutput (p : List Epi) (rows : List DrainRow) : List (Nat × Byte × Bool) :=
  match p.find? (fun e => match e with
    | .redr _ _ => true
    | _ => false) with
  | some (.redr _ a) =>
    (rows.zipIdx.map (fun q =>
      ((bytesOfNat 4 (roundFloat .fp32 .rne false 0 q.1.red.1).bits).zipIdx).map (fun b =>
        (a + 4 * q.2 + b.2, b.1, q.1.red.2)))).flatten
  | _ => []

/-- Bytes at offsets of the own local store as what a drain writes. -/
def outputData (l : List (Nat × Byte × Bool)) (ovfs : Bool) (scaled : Bool := false) : StoreData :=
  { cells := l.map (fun q => (ownLs q.1, q.2.1)), poisoned := (l.filter (fun q => q.2.2)).map (fun q => ownLs q.1),
    ovfs := ovfs, scaled := scaled }

/-- Whether the command is a commit of the chute that adds a slot (R198). -/
def Cmd.commits (c : Cmd) (name : ClaimName) : Bool :=
  match c with
  | .chcommit n v => n == name && !v.getLsbD 52
  | _ => false

/-- Commits of a chute that have not reached it: gated (R345), or released and not yet made. -/
def State.pendingCommits (s : State) (name : ClaimName) : Nat :=
  (s.core.gate.filter (fun e => match e.op with
    | .cmd g => g.cmd.commits name
    | .drainChute _ c => c == name
    | _ => false)).length + (s.core.engs.filter (fun e => e.cmd.commits name)).length

/-- Whether the strand may commit to the chute: it is open, and no other live producer holds it (R198, R199). -/
def Chute.takes (c : Chute) (strand : Nat) : Bool :=
  !c.final && (c.producer.isNone || c.producer == some strand)

/-- The checks of MDRAIN (R154); an ECHUTE drain ignores xa. That a PLANAR chute whose slot holds 128 row bytes but no planar tile of
18,432 bytes traps with cause 0x08 is the model's choice (log 63). -/
def chkMdrain (f : MX) (s : State) : Chk :=
  let x := s.rdX f.a
  let at8 := Chk.trap 0x08 x
  (s.needAlloc [(50, s.hasA f.acc.toNat)]).and
  ((needTyped f.t).and
  ((match outputOf s.program with
    | .chute h => s.needChute h
    | .push k => needHandle (s.rdK k)
    | _ => .ok).and
  ((match outputOf s.program with
    | .chute _ => Chk.ok
    | _ => s.needCtl f.a).and
  ((match outputOf s.program with
    | .chute h =>
      match s.chuteOf h with
      | some c => need (c.fmt == f.t && (c.geo == Geo.packed || f.t.isSx) && decide (128 * rowBytes f.t ≤ c.slotBytes) &&
          decide (operandBytes f.t c.geo 128 ≤ c.slotBytes)) 0x08 0
      | none => .ok
    | .push _ => if bitsAt x.toNat 63 14 ≠ 0 ∨ bitsAt x.toNat 13 8 = 0 then at8 else .ok
    | _ =>
      if bitsAt x.toNat 23 21 ≠ 0 ∨ bitsAt x.toNat 63 42 ≠ 0 then at8
      else match lowestBad (fun a => decide (lsSize ≤ a)) (outAddrs x f.t) with
        | some a => .trap 0x06 (BitVec.ofNat 64 a)
        | none => .ok).and s.needGate))))

/-- MDRAIN's waits: the drain engine (R152), and the chute's tail slot (R155). A drain with EPUSH does not wait for one of the core's eight rick
commands, while it counts among them, as ERRINJ's injection does (R324; DESIGN CHOICE, log 90). -/
def readyMdrain (_ : MX) (s : State) : Ready :=
  if s.core.now < s.core.mx.drainUntil then .wait (some .other)
  else match outputOf s.program with
    | .chute h =>
      match s.chuteOf h with
      | some c =>
        let gated := s.pendingCommits c.name
        if !c.takes s.strandIdx || c.members.all (fun m => decide (c.commits + gated - m.head < c.slots)) then .go
        else .wait (some (.chute c.name 0))
      | none => .go
    | _ => .go

/-- The drain engine is busy for 128 cycles. -/
def State.startDrain (s : State) : State := s.mapCore (fun c => { c with mx := { c.mx with drainUntil := c.now + 128 } })

/-- An engine command of the op in issue (R278). -/
def State.engine (s : State) (tok : Nat) (cmd : Cmd) : Engine :=
  { id := s.newId, strand := s.strandIdx, bundle := s.core.iss.cur.bundle, slot := s.core.iss.cur.slot, tok := tok,
    cmd := cmd, done := none }

def State.nextId (s : State) : State := s.mapCore (fun c => { c with opId := c.opId + 1 })

/-- An engine command of the op in issue goes into the gate; its token register waits for it (R345, R278). -/
def State.gateCmd (s : State) (tok : Nat) (cmd : Cmd) : State :=
  ((s.gatePush (.cmd (s.engine tok cmd))).nextId).interlockTok tok s.newId true

/-- The same with the side vector of the drain, in one entry. -/
def State.gateCmdWith (s : State) (d : StoreData) (tok : Nat) (cmd : Cmd) : State :=
  ((s.gatePush (.drainPush d (s.engine tok cmd))).nextId).interlockTok tok s.newId true

/-- What an MDRAIN does at issue (R152, R154, R155, R215). -/
def State.doDrain (f : MX) (s : State) : State :=
  let x := s.rdX f.a
  let rows := drainRows f s
  let ovfs := orAll (rows.map (·.ovfs))
  let side := redOutput s.program rows
  match outputOf s.program with
  | .chute h =>
    match s.chuteOf h with
    | some c =>
      if c.takes s.strandIdx then
        let base := c.slotOff (c.commits + s.pendingCommits c.name)
        let tile := (tileBytes rows f.t c.geo).zipIdx.map (fun q => (base + q.2, q.1.1, q.1.2))
        s.gatePush (.drainChute (outputData (tile ++ side) ovfs (f.scl ≠ .none)) c.name)
      else s.setBrk h
    | none => s.setBrk h
  | .push k =>
    let tok := physX s.rrb (bitsAt x.toNat 13 8)
    match s.rdK k with
    | .valid n =>
      let tile := tileBytes rows f.t .packed
      let push : RickOp := .pushTile tile.length f.t (tile.map (·.1)) (orAll (tile.map (·.2))) ovfs (f.scl ≠ .none)
      s.gateCmdWith (outputData side false) tok (.rick { rick := n, seg := bitsAt x.toNat 7 0, op := push })
    | _ => s.writeAfter 1 (.x tok (token 1 0) false)
  | _ =>
    let out := (outAddrs x f.t).zip ((rows.map (fun r => r.bytes f.t)).flatten)
    s.gatePush (.output (outputData (out.map (fun q => (q.1, q.2.1, q.2.2)) ++ side) ovfs (f.scl ≠ .none)))

/-- MDRAIN. -/
def execMdrain (f : MX) (s : State) : Out :=
  issueOp s (chkMdrain f s) (readyMdrain f s) (fun s => ((State.doDrain f s).startDrain).takeSeq)

end Sys2Proof.Machine
end

