-- ==== Sys2Proof/Machine/Copy.lean ====
section
/-! DEFINITION. The copy engine: COPY and COPYA, their checks, and the copy itself (R282 to R290); the stream bindings STRB
and STRU (R291 to R295). -/

namespace Sys2Proof.Machine

/-! ### Source units (R284) -/

/-- A source unit of a conversion: the offsets of its bytes from the source address. -/
abbrev SrcUnit := List Nat

/-- Bytes of a conversion's smallest whole source: an element or a block, 18 bytes of a planar one; sixteen elements where
the destination takes blocks. -/
def sourceUnit (t fs : Fmt) (gs : Geo) : Nat :=
  if fs.isSx then (if gs = .planar then 18 else blockBytes fs)
  else if fs = .bfp64 then 256
  else if t.isSx then 16 * elemBytes fs else elemBytes fs

/-- Offsets of `n` bytes from `o`. -/
def span (o n : Nat) : List Nat := (List.range n).map (fun i => o + i)

/-- The units of `len` bytes of source elements (R59, R60). -/
def unitsOf (t fs : Fmt) (gs : Geo) (len : Nat) : List SrcUnit :=
  if t = fs then (List.range len).map (fun i => [i])
  else if fs.isSx && gs == .planar then
    (List.range (len / 18)).map (fun b =>
      span (1152 * (b / 64) + 16 * (b % 64)) 16 ++ span (1152 * (b / 64) + 1024 + 2 * (b % 64)) 2)
  else
    let u := sourceUnit t fs gs
    (List.range (len / u)).map (fun i => span (u * i) u)

/-- Bytes from the first to the last byte of the units of `len` bytes of source elements: a part of a planar group reaches to
the group's exponent plane (R60; log 30). -/
def sourceSpan (t fs : Fmt) (gs : Geo) (len : Nat) : Nat :=
  if !(t == fs) && fs.isSx && gs == .planar then
    let b := len / 18
    1152 * (b / 64) + (if b % 64 = 0 then 0 else 1024 + 2 * (b % 64))
  else len

/-- Elements of `len` source bytes. -/
def sourceElems (fs : Fmt) (gs : Geo) (len : Nat) : Nat :=
  if fs.isSx then (if gs = .planar then len / 18 * 16 else len / blockBytes fs * 16)
  else if fs = .bfp64 then len / 256 * 64
  else len / elemBytes fs

/-- Bytes that `n` elements take in a format, packed. -/
def packedBytes (t : Fmt) (n : Nat) : Nat := if t.isSx then n / 16 * blockBytes t else n * elemBytes t

/-- The values of a unit, each with its bits where its format has elements (R59 to R63). -/
def unitValues (fs : Fmt) (gs : Geo) (bs : List Nat) : List (Nat × Num) :=
  if fs.isSx then
    let b := if gs = .planar then sxOfPlanar (sxMag fs) (bs.take 16) (bs.getD 16 0) (bs.getD 17 0)
      else sxUnpack (sxMag fs) (ofLanes 8 bs)
    (List.range 16).map (fun i => (0, sxDecode (sxMag fs) b i))
  else if fs = .bfp64 then
    let b := bfpOfWords ((List.range 64).map (fun i => ofLanes 8 ((bs.drop (4 * i)).take 4)))
    (List.range 64).map (fun i => (0, bfpElem b i))
  else
    (groupsOf (elemBytes fs) bs.length bs).map (fun e => (ofLanes 8 e, decodeElem fs (ofLanes 8 e)))

/-- How a copy converts: narrowing integers saturates, floats do not (R284). -/
def copySpec (t fs : Fmt) (scaled : Bool) (n : Snap) : ConvSpec :=
  { t := t, fs := fs, mode := n.mode, sat := t.isInt, scaled := scaled, k := n.k }

/-- The bytes of a unit that feed its element `i` (R59, R60, R62): its own and the block's shared ones; an infinite or NaN
SX block's elements depend on every magnitude (R58). -/
def feeds (fs : Fmt) (gs : Geo) (bs : List Nat) (i : Nat) : List Nat :=
  if fs.isSx then
    let e := if gs = .planar then 16 else 0
    if bs.getD e 0 = 255 then List.range bs.length
    else if gs = .planar then [i, 16, 17]
    else
      let lo := 16 + i * (sxMag fs + 1)
      [0, 1] ++ span (lo / 8) ((lo + sxMag fs) / 8 + 1 - lo / 8)
  else if fs = .bfp64 then 3 :: span (4 * i) 3
  else span (i * elemBytes fs) (elemBytes fs)

/-- What a piece of a unit becomes: its bytes, whether a poisoned byte has fed it, and whether its conversion sets OVFS. -/
structure UnitOut where
  bytes : List Nat
  poison : Bool
  ovf : Bool
  deriving DecidableEq, Repr

/-- What a unit becomes, its first element being number `e`: each element on its own, or each block where the destination
takes blocks (R284, R68). The unit's bytes come with their poison. -/
def convertUnit (t fs : Fmt) (gs : Geo) (scaled : Bool) (n : Snap) (e : Nat) (bs : List (Nat × Bool)) : List UnitOut :=
  if t = fs then bs.map (fun b => { bytes := [b.1], poison := b.2, ovf := false })
  else
    let c := copySpec t fs scaled n
    let raw := bs.map (·.1)
    let vs := (unitValues fs gs raw).zipIdx.map (fun v =>
      (v.1, (feeds fs gs raw v.2).any (fun o => (bs.getD o (0, false)).2)))
    let draw := fun (i : Nat) => srDraw n.draw ((e + i) % 2 ^ 32)
    if t.isSx then
      ((groupsOf 16 vs.length vs).zipIdx).map (fun g =>
        let r := c.block (g.1.map (·.1.2)) (fun i => draw (16 * g.2 + i))
        { bytes := lanesOf 8 (blockBytes t) (sxPack (sxMag t) r.1), poison := orAll (g.1.map (·.2)), ovf := r.2 })
    else
      vs.zipIdx.map (fun q =>
        let r := c.elem q.1.1.1 (draw q.2) q.1.1.2
        { bytes := lanesOf 8 (elemBytes t) r.bits, poison := q.1.2, ovf := r.ovf })

/-! ### The checks of a copy (R283 to R285) -/

/-- What a copy asks for. -/
structure CopyAsk where
  t : Fmt
  rnd : Rnd
  scl : Scl
  val3 : X64
  deriving DecidableEq, Repr

/-- A run's virtual source, destination and source bytes. -/
structure RunAsk where
  src : Nat
  dst : Nat
  len : Nat
  deriving DecidableEq, Repr

/-- The addresses of stretches at which the format may change: each stretch's first, and each local region's. -/
def formatStops (l : List Stretch) : List Nat :=
  (l.map (fun q => match q.entry with
    | some e =>
      if homeOf e.pbase = .local then
        q.addr :: ((List.range (q.len / 4096 + 1)).map (fun i => (q.addr / 4096 + 1 + i) * 4096)).filter
          (fun a => decide (a < q.addr + q.len))
      else [q.addr]
    | none => [q.addr])).flatten

/-- Whether a range lies under one format and geometry. -/
def State.uniform (s : State) (l : List Stretch) (f : Fmt × Geo) : Bool :=
  (formatStops l).all (fun a => (s.farFormat s.view a).1 == f)

/-- The alignment of R235 for a format. -/
def formatAlign (f : Fmt) (g : Geo) : Nat :=
  if f.isSx then (if g = .planar then 64 else 1) else if f = .bfp64 then 4 else elemBytes f

/-- A raw move (R284). -/
def isRaw (t fs : Fmt) : Bool := t == .raw || t == fs

/-- The pairs of R284. -/
def copyPair (t fs : Fmt) : Bool := isRaw t fs || (t != .bfp64 && fs != .raw)

def State.stretch (s : State) (v len : Nat) : List Stretch := stretches s.core.table 300 v len

/-- The format the destination takes, and its geometry. -/
def CopyAsk.dest (c : CopyAsk) (q : Fmt × Geo) : Fmt × Geo := if isRaw c.t q.1 then q else (c.t, .packed)

/-- Whether the destination's pages take the copy (R285): local stores always, other pages of the same format and
geometry, or RAW ones. -/
def State.destOk (s : State) (dst n : Nat) (d : Fmt × Geo) : Bool :=
  (s.stretch dst n).all (fun q => match q.entry with
    | some e => homeOf e.pbase == .local || (e.fmt, e.geo) == d || e.fmt == .raw
    | none => false)

/-- Bytes from the first to the last source byte of a run. -/
def State.runIn (s : State) (c : CopyAsk) (r : RunAsk) : Nat :=
  let q := (s.farFormat s.view r.src).1
  sourceSpan (if isRaw c.t q.1 then q.1 else c.t) q.1 q.2 r.len

/-- Bytes a run writes. -/
def State.runOut (s : State) (c : CopyAsk) (r : RunAsk) : Nat :=
  let q := (s.farFormat s.view r.src).1
  if isRaw c.t q.1 then r.len else packedBytes c.t (sourceElems q.1 q.2 r.len)

/-- Whether a source's size is whole (R284): elements in any move, blocks where they are converted. -/
def wholeSource (t fs : Fmt) (gs : Geo) (len : Nat) : Bool :=
  if isRaw t fs then fs.isSx || fs == .bfp64 || fs == .raw || len % elemBytes fs == 0
  else len % sourceUnit t fs gs == 0

/-- The format checks of one run. -/
def State.chkRun (s : State) (c : CopyAsk) (r : RunAsk) : Chk :=
  let q := (s.farFormat s.view r.src).1
  let at8 := fun (ok : Bool) (a : Nat) => need ok 0x08 (BitVec.ofNat 64 a)
  (at8 (s.uniform (s.stretch r.src (s.runIn c r)) q) r.src).and
  ((at8 (copyPair c.t q.1) r.src).and
  ((need (c.scl = .none || !(isRaw c.t q.1 || (c.t.isInt && q.1.isInt))) 0x03 c.val3).and
  ((at8 (r.src % formatAlign q.1 q.2 == 0) r.src).and
  ((at8 (wholeSource c.t q.1 q.2 r.len) r.src).and
  (let d := c.dest q
   (at8 (s.uniform (s.stretch r.dst (s.runOut c r)) (s.farFormat s.view r.dst).1) r.dst).and
   ((at8 (s.destOk r.dst (s.runOut c r) d) r.dst).and (at8 (r.dst % formatAlign d.1 d.2 == 0) r.dst)))))))

/-- The checks of a stretch under its own permission, over ranges that ask for different ones (R283): unmapped, absent,
then permission, each with the lowest address. -/
def mixedFault (l : List (Perm × Stretch)) : Option (Nat × Nat) :=
  match lookupFault [] (l.map (·.2)) with
  | some f => some f
  | none => (lowestOf ((l.filter (fun q => !(q.2.entry.map (fun e => e.allows q.1)).getD true)).map (·.2))).map
      (fun a => (0x07, a))

/-- The range checks of an engine command (R283, R352): cause 0x05 is a lookup fault, the others issue traps. -/
def mixedChk (l : List (Perm × Stretch)) : Chk :=
  match mixedFault l with
  | none => .ok
  | some (c, a) => if c = 0x05 then .lookup c (BitVec.ofNat 64 a) else .trap c (BitVec.ofNat 64 a)

/-- All the checks of a copy's runs. -/
def State.chkCopy (s : State) (c : CopyAsk) (rs : List RunAsk) : Chk :=
  (mixedChk (rs.map (fun r => (s.stretch r.src (s.runIn c r)).map (fun q => (Perm.load, q)) ++
      (s.stretch r.dst (s.runOut c r)).map (fun q => (Perm.store, q)))).flatten).and
    (rs.foldl (fun (k : Chk) r => k.and (s.chkRun c r)) .ok)

/-- The captured runs (R304), elements numbered on across them. -/
def State.copyRuns (s : State) (c : CopyAsk) : List RunAsk → Nat → List CopyRun
  | [], _ => []
  | r :: rs, e =>
    let q := (s.farFormat s.view r.src).1
    { src := s.partsOf (s.stretch r.src (s.runIn c r)), dst := s.partsOf (s.stretch r.dst (s.runOut c r)), fs := q.1, gs := q.2,
      len := r.len, first := e } :: State.copyRuns s c rs (e + sourceElems q.1 q.2 r.len)

/-- The copy command of the op in issue. -/
def State.copyCmd (s : State) (c : CopyAsk) (rs : List RunAsk) : CopyCmd :=
  let n := s.snap c.rnd
  { t := c.t, scaled := c.scl ≠ .none, snap := { n with k := c.scl.exp n.k }, runs := s.copyRuns c rs 0 }

/-- Commands of the copy engine (R287), a collective among them. -/
def Cmd.isCopy (c : Cmd) : Bool :=
  match c with
  | .copy _ => true
  | .coll _ _ _ => true
  | _ => false

/-- Engine commands that satisfy a test: in flight, and in the gate. -/
def State.cmds (s : State) (p : Cmd → Bool) : Nat :=
  (s.core.engs.filter (fun e => p e.cmd)).length +
    (s.core.gate.filter (fun g => match g.op with
      | .cmd e => p e.cmd
      | .drainPush _ e => p e.cmd
      | _ => false)).length

/-- A queue of `n` commands: full, the op waits; full with its own interval's gated ones, only a commit frees it, so the op
traps with cause 0x09, which R347's list does not name (DESIGN CHOICE, log 86). -/
def State.needRoom (s : State) (p : Cmd → Bool) (n : Nat) : Chk :=
  s.needOwn (decide (n ≤ (s.core.gate.filter (fun g => match g.op with
    | .cmd e => p e.cmd
    | .drainPush _ e => p e.cmd
    | _ => false)).length))

def State.readyRoom (s : State) (p : Cmd → Bool) (n : Nat) : Ready :=
  if s.cmds p < n then .go else .wait (some .other)

/-! ### COPY (R282) -/

/-- TRAPVAL of cause 0x03 for the SCL field (R99). -/
def copyAsk (f : EACopy) (s : State) : CopyAsk :=
  { t := f.t, rnd := f.rnd, scl := f.scl, val3 := BitVec.ofNat 64 (s.slotVal + 2 ^ 8 * 13) }

def copyRun (f : EACopy) (s : State) : RunAsk :=
  { src := (s.rdX f.b).toNat, dst := (s.rdX f.a).toNat, len := (s.rdX f.c).toNat }

def chkCopyOp (f : EACopy) (s : State) : Chk :=
  (s.needCtl f.a).and ((s.needCtl f.b).and
  ((need (decide ((copyRun f s).len < 2 ^ 48)) 0x08 (s.rdX f.b)).and
  ((if (copyRun f s).len = 0 then .ok else s.chkCopy (copyAsk f s) [copyRun f s]).and
  (s.needGate.and (s.needRoom Cmd.isCopy 16)))))

/-- COPY. -/
def execCopy (f : EACopy) (s : State) : Out :=
  issueOp s (chkCopyOp f s) (s.readyRoom Cmd.isCopy 16) (fun s =>
    (s.gateCmd (s.px f.d) (.copy (s.copyCmd (copyAsk f s) (if (copyRun f s).len = 0 then [] else [copyRun f s])))).takeSeq)

/-! ### The affine record (R288, R289) -/

/-- A record's pattern with its TYPE, RND and SCL codes. -/
structure AffRec where
  pat : Affine
  ty : Nat
  rnd : Nat
  scl : Nat
  deriving DecidableEq, Repr

/-- The 64-bit words of a record. -/
def State.recordWords (s : State) (addr : Nat) : List Nat :=
  let m := s.viewM
  (List.range 16).map (fun i => m.num (ownLs (addr + 8 * i)) 8)

/-- Whether a record is well formed (R288, R289). -/
def recordOk (w : List Nat) : Bool :=
  let g := fun (i : Nat) => w.getD i 0
  let lv := bitsAt (g 2) 18 16
  let bounds := (List.range lv).map (fun l => g (4 + 3 * l))
  bitsAt (g 2) 63 19 == 0 && bitsAt (g 2) 15 14 == 0 && bitsAt (g 2) 7 5 == 0 && bitsAt (g 3) 63 48 == 0 &&
    decide (1 ≤ lv) && decide (lv ≤ 4) &&
    (List.range 4).all (fun l => if l < lv then decide (1 ≤ g (4 + 3 * l)) && decide (g (4 + 3 * l) < 2 ^ 32)
      else g (4 + 3 * l) == 0 && g (5 + 3 * l) == 0 && g (6 + 3 * l) == 0) &&
    decide (1 ≤ g 3) && decide (g 3 * bounds.foldl (· * ·) 1 ≤ 2 ^ 48 - 1)

/-- The record that the words hold. -/
def recordOf (w : List Nat) : AffRec :=
  let g := fun (i : Nat) => w.getD i 0
  { pat := { dst := BitVec.ofNat 64 (g 0), src := BitVec.ofNat 64 (g 1), elem := bitsAt (g 3) 47 0,
             loops := (List.range (bitsAt (g 2) 18 16)).map (fun l =>
               { bound := g (4 + 3 * l), sstride := signedOf 64 (g (5 + 3 * l)), dstride := signedOf 64 (g (6 + 3 * l)) }) },
    ty := bitsAt (g 2) 4 0, rnd := bitsAt (g 2) 11 8, scl := bitsAt (g 2) 13 12 }

/-- The checks of a record's address and fields (R289). -/
def State.chkRecord (s : State) (a : X64) : Chk :=
  (need (decide (a.toNat < lsSize) && a.toNat % 64 == 0) 0x08 a).and
  ((need (decide (a.toNat + 128 ≤ lsSize)) 0x06 a).and (need (recordOk (s.recordWords a.toNat)) 0x08 a))

/-- The (source, destination) offsets of the index tuples in lexicographic order (R290). -/
def tuples : List Loop → List (Int × Int)
  | [] => [(0, 0)]
  | l :: ls => ((List.range l.bound).map (fun (i : Nat) =>
      (tuples ls).map (fun q => (i * l.sstride + q.1, i * l.dstride + q.2)))).flatten

/-- The runs of a pattern, addresses modulo 2^64. -/
def Affine.runs (p : Affine) : List RunAsk :=
  (tuples p.loops).map (fun q =>
    { src := (p.src + BitVec.ofInt 64 q.1).toNat, dst := (p.dst + BitVec.ofInt 64 q.2).toNat, len := p.elem })

/-- The rounding and scale selections of codes (R95), if they are assigned. -/
def sclOf (n : Nat) : Option Scl :=
  match n with
  | 0 => some .none
  | 1 => some .ls
  | 2 => some .lsn
  | _ => none

/-- RND of a record: the codes of R95. -/
def rndOf (n : Nat) : Option Rnd := if n = 0 ∨ (8 ≤ n ∧ n ≤ 13) then some (Rnd.ofCode n) else none

def Affine.srcRuns (p : Affine) : List (Nat × Nat) := p.runs.map (fun r => (r.src, r.len))
def Affine.dstRuns (p : Affine) : List (Nat × Nat) := p.runs.map (fun r => (r.dst, r.len))

/-! ### COPYA -/

def copyaRec (f : EA) (s : State) : AffRec := recordOf (s.recordWords (s.rdX f.a).toNat)

/-- A record's codes; a record is no op word, so TRAPVAL of cause 0x03 has the op's slot and bit number 0 (R99, log 20). -/
def recordAsk (r : AffRec) : Option CopyAsk :=
  match rndOf r.rnd, sclOf r.scl with
  | some rnd, some scl =>
    let t := Fmt.ofCode r.ty
    if (decide (r.ty ≤ 9) || r.ty == 31) && (t.isFloat || rnd == .dyn) && (t != .raw || scl == .none) then
      some { t := t, rnd := rnd, scl := scl, val3 := 0 }
    else none
  | _, _ => none

def chkCopya (f : EA) (s : State) : Chk :=
  (s.needCtl f.a).and ((s.chkRecord (s.rdX f.a)).and
  (match (recordAsk (copyaRec f s)).map (fun c => { c with val3 := BitVec.ofNat 64 s.slotVal }) with
   | none => .trap 0x03 (BitVec.ofNat 64 s.slotVal)
   | some c => (s.chkCopy c (copyaRec f s).pat.runs).and (s.needGate.and (s.needRoom Cmd.isCopy 16))))

/-- COPYA. -/
def execCopya (f : EA) (s : State) : Out :=
  issueOp s (chkCopya f s) (s.readyRoom Cmd.isCopy 16) (fun s =>
    match recordAsk (copyaRec f s) with
    | none => s
    | some c => (s.gateCmd (s.px f.d) (.copy (s.copyCmd c (copyaRec f s).pat.runs))).takeSeq)

/-! ### The copy itself -/

/-- The home of byte `o` of a list of parts, and the status its access would meet (R278, R387). -/
def State.byteHome (s : State) : List Part → Nat → Nat × Nat
  | [], _ => (0, 1)
  | p :: ps, o =>
    if o < p.len then
      let a := s.route (p.addr + o)
      (a, if s.lostNow p then 1 else if homeOf (physOf a) == .host && Config.hostFails s.freeCtr a then 2 else 0)
    else s.byteHome ps (o - p.len)

/-- What a copy has done so far: the bytes it has written, latest first, with their poison; the statuses met; OVFS. -/
structure CopyDone where
  written : List (Nat × (Byte × Bool))
  codes : List Nat
  ovfs : Bool
  deriving DecidableEq, Repr

/-- A source byte as the copy reads it: where the copy has written it, either value (R286). -/
def CopyDone.read (d : CopyDone) (s : State) (a : Nat) : Byte × Bool :=
  let old := (s.mem.byte a, s.mem.poisoned a)
  match d.written.find? (fun w => w.1 == a) with
  | some w => if (Config.freeByte s.freeCtr a).getLsbD 0 then w.2 else old
  | none => old

/-- One unit of a run: `k` is its number. Each piece of it that a poisoned byte has fed is written with poison, and sets no
OVFS; that it sets none is the model's choice, the spec being silent (R68, R278; log 30). Where one byte of its source is lost, or its host
access failed, none of its destination bytes is written, while R278 speaks of those bytes alone (DESIGN CHOICE, log 87). -/
def copyUnit (s : State) (c : CopyCmd) (r : CopyRun) (d : CopyDone) (k : Nat) (u : SrcUnit) : CopyDone :=
  let homes := u.map (s.byteHome r.src)
  let code := lowestCode (homes.map (·.2))
  if code ≠ 0 then { d with codes := code :: d.codes }
  else
    let raw := isRaw c.t r.fs
    let bs := homes.map (fun h => d.read s h.1)
    let per := if raw then 0 else sourceElems r.fs r.gs (sourceUnit c.t r.fs r.gs)
    let out := convertUnit (if raw then r.fs else c.t) r.fs r.gs c.scaled c.snap (r.first + k * per)
      (bs.map (fun b => (if b.2 && !raw then 0 else b.1.toNat, b.2)))
    let bytes := (out.map (fun o => o.bytes.map (fun b => (b, o.poison)))).flatten
    let outs := bytes.zipIdx.map (fun b => (s.byteHome r.dst (k * bytes.length + b.2), b.1))
    { written := ((outs.filter (fun q => q.1.2 == 0)).map (fun q => (q.1.1, (BitVec.ofNat 8 q.2.1, q.2.2)))).reverse ++ d.written,
      codes := (if out.any (·.poison) then [3] else []) ++ outs.map (fun q => q.1.2) ++ d.codes,
      ovfs := d.ovfs || out.any (fun o => o.ovf && !o.poison) }

/-- The units of a copy, each with its run and its number, in tuple order and ascending address (R286, R290). -/
def CopyCmd.units (c : CopyCmd) : List (CopyRun × SrcUnit × Nat) :=
  (c.runs.map (fun r => ((unitsOf (if isRaw c.t r.fs then r.fs else c.t) r.fs r.gs r.len).zipIdx).map (fun u => (r, u)))).flatten

/-- A copy, unit by unit, upwards or downwards by a free bit: the order is not architectural (R286). The bytes written are
those of the latest run first (R290). -/
def copyAll (s : State) (c : CopyCmd) : CopyDone :=
  let up := (Config.freeByte s.freeCtr 0).getLsbD 1
  let d := (if up then c.units else c.units.reverse).foldl (fun d u => copyUnit s c u.1 d u.2.2 u.2.1)
    { written := [], codes := [], ovfs := false }
  { d with written := if up then d.written else d.written.reverse }

/-- The last value written to each byte. -/
def lastWrites (l : List (Nat × (Byte × Bool))) : List (Nat × (Byte × Bool)) :=
  (l.foldl (fun (acc : List (Nat × (Byte × Bool)) × List Nat) w =>
    if setHas acc.2 w.1 then acc else (w :: acc.1, setAdd acc.2 w.1)) ([], [])).1

/-- The format and geometry that a copy leaves in the local regions it writes (R285). -/
def CopyCmd.tag (c : CopyCmd) (r : CopyRun) : Fmt × Geo := if isRaw c.t r.fs then (r.fs, r.gs) else (c.t, .packed)

/-- The regions of local stores that hold written bytes of a run. -/
def localRegions (addrs : List Nat) : List Nat :=
  addrs.foldl (fun acc a => if homeOf (physOf a) == .local then setAdd acc (regionOf a) else acc) []

/-- A store by an engine: bytes and poison, with the notes of R147. -/
def State.engineStore (s : State) (cells : List Host.Cell) (pois : List Nat) : State :=
  s.storeAt cells pois

/-- A copy is performed: its bytes, the tags, OVFS, and the token's status and count (R278, R285). -/
def State.performCopy (s : State) (k : Nat) (c : CopyCmd) : State × X64 :=
  let d := copyAll s c
  let w := lastWrites d.written
  let t := (s.engineStore (w.map (fun q => (q.1, q.2.1))) ((w.filter (fun q => q.2.2)).map (·.1))).bump
  let t := c.runs.foldl (fun (t : State) r =>
    let n := if isRaw c.t r.fs then r.len else packedBytes c.t (sourceElems r.fs r.gs r.len)
    let addrs := (((List.range n).map (s.byteHome r.dst)).map (·.1)).filter (fun a => w.any (fun q => q.1 == a))
    (localRegions addrs).foldl (fun (t : State) g =>
      t.mapMem (fun m => m.setTag g (c.tag r).1 (c.tag r).2)) t) t
  let t := if d.ovfs then t.sysOf k SysRegs.setOvfs else t
  let read := (c.units.map (fun u => u.2.1.map (fun o => ((s.byteHome u.1.src o).1, 1)))).flatten
  let t := t.chargeBytes k (read ++ d.written.map (fun q => (q.1, 1)))
  (t, token (lowestCode d.codes) d.written.length)

/-! ### Streams (R291 to R295) -/

def strbRec (f : EAStrb) (s : State) : AffRec := recordOf (s.recordWords (s.rdX f.a).toNat)

/-- The pattern's byte runs on the stream's side. -/
def Affine.side (p : Affine) (d : Dir) : List (Nat × Nat) := if d = .rd then p.srcRuns else p.dstRuns

def chkStrb (f : EAStrb) (s : State) : Chk :=
  let a := s.rdX f.a
  let r := strbRec f s
  (s.needCtl f.a).and ((need (s.rdQ f.h.toNat).isNone 0x0E 0).and ((s.chkRecord a).and
  ((need (r.ty == 31 && r.rnd == 0 && r.scl == 0 && (if f.dir = .rd then r.pat.dst else r.pat.src) == 0) 0x08 a).and
   (rangeChk [if f.dir = .rd then .load else .store]
     ((r.pat.side f.dir).map (fun q => s.stretch q.1 q.2)).flatten))))

/-- The home pieces of a stream's pattern, run by run (R304). -/
def strbHome (f : EAStrb) (s : State) : List Part :=
  (((strbRec f s).pat.side f.dir).map (fun r => s.partsOf (s.stretch r.1 r.2))).flatten

/-- A bound stream's home by the core's table as it is now: the table's own where it maps the whole pattern for its accesses, else the one
bound before (R368; DESIGN CHOICE, log 81). -/
def State.rebound (s : State) (t : Stream) : Stream :=
  let st := ((t.pat.side t.dir).map (fun r => s.stretch r.1 r.2)).flatten
  match rangeChk [if t.dir = .rd then .load else .store] st with
  | .ok => if (s.partsOf st).map (·.addr) = t.home.map (·.addr) then t else { t with home := s.partsOf st }
  | _ => t

/-- The streams of registers, their homes by the core's table. -/
def State.rebind (s : State) (r : Regs) : Regs := { r with q := r.q.map (fun t => t.map s.rebound) }

/-- STRB: the stream is bound; the engine begins once the strand's earlier accesses are performed (R277). -/
def execStrb (f : EAStrb) (s : State) : Out :=
  issueOp s (chkStrb f s) .go (fun s =>
    let q := f.h.toNat
    (s.mapCore (fun c => { c with strm := vset c.strm q StreamEngine.empty })).mapRegs (fun r =>
      { r with q := vset r.q q (some {
        dir := f.dir, pat := (strbRec f s).pat, taken := 0, bundle := s.core.iss.cur.bundle, home := strbHome f s, code := 0 }) }))

def chkStru (f : EA) (s : State) : Chk :=
  (need (s.rdQ f.h.toNat).isSome 0x0E 0).and
    (s.needOwn (s.core.gate.any (fun g => match g.op with
      | .image q _ _ _ | .imageOf q _ => q == f.h.toNat
      | _ => false)))

/-- STRU waits until the appended images are performed. -/
def readyStru (f : EA) (s : State) : Ready :=
  match s.rdQ f.h.toNat with
  | some t => if t.dir = .wr && s.buffered f.h.toNat != 0 then .wait (some .other) else .go
  | none => .go

/-- Pattern bytes that no read delivered, or no write supplied (R294). -/
def Stream.rest (t : Stream) : Nat := t.pat.total - 256 * t.taken

/-- An ungated engine command of the op in issue: it goes to its engine at once (R345). -/
def State.sendCmd (s : State) (tok : Nat) (cmd : Cmd) (done : Option X64) : State :=
  let e := { s.engine tok cmd with done := done }
  ((s.mapCore (fun c => { c with engs := c.engs ++ [e] })).nextId).interlockTok tok s.newId false

/-- STRU: the stream is unbound; its token holds what was left of the pattern. The binding that a rollback would restore keeps
the code its engine has met (R278, R294). -/
def execStru (f : EA) (s : State) : Out :=
  issueOp s (chkStru f s) (readyStru f s) (fun s =>
    match s.rdQ f.h.toNat with
    | some t =>
      let u := (s.mapRegs (fun r => { r with q := vset r.q f.h.toNat none })).mapCore (fun c =>
        { c with strm := vset c.strm f.h.toNat StreamEngine.empty,
                 shadow := { c.shadow with regs := { c.shadow.regs with
                   q := vset c.shadow.regs.q f.h.toNat (s.core.boundCode (vget c.shadow.regs.q f.h.toNat none) f.h.toNat) } } })
      u.sendCmd (s.px f.d) (.stru f.h.toNat) (some (token (vget s.core.strm f.h.toNat StreamEngine.empty).code t.rest))
    | none => s)

end Sys2Proof.Machine
end

