-- ==== Sys2Proof/Machine/Claim.lean ====
section
/-! DEFINITION. Claims: names (R201 to R203), resolution (R205 to R209), CLAIM, RESOLVE, QCLAIM, RETIRE (R210 to R216) and
the recall's end. -/

namespace Sys2Proof.Machine

/-! ### Names (R201) -/

def serialOf (nm : ClaimName) : Nat := nm.toNat / 2 ^ 88
def genOf (nm : ClaimName) : Nat := nm.toNat / 2 ^ 64 % 2 ^ 24

def mkName (serial gen count : Nat) : ClaimName :=
  BitVec.ofNat 128 (serial * 2 ^ 88 + gen % 2 ^ 24 * 2 ^ 64 + count % 2 ^ 64)

/-- A name of another device of the domain: its index (R207). -/
def Ident.indexOf (d : Ident) (nm : ClaimName) : Option Nat := (d.members.find? (fun m => m.2 == serialOf nm)).map (·.1)

/-- The current generation of a device of the map. -/
def Ident.genOf (d : Ident) (serial : Nat) : Nat := ((d.gens.find? (fun g => g.1 == serial)).map (·.2)).getD 0

/-- The names that resolve GONE with no lookup (R207). -/
def Dev.goneByName (d : Dev) (nm : ClaimName) : Bool :=
  nm == 0 ||
  (if serialOf nm = d.ident.serial then genOf nm != d.ident.gen
   else match d.ident.indexOf nm with
     | some i => genOf nm != d.ident.genOf (serialOf nm) || d.ident.lost.contains i
     | none => true)

/-- Whether a tenant may see an entry (R208). -/
def Claim.visible (c : Claim) (tenant : Nat) : Bool := c.owner == tenant || tenant == 0

def Dev.claim? (d : Dev) (nm : ClaimName) : Option Claim := d.claims.find? (fun c => c.name == nm)

/-- Whether an entry is of this device's own name; the others record what other devices' tables have answered. -/
def Dev.ownClaim (d : Dev) (c : Claim) : Bool := serialOf c.name == d.ident.serial

/-- The cache of the core among the caches of a holder set. -/
def ownCache : Nat := ownCore

/-! ### Handles (R206, R215) -/

def Handle.names (h : Handle) (nm : ClaimName) : Bool :=
  match h with
  | .valid n => n == nm
  | _ => false

def Regs.names (r : Regs) (nm : ClaimName) : Bool := r.ch.toList.any (fun h => h.names nm) || r.k.toList.any (fun h => h.names nm)

def Dest.names (d : Dest) (nm : ClaimName) : Bool :=
  match d with
  | .ch _ h => h.names nm
  | .k _ h => h.names nm
  | _ => false

/-- The core's cache holds a name: it lists it, or a handle register of the running strand names it, or is about to (R206). -/
def Core.holdsName (c : Core) (nm : ClaimName) : Bool :=
  c.cache.contains nm || c.regs.names nm || c.shadow.regs.names nm || c.iss.pend.any (fun w => w.dest.names nm) ||
    c.shadow.pend.any (fun w => w.dest.names nm)

/-- So does a saved context of a strand. -/
def State.handled (s : State) (nm : ClaimName) : Bool := s.core.holdsName nm || s.dev.strands.any (fun t => t.regs.names nm)

/-! ### Uses (R214) -/

/-- The name an engine command uses. -/
def Cmd.uses (c : Cmd) : Option ClaimName :=
  match c with
  | .rick r => some r.rick
  | .chcommit n _ => some n
  | .chwait n _ => some n
  | .chopen n => some n
  | .coll r _ _ => some r.name
  | _ => none

/-- Whether a command has resolved the name it uses at its issue, by a handle register: that one which still waits in the gate holds its use
from then on is the model's choice (DESIGN CHOICE, log 80). A COLL resolves its record's name after its release (R407). -/
def Cmd.resolved (c : Cmd) : Bool :=
  match c with
  | .coll _ _ _ => false
  | _ => true

/-- Uses of a name that this core's operations hold: commands, rounds and invocations of a kernel (R450), MMA reservations, pinned swaps, and, until a recall answers them,
strands that wait on a group or chute (R216). -/
def State.usesOf (s : State) (nm : ClaimName) : Nat :=
  s.cmds (fun c => c.uses == some nm && c.resolved) + (s.dev.rounds.filter (fun r => r.record.name == nm)).length +
  (s.dev.rounds.filter (fun r => r.kernel.any (fun k => k.name == nm))).length +
  (s.thr.toList.filter (fun v => v.kernel.name == nm)).length + (s.threshers.filter (fun v => v.kernel.name == nm)).length +
  (s.core.mx.mmas.filter (fun m => m.chutes.any (fun q => q.1 == nm))).length +
  (s.core.fars.filter (fun f => match f.atom with
    | some (.casn _ new live _ _) => live && new == nm
    | _ => false)).length +
  (if (s.dev.claim? nm).any (fun c => c.state == .live) then (s.dev.strands.filter (fun t => match t.waits with
    | some (.barg g _) => g == nm
    | some (.chute c _) => c == nm
    | _ => false)).length
  else 0)

/-! ### Resolution (R206 to R209) -/

def ClaimState.code (c : ClaimState) : Nat :=
  match c with
  | .live => 0
  | .retiring => 1
  | .gone => 2

/-- The later of two states of an entry: GONE is final, and RETIRING never goes back (R209). -/
def ClaimState.later (a b : ClaimState) : ClaimState := if a.code < b.code then b else a

/-- HOME of a name of the device `index` of the domain, from what its table may answer (R204): the device of the first byte for a range, else
the issuing device; a die, with its cluster and an engine for a chute or a rick; every other bit 0. -/
def homeElsewhere (index : Nat) (ty : ClaimType) (raw : Nat) : Nat :=
  match ty with
  | .tensor | .coll | .cword => raw % 2 ^ 12
  | .chute | .rick => homeField index (bitsAt raw 11 11) (bitsAt raw 11 7) (bitsAt raw 15 12)
  | _ => homeField index (bitsAt raw 6 6) 0 0

/-- The entry of another device's name, as its table answers now: what it has answered before holds, its state only moves on, and it is
not GONE while this core's cache holds it or an operation of this core uses it (R209, R214). -/
def State.remoteEntry (s : State) (nm : ClaimName) : Claim :=
  let q := Config.remoteClaim s.freeCtr nm
  let w := (match q with
    | some v => v.2.1
    | none => 0).toNat
  let drawn : ClaimState := if q.isNone then .gone else if bitsAt w 5 4 = 0 then .live else if bitsAt w 5 4 = 1 then .retiring else .gone
  let new : Claim := match s.dev.claim? nm, q with
    | some c, _ => { c with state := c.state.later drawn }
    | none, some q => { name := nm, ty := ClaimType.ofCode q.1, state := drawn, owner := bitsAt w 13 8,
                        home := homeElsewhere ((s.dev.ident.indexOf nm).getD 0) (ClaimType.ofCode q.1) q.2.2.1.toNat,
                        base := q.2.2.2.1, size := q.2.2.2.2.1, attr := q.2.2.2.2.2, uses := [], holders := [], token := none }
    | none, none => { name := nm, ty := .group, state := .gone, owner := 0, home := 0, base := 0, size := 0, attr := 0, uses := [],
                      holders := [], token := none }
  let kept := s.dev.claims.any (fun c => c.name == nm && c.state != .gone) && (s.handled nm || decide (0 < s.usesOf nm))
  { new with state := if new.state = .gone && kept then .retiring else new.state }

/-- The record of what another device's table has just answered. -/
def Dev.noteRemote (d : Dev) (c : Claim) : Dev :=
  { d with claims := d.claims.filter (fun o => o.name != c.name) ++ [c] }

/-- A name of another device has been looked up at its table. -/
def State.learn (s : State) (nm : ClaimName) : State :=
  if s.dev.goneByName nm || serialOf nm == s.dev.ident.serial || s.core.cache.contains nm then s
  else (s.mapDev (fun d => d.noteRemote (s.remoteEntry nm))).bump

/-- The entry that a resolution reaches: the device's own, or what the other device's table answers; a hit in the core's cache asks no
table. -/
def State.reached (s : State) (nm : ClaimName) : Option Claim :=
  if serialOf nm = s.dev.ident.serial || s.core.cache.contains nm then s.dev.claim? nm else some (s.remoteEntry nm)

/-- The entry as its table has it now, whatever a cache holds. -/
def State.atTable (s : State) (nm : ClaimName) : Option Claim :=
  if serialOf nm = s.dev.ident.serial then s.dev.claim? nm else some (s.remoteEntry nm)

/-- A pin that reaches the entry of a name finds it LIVE for a tenant (R217). -/
def State.pins (s : State) (tenant : Nat) (nm : ClaimName) : Bool :=
  !s.dev.goneByName nm && (s.atTable nm).any (fun c => c.visible tenant && c.state == .live)

/-- What a lookup at another device's table leaves on record. -/
def State.noteQueried (s : State) (nm : ClaimName) : State :=
  if s.dev.goneByName nm || serialOf nm == s.dev.ident.serial then s else s.mapDev (fun d => d.noteRemote (s.remoteEntry nm))

/-- A resolution by the core for a tenant (R206 to R208): the core's cache answers until it has acknowledged a recall. -/
def State.resolve (s : State) (tenant : Nat) (nm : ClaimName) : Option Claim :=
  if s.dev.goneByName nm then none
  else (s.reached nm).filter (fun c =>
    c.visible tenant && (c.state == .live || (c.state == .retiring && s.core.cache.contains nm)))

/-- A resolution fills the core's cache; the oldest of 64 names makes room, since replacement is not architectural (R206, log 44). -/
def State.fillCache (s : State) (nm : ClaimName) : State :=
  (s.learn nm).mapCore (fun c => { c with cache := (nm :: c.cache.filter (fun n => n != nm)).take 64 })

/-- What RESOLVE returns in bits 55:0 (R204). -/
def Claim.value (c : Claim) : X64 :=
  match c.ty with
  | .tensor | .strand | .coll | .cword => c.base &&& 0x00FFFFFFFFFFFFFF
  | _ => BitVec.ofNat 64 c.home

/-! ### CLAIM (R210) -/

def Ident.issues (d : Ident) : Bool := d.issuing && decide (d.count < 2 ^ 64)

/-- HOME of a first byte under an entry (R204). -/
def homeOfByte (e : Entry) (v : Nat) : Nat :=
  let pa := e.phys v
  match homeOf pa with
  | .local | .sram => homeField e.dev (dieOf pa) (coreOf pa / 8) 0
  | .sync => homeField e.dev (dieOf pa) 0 0
  | _ => homeField e.dev 0 0 0

/-- HOME of the claim that the op in issue asks for; a group's is the issuing core's die. -/
def State.claimHome (s : State) (f : EAClaim) : Nat :=
  match f.ty with
  | .group => homeField s.dev.ident.index 0 0 0
  | _ => match entryAt s.core.table (s.rdX f.a).toNat with
    | some e => homeOfByte e (s.rdX f.a).toNat
    | none => 0

/-- The die that keeps an entry (R205). -/
def Claim.entryDie (c : Claim) (index : Nat) : Nat := if c.home % 64 = index then c.home / 64 % 2 else 0

/-- The lowest address of a range that is not translated with R or W. -/
def rangeUsable (l : List Stretch) (perms : Bool) : Chk :=
  match lookupFault [] l with
  | some (c, a) => if c = 0x05 then .lookup c (BitVec.ofNat 64 a) else .trap c (BitVec.ofNat 64 a)
  | none =>
    match lowestOf (l.filter (fun q => perms && !(q.entry.map (fun e => e.r || e.w)).getD true)) with
    | some a => .trap 0x06 (BitVec.ofNat 64 a)
    | none => .ok

def chkClaim (f : EAClaim) (s : State) : Chk :=
  let a := (s.rdX f.a).toNat
  let n := (s.rdX f.b).toNat
  let ctl := s.needCtl f.a
  let at8 := fun (ok : Bool) => need ok 0x08 (s.rdX f.a)
  (match f.ty with
   | .tensor => ctl.and ((at8 (decide (1 ≤ n) && decide (n ≤ 2 ^ 56))).and (rangeUsable (s.stretch a n) true))
   | .group => at8 (a == 0 && n == 0)
   | .coll => ctl.and ((at8 (a % 64 == 0 && decide (64 ≤ n) && decide (n ≤ 4096) && n % 64 == 0)).and
       (rangeUsable (s.stretch a n) false))
   | .cword => ctl.and ((at8 (a % 8 == 0 && n == 8)).and (rangeUsable (s.stretch a 8) false))
   | _ => .ok).and s.needGate

/-- A gated command that also writes a name register. -/
def State.gateNamed (s : State) (tok nh : Nat) (cmd : Cmd) : State :=
  (s.gateCmd tok cmd).interlock (.n nh) s.newId true

/-- CLAIM: a type that CLAIM does not create completes with ABORT. -/
def execClaim (f : EAClaim) (s : State) : Out :=
  issueOp s (chkClaim f s) .go (fun s =>
    s.gateNamed (s.px f.d) f.h.toNat (.claim f.h.toNat f.ty (s.rdX f.a) (s.rdX f.b) (s.claimHome f)))

def claimable (t : ClaimType) : Bool :=
  match t with
  | .tensor | .group | .coll | .cword => true
  | _ => false

/-- Entries of one die's table at most (R205). -/
def claimTable : Nat := 65 * 2 ^ 20

/-- Whether the table of the entry die of a claim with this HOME is full (R205, R210). -/
def Dev.tableFull (d : Dev) (home : Nat) : Bool :=
  let die := if home % 64 = d.ident.index then home / 64 % 2 else 0
  decide (claimTable ≤ (d.claims.filter (fun c => d.ownClaim c && c.state != .gone && c.entryDie d.ident.index == die)).length)

/-- A group whose counters are 0 (R210). -/
def Group.fresh (nm : ClaimName) : Group :=
  { name := nm, members := 0, expected := 0, arrived := 0, arrnext := 0, phase := 0, waiters := [] }

/-- A claim is entered under the next name (R202, R203). -/
def State.enterClaim (s : State) (ty : ClaimType) (owner home : Nat) (base size attr : X64) : State × ClaimName :=
  let d := s.dev.ident
  let nm := mkName d.serial d.gen d.count
  (s.mapDev (fun v => { v with
    ident := { v.ident with count := v.ident.count + 1 },
    claims := v.claims ++ [{ name := nm, ty := ty, state := .live, owner := owner, home := home, base := base, size := size,
                             attr := attr, uses := [], holders := [], token := none }],
    groups := if ty = .group then v.groups ++ [Group.fresh nm] else v.groups }), nm)

/-- What the command of a CLAIM does: the new state, the name of N[H], and the token. -/
def State.performClaim (s : State) (owner : Nat) (ty : ClaimType) (base size : X64) (home : Nat) :
    State × Option ClaimName × X64 :=
  if !claimable ty || !s.dev.ident.issues then (s, none, token 11 0)
  else if s.dev.tableFull home then (s, none, token 9 0)
  else
    let q := s.enterClaim ty owner home base size 0
    (q.1, some q.2, token 0 0)

/-! ### RESOLVE and QCLAIM (R211, R212) -/

def chkResolve (f : EAClaim) (s : State) : Chk :=
  match s.resolve s.core.tenant (s.rdN f.h.toNat) with
  | some c => need (c.ty = f.ty) 0x0F 0
  | none => .ok

/-- RESOLVE. -/
def execResolve (f : EAClaim) (s : State) : Out :=
  issueOp s (chkResolve f s) .go (fun s =>
    let nm := s.rdN f.h.toNat
    match s.resolve s.core.tenant nm with
    | some c => ((s.fillCache nm).sendCmd (s.px f.d) (.resolve nm f.ty) (some (c.value &&& 0x00FFFFFFFFFFFFFF))).bump
    | none => ((s.learn nm).sendCmd (s.px f.d) (.resolve nm f.ty) (some (token 1 0))).bump)

def chkQclaim (f : EA) (s : State) : Chk :=
  let a := s.rdX f.a
  (s.needCtl f.a).and (need (a.toNat % 64 == 0 && decide (a.toNat + 64 ≤ lsSize)) 0x08 a)

/-- QCLAIM: the engine writes the record, then the token. -/
def execQclaim (f : EA) (s : State) : Out :=
  issueOp s (chkQclaim f s) .go (fun s =>
    s.sendCmd (s.px f.d) (.qclaim (s.rdN f.h.toNat) (s.rdX f.a).toNat) none)

/-- ATTR: a type's chapter gives it, or it is open (log 35); a kernel's counts its traps (R445). -/
def State.attrOf (s : State) (c : Claim) : X64 :=
  if !s.dev.ownClaim c then c.attr else
  match c.ty with
  | .rick | .bins | .lease => c.attr
  | .kernel => c.attr + BitVec.ofNat 64 (2 ^ 32 * ((s.dev.kernels.find? (fun k => k.name == c.name)).map (·.traps)).getD 0)
  | _ => Config.claimAttr c.name

/-- USES and HOLDERS of an entry (R212): those of the table, and of this core. Another device's table has answered its own. -/
def State.countsOf (s : State) (c : Claim) : Nat × Nat :=
  let own := if c.state = .live && s.core.holdsName c.name then 1 else 0
  let w := if s.dev.ownClaim c then 0 else (match Config.remoteClaim s.freeCtr c.name with
    | some v => v.2.1
    | none => 0).toNat
  (c.uses.length + s.usesOf c.name + bitsAt w 63 32, c.holders.length + own + bitsAt w 31 16)

/-- The eight words of a claim's record; BASE is 0 for a type without one. -/
def Claim.record (c : Claim) (counts : Nat × Nat) (attr : X64) : List Nat :=
  let based := match c.ty with
    | .tensor | .strand | .coll | .cword => true
    | _ => false
  [c.name.toNat % 2 ^ 64, c.name.toNat / 2 ^ 64,
   min counts.1 (2 ^ 32 - 1) * 2 ^ 32 + min counts.2 65535 * 2 ^ 16 + c.owner * 2 ^ 8 + c.state.code * 16 +
     c.ty.code,
   c.home, if based then c.base.toNat else 0, c.size.toNat, attr.toNat, 0]

/-- The entry that QCLAIM reports: LIVE or RETIRING, and visible. -/
def State.queried (s : State) (tenant : Nat) (nm : ClaimName) : Option Claim :=
  if s.dev.goneByName nm then none
  else (s.atTable nm).filter (fun c => c.visible tenant && c.state != .gone)

/-- Little-endian words at an offset of the own local store. -/
def wordCells (off : Nat) (ws : List Nat) : List Host.Cell :=
  cellsAt (ownLs off) ((ws.map (bytesOfNat 8)).flatten)

/-- What the command of a QCLAIM does. -/
def State.performQclaim (s : State) (tenant : Nat) (nm : ClaimName) (dst : Nat) : State × X64 :=
  match s.queried tenant nm with
  | some c => (((s.noteQueried nm).engineStore (wordCells dst (c.record (s.countsOf c) (s.attrOf c))) []).bump, token 0 0)
  | none => (((s.noteQueried nm).engineStore (wordCells dst [nm.toNat % 2 ^ 64, nm.toNat / 2 ^ 64, 0, 0, 0, 0, 0, 0]) []).bump, token 1 0)

/-! ### RETIRE and recall (R213 to R216) -/

/-- RETIRE: the recall begins once the command is released. -/
def execRetire (f : EA) (s : State) : Out :=
  issueOp s s.needGate .go (fun s => s.gateCmd (s.px f.d) (.retire (s.rdN f.h.toNat)))

def Dev.setClaim (d : Dev) (nm : ClaimName) (f : Claim → Claim) : Dev :=
  { d with claims := d.claims.map (fun c => if c.name == nm then f c else c) }

/-- A handle register loses a valid handle to the recall (R215). -/
def Handle.kill (h : Handle) (nm : ClaimName) : Handle :=
  match h with
  | .valid n => if n == nm then .dead n else h
  | h => h

def Regs.killHandles (r : Regs) (nm : ClaimName) : Regs :=
  { r with ch := r.ch.map (fun h => h.kill nm), k := r.k.map (fun h => h.kill nm) }

def PWrite.killHandle (w : PWrite) (nm : ClaimName) : PWrite :=
  { w with dest := match w.dest with
    | .ch i h => .ch i (h.kill nm)
    | .k i h => .k i (h.kill nm)
    | d => d }

/-- Steps 1 and 2 of a recall, for an entry that is LIVE: RETIRING, the operation to which the recall owes its token noted, this core's
cache among the holders where it holds the name, and a shoot-down to every other cache of the holder set (R214). -/
def State.startRecall (s : State) (nm : ClaimName) (id : Option Nat) : State :=
  let own := if s.handled nm then [ownCache] else []
  let others := ((s.dev.claim? nm).map (·.holders)).getD []
  s.mapDev (fun d => { (d.setClaim nm (fun c => { c with state := .retiring, token := id, holders := own ++ c.holders })) with
    links := { d.links with shotOut := d.links.shotOut ++ others.map (fun h => (nm, h)) } })

/-- Step 3 at this core: its cache drops the entry, and the handles that name it die in the running strand, at its restart
point, in results in flight and in saved contexts. -/
def State.dropCached (s : State) (nm : ClaimName) : State :=
  (s.mapCore (fun c => { c with
    cache := c.cache.filter (fun n => n != nm), regs := c.regs.killHandles nm,
    iss := { c.iss with pend := c.iss.pend.map (fun w => w.killHandle nm) },
    shadow := { c.shadow with regs := c.shadow.regs.killHandles nm, pend := c.shadow.pend.map (fun w => w.killHandle nm) } })).mapDev (fun d =>
      { d with strands := d.strands.map (fun t => { t with regs := t.regs.killHandles nm }) })

/-- A recall may end: every acknowledgement is in and no use is held (R214). -/
def State.recallDone (s : State) (c : Claim) : Bool :=
  c.state == .retiring && c.holders.isEmpty && c.uses.isEmpty && s.usesOf c.name == 0

/-- The token of a RETIRE whose recall has ended. -/
def State.endToken (s : State) (id : Nat) (v : X64) : State :=
  let tok := ((s.core.engs.find? (fun e => e.id == id)).map (·.tok)).getD 0
  (s.deliverTok tok id v false).mapCore (fun k => { k with engs := k.engs.filter (fun e => e.id != id) })

/-- Step 6: GONE; the object's resources are freed, and the RETIRE's token is written. -/
def State.endRecall (s : State) (c : Claim) : State :=
  let nm := c.name
  let t := s.mapDev (fun d => { (d.setClaim nm (fun c => { c with state := .gone, token := none })) with
    groups := d.groups.filter (fun g => g.name != nm), chutes := d.chutes.filter (fun g => g.name != nm),
    ricks := d.ricks.filter (fun g => g.name != nm), kernels := d.kernels.filter (fun g => g.name != nm) })
  match c.token with
  | none => t
  | some id => t.endToken id (token 0 0)

end Sys2Proof.Machine
end

