-- ==== Sys2Proof/Machine/RickCoder.lean ====
section
/-! DEFINITION. The rick coder: symbol models (R319, R320), lanes and their schedule (R317, R318), tiles and headers (R321,
R322), the runs' push and pop, and the byte model (R340). -/

namespace Sys2Proof.Machine

/-! ### Models (R320) -/

/-- A symbol's model: uniform, the tile's table, or the exponent delta table. -/
inductive SymKind where
  | raw (b : Nat)
  | tab
  | delta
  deriving DecidableEq, Repr

/-- Built-in table `t`. -/
def builtin (t s : Nat) : Nat := if t = 0 then 16 else if s / 8 % 16 = t then 121 else 9

def deltaFreq (s : Nat) : Nat := if s = 0 then 2060 else if s = 1 ∨ s = 255 then 512 else 4

/-- The 256 frequencies of a built-in table. -/
def builtinTable (t : Nat) : List Nat := (List.range 256).map (builtin t)

/-- The tables a rick has, by index: 16 built-in ones and the loaded ones. -/
def tableAt (loaded : List (List Nat)) (t : Nat) : List Nat := if t < 16 then builtinTable t else loaded.getD (t - 16) []

/-- The frequencies of a kind; `tab` is the tile's table. -/
def freqs (tab : List Nat) (k : SymKind) : List Nat :=
  match k with
  | .raw b => List.replicate (2 ^ b) (2 ^ (12 - b))
  | .tab => tab
  | .delta => (List.range 256).map deltaFreq

/-- f(s) and c(s). -/
def freqOf (tab : List Nat) (k : SymKind) (s : Nat) : Nat × Nat :=
  match k with
  | .raw b => (2 ^ (12 - b), s * 2 ^ (12 - b))
  | _ => ((freqs tab k).getD s 0, ((freqs tab k).take s).sum)

/-- The symbol whose interval holds a slot. -/
def findSym : List Nat → Nat → Nat → Nat → Nat
  | [], s, _, _ => s
  | f :: fs, s, c, slot => if slot < c + f then s else findSym fs (s + 1) (c + f) slot

def symAt (tab : List Nat) (k : SymKind) (slot : Nat) : Nat :=
  match k with
  | .raw b => slot / 2 ^ (12 - b)
  | _ => findSym (freqs tab k) 0 0 slot

/-! ### Lanes (R317) -/

/-- Lane states and the stream, its last word first. -/
structure Coder where
  lanes : List Nat
  words : List (BitVec 32)
  deriving DecidableEq, Repr

def Coder.fresh : Coder := { lanes := List.replicate 32 (2 ^ 31), words := [] }

/-- `push_symbol`. -/
def Coder.push (c : Coder) (l f cum : Nat) : Coder :=
  let x := c.lanes.getD l 0
  let q := if f * 2 ^ 51 ≤ x then (x / 2 ^ 32, BitVec.ofNat 32 x :: c.words) else (x, c.words)
  { lanes := c.lanes.set l (q.1 / f * 4096 + q.1 % f + cum), words := q.2 }

/-- `pop_symbol`. -/
def Coder.pop (c : Coder) (l : Nat) (tab : List Nat) (k : SymKind) : Coder × Nat :=
  let x := c.lanes.getD l 0
  let slot := x % 4096
  let s := symAt tab k slot
  let q := freqOf tab k s
  let y := q.1 * (x / 4096) + slot - q.2
  if y < 2 ^ 31 then
    ({ lanes := c.lanes.set l (y * 2 ^ 32 + (c.words.headD 0).toNat), words := c.words.tail }, s)
  else ({ c with lanes := c.lanes.set l y }, s)

/-! ### Units (R319) -/

/-- Blocks of an SX tile of `len` bytes. -/
def tileBlocks (t : Fmt) (g : Geo) (len : Nat) : Nat := if g = .planar then len / 1152 * 64 else len / blockBytes t

/-- The kinds of the symbols of each unit of a tile. -/
def unitKinds (t : Fmt) (g : Geo) (len : Nat) : List (List SymKind) :=
  match t with
  | .fp32 | .int32 => List.replicate (len / 4) [.raw 12, .raw 12, .tab]
  | .fp16 | .bf16 | .int16 => List.replicate (len / 2) [.raw 8, .tab]
  | .int8 | .raw => List.replicate len [.tab]
  | .bfp64 => List.replicate (len / 4) [.raw 12, .raw 4, .tab, .raw 8]
  | _ => List.replicate (16 * tileBlocks t g len) [.tab] ++ List.replicate (tileBlocks t g len) [.raw 8, .delta]

/-- The blocks of an SX tile. -/
def blocksOf (t : Fmt) (g : Geo) (bs : List Byte) : List SxBlock :=
  (List.range (tileBlocks t g bs.length)).map (fun b =>
    if g = .planar then
      let at' := fun (o : Nat) => (bs.getD (1152 * (b / 64) + o) 0).toNat
      sxOfPlanar (sxMag t) ((List.range 16).map (fun i => at' (16 * (b % 64) + i))) (at' (1024 + 2 * (b % 64)))
        (at' (1025 + 2 * (b % 64)))
    else sxUnpack (sxMag t) (natOfBytes ((bs.drop (b * blockBytes t)).take (blockBytes t))))

/-- The symbols of each unit of a tile, in push order. -/
def unitSyms (t : Fmt) (g : Geo) (bs : List Byte) : List (List Nat) :=
  let words := fun (n : Nat) => (groupsOf n bs.length bs).map natOfBytes
  match t with
  | .fp32 | .int32 => (words 4).map (fun v => [v % 4096, v / 4096 % 4096, v / 2 ^ 24])
  | .fp16 | .bf16 | .int16 => (words 2).map (fun v => [v % 256, v / 256])
  | .int8 | .raw => bs.map (fun b => [b.toNat])
  | .bfp64 => (words 4).map (fun v => [v % 4096, v / 4096 % 16, v / 2 ^ 16 % 256, v / 2 ^ 24])
  | _ =>
    let blocks := blocksOf t g bs
    let elems := (blocks.map (fun b => (List.range 16).map (fun i =>
      [(if b.signs.getD i false then 2 ^ sxMag t else 0) + b.mags.getD i 0]))).flatten
    let es := blocks.map (·.e)
    elems ++ (blocks.zip (127 :: es)).map (fun q => [q.1.mu, (q.1.e + 256 - q.2) % 256])

/-- The exponents that their deltas give. -/
def sumDeltas : Nat → List Nat → List Nat
  | _, [] => []
  | e, d :: ds => (e + d) % 256 :: sumDeltas ((e + d) % 256) ds

/-- The bytes of blocks in a geometry (R59, R60). -/
def blockBytesOf (t : Fmt) (g : Geo) (bs : List SxBlock) : List Byte :=
  if g = .planar then
    ((groupsOf 64 bs.length bs).map (fun grp =>
      (grp.map (fun b => (List.range 16).map (fun i => BitVec.ofNat 8 (sxPlanarByte b i)))).flatten ++
      (grp.map (fun b => [BitVec.ofNat 8 b.e, BitVec.ofNat 8 b.mu])).flatten)).flatten
  else (bs.map (fun b => bytesOfNat (blockBytes t) (sxPack (sxMag t) b))).flatten

/-- The bytes of a tile from the symbols of its units. -/
def tileOfSyms (t : Fmt) (g : Geo) (len : Nat) (us : List (List Nat)) : List Byte :=
  let at' := fun (u : List Nat) (i : Nat) => u.getD i 0
  match t with
  | .fp32 | .int32 => (us.map (fun u => bytesOfNat 4 (at' u 0 + 4096 * at' u 1 + 2 ^ 24 * at' u 2))).flatten
  | .fp16 | .bf16 | .int16 => (us.map (fun u => bytesOfNat 2 (at' u 0 + 256 * at' u 1))).flatten
  | .int8 | .raw => us.map (fun u => BitVec.ofNat 8 (at' u 0))
  | .bfp64 =>
    (us.map (fun u => bytesOfNat 4 (at' u 0 + 4096 * at' u 1 + 2 ^ 16 * at' u 2 + 2 ^ 24 * at' u 3))).flatten
  | _ =>
    let nb := tileBlocks t g len
    let elems := groupsOf 16 nb (us.take (16 * nb))
    let tails := us.drop (16 * nb)
    let es := sumDeltas 127 (tails.map (fun u => at' u 1))
    blockBytesOf t g (((elems.zip tails).zip es).map (fun q =>
      { e := q.2, mu := at' q.1.2 0, signs := q.1.1.map (fun u => at' u 0 / 2 ^ sxMag t == 1),
        mags := q.1.1.map (fun u => at' u 0 % 2 ^ sxMag t) }))

/-! ### The schedule (R318) -/

/-- A symbol's place: its lane, unit and index within the unit. -/
abbrev SymPlace := Nat × Nat × Nat

/-- The list of lane `l`: the places of its units' symbols, by the number of symbols of each unit. -/
def laneList (sizes : List Nat) (l : Nat) : List SymPlace :=
  ((sizes.zipIdx.filter (fun q => q.2 % 32 == l)).map (fun q => (List.range q.1).map (fun i => (l, q.2, i)))).flatten

/-- The order in which a tile's symbols are pushed. -/
def schedule (sizes : List Nat) : List SymPlace :=
  let lists := (List.range 32).map (laneList sizes)
  let steps := (lists.map List.length).foldl max 0
  ((List.range steps).map (fun k => lists.filterMap (fun l => l[k]?))).flatten

/-! ### Tiles (R321, R322) -/

/-- A tile's format, geometry and bytes; `skip` for a tile of `.skip`, whose bytes are not stored. -/
structure Tile where
  t : Fmt
  g : Geo
  len : Nat
  bytes : List Byte
  deriving DecidableEq, Repr

/-- ⌊log2 f⌋. -/
def costOf (f : Nat) : Nat := 12 - Nat.log2 f

/-- The table symbols of a tile. -/
def tableSyms (x : Tile) : List Nat :=
  (((unitKinds x.t x.g x.len).zip (unitSyms x.t x.g x.bytes)).map (fun u =>
    ((u.1.zip u.2).filter (fun q => q.1 == .tab)).map (·.2))).flatten

/-- The cost of a table, if it is eligible. -/
def tableCost (tab : List Nat) (syms : List Nat) : Option Nat :=
  if syms.all (fun s => tab.getD s 0 != 0) then some ((syms.map (fun s => costOf (tab.getD s 0))).sum) else none

/-- The eligible table with the lowest cost, the lowest index on a tie (R321). -/
def chooseTable (loaded : List (List Nat)) (syms : List Nat) : Nat :=
  ((List.range (16 + loaded.length)).foldl (fun (best : Nat × Option Nat) t =>
    match tableCost (tableAt loaded t) syms, best.2 with
    | some c, some b => if c < b then (t, some c) else best
    | some c, none => (t, some c)
    | none, _ => best) (0, none)).1

/-- A symbol of a uniform model pushed on lane 0. -/
def Coder.pushRaw (c : Coder) (b v : Nat) : Coder := c.push 0 (2 ^ (12 - b)) (v * 2 ^ (12 - b))

/-- The header of R322; `tab` is the table's index of a coded tile. -/
def Coder.pushHeader (c : Coder) (x : Tile) (tab : Option Nat) (flag : Nat) : Coder :=
  let c := match tab with
    | some t => c.pushRaw 5 t
    | none => c
  (((c.pushRaw 8 (x.len / 256 - 1)).pushRaw 5 x.t.code).pushRaw 1 x.g.code).pushRaw 2 flag

/-- The symbols of a tile pushed under a table. -/
def Coder.pushSyms (c : Coder) (tab : List Nat) (x : Tile) : Coder :=
  let kinds := unitKinds x.t x.g x.len
  let syms := unitSyms x.t x.g x.bytes
  (schedule (kinds.map List.length)).foldl (fun c p =>
    let k := (kinds.getD p.2.1 []).getD p.2.2 .tab
    let q := freqOf tab k ((syms.getD p.2.1 []).getD p.2.2 0)
    c.push p.1 q.1 q.2) c

/-- The words of raw bytes, ascending. -/
def rawWords (bs : List Byte) : List (BitVec 32) := (groupsOf 4 bs.length bs).map (fun q => BitVec.ofNat 32 (natOfBytes q))

/-- A tile coded, or raw where coding would emit more than L/4 + 4 words, header included (R322, log 21). -/
def Coder.pushTile (c : Coder) (loaded : List (List Nat)) (x : Tile) : Coder :=
  let t := chooseTable loaded (tableSyms x)
  let d := (c.pushSyms (tableAt loaded t) x).pushHeader x (some t) 0
  if d.words.length - c.words.length ≤ x.len / 4 + 4 then d
  else Coder.pushHeader { c with words := (rawWords x.bytes).reverse ++ c.words } x none 1

/-- A tile of `.skip`: its header alone. -/
def Coder.pushSkip (c : Coder) (x : Tile) : Coder := c.pushHeader x none 2

def Coder.popRaw (c : Coder) (b : Nat) : Coder × Nat := c.pop 0 [] (.raw b)

/-- A header read back: FLAG, GEO, FMT, LEN and, of a coded tile, TABLE. -/
structure TileHeader where
  flag : Nat
  g : Geo
  t : Fmt
  len : Nat
  tab : Nat
  deriving DecidableEq, Repr

def Coder.popHeader (c : Coder) : Coder × TileHeader :=
  let a := c.popRaw 2
  let b := a.1.popRaw 1
  let d := b.1.popRaw 5
  let e := d.1.popRaw 8
  let f := if a.2 = 0 then e.1.popRaw 5 else (e.1, 0)
  (f.1, { flag := a.2, g := Geo.ofCode b.2, t := Fmt.ofCode d.2, len := (e.2 + 1) * 256, tab := f.2 })

/-- The symbols of a coded tile popped in reverse, each with its place. -/
def Coder.popSyms (tab : List Nat) (kinds : List (List SymKind)) : List SymPlace → Coder → Coder × List (Nat × Nat × Nat)
  | [], c => (c, [])
  | p :: ps, c =>
    let q := c.pop p.1 tab ((kinds.getD p.2.1 []).getD p.2.2 .tab)
    let r := Coder.popSyms tab kinds ps q.1
    (r.1, (p.2.1, p.2.2, q.2) :: r.2)

/-- The bytes of a tile whose header has been popped. -/
def Coder.popBody (c : Coder) (loaded : List (List Nat)) (h : TileHeader) : Coder × List Byte :=
  if h.flag = 1 then
    ({ c with words := c.words.drop (h.len / 4) },
     ((c.words.take (h.len / 4)).reverse.map (fun w => bytesOfNat 4 w.toNat)).flatten)
  else
    let kinds := unitKinds h.t h.g h.len
    let r := Coder.popSyms (tableAt loaded h.tab) kinds (schedule (kinds.map List.length)).reverse c
    let us := kinds.zipIdx.map (fun k => (List.range k.1.length).map (fun i =>
      ((r.2.find? (fun q => q.1 == k.2 && q.2.1 == i)).map (fun q => q.2.2)).getD 0))
    (r.1, tileOfSyms h.t h.g h.len us)

/-! ### The byte model (R340) -/

/-- A block coded by the byte model from fresh lanes: the words in emission order, the final lanes, and whether it is raw. -/
def byteModel (bs : List Byte) : List (BitVec 32) × List Nat × Bool :=
  let x : Tile := { t := .raw, g := .packed, len := bs.length, bytes := bs }
  let t := chooseTable [] (tableSyms x)
  let d := ((Coder.fresh.pushSyms (builtinTable t) x).pushRaw 5 t).pushRaw 2 0
  if d.words.length ≤ bs.length / 4 + 2 then (d.words.reverse, d.lanes, false)
  else
    let r := Coder.pushRaw { Coder.fresh with words := (rawWords bs).reverse } 2 1
    (r.words.reverse, r.lanes, true)

end Sys2Proof.Machine
end

