-- ==== Sys2Proof/Machine/Rick.lean ====
section
/-! DEFINITION. The rick store: its commands PUSHT, POPT, MARKR, SPLITR, JOINR and RICKQ (R323 to R332), what the home
engine does with each (R324), damage and recovery (R327), and the injection of R333. -/

namespace Sys2Proof.Machine

/-! ### Ricks as data (R314 to R316) -/

def Run.coder (r : Run) : Coder := { lanes := r.lanes, words := r.words }

def Run.withCoder (r : Run) (c : Coder) : Run := { r with lanes := c.lanes, words := c.words }

def Run.fresh (id : Nat) : Run :=
  { id := id, lanes := Coder.fresh.lanes, words := [], depth := 0, closed := false, damaged := [] }

def Segment.runs (s : Segment) : List Run := s.layers.map (·.run)

/-- Bytes a run counts for (R314). -/
def Run.used (r : Run) : Nat := 4 * r.words.length + (if r.closed && r.depth != 0 then 256 else 0)

/-- USED. -/
def Rick.used (k : Rick) : Nat := ((k.segs.map (fun s => (s.runs.map Run.used).sum))).sum

/-- A segment's current run. -/
def Segment.top (s : Segment) : Run := ((s.layers.head?).map (·.run)).getD (Run.fresh 0)

def Segment.setTop (s : Segment) (f : Run → Run) : Segment :=
  match s.layers with
  | l :: ls => { s with layers := { l with run := f l.run } :: ls }
  | [] => s

def Rick.seg? (k : Rick) (n : Nat) : Option Segment := k.segs[n]?

def Rick.setSeg (k : Rick) (n : Nat) (f : Segment → Segment) : Rick :=
  { k with segs := k.segs.zipIdx.map (fun q => if q.2 == n then f q.1 else q.1) }

/-- OPEN with no LOST tile owed: PUSHT, MARKR and SPLITR are allowed (R316). -/
def Rick.opens (k : Rick) (n : Nat) : Bool :=
  match k.seg? n with
  | some s => s.state == .open && s.owed == 0
  | none => false

/-- A new rick (R312): segment 0, OPEN and empty. -/
def Rick.fresh (nm : ClaimName) (capacity top : Nat) (tables : List (List Nat)) : Rick :=
  { name := nm, capacity := capacity, top := top, tables := tables,
    segs := [{ state := .open, parent := 0, owed := 0, layers := [{ run := Run.fresh 0, children := [] }] }],
    marks := [], nextRun := 1, pushed := 0, popped := 0, lost := 0, corrected := 0 }

/-! ### PUSHT at the engine (R325) -/

/-- A tile pushed on a segment: FULL changes nothing. The second component is the status and count. -/
def Rick.push (k : Rick) (n : Nat) (skip : Bool) (x : Tile) : Rick × Nat × Nat :=
  match k.seg? n with
  | none => (k, 11, 0)
  | some s =>
    if !k.opens n then (k, 11, 0)
    else
      let c := s.top.coder
      let d := if skip then c.pushSkip x else c.pushTile k.tables x
      let stored := 4 * (d.words.length - c.words.length)
      if k.capacity < k.used + stored then (k, 9, 0)
      else
        ({ (k.setSeg n (fun s => s.setTop (fun r => { r.withCoder d with depth := r.depth + 1 }))) with
           pushed := k.pushed + 1 }, 0, stored)

/-! ### POPT at the engine (R326, R327) -/

/-- What a pop gives. -/
inductive PopRes where
  | abort
  | empty
  | fault
  | lost (owed : Nat)
  | recomp (len : Nat)
  | tile (t : Fmt) (g : Geo) (bytes : List Byte)
  deriving DecidableEq, Repr

/-- Whether a segment or a descendant has a tile to give; `fuel` bounds the depth. -/
def Rick.gives (k : Rick) : Nat → Nat → Bool
  | 0, _ => false
  | fuel + 1, n =>
    match k.seg? n with
    | none => false
    | some s => s.owed != 0 || s.layers.any (fun l => l.run.depth != 0 || l.children.any (fun c => k.gives fuel c))

def Rick.countPop (k : Rick) (lost : Bool) : Rick :=
  { k with popped := k.popped + 1, lost := if lost && decide (k.lost < 2 ^ 32 - 1) then k.lost + 1 else k.lost }

/-- Marks that a pop leaves: those of the run above its new depth go (R328). -/
def dropMarks (ms : List Mark) (run depth : Nat) : List Mark := ms.filter (fun m => !(m.run == run && decide (depth < m.depth)))

/-! What the memory under a rick does to a pop, read from a free number `e` (R327): bit 0, a word that the pop reads is
uncorrectable or on a page that cannot be read; bit 1, the final states that it loads are; bit 2 + i, both copies of mark i are;
above bit 257, the corrected errors. -/

def badWord (e : Nat) : Bool := e.testBit 0
def badStates (e : Nat) : Bool := e.testBit 1
def badMark (e i : Nat) : Bool := e.testBit (2 + i)
def correctedErrors (e : Nat) : Nat := e / 2 ^ 258

/-- The run after its top tile is found damaged: back to the nearest usable mark at or below the tile, or to the run's start
(R327); with it, the tiles then owed. -/
def recoverRun (e : Nat) (ms : List Mark) (r : Run) : Run × Nat :=
  let j := r.depth - 1
  let best := ((ms.zipIdx.filter (fun q => !badMark e q.2 && q.1.run == r.id && decide (q.1.depth ≤ j))).map (·.1)).foldl (fun (b : Option Mark) m =>
    match b with
    | some o => if o.depth ≤ m.depth then some m else b
    | none => some m) none
  let lanes := (best.map (·.lanes)).getD Coder.fresh.lanes
  let pos := (best.map (·.pos)).getD 0
  let d := (best.map (·.depth)).getD 0
  ({ r with lanes := lanes, words := r.words.drop (r.words.length - pos), depth := d, closed := false,
            damaged := r.damaged.filter (fun t => decide (t < d)) }, j - d)

/-- Whether a pop reads a word of its run's stream. -/
def Rick.readsWord (k : Rick) (r : Run) : Bool :=
  let h := r.coder.popHeader
  let c := if h.2.flag = 2 then h.1 else (h.1.popBody k.tables h.2).1
  decide (c.words.length < r.words.length)

/-- Whether the pop of a run's top tile meets damage (R327); `loads` says that it loads the run's final states. -/
def Rick.meetsDamage (k : Rick) (e : Nat) (loads : Bool) (r : Run) : Bool :=
  r.damaged.contains (r.depth - 1) || (badWord e && k.readsWord r) || (badStates e && (loads || r.closed))

/-- The top tile of a segment whose run holds one. -/
def Rick.popTile (k : Rick) (e : Nat) (loads : Bool) (n : Nat) (r : Run) (dst : Nat) : Rick × PopRes :=
  let set := fun (r' : Run) => k.setSeg n (fun s => s.setTop (fun _ => r'))
  if k.meetsDamage e loads r then
    let q := recoverRun e k.marks r
    let k' := (set q.1).setSeg n (fun s => { s with owed := q.2 })
    (({ k' with marks := dropMarks k.marks r.id q.1.depth }).countPop true, .lost q.2)
  else
    let h := r.coder.popHeader
    let done := fun (c : Coder) => { set { (r.withCoder c) with depth := r.depth - 1, closed := false } with
      marks := dropMarks k.marks r.id (r.depth - 1) }
    if h.2.flag = 2 then ((done h.1).countPop false, .recomp h.2.len)
    else if lsSize < dst + h.2.len then (k, .fault)
    else
      let b := h.1.popBody k.tables h.2
      ((done b.1).countPop false, .tile h.2.t h.2.g b.2)

/-- POPT's procedure (R326); `fuel` bounds the children entered and the split nodes removed; `loads` says that a node was removed
just before, so that the run's final states are loaded. -/
def Rick.popSeg (e dst : Nat) : Nat → Rick → Nat → Bool → Rick × PopRes
  | 0, k, _, _ => (k, .abort)
  | fuel + 1, k, n, loads =>
    match k.seg? n with
    | none => (k, .abort)
    | some s =>
      if s.state = .split then (k, .abort)
      else if s.owed ≠ 0 then
        ((k.setSeg n (fun s => { s with owed := s.owed - 1 })).countPop true, .lost (s.owed - 1))
      else
        match s.layers with
        | [] => (k, .empty)
        | l :: below =>
          if l.run.depth ≠ 0 then k.popTile e loads n l.run dst
          else if l.children.isEmpty then (k, .empty)
          else match l.children.reverse.find? (fun c => k.gives 257 c) with
            | some c => Rick.popSeg e dst fuel k c false
            | none =>
              let below' := match below with
                | b :: bs => { b with run := { b.run with closed := false } } :: bs
                | [] => []
              Rick.popSeg e dst fuel (k.setSeg n (fun s => { s with layers := below' })) n true

/-- A pop: split nodes that it finds empty are gone even where it ends with EMPTY or FAULT (R326, log 22). -/
def Rick.pop (k : Rick) (e n dst : Nat) : Rick × PopRes := Rick.popSeg e dst 1024 k n false

/-! ### MARKR, SPLITR, JOINR (R328 to R330) -/

def Rick.mark (k : Rick) (n : Nat) : Rick × Nat × Nat :=
  match k.seg? n with
  | some s =>
    if !k.opens n then (k, 11, 0)
    else if 256 ≤ k.marks.length then (k, 9, 0)
    else
      let r := s.top
      ({ k with marks := k.marks ++ [{ seg := n, run := r.id, depth := r.depth, pos := r.words.length, lanes := r.lanes }] },
       0, r.depth)
  | none => (k, 11, 0)

/-- A run is closed: its final states count when it holds a tile. -/
def closeRun (r : Run) : Run := { r with closed := true }

def closeCost (r : Run) : Nat := if !r.closed && r.depth != 0 then 256 else 0

def Rick.split (k : Rick) (n count : Nat) : Rick × Nat × Nat :=
  match k.seg? n with
  | some s =>
    if !k.opens n then (k, 11, 0)
    else if 256 < k.segs.length + count || k.capacity < k.used + closeCost s.top then (k, 9, 0)
    else
      let first := k.segs.length
      let kids := List.range count
      let k1 := k.setSeg n (fun s =>
        let t := s.setTop closeRun
        { t with state := .split, layers := { run := Run.fresh k.nextRun, children := kids.map (fun i => first + i) } :: t.layers })
      ({ k1 with
         segs := k1.segs ++ kids.map (fun i => { state := .open, parent := n, owed := 0,
                                                  layers := [{ run := Run.fresh (k.nextRun + 1 + i), children := [] }] }),
         nextRun := k.nextRun + 1 + count }, 0, first)
  | none => (k, 11, 0)

def Rick.join (k : Rick) (n count : Nat) : Rick × Nat × Nat :=
  match k.seg? n with
  | some s =>
    let kids := ((s.layers.head?).map (·.children)).getD []
    let segs := kids.filterMap k.seg?
    if s.state != .split || kids.length != count || segs.any (fun c => c.state == .split) then (k, 11, 0)
    else if k.capacity < k.used + (segs.map (fun c => closeCost c.top)).sum then (k, 9, 0)
    else
      let k1 := kids.foldl (fun (k : Rick) c => k.setSeg c (fun s => { (s.setTop closeRun) with state := .sealed })) k
      (k1.setSeg n (fun s => { s with state := .open }), 0, 0)
  | none => (k, 11, 0)

/-- The injection of R333. -/
def Rick.inject (k : Rick) (n tile : Nat) : Rick :=
  k.setSeg n (fun s => s.setTop (fun r => if tile < r.depth then { r with damaged := setAdd r.damaged tile } else r))

/-! ### The report (R332) -/

def SegState.code (s : SegState) : Nat :=
  match s with
  | .open => 1
  | .split => 2
  | .sealed => 3

/-- Items of a segment's own stack: tiles and split nodes. -/
def Segment.depth (s : Segment) : Nat := (s.layers.map (fun l => l.run.depth + (if l.children.isEmpty then 0 else 1))).sum

/-- A segment's word of the report (R332). MARKS has 8 bits, and 256 marks read as 0 there (DESIGN CHOICE, log 91). -/
def Rick.segWord (k : Rick) (n : Nat) (s : Segment) : Nat :=
  s.state.code * 2 ^ 60 + s.parent * 2 ^ 52 + (k.marks.filter (fun m => m.seg == n)).length % 256 * 2 ^ 44 +
    min s.owed 255 * 2 ^ 36 + min s.depth 65535 * 2 ^ 20 +
    min (((s.runs.map Run.used).sum + 1023) / 1024) (2 ^ 20 - 1)

/-- The words of a rick's report. -/
def Rick.report (k : Rick) : List Nat :=
  [k.name.toNat % 2 ^ 64, k.name.toNat / 2 ^ 64, k.capacity, k.used, k.marks.length * 2 ^ 17 + k.segs.length, k.pushed,
   k.popped, k.lost * 2 ^ 32 + min k.corrected (2 ^ 32 - 1)] ++ k.segs.zipIdx.map (fun q => k.segWord q.2 q.1)

/-! ### What the home engine does (R324) -/

def State.rick? (s : State) (nm : ClaimName) : Option Rick := s.dev.ricks.find? (fun k => k.name == nm)

def State.setRick (s : State) (k : Rick) : State :=
  s.mapDev (fun d => { d with ricks := d.ricks.map (fun o => if o.name == k.name then k else o) })

/-- The bytes of the source elements of a PUSHT's tile of `len` bytes (R325). -/
def pushSource (t fs : Fmt) (gs : Geo) (len : Nat) : Nat :=
  if isRaw t fs then len
  else
    let n := if t.isSx then len / blockBytes t * 16 else len / elemBytes t
    if fs.isSx then n / 16 * (if gs = .planar then 18 else blockBytes fs)
    else if fs = .bfp64 then n / 64 * 256
    else n * elemBytes fs

/-- Whether the elements of a tile fill whole source blocks. -/
def pushWhole (t fs : Fmt) (gs : Geo) (len : Nat) : Bool :=
  let n := if t.isSx then len / blockBytes t * 16 else len / elemBytes t
  if isRaw t fs then !fs.isSx || len % (if gs = .planar then 1152 else blockBytes fs) == 0
  else (!t.isSx || len % blockBytes t == 0) &&
    (if fs.isSx then n % 16 == 0 else if fs = .bfp64 then n % 64 == 0 else true)

/-- The tile that a PUSHT reads: its bytes, whether a source byte is poisoned, and OVFS. -/
def State.pushedTile (s : State) (len : Nat) (t : Fmt) (src : Nat) (fs : Fmt) (gs : Geo) (scaled : Bool) (n : Snap) :
    Tile × Bool × Bool :=
  let raw := isRaw t fs
  let total := pushSource t fs gs len
  let u := unitsOf (if raw then fs else t) fs gs total
  let per := sourceElems fs gs (sourceUnit t fs gs)
  let outs := (u.zipIdx.map (fun q =>
    convertUnit (if raw then fs else t) fs gs scaled n (q.2 * per)
      (q.1.map (fun o => ((s.mem.byte (ownLs (src + o))).toNat, s.mem.poisoned (ownLs (src + o))))))).flatten
  ({ t := if raw then fs else t, g := if raw then gs else .packed, len := len,
     bytes := ((outs.map (·.bytes)).flatten).map (fun b => BitVec.ofNat 8 b) },
   u.any (fun q => q.any (fun o => s.mem.poisoned (ownLs (src + o)))), orAll (outs.map (·.ovf)))

/-- The tags that a popped tile leaves (R326). -/
def tagRange (m : Memory) (dst len : Nat) (t : Fmt) (g : Geo) : Memory :=
  m.setTags (regionOf (ownLs dst)) (regionOf (ownLs (dst + len - 1)) + 1 - regionOf (ownLs dst)) t g

/-- A rick command or injection applied whole: the new state and the token (R324). `k` is the strand that sent it. -/
def State.performRick (s : State) (k : Nat) (c : RickCmd) : State × X64 :=
  match s.rick? c.rick with
  | none => (s, token 1 0)
  | some r =>
    let answer := fun (q : Rick × Nat × Nat) => (s.setRick q.1, token q.2.1 q.2.2)
    match c.op with
    | .push skip len t src fs gs scaled n =>
      if !r.opens c.seg then (s, token 11 0)
      else if skip then answer (r.push c.seg true { t := t, g := .packed, len := len, bytes := [] })
      else
        let x := s.pushedTile len t src fs gs scaled n
        let s' := if x.2.2 then s.sysOf k SysRegs.setOvfs else s
        if x.2.1 then (s', token 3 0)
        else
          let q := r.push c.seg false x.1
          (s'.setRick q.1, token q.2.1 q.2.2)
    | .pushTile len t bytes poisoned ovfs _ =>
      let s' := if ovfs then s.sysOf k SysRegs.setOvfs else s
      if !r.opens c.seg then (s', token 11 0)
      else if poisoned then (s', token 3 0)
      else
        let q := r.push c.seg false { t := t, g := .packed, len := len, bytes := bytes }
        (s'.setRick q.1, token q.2.1 q.2.2)
    | .pop dst =>
      let e := Config.streamErrors s.freeCtr
      let q := r.pop e c.seg dst
      let t := ((s.setRick { q.1 with corrected := min (q.1.corrected + correctedErrors e) (2 ^ 32 - 1) }).mapDev (fun d =>
        d.countErrs 0 (correctedErrors e))).bump
      match q.2 with
      | .abort => (s.setRick q.1, token 11 0)
      | .empty => (s.setRick q.1, token 10 0)
      | .fault => (s.setRick q.1, token 2 0)
      | .lost n => (t, token 4 n)
      | .recomp n => (t, token 5 n)
      | .tile f g bs =>
        ((t.engineStore (cellsAt (ownLs dst) bs) []).mapMem (fun m => tagRange m dst bs.length f g), token 0 bs.length)
    | .mark => answer (r.mark c.seg)
    | .split n => answer (r.split c.seg n)
    | .join n => answer (r.join c.seg n)
    | .query dst =>
      let ws := r.report
      (s.engineStore (wordCells dst ws) [], token 0 (8 * ws.length))
    | .inject tile => (s.setRick (r.inject c.seg tile), token 0 0)

/-- Words of the report that a command writes. -/
def State.reportWords (s : State) (c : RickCmd) : Nat :=
  match c.op, s.rick? c.rick with
  | .query _, some r => r.report.length
  | _, _ => 0

/-! ### The ops (R323 to R331) -/

def Cmd.isRick (c : Cmd) : Bool :=
  match c with
  | .rick _ => true
  | _ => false

/-- The checks of a rick command in the order of R98 (R324): the handle, its poisoned bases, the segment, its own ones, and
then the gate and eight outstanding. -/
def State.chkRick (s : State) (h : BitVec 4) (a : Reg) (bases : List Reg) (own : Chk) : Chk :=
  (needHandle (s.rdK h.toNat)).and
  ((bases.foldl (fun (k : Chk) r => k.and (s.needCtl r)) Chk.ok).and
  ((need (decide ((s.rdX a).toNat < 256)) 0x08 (s.rdX a)).and (own.and (s.needGate.and (s.needRoom Cmd.isRick 8)))))

/-- A local-store address of a rick command. -/
def State.chkRickPlace (s : State) (r : Reg) : Chk :=
  need (decide ((s.rdX r).toNat < lsSize) && (s.rdX r).toNat % 256 == 0) 0x08 (s.rdX r)

/-- A command to the rick that K[h] names; a dead handle completes with GONE (R215). -/
def State.gateRick (s : State) (d : Reg) (h : BitVec 4) (seg : X64) (op : RickOp) : State :=
  match s.rdK h.toNat with
  | .valid nm => s.gateCmd (s.px d) (.rick { rick := nm, seg := seg.toNat, op := op })
  | _ => s.gateCmd (s.px d) (.rick { rick := 0, seg := seg.toNat, op := op })

def EAPush.bytes (f : EAPush) : Nat := f.len.toNat * 256

/-- The format and geometry of PUSHT's source, as the strand sees it. -/
def pushTag (f : EAPush) (s : State) : Fmt × Geo := s.view.tag (regionOf (ownLs (s.rdX f.b).toNat))

/-- The source checks of PUSHT (R325). -/
def chkPushSource (f : EAPush) (s : State) : Chk :=
  let b := (s.rdX f.b).toNat
  let q := pushTag f s
  let n := sourceSpan (if isRaw f.t q.1 then q.1 else f.t) q.1 q.2 (pushSource f.t q.1 q.2 (EAPush.bytes f))
  let regions := (List.range ((b + n - 1) / 4096 + 1 - b / 4096)).map (fun i => regionOf (ownLs b) + i)
  (s.chkRickPlace f.b).and
  ((need (decide (b + n ≤ lsSize)) 0x06 (BitVec.ofNat 64 lsSize)).and
  ((need (regions.all (fun r => s.view.tag r == q)) 0x08 (s.rdX f.b)).and
  ((need (copyPair f.t q.1) 0x08 (s.rdX f.b)).and
  ((need (pushWhole f.t q.1 q.2 (EAPush.bytes f)) 0x08 (s.rdX f.b)).and
   (need (f.scl = .none || !isRaw f.t q.1) 0x03 (BitVec.ofNat 64 (s.slotVal + 2 ^ 8 * 13)))))))

/-- The checks of a SKIP push (R325): the tile is of format T, PACKED, and nothing is converted; B is ignored, so TRAPVAL of
cause 0x08 holds no address. -/
def chkPushSkip (f : EAPush) (s : State) : Chk :=
  (need (pushWhole f.t f.t .packed (EAPush.bytes f)) 0x08 0).and
    (need (f.scl = .none) 0x03 (BitVec.ofNat 64 (s.slotVal + 2 ^ 8 * 13)))

def chkPusht (f : EAPush) (s : State) : Chk :=
  s.chkRick f.h f.a (if f.skip then [] else [f.b]) (if f.skip then chkPushSkip f s else chkPushSource f s)

/-- PUSHT. -/
def execPusht (f : EAPush) (s : State) : Out :=
  issueOp s (chkPusht f s) (s.readyRoom Cmd.isRick 8) (fun s =>
    let q := pushTag f s
    let n := s.snap .dyn
    (s.gateRick f.d f.h (s.rdX f.a) (.push f.skip (EAPush.bytes f) f.t (s.rdX f.b).toNat q.1 q.2 (f.scl ≠ .none)
      { n with k := f.scl.exp n.k })).takeSeq)

def chkPopt (f : EA) (s : State) : Chk := s.chkRick f.h f.a [f.b] (s.chkRickPlace f.b)

/-- POPT. -/
def execPopt (f : EA) (s : State) : Out :=
  issueOp s (chkPopt f s) (s.readyRoom Cmd.isRick 8) (fun s =>
    s.gateRick f.d f.h (s.rdX f.a) (.pop (s.rdX f.b).toNat))

def chkMarkr (f : EA) (s : State) : Chk := s.chkRick f.h f.a [] .ok

/-- MARKR. -/
def execMarkr (f : EA) (s : State) : Out :=
  issueOp s (chkMarkr f s) (s.readyRoom Cmd.isRick 8) (fun s => s.gateRick f.d f.h (s.rdX f.a) .mark)

def chkSplitr (f : EA) (s : State) : Chk :=
  s.chkRick f.h f.a []
    (need (decide (2 ≤ (s.rdX f.b).toNat) && decide ((s.rdX f.b).toNat ≤ 8)) 0x08 (s.rdX f.b))

/-- SPLITR. -/
def execSplitr (f : EA) (s : State) : Out :=
  issueOp s (chkSplitr f s) (s.readyRoom Cmd.isRick 8) (fun s =>
    s.gateRick f.d f.h (s.rdX f.a) (.split (s.rdX f.b).toNat))

def chkJoinr (f : EA) (s : State) : Chk := s.chkRick f.h f.a [] .ok

/-- JOINR. -/
def execJoinr (f : EA) (s : State) : Out :=
  issueOp s (chkJoinr f s) (s.readyRoom Cmd.isRick 8) (fun s =>
    s.gateRick f.d f.h (s.rdX f.a) (.join (s.rdX f.b).toNat))

/-- The checks of RICKQ (R324, R331): its address, the whole report's range, and the type of a live name. -/
def chkRickq (f : EA) (s : State) : Chk :=
  ((s.needCtl f.a).and (s.chkRickPlace f.a)).and
  ((need (decide ((s.rdX f.a).toNat + 2112 ≤ lsSize)) 0x06 (BitVec.ofNat 64 lsSize)).and
  ((match s.resolve s.core.tenant (s.rdN f.b.toNat) with
    | some c => need (c.ty = ClaimType.rick) 0x0F 0
    | none => .ok).and (s.needRoom Cmd.isRick 8)))

/-- RICKQ: the handle is placed, and the report is the engine's. It waits in no gate (R345). -/
def execRickq (f : EA) (s : State) : Out :=
  issueOp s (chkRickq f s) (s.readyRoom Cmd.isRick 8) (fun s =>
    let nm := s.rdN f.b.toNat
    match s.resolve s.core.tenant nm with
    | some _ => (((s.fillCache nm).writeAfter 1 (.k f.h.toNat (.valid nm))).sendCmd (s.px f.d)
        (.rick { rick := nm, seg := 0, op := .query (s.rdX f.a).toNat }) none).bump
    | none => (((s.learn nm).writeAfter 1 (.k f.h.toNat .invalid)).sendCmd (s.px f.d) (.resolve nm .rick) (some (token 1 0))).bump)

end Sys2Proof.Machine
end

