-- ==== Sys2Proof/Machine/Atomics.lean ====
section
/-! DEFINITION. The sync engine: AMO, RED, POPQ, CASN (R217, R297 to R303), and how an atomic is performed at its home. -/

namespace Sys2Proof.Machine

/-! ### Operations (R298, R299, R302) -/

/-- A bitwise or ordered operation that AMO and RED share, on values below 2^w. -/
inductive MemOp where
  | add | and | or | xor | min | max | minu | maxu
  deriving DecidableEq, Repr

def MemOp.apply (o : MemOp) (w old b : Nat) : Nat :=
  match o with
  | .add => (old + b) % 2 ^ w
  | .and => old &&& b
  | .or => old ||| b
  | .xor => old ^^^ b
  | .min => if signedOf w b < signedOf w old then b else old
  | .max => if signedOf w old < signedOf w b then b else old
  | .minu => if b < old then b else old
  | .maxu => if old < b then b else old

/-- `incw` (R299). -/
def incw (old b : Nat) : Nat := if b ≤ old then 0 else old + 1

/-- `addb` (R299): the new value and the status. -/
def addb (old v bound : Nat) : Nat × Nat :=
  if bound < old then (old, 13) else if bound - old < v then (bound, 12) else (old + v, 0)

/-- AMO: the new value and the status (R298). -/
def amoApply (o : AmoOp) (w old b c : Nat) : Nat × Nat :=
  match o with
  | .add => (MemOp.apply .add w old b, 0)
  | .and => (MemOp.apply .and w old b, 0)
  | .or => (MemOp.apply .or w old b, 0)
  | .xor => (MemOp.apply .xor w old b, 0)
  | .min => (MemOp.apply .min w old b, 0)
  | .max => (MemOp.apply .max w old b, 0)
  | .minu => (MemOp.apply .minu w old b, 0)
  | .maxu => (MemOp.apply .maxu w old b, 0)
  | .swap => (b, 0)
  | .cas => (if old = b then c else old, 0)
  | .incw => (incw old b, 0)
  | .addb => addb old b c

/-- RED: the new value (R302). -/
def redApply (o : RedOp) (w old b : Nat) : Nat :=
  match o with
  | .add => MemOp.apply .add w old b
  | .fadd32 => (roundFloat .fp32 .rne false 0 (addNum .rne (decodeFloat .fp32 old) (decodeFloat .fp32 b))).bits
  | .min => MemOp.apply .min w old b
  | .max => MemOp.apply .max w old b
  | .minu => MemOp.apply .minu w old b
  | .maxu => MemOp.apply .maxu w old b
  | .and => MemOp.apply .and w old b
  | .or => MemOp.apply .or w old b
  | .xor => MemOp.apply .xor w old b
  | .bfpadd => old

/-! ### AMO (R297, R300) -/

/-- The address checks of an atomic: alignment, the table, and no home in host memory (R396). -/
def State.chkAtomAddr (s : State) (a : Reg) (align len : Nat) (perms : List Perm) : Chk :=
  let v := (s.rdX a).toNat
  (s.needCtl a).and ((need (v % align == 0) 0x08 (s.rdX a)).and ((rangeChk perms (s.stretch v len)).and
    (need ((s.partsOf (s.stretch v len)).all (fun p => homeOf (physOf p.addr) != .host)) 0x08 (s.rdX a))))

def chkAmo (f : EAAmo) (s : State) : Chk :=
  (s.chkAtomAddr f.a (widthBytes f.w) (widthBytes f.w) [.load, .store]).and s.needGate

/-- AMO waits while the atomic return queue is full. -/
def readyAmo (s : State) : Ready := if s.core.regs.arq.length < 16 then .go else .wait (some .other)

/-- AMO: an entry of the return queue is reserved, and the atomic waits in the gate. -/
def execAmo (f : EAAmo) (s : State) : Out :=
  issueOp s (chkAmo f s) (readyAmo s) (fun s =>
    let m : Nat := widthBytes f.w
    let id := s.newId
    let t := s.gateFar false (s.partsOf (s.stretch (s.rdX f.a).toNat m)) { cells := [], poisoned := [], ovfs := false }
      (some (.amo f.op (BitVec.ofNat 64 (lowBits (8 * m) (s.rdX f.b))) (BitVec.ofNat 64 (lowBits (8 * m) (s.rdX f.c)))
        (s.poisonX f.b || s.poisonX f.c))) (s.px f.d) m
    (t.interlockTok (s.px f.d) id true).mapRegs (fun r => { r with arq := r.arq ++ [{ id := id, value := none }] }))

/-! ### RED (R302, R303) -/

/-- RED.BFPADD needs a BFP64 or RAW page. -/
def State.chkBfpPage (s : State) (v : Nat) : Chk :=
  let q := (s.farFormat s.view v).1.1
  need (q == Fmt.bfp64 || q == Fmt.raw) 0x08 (BitVec.ofNat 64 v)

def redLen (f : EARed) : Nat := if f.op = .bfpadd then 256 else widthBytes f.w

def chkRed (f : EARed) (s : State) : Chk :=
  (if f.op = .bfpadd then s.needAlloc [(34, s.hasV f.b)] else .ok).and
  ((s.chkAtomAddr f.a (redLen f) (redLen f) [.store]).and
  ((if f.op = .bfpadd then s.chkBfpPage (s.rdX f.a).toNat else .ok).and s.needGate))

/-- RED. -/
def execRed (f : EARed) (s : State) : Out :=
  issueOp s (chkRed f s) s.readyStore (fun s =>
    let n := redLen f
    let op : AtomOp := if f.op = .bfpadd then .bfp (s.rdV f.b) (s.poisonV f.b != 0)
      else .red f.op (BitVec.ofNat 64 (lowBits (8 * n) (s.rdX f.b))) (s.poisonX f.b)
    s.gateFar false (s.partsOf (s.stretch (s.rdX f.a).toNat n)) { cells := [], poisoned := [], ovfs := false } (some op) 0 n)

/-! ### POPQ (R301) -/

/-- The atomic of the oldest entry still waits in the interval's gate (R347). -/
def State.ownEntry (s : State) (id : Nat) : Bool :=
  s.core.gate.any (fun g => match g.op with
    | .far f => f.id == id
    | _ => false)

def chkPopq (_ : EA) (s : State) : Chk :=
  match s.core.regs.arq with
  | [] => .trap 0x0E 0
  | e :: _ => s.needOwn (e.value.isNone && s.ownEntry e.id)

def readyPopq (_ : EA) (s : State) : Ready :=
  match s.core.regs.arq with
  | e :: _ => if e.value.isSome then .go else .wait (some .other)
  | [] => .go

/-- POPQ. -/
def execPopq (f : EA) (s : State) : Out :=
  issueOp s (chkPopq f s) (readyPopq f s) (fun s =>
    match s.core.regs.arq with
    | e :: es =>
      let v := e.value.getD (0, false)
      (s.mapRegs (fun r => { r with arq := es })).writeAfter 1 (.x (s.px f.d) v.1 v.2)
    | [] => s)

/-! ### CASN (R217) -/

def chkCasn (f : EACasn) (s : State) : Chk := (s.chkAtomAddr f.a 16 16 [.load, .store]).and s.needGate

/-- CASN. -/
def execCasn (f : EACasn) (s : State) : Out :=
  issueOp s (chkCasn f s) .go (fun s =>
    let id := s.newId
    let t := s.gateFar false (s.partsOf (s.stretch (s.rdX f.a).toNat 16)) { cells := [], poisoned := [], ovfs := false }
      (some (.casn (s.rdN f.b.toNat) (s.rdN f.h.toNat) f.live f.b.toNat (s.rdN f.b.toNat))) (s.px f.d) 16
    (t.interlockTok (s.px f.d) id true).interlock (.n f.b.toNat) id true)

/-! ### Performed at the home (R254, R300, R303) -/

/-- The return-queue entry of an atomic is filled, for the strand that issued it, at its restart point too (R300, R349). -/
def fillArq (id : Nat) (v : X64 × Bool) (r : Regs) : Regs :=
  { r with arq := r.arq.map (fun e => if e.id == id then { e with value := some v } else e) }

def State.fillQueue (s : State) (k id : Nat) (v : X64 × Bool) : State :=
  if s.core.running = some k then
    s.mapCore (fun c => { c with regs := fillArq id v c.regs, shadow := { c.shadow with regs := fillArq id v c.shadow.regs } })
  else s.mapDev (fun d => { d with strands := d.strands.zipIdx.map (fun p =>
    if p.2 == k then { p.1 with regs := fillArq id v p.1.regs } else p.1) })

/-- `n` bytes of a value at a home; a poisoned operand leaves the location's poison free (log 23). -/
def State.putWord (s : State) (a n v : Nat) (po : Bool) : State :=
  let mark := po && (Config.freeByte s.freeCtr a).getLsbD 0
  (s.engineStore (cellsAt a (bytesOfNat n v)) (if mark then span a n else [])).bump

/-- Whether a byte of a location carries poison. -/
def State.poisonedAt (s : State) (a n : Nat) : Bool := (span a n).any s.mem.poisoned

/-- The block of 64 words after a contribution of 64 FP32 lanes (R63). -/
def State.bfpAddAt (s : State) (a : Nat) (lanes : VBits) (po : Bool) : State :=
  let b := bfpOfWords ((List.range 64).map (fun i => s.mem.num (a + 4 * i) 4))
  let r := bfpAdd b ((lanesOf 32 64 lanes.toNat).map (decodeFloat .fp32)) po
  s.engineStore (cellsAt a ((bfpWords r).map (bytesOfNat 4)).flatten) []

/-- A far atomic is performed (R254): its effect at the home, its token, its queue entry, its name register. CASN reads a
poisoned name as 0, as a load would (R360, log 24). -/
def State.performAtom (s : State) (f : FarOp) (op : AtomOp) : State :=
  let p := f.parts.headD { addr := 0, len := 0, kind := .so, lost := true }
  let a := s.route p.addr
  let gone := s.lostNow p
  let bad := s.poisonedAt a f.bytes
  let old := s.mem.num a f.bytes
  match op with
  | .amo o b c po =>
    let r := amoApply o (8 * f.bytes) old b.toNat c.toNat
    let ok := !gone && !bad
    let t := if ok then s.putWord a f.bytes r.1 po else s
    let v : X64 × Bool := if gone then (0, false) else if bad then (0, true) else (BitVec.ofNat 64 old, false)
    (t.fillQueue f.strand f.id v).deliverTok f.tok f.id (token (if gone then 1 else if bad then 3 else r.2) 0) false
  | .red o b po =>
    if gone || bad then s.mapDev (fun d => d.countErr 3) else s.putWord a f.bytes (redApply o (8 * f.bytes) old b.toNat) po
  | .bfp lanes po =>
    if gone || bad then s.mapDev (fun d => d.countErr 3) else s.bfpAddAt a lanes po
  | .casn exp new live nb bVal =>
    let done := fun (t : State) (status : Nat) (v : ClaimName) =>
      (t.deliver f.id (.n nb) (.name nb v)).deliverTok f.tok f.id (token status 0) false
    if gone then done s 1 bVal
    else
      let t := if live then (s.noteQueried new).bump else s
      let was : ClaimName := if bad then 0 else BitVec.ofNat 128 old
      if live && !s.pins (s.tenantOf f.strand) new then done t 1 was
      else if was = exp then done (t.putWord a 16 new.toNat false) 0 was
      else done t 11 was

end Sys2Proof.Machine
end

