-- ==== Sys2Proof/Machine/Chutes.lean ====
section
/-! DEFINITION. Chutes: CHOPEN and CHCOMMIT (R144 to R146, R197 to R199), and what a released commit does. -/

namespace Sys2Proof.Machine

/-! ### CHOPEN (R145) -/

/-- The chute of a claim. -/
def State.chuteNamed (s : State) (nm : ClaimName) : Option (Claim × Option Chute) :=
  (s.resolve s.core.tenant nm).map (fun c => (c, s.chute? nm))

/-- Whether a CHOPEN of the chute waits for space. -/
def Chute.full (c : Chute) : Bool := !c.final && !c.room

/-- CHOPEN's checks: the type, the core's membership, and a wait on the interval's own commit (R347). -/
def chkChopen (f : EA) (s : State) : Chk :=
  match s.chuteNamed (s.rdN f.a.toNat) with
  | none => .ok
  | some (c, k) =>
    (need (c.ty = ClaimType.chute) 0x0F 0).and
    (match k with
     | some k => (need k.ownMember.isSome 0x0F 0).and (s.needOwn (k.full && s.gatedCommit k.name))
     | none => .ok)

def readyChopen (f : EA) (s : State) : Ready :=
  match s.chuteNamed (s.rdN f.a.toNat) with
  | some (_, some k) => if k.full then .wait (some (.chute k.name 0)) else .go
  | _ => .go

/-- CHOPEN: the handle, and the tail slot's address, GONE or BROKEN. -/
def execChopen (f : EA) (s : State) : Out :=
  issueOp s (chkChopen f s) (readyChopen f s) (fun s =>
    let nm := s.rdN f.a.toNat
    let d := s.px f.d
    match s.chuteNamed nm with
    | some (_, some k) =>
      let v := if k.final then token 6 0 else BitVec.ofNat 64 (k.slotOff k.tail)
      (((s.fillCache nm).writeAfter 1 (.ch f.h.toNat (.valid nm))).sendCmd d (.chopen nm) (some v)).bump
    | _ => (((s.learn nm).writeAfter 1 (.ch f.h.toNat .invalid)).sendCmd d (.chopen nm) (some (token 1 0))).bump)

/-! ### CHCOMMIT (R146, R198) -/

/-- The must-be-0 fields and ranges of the value that CHCOMMIT reads. -/
def commitOk (v : X64) : Bool :=
  if v.getLsbD 52 then v == BitVec.ofNat 64 (2 ^ 52)
  else bitsAt v.toNat 63 52 == 0 && bitsAt v.toNat 31 21 == 0 && decide (bitsAt v.toNat 39 32 ≤ 128) &&
    decide (bitsAt v.toNat 51 40 ≤ 1024)

def chkChcommit (f : EA) (s : State) : Chk :=
  (s.needChute f.h.toNat).and ((need (commitOk (s.rdX f.d)) 0x08 (s.rdX f.d)).and s.needGate)

/-- CHCOMMIT: its command waits in the gate; a dead handle completes with GONE. -/
def execChcommit (f : EA) (s : State) : Out :=
  issueOp s (chkChcommit f s) .go (fun s =>
    match s.rdCh f.h.toNat with
    | .valid nm => s.gateCmd (s.px f.d) (.chcommit nm (s.rdX f.d))
    | _ => s.gateCmd (s.px f.d) (.chcommit 0 (s.rdX f.d)))

/-- The end of a commit's wait (R146): its number, kept by the command, is taken by every member and there is space. -/
def Chute.commitDone (c : Chute) (number : Nat) : Bool := decide (number < c.taken) && c.room

/-- What a released commit does when it reaches the chute (R198, R199): its token at once, or its number to wait with. -/
def State.startCommit (s : State) (k : Nat) (nm : ClaimName) (v : X64) : State × Sum X64 Nat :=
  match s.chute? nm with
  | none => (s, .inl (token 1 0))
  | some c =>
    if c.final then (s, .inl (token 6 0))
    else if c.producer.isSome && c.producer != some k then (s, .inl (token 11 0))
    else if v.getLsbD 52 then (s.setChute { c with closed := true, producer := none }, .inl (token 0 0))
    else
      (s.setChute { (c.commit (bitsAt v.toNat 39 32) (bitsAt v.toNat 51 40)) with producer := some k }, .inr c.commits)

/-- The members, by chute, that have not taken a commit (R198). -/
def Dev.owedCopies (d : Dev) : List (ClaimName × Nat) :=
  (d.chutes.map (fun c => (c.members.filter (fun m => decide (m.landed < c.commits))).map (fun m => (c.name, m.core)))).flatten

/-- A copy of a committed slot lands in a member core (R198): the slot's bytes and poison, and the member counts it. -/
def State.landCopy (s : State) (nm : ClaimName) (core : Nat) : State :=
  match s.chute? nm with
  | none => s
  | some c =>
    match c.members.find? (fun m => m.core == core) with
    | none => s
    | some m =>
      let off := c.slotOff m.landed
      let src := ownLs off
      let dst := lsBase + core * lsSize + off
      let bytes := (List.range c.slotBytes).map (fun i => (dst + i, s.mem.byte (src + i)))
      let pois := ((List.range c.slotBytes).filter (fun i => s.mem.poisoned (src + i))).map (fun i => dst + i)
      (s.mapMem (fun mm => mm.store bytes pois)).setChute { c with
        members := c.members.map (fun x => if x.core == core then { x with landed := x.landed + 1 } else x) }

/-- A producer ends without closing its chutes: they break (R199); how many did. -/
def State.breakChutes (s : State) (k : Nat) : State × Nat :=
  let mine := s.dev.chutes.filter (fun c => c.producer == some k && !c.closed)
  (s.mapDev (fun d => { d with chutes := d.chutes.map (fun c =>
     if c.producer == some k && !c.closed then { c with broken := true, producer := none } else c) }), mine.length)

end Sys2Proof.Machine
end

