-- ==== Sys2Proof/Machine/Ctl.lean ====
section
/-! DEFINITION. The C slot's plain ops: CTL, the system registers (R19 to R21, R355 to R357, R474), LSSTEP (R71), FENCE
(R256, R257), TRAP, RETT, SVC (R356), BKPT (R374) and TSTPSN (R361). -/

namespace Sys2Proof.Machine

/-- CTL: its fields act at dispatch (R26). -/
def execCtl (f : CG) (s : State) : Out := issueOp s .ok .go (fun s => s)

/-! ### Reading system registers -/

/-- THRTST (R162). -/
def State.thrtst (s : State) : X64 :=
  let p := s.dev.power
  let bit := fun (n l : Nat) => if l = 0 then 0 else 2 ^ n
  BitVec.ofNat 64 (s.dev.level + bit 8 p.power + bit 9 (p.brkLevel p.pblvl) + bit 10 p.thermal + bit 11 (max p.current.1 p.current.2) +
    bit 12 s.dev.ownerLevel + 2 ^ 16 * s.duty)

/-- The registers of R474, by number. -/
def State.sysReg (s : State) (srn : Nat) : Option X64 :=
  let y := s.core.regs.sys
  match srn with
  | 0x000 => some s.rrb
  | 0x001 => some y.rmode
  | 0x002 => some y.srseed
  | 0x003 => some y.lscale
  | 0x004 => some y.lsmin
  | 0x005 => some y.lsmax
  | 0x006 => some y.lsgrow
  | 0x007 => some y.lsstat
  | 0x008 => some y.lssat
  | 0x009 => some y.chkctl
  | 0x00A => some s.thrtst
  | 0x00B => some (BitVec.ofNat 64 s.dev.set.rampt)
  | 0x00C => some (BitVec.ofNat 64 s.core.meter.energy)
  | 0x00D => some (BitVec.ofNat 64 s.core.meter.cycle)
  | 0x00E => some (BitVec.ofNat 64 (s.core.number % 2 ^ 24))
  | 0x00F => some (BitVec.ofNat 64 (s.core.tenant % 64))
  | 0x010 => some y.trapv
  | 0x011 => some y.trapc
  | 0x012 => some y.trappc
  | 0x013 => some y.trapval
  | 0x014 => some y.poison
  | 0x015 => some (BitVec.ofNat 64 s.dev.set.qpwdog)
  | 0x016 => some y.collto
  | 0x017 => some y.errinj
  | 0x018 => some y.chst
  | n =>
    if 0x020 ≤ n ∧ n < 0x028 then some (vget y.lswz (n - 0x020) 0)
    else if 0x030 ≤ n ∧ n < 0x034 then some (vget y.bka (n - 0x030) 0)
    else if 0x034 ≤ n ∧ n < 0x038 then some (vget y.bkm (n - 0x034) 0)
    else if 0x038 ≤ n ∧ n < 0x03C then some (vget y.bkc (n - 0x038) 0)
    else none

/-- Whether a strand may write a register (R474). -/
def sysWritable (n : Nat) : Bool :=
  decide (n ≤ 0x006) || n == 0x009 || n == 0x010 || n == 0x016 || n == 0x017 || n == 0x018 ||
    (decide (0x020 ≤ n) && decide (n < 0x028)) || (decide (0x030 ≤ n) && decide (n < 0x03C))

/-- RDSR's check: a register number that names no register (R99 reports the field SRN). -/
def chkRdsr (f : CGSr) (s : State) : Chk := need (s.sysReg f.srn.toNat).isSome 0x03 (BitVec.ofNat 64 (s.slotVal + 16 * 2 ^ 8))

/-- RDSR (R355). -/
def execRdsr (f : CGSr) (s : State) : Out :=
  issueOp s (chkRdsr f s) .go (fun s => s.putX f.d 1 ((s.sysReg f.srn.toNat).getD 0) false)

/-- RDENG (R355). -/
def execRdeng (f : CG) (s : State) : Out :=
  issueOp s .ok .go (fun s => s.putX f.d 1 (BitVec.ofNat 64 s.core.meter.energy) false)

/-- RDCYC (R355). -/
def execRdcyc (f : CG) (s : State) : Out :=
  issueOp s .ok .go (fun s => s.putX f.d 1 (BitVec.ofNat 64 s.core.meter.cycle) false)

/-! ### Writing system registers -/

/-- The bits of a register that a write sets; the others are reserved and read as 0 (R6). -/
def sysMask (n : Nat) : X64 :=
  match n with
  | 0x000 => 0x71F0F
  | 0x001 => 0x7
  | 0x003 | 0x004 | 0x005 => 0xFF
  | 0x006 => 0xFFFF
  | 0x009 => 0xFFFF00000003
  | 0x010 => 0x00FFFFFFFFFFFFF9
  | 0x016 => 0xFFFFFFFF
  | 0x017 => 0x0000FFFFFF03000F
  | n =>
    if 0x020 ≤ n ∧ n < 0x028 then 0x1F
    else if 0x030 ≤ n ∧ n < 0x034 then 0x00FFFFFFFFFFFFF9
    else if 0x034 ≤ n ∧ n < 0x038 then 0xFF
    else BitVec.allOnes 64

/-- The writable registers of a strand's block, RRB apart, with a value. -/
def SysRegs.write (y : SysRegs) (n : Nat) (v : X64) : SysRegs :=
  match n with
  | 0x001 => { y with rmode := v }
  | 0x002 => { y with srseed := v }
  | 0x003 => { y with lscale := v }
  | 0x004 => { y with lsmin := v }
  | 0x005 => { y with lsmax := v }
  | 0x006 => { y with lsgrow := v }
  | 0x009 => { y with chkctl := v }
  | 0x010 => { y with trapv := v }
  | 0x016 => { y with collto := v }
  | 0x017 => { y with errinj := v }
  | n =>
    if 0x020 ≤ n ∧ n < 0x028 then { y with lswz := vset y.lswz (n - 0x020) v }
    else if 0x030 ≤ n ∧ n < 0x034 then { y with bka := vset y.bka (n - 0x030) v }
    else if 0x034 ≤ n ∧ n < 0x038 then { y with bkm := vset y.bkm (n - 0x034) v }
    else if 0x038 ≤ n ∧ n < 0x03C then { y with bkc := vset y.bkc (n - 0x038) v }
    else y

/-- CHST clears the bits written as 1 (R200). -/
def State.writeChst (s : State) (v : X64) : State := s.mapSys (fun y => { y with chst := y.chst &&& ~~~(v &&& 0xFF) })

/-- ERRINJ with TARGET 1 (R333): the injection goes to the rick of K[KH] as a gated command, and ERRINJ reads with TARGET 0;
another code stands (R375). -/
def State.writeErrinj (s : State) (v : X64) : State :=
  let w := v &&& sysMask 0x017
  if w.toNat % 16 = 1 then
    let t := s.mapSys (fun y => { y with errinj := w &&& ~~~(0xF#64) })
    match s.rdK (bitsAt w.toNat 17 16) with
    | .valid nm => t.gateCmd 0 (.rick { rick := nm, seg := bitsAt w.toNat 31 24, op := .inject (bitsAt w.toNat 47 32) })
    | _ => t
  else s.mapSys (fun y => { y with errinj := w })

/-- A load of the same bundle or of an earlier one no longer clears the code that the WRSR of ERRINJ in issue writes (R32). -/
def State.dropUninject (s : State) : State :=
  s.mapIss (fun i => { i with pend := i.pend.filter (fun w => !(w.dest == .uninject && decide (w.bundle ≤ i.cur.bundle))) })

/-- ERRINJ's checks: its code, and the handle and gate entry of an injection (R333, R345). -/
def State.chkErrinj (s : State) (v : X64) : Chk :=
  let t := v.toNat % 16
  (need (decide (t ≤ 3)) 0x03 (BitVec.ofNat 64 s.slotVal)).and
    (if t = 1 then (needHandle (s.rdK (bitsAt v.toNat 17 16))).and s.needGate else .ok)

/-- The checks of a WRSR by register: rejected values (R16, R51, R138, R333). -/
def chkWrsr (f : CGSr) (s : State) : Chk :=
  let n := f.srn.toNat
  let v := s.rdX f.a
  let slot := BitVec.ofNat 64 s.slotVal
  (need (s.sysReg n).isSome 0x03 (BitVec.ofNat 64 (s.slotVal + 16 * 2 ^ 8))).and
  ((need (n != 0x000 || (!s.core.iss.cur.loop && (s.core.nV == 64 || rrbVB v == 0))) 0x10 0).and ((s.needCtl f.a).and
  ((need (sysWritable n) 0x07 0).and
  (if n = 0x001 then need (decide (v.toNat % 8 < 6)) 0x03 slot
   else if n = 0x017 then s.chkErrinj v
   else if 0x020 ≤ n ∧ n < 0x028 then
     need (v.toNat % 32 == 0 || (decide (7 ≤ v.toNat % 32) && decide (v.toNat % 32 ≤ 17))) 0x03 slot
   else .ok))))

/-- WRSR (R355): ops of later bundles see the new value. -/
def execWrsr (f : CGSr) (s : State) : Out :=
  issueOp s (chkWrsr f s) .go (fun s =>
    let n := f.srn.toNat
    let v := s.rdX f.a
    if n = 0x000 then s.mapRegs (fun r => { r with rrb := v &&& sysMask 0 })
    else if n = 0x017 then s.dropUninject.writeErrinj v
    else if n = 0x018 then s.writeChst v
    else s.mapSys (fun y => y.write n (v &&& sysMask n)))

/-! ### LSSTEP (R71) -/

/-- LSSTEP's arithmetic. -/
def SysRegs.lsstep (y : SysRegs) : SysRegs :=
  let k := scaleK y.lscale
  let c := bitsAt y.lsstat.toNat 31 16
  let put := fun (k : Int) (c ceil floor skip : Nat) (sat : X64) =>
    { y with lscale := BitVec.ofNat 64 (wrapInt 8 k),
             lsstat := BitVec.ofNat 64 (c * 2 ^ 16 + ceil * 8 + floor * 4 + skip * 2), lssat := sat }
  if y.lsstat.getLsbD 0 then
    if scaleK y.lsmin < k then put (k - 1) 0 0 0 1 y.lssat
    else put k 0 0 1 1 (BitVec.ofNat 64 (min (y.lssat.toNat + 1) (2 ^ 32 - 1)))
  else
    let c := min (c + 1) 65535
    if y.lsgrow.toNat % 65536 ≠ 0 ∧ y.lsgrow.toNat % 65536 ≤ c then
      (if k < scaleK y.lsmax then put (k + 1) 0 0 0 0 y.lssat else put k 0 1 0 0 y.lssat)
    else put k c 0 0 0 y.lssat

/-- Whether an engine command carries .ls or .lsn (R68). -/
def Cmd.scales (c : Cmd) : Bool :=
  match c with
  | .copy c => c.scaled
  | .rick r => match r.op with
    | .push _ _ _ _ _ _ scaled _ => scaled
    | .pushTile _ _ _ _ _ scaled => scaled
    | _ => false
  | _ => false

/-- LSSTEP waits for the scaled stores and commands of earlier bundles that are not done. -/
def readyLsstep (s : State) : Ready :=
  if s.core.engs.any (fun e => e.cmd.scales && decide (e.bundle < s.core.iss.cur.bundle) && e.strand == s.strandIdx) ||
      s.core.fars.any (fun f => f.data.scaled && decide (f.bundle < s.core.iss.cur.bundle)) then .wait (some .other)
  else .go

def chkLsstep (_ : CG) (s : State) : Chk :=
  need (decide (scaleK s.core.regs.sys.lsmin ≤ scaleK s.core.regs.sys.lsmax)) 0x03 (BitVec.ofNat 64 s.slotVal)

/-- Whether a result in flight is the completion of a scaled conversion of an earlier bundle. -/
def State.scaledResult (s : State) (w : PWrite) : Bool :=
  (w.dest == .ovfs true || w.dest == .ovfs false) && decide (w.bundle < s.core.iss.cur.bundle)

/-- The scaled conversions of earlier bundles land: LSSTEP waits out their latencies, and OVFS holds what they set. -/
def State.landOvfs (s : State) : State :=
  let late := s.core.iss.pend.filter s.scaledResult
  if late.isEmpty then s
  else
    let n := (late.map (fun w => w.due - s.core.iss.sched)).foldl max 0
    let t := if late.any (fun w => w.dest == .ovfs true) then s.keepSys SysRegs.setOvfs else s
    let u := if n = 0 then t else (t.tick n).mapIss Issue.slipAll
    u.mapCore (fun c => { c with
      iss := { c.iss with pend := c.iss.pend.filter (fun w => !s.scaledResult w) },
      shadow := { c.shadow with pend := c.shadow.pend.filter (fun w => !s.scaledResult w) } })

/-- LSSTEP. -/
def execLsstep (f : CG) (s : State) : Out :=
  issueSerial s (chkLsstep f s) .go readyLsstep (fun s => (s.landOvfs).keepSys SysRegs.lsstep)

/-! ### FENCE (R255 to R257) -/

/-- The clusters and die of the strand's block, which widen its cluster and die scopes. -/
def State.blockScope (s : State) : List Nat × Nat :=
  match s.core.running.bind (fun k => s.dev.strands[k]?) with
  | some t => match t.block.bind (fun b => s.dev.blocks[b]?) with
    | some b => ((List.range 16).filter (fun i => b.clusters.getLsbD i) |>.map (fun i => 16 * b.die + i), b.die)
    | none => ([0], 0)
  | none => ([0], 0)

/-- Whether a home lies inside a scope. -/
def State.inScope (s : State) (sc : Scope) (a : Nat) : Bool :=
  let pa := physOf a
  let own := devOf a == 0
  let h := homeOf pa
  match sc with
  | .core => own && h == .local && coreOf pa == ownCore
  | .cluster => own && (h == .local || h == .sram) && s.blockScope.1.contains (coreOf pa / 8)
  | .die => own && (h == .local || h == .sram || h == .sync) && dieOf pa == s.blockScope.2
  | .device => own && h != .host
  | .domain => h != .host
  | .host => true

def Kinds.has (k : Kinds) (d : Kind) : Bool :=
  match d with
  | .so => k.so
  | .rc => k.rc
  | .un => k.un

/-- Whether a far access is one that the fence waits for: of a kind in its mask, homed inside its scope (R257). The accesses to
the own local store are performed at the commit before the wait. -/
def fenced (f : CGFence) (s : State) (ps : List Part) : Bool :=
  ps.any (fun p => Kinds.has f.kinds p.kind && s.inScope f.scope p.addr)

def readyFence (f : CGFence) (s : State) : Ready :=
  if s.core.loads.any (fun l => fenced f s l.left) || s.core.fars.any (fun q => fenced f s q.parts) then .wait (some .other)
  else .go

/-- FENCE: it waits for accesses of earlier bundles and of its own, and changes nothing. -/
def execFence (f : CGFence) (s : State) : Out :=
  issueSerial s .ok .go (readyFence f) (fun s => s)

/-! ### Traps and services (R356) -/

/-- TRAP (R355): cause 0x0D after its bundle, TRAPPC the bundle that would follow (R352). -/
def execTrap (f : CGCode) (s : State) : Out :=
  issueSerial s .ok .go (fun _ => .go) (fun s =>
    s.takeTrap 0x0D (f.code.zeroExtend 64) s.core.iss.nextPc)

def chkRett (_ : CG) (s : State) : Chk := need (s.core.regs.sys.trapc.getLsbD 8) 0x0D 0xFFFF

/-- RETT (R355). -/
def execRett (f : CG) (s : State) : Out :=
  issueOp s (chkRett f s) .go (fun s => s.returnFromTrap.serialPoint)

def chkSvc (f : CGCode) (s : State) : Chk := s.needCtl f.a

/-- SVC (R355): the request joins the owner runtime's queue, and the strand waits for the reply. -/
def execSvc (f : CGCode) (s : State) : Out :=
  issueSerial s (chkSvc f s) .go (fun _ => .go) (fun s =>
    (s.mapDev (fun d => { d with svc := d.svc ++ [(s.core.tenant, s.core.number, f.code, s.rdX f.a)] })).mapIss (fun i =>
      { i with waits := some .svc, waitReg := s.px f.d }))

/-- BKPT's trap (R372, R374). -/
def chkBkpt (f : CGSr) (s : State) : Chk :=
  (s.needCtl f.a).and (need (s.rdX f.a == 0) 0x0C (BitVec.ofNat 64 (f.srn.toNat * 2 ^ 16 + 4)))

/-- BKPT (R355, R374). -/
def execBkpt (f : CGSr) (s : State) : Out := issueOp s (chkBkpt f s) .go (fun s => s)

def chkTstpsn (f : CG) (s : State) : Chk := s.needAlloc [(40, s.hasV f.a)]

/-- TSTPSN (R355): the lanes' poison, written clean. -/
def execTstpsn (f : CG) (s : State) : Out :=
  issueOp s (chkTstpsn f s) .go (fun s => s.putX f.d 1 (s.poisonV f.a) false)

end Sys2Proof.Machine
end

