-- ==== Sys2Proof/Machine/Link.lean ====
section
/-! DEFINITION. Link queues: SEND and RECV (R390 to R394), and what their released commands do. -/

namespace Sys2Proof.Machine

/-- PEER and TAG of the word in xa (R391). -/
def linkPeer (x : X64) : Nat := bitsAt x.toNat 9 0
def linkTag (x : X64) : Nat := bitsAt x.toNat 20 16

/-- The route that a PEER names. -/
def routeOf (peer : Nat) : Option Nat := if 256 ≤ peer then some (peer - 256) else none

/-- The register block's word at an offset; an unwritten one is 0 (R477). -/
def Dev.blockWord (d : Dev) (off : Nat) : Nat := ((d.block.find? (fun q => q.1 == off)).map (fun q => q.2.toNat)).getD 0

/-- A word of a route or a hook as the last write of the entry's word 0 has put it in effect (R479). -/
def Dev.entryWord (d : Dev) (off : Nat) : Nat := ((d.entries.find? (fun q => q.1 == off)).map (fun q => q.2.toNat)).getD 0

/-- Words 0 and 1 of a route's entry. -/
def Dev.routeEntry (d : Dev) (r : Nat) : Nat × Nat := (d.entryWord (0x2000 + 32 * r), d.entryWord (0x2008 + 32 * r))

/-- VALID of a route (R479). -/
def Dev.routeLoaded (d : Dev) (r : Nat) : Bool := bitsAt (d.routeEntry r).1 63 63 == 1

/-- Where the frames of a route's entry go: its interface, VLAN and MAC address (R398, R479). -/
def etherOf (e : Nat × Nat) : Ether := { iface := bitsAt e.1 61 60, vlan := bitsAt e.1 59 48, mac := bitsAt e.1 47 0 }

def Links.live (l : Links) (port : Nat) : Bool := decide (port < 8) && !l.down.contains port && !l.retraining.contains port

/-- Whether the port of an interface carries traffic (R398, R469). -/
def Links.carries (l : Links) (iface : Nat) : Bool := l.live (6 + iface / 2)

def Dev.routeLive (d : Dev) (r : Nat) : Bool := d.links.carries (etherOf (d.routeEntry r)).iface

/-- A peer that takes no message (R392). -/
def Dev.unreachable (d : Dev) (peer : Nat) : Bool :=
  match routeOf peer with
  | some r => !d.routeLoaded r
  | none => !d.ident.members.any (fun m => m.1 == peer) || d.ident.lost.contains peer

/-- A peer from which no more messages come (R393). -/
def Dev.silent (d : Dev) (peer : Nat) : Bool :=
  match routeOf peer with
  | some r => !d.routeLoaded r
  | none => d.ident.lost.contains peer

/-- The conditions of R391 on xa and the byte count. -/
def linkOk (index : Nat) (x : X64) (n : Nat) : Bool :=
  bitsAt x.toNat 63 21 == 0 && bitsAt x.toNat 15 10 == 0 &&
    (decide (linkPeer x < 64) || decide (256 ≤ linkPeer x)) && linkPeer x != index &&
    n % 256 == 0 && decide (256 ≤ n) && decide (n ≤ 16384)

/-- The checks of R391. -/
def State.chkLink (s : State) (a b c : Reg) : Chk :=
  (s.needCtl b).and
  ((need (linkOk s.dev.ident.index (s.rdX a) (s.rdX c).toNat) 0x12 (BitVec.ofNat 64 (6 * 2 ^ 16))).and
  ((need ((s.rdX b).toNat % 256 == 0 && decide ((s.rdX b).toNat + (s.rdX c).toNat ≤ lsSize)) 0x08 (s.rdX b)).and
   s.needGate))

/-- The queue between the strand's tenant and a peer. -/
def State.queue (s : State) (peer : Nat) : LinkQueue := s.dev.links.queue s.core.tenant peer

/-! ### SEND (R392) -/

def chkSend (f : EA) (s : State) : Chk := s.chkLink f.a f.b f.c

/-- SEND waits for credits; a route has none to wait for (log 25). -/
def readySend (f : EA) (s : State) : Ready :=
  let peer := linkPeer (s.rdX f.a)
  if s.dev.unreachable peer || decide (256 ≤ peer) || decide ((s.rdX f.c).toNat / 256 ≤ (s.queue peer).credits) then .go
  else .wait (some (.send peer ((s.rdX f.c).toNat / 256)))

/-- SEND: the credits are taken, and the command waits in the gate. -/
def execSend (f : EA) (s : State) : Out :=
  issueOp s (chkSend f s) (readySend f s) (fun s =>
    let peer := linkPeer (s.rdX f.a)
    let k := (s.rdX f.c).toNat / 256
    let gone := s.dev.unreachable peer
    let t := if gone || decide (256 ≤ peer) then s
      else s.mapDev (fun d => d.mapQueue s.core.tenant peer (fun q => { q with credits := q.credits - k }))
    t.gateCmd (s.px f.d) (.send peer (linkTag (s.rdX f.a)) (s.rdX f.b).toNat k gone))

/-! ### RECV (R393) -/

/-- Entries of a message. -/
def msgEntries (m : LinkMsg) : Nat := m.bytes.length / 256

def chkRecv (f : EA) (s : State) : Chk :=
  (s.chkLink f.a f.b f.c).and
  (match (s.queue (linkPeer (s.rdX f.a))).msgs with
   | [] => .ok
   | m :: _ => need (m.tag == linkTag (s.rdX f.a) && msgEntries m == (s.rdX f.c).toNat / 256) 0x12
      (BitVec.ofNat 64 (6 * 2 ^ 16 + m.tag % 32 * 2 ^ 8 + msgEntries m % 128)))

/-- RECV waits until a message is at the head of its queue. -/
def readyRecv (f : EA) (s : State) : Ready :=
  let peer := linkPeer (s.rdX f.a)
  if (s.queue peer).msgs.isEmpty && !s.dev.silent peer then .wait (some (.recv peer)) else .go

/-- RECV: the head message is reserved, and the command waits in the gate. -/
def execRecv (f : EA) (s : State) : Out :=
  issueOp s (chkRecv f s) (readyRecv f s) (fun s =>
    let peer := linkPeer (s.rdX f.a)
    let q := s.queue peer
    let t := s.mapDev (fun d => d.mapQueue s.core.tenant peer (fun q => { q with msgs := q.msgs.drop 1, taken := q.taken + (q.msgs.head?.map msgEntries).getD 0 }))
    t.gateCmd (s.px f.d) (.recv peer (linkTag (s.rdX f.a)) (s.rdX f.b).toNat ((s.rdX f.c).toNat / 256) q.msgs.head?))

/-! ### The released commands -/

/-- The bytes of a message, with their poison. -/
def State.messageBytes (s : State) (src n : Nat) : List Byte × List Bool :=
  ((List.range n).map (fun i => s.mem.byte (ownLs src + i)), (List.range n).map (fun i => s.mem.poisoned (ownLs src + i)))

/-- The bytes of a message whose reading has gone on while stores replaced some: each is a value that it has had since, or what it is now (R7,
R392). -/
def State.messageAmong (s : State) (src n : Nat) (kept : List (Nat × (Byte × Bool))) : List (Byte × Bool) :=
  (List.range n).map (fun i =>
    let a := ownLs src + i
    let vs := ((kept.filter (fun q => q.1 == a)).map (·.2)) ++ [(s.mem.byte a, s.mem.poisoned a)]
    vs.getD (Config.freePick s.freeCtr i % vs.length) (0, false))

/-- An in-domain SEND: the message enters its port's replay buffer, and the token is written (R392). -/
def State.performSend (s : State) (tenant peer tag src k : Nat) (kept : List (Nat × (Byte × Bool))) : State × X64 :=
  let b := s.messageAmong src (256 * k) kept
  ((s.mapDev (fun d => { d with links := { d.links with
     sent := d.links.sent ++ [{ tenant := tenant, peer := peer, tag := tag, seq := 0, bytes := b.map (·.1), poisoned := b.map (·.2) }] } })).bump,
   token 0 (256 * k))

/-- The numbers of a route (R399). -/
def Links.routeState (l : Links) (route : Nat) : RouteState :=
  (l.routes.find? (fun r => r.route == route)).getD { route := route, sendSeq := 0, recvSeq := 0, frags := [] }

def Links.setRoute (l : Links) (r : RouteState) : Links := { l with routes := r :: l.routes.filter (fun o => o.route != r.route) }

/-- RIDX of a route's entry: the index of this device at the remote side, SRCROUTE of what goes out on it (R399, R479). -/
def ridxOf (e : Nat × Nat) : Nat := bitsAt e.2 41 32

/-- The frames of a message: 16 entries in each but the last (R399). -/
def framesOf (tenant ridx seq tag : Nat) (bytes : List Byte) : List Frame :=
  let k := bytes.length / 256
  let n := (k + 15) / 16
  (List.range n).map (fun i =>
    { tenant := tenant, ver := 1, kind := 0, srcRoute := ridx, seq := seq, tag := tag, entries := k, frag := i, nfrag := n, zeros := true,
      payload := (bytes.drop (4096 * i)).take 4096 })

/-- A message goes out with its number by a route's entry: the first time, and again from the source bytes (R399). While its port is down or
being retrained no frame leaves (R388, R469). -/
def State.sendFrames (s : State) (tenant : Nat) (e : Nat × Nat) (seq tag src k : Nat) : State :=
  let b := s.messageBytes src (256 * k)
  if s.dev.links.carries (etherOf e).iface then
    let fs := (framesOf tenant (ridxOf e) seq tag b.1).map (fun f => (etherOf e, f))
    s.mapDev (fun d => { d with links := { d.links with framesOut := d.links.framesOut ++ fs } })
  else s

/-- A SEND on a route forks: it takes the next number, and waits for its acknowledgement (R399). The route's entry is as it stands then
(R479). -/
def State.startRouteSend (s : State) (id tenant route tag src k : Nat) : State :=
  let r := s.dev.links.routeState route
  (s.mapDev (fun d => { d with links := { (d.links.setRoute { r with sendSeq := (r.sendSeq + 1) % 2 ^ 32 }) with
    unacked := d.links.unacked ++
      [{ tenant := tenant, route := route, seq := r.sendSeq, tries := 0, id := id, since := s.core.now,
         entry := (s.dev.routeEntry route) }] } })).sendFrames tenant (s.dev.routeEntry route) r.sendSeq tag src k

/-- RECV: the bytes are written with their poison, tags unchanged, the entries are freed, and the credits return (R393). -/
def State.performRecv (s : State) (dst k : Nat) (m : LinkMsg) : State × X64 :=
  let bs := (m.bytes.take (256 * k)).zipIdx
  let cells := bs.map (fun q => (ownLs dst + q.2, q.1))
  let pois := (bs.filter (fun q => m.poisoned.getD q.2 false)).map (fun q => ownLs dst + q.2)
  let t := s.engineStore cells pois
  let u := t.mapDev (fun d => d.mapQueue m.tenant m.peer (fun q => { q with taken := q.taken - k }))
  (u.mapDev (fun d => if 256 ≤ m.peer then d else { d with links := { d.links with
     creditsOut := d.links.creditsOut ++ [(m.tenant, m.peer, k)] } }), token 0 (256 * k))

end Sys2Proof.Machine
end

