-- ==== Sys2Proof/Machine/Tenant.lean ====
section
/-! DEFINITION. What agents of the device do in a tenant's virtual space (R185, R396, R448): translation by the tenant's
mapping list, writes and reads, and the interrupts of R395. -/

namespace Sys2Proof.Machine

def Dev.page (d : Dev) (t : Nat) : Page := vget d.pages t Page.reset

def Dev.setPage (d : Dev) (t : Nat) (p : Page) : Dev := { d with pages := vset d.pages t p }

def Dev.mapPage (d : Dev) (t : Nat) (f : Page → Page) : Dev := d.setPage t (f (d.page t))

/-- The table that a tenant's mapping list gives; an invalid list gives none (R226, R227). -/
def State.tenantTable? (s : State) (t : Nat) : Option (List Entry) := tableOfList s (s.dev.page t).mapbase.toNat

def State.tenantTable (s : State) (t : Nat) : List Entry := (s.tenantTable? t).getD []

/-- The entries of a tenant's list: of an invalid list, those that keep R226 each on its own. -/
def State.listEntries (s : State) (t : Nat) : List Entry :=
  (s.tenantTable? t).getD (((listWords s.homeMem (s.dev.page t).mapbase.toNat).filter (fun w => entryCodesOk w.1 w.2)).filterMap (fun w =>
    (entryOfWords w.1 w.2).filter (fun e => e.valid s.dev.ident.index s.dev.ident.members s.dev.links.groupsOut)))

/-- The home pieces of a range under a table, where every byte is mapped, present and allowed. -/
def State.partsBy (s : State) (table : List Entry) (perms : List Perm) (v len : Nat) : Option (List Part) :=
  let l := stretches table 300 v len
  match lookupFault perms l with
  | none => some (s.partsOf l)
  | some _ => none

/-- The bytes of a range under a table, with their poison. -/
def State.loadBy (s : State) (table : List Entry) (v len : Nat) : Option (List (Byte × Bool)) :=
  (s.partsBy table [.load] v len).map (fun ps => s.readParts s.mem ps)

/-- The same by a tenant's list. -/
def State.tenantParts (s : State) (t : Nat) (perms : List Perm) (v len : Nat) : Option (List Part) := s.partsBy (s.tenantTable t) perms v len

def State.tenantLoad (s : State) (t v len : Nat) : Option (List (Byte × Bool)) := s.loadBy (s.tenantTable t) v len

/-- A write of an agent in a tenant's space. -/
def State.tenantStore (s : State) (t v : Nat) (bs : List Byte) : Option State :=
  (s.tenantParts t [.store] v bs.length).map (fun ps =>
    let addrs := (ps.map (fun p => if s.lostNow p then List.replicate p.len none else (s.partAddrs p).map some)).flatten
    s.engineStore ((addrs.zip bs).filterMap (fun q => q.1.map (fun a => (a, q.2)))) [])

/-- A vector is raised on a function (R395). -/
def Dev.raise (d : Dev) (fn vec : Nat) : Dev := { d with msix := d.msix ++ [(fn, vec)] }

/-- An error of a tenant is reported where its page asks for it (R397). -/
def Dev.raiseError (d : Dev) (t : Nat) : Dev := if (d.page t).errint then d.raise t 1 else d

/-- Little-endian bytes of 64-bit words. -/
def wordsBytes (ws : List Nat) : List Byte := (ws.map (bytesOfNat 8)).flatten

/-- A count of 16 bits that saturates. -/
def satUp16 (n k : Nat) : Nat := min (n + k) 65535

end Sys2Proof.Machine
end

