-- ==== Sys2Proof/Machine/Thresher.lean ====
section
/-! DEFINITION. The threshers (R424 to R451): the instructions of R432 to R443 on the invocation that runs, and how an
invocation starts and ends. -/

namespace Sys2Proof

/-- The format of a thresher type (R432). -/
def TType.fmt (t : TType) : Fmt :=
  match t with
  | .int32 => .int32
  | .fp32 => .fp32
  | .bf16 => .bf16

/-- The flow key, or KEY of a slot invocation (R439). -/
def InvSpec.flowKey (i : InvSpec) : Nat := if i.slot then i.key.toNat else i.sender % 64 + i.tag % 32 * 64

end Sys2Proof

namespace Sys2Proof.Machine

/-! ### Types and operands (R424, R429, R432) -/

/-- A scalar register; Z0 reads 0. -/
def Invocation.rdZ (v : Invocation) (n : BitVec 4) : BitVec 32 := if n = 0 then 0 else vget v.z n.toNat 0

def Invocation.wrZ (v : Invocation) (n : BitVec 4) (x : BitVec 32) : Invocation :=
  if n = 0 then v else { v with z := vset v.z n.toNat x }

def Invocation.rdW (v : Invocation) (n : BitVec 4) : WBits := vget v.w n.toNat 0

def Invocation.wrW (v : Invocation) (n : BitVec 4) (x : WBits) : Invocation := { v with w := vset v.w n.toNat x }

/-- The elements of width `w` of a source. -/
def Invocation.elems (v : Invocation) (scalar : Bool) (w : Nat) (n : BitVec 4) : List Nat :=
  if scalar then [(v.rdZ n).toNat % 2 ^ w] else lanesOf w (512 / w) (v.rdW n).toNat

/-- The elements of source B, a Z register's value for every element where BZ is set. -/
def Invocation.elemsB (v : Invocation) (scalar bz : Bool) (w : Nat) (n : BitVec 4) : List Nat :=
  if bz then List.replicate (512 / w) ((v.rdZ n).toNat % 2 ^ w) else v.elems scalar w n

/-- A result of elements of width `w`. -/
def Invocation.put (v : Invocation) (scalar : Bool) (w : Nat) (n : BitVec 4) (xs : List Nat) : Invocation :=
  if scalar then v.wrZ n (BitVec.ofNat 32 (xs.headD 0 % 2 ^ w)) else v.wrW n (BitVec.ofNat 512 (ofLanes w xs))

/-! ### How an invocation goes on and ends -/

/-- Where control goes after an instruction, or how the invocation ends there. -/
inductive ThrNext where
  | seq
  | jump (word : Nat)
  | trap (cause value : Nat)
  | stop
  deriving DecidableEq, Repr

/-- A trap is counted and its record written (R447, R448). -/
def State.thrTrapped (s : State) (i : InvSpec) (cause value word : Nat) (norun : Bool) : State :=
  let s := s.mapDev (fun d => { d with kernels := d.kernels.map (fun k =>
    if k.name == i.kernel then { k with traps := min (k.traps + 1) (2 ^ 32 - 1) } else k) })
  let p := s.dev.page i.tenant
  if p.trq = 0 then s
  else
    let rec0 := [i.kernel.toNat % 2 ^ 64, i.kernel.toNat / 2 ^ 64, i.flowKey,
      i.beat % 2 ^ 32 * 2 ^ 32 + s.dev.ident.index * 2 ^ 24 + word % 256 * 2 ^ 16 + (if norun then 256 else 0) + cause,
      value, if i.slot then i.round else 0, 0, 0]
    let at_ := p.trbase.toNat + 64 * (p.trcount.toNat % 2 ^ p.trq)
    let t := (s.tenantStore i.tenant at_ (wordsBytes rec0)).getD s
    t.mapDev (fun d =>
      let d := d.mapPage i.tenant (fun p => { p with trcount := p.trcount + 1 })
      if p.errint then d.raise i.tenant 1 else d)

/-- Whether a REDIR target is a device that a message may go to (R443). -/
def Dev.redirOk (d : Dev) (target : Nat) : Bool :=
  decide (target ≤ 63) && (target == d.ident.index || d.ident.members.any (fun m => m.1 == target)) &&
    !d.ident.lost.contains target

/-- The invocation ends: what it leaves is recorded, and a trap counted. A trap discards its writes to the window. -/
def State.thrFinish (s : State) (v : Invocation) (e : ThrEnd) : State :=
  let t := { s with thr := none }
  match e with
  | .disp _ => { t with results := t.results ++ [(v.spec, e, v.window)] }
  | .trap c x w =>
    let u := t.thrTrapped v.spec c x w false
    { u with results := u.results ++ [(v.spec, e, v.spec.input ++ v.spec.partialIn)] }

/-- END (R443): a REDIR disposition counts as FWD in a slot kernel, and is checked in a flow kernel. -/
def State.thrStop (s : State) (v : Invocation) : State :=
  match v.disp with
  | .redir t =>
    if v.spec.slot then s.thrFinish v (.disp .fwd)
    else if s.dev.redirOk t.toNat then s.thrFinish v (.disp (.redir t))
    else s.thrFinish v (.trap 0x06 t.toNat v.last)
  | d => s.thrFinish v (.disp d)

/-- Control goes to word `k`: past a LOOPI body it starts the next iteration (R442), and past the last word it meets END
(R443). -/
def State.thrGoto (s : State) (v : Invocation) (k : Nat) : State :=
  let q : Nat × Option Trip := match v.trip with
    | some t => if k = t.stop then (if t.left = 0 then (k, none) else (t.start, some { t with left := t.left - 1 })) else (k, some t)
    | none => (k, none)
  if q.1 < v.kernel.words.length then { s with thr := some { v with pc := q.1, trip := q.2 } }
  else s.thrStop { v with trip := q.2 }

/-- One instruction of the invocation that runs: its effect on the device and the invocation, then where control goes.
With no invocation there is nothing to act on. -/
def thrInstr (s : State) (f : State → Invocation → State × Invocation × ThrNext) : Out :=
  match s.thr with
  | none => .next s
  | some v =>
    let q := f s { v with last := v.pc, left := v.left - 1 }
    match q.2.2 with
    | .seq => .next (q.1.thrGoto q.2.1 (v.pc + 1))
    | .jump k => .next (q.1.thrGoto q.2.1 k)
    | .trap c x => .next (q.1.thrFinish q.2.1 (.trap c x v.pc))
    | .stop => .next (q.1.thrStop q.2.1)

/-- An instruction that only writes registers. -/
def thrPure (s : State) (f : Invocation → Invocation) : Out := thrInstr s (fun s v => (s, f v, .seq))

/-! ### Arithmetic (R433 to R436) -/

/-- A float result, rounded once under RNE. -/
def thrRound (t : TType) (x : Num) : Nat := (roundFloat t.fmt .rne false 0 x).bits

def thrFloat (t : TType) (a : Nat) : Num := decodeFloat t.fmt a

/-- An op of one source. -/
def thrUnary (f : TR) (s : State) (g : Nat → Nat) : Out :=
  let w := f.t.fmt.width
  thrPure s (fun v => v.put f.s w f.d ((v.elems f.s w f.a).map g))

/-- An op of two sources. -/
def thrBinary (f : TR) (s : State) (g : Nat → Nat → Nat) : Out :=
  let w := f.t.fmt.width
  thrPure s (fun v => v.put f.s w f.d (List.zipWith g (v.elems f.s w f.a) (v.elemsB f.s f.bz w f.b)))

/-- A float op, and an integer one modulo 2^32. -/
def thrArith (f : TR) (s : State) (fl : Num → Num → Num) (it : Int → Int → Int) : Out :=
  thrBinary f s (fun a b => if f.t = .int32 then wrapInt 32 (it (signedOf 32 a) (signedOf 32 b))
    else thrRound f.t (fl (thrFloat f.t a) (thrFloat f.t b)))

/-- ADD. -/
def execThrAdd (f : TR) (s : State) : Out := thrArith f s (addNum .rne) (fun a b => a + b)

/-- SUB. -/
def execThrSub (f : TR) (s : State) : Out := thrArith f s (subNum .rne) (fun a b => a - b)

/-- MUL. -/
def execThrMul (f : TR) (s : State) : Out := thrArith f s mulNum (fun a b => a * b)

/-- FMA, with one rounding. -/
def execThrFma (f : TR) (s : State) : Out :=
  let w := f.t.fmt.width
  thrPure s (fun v => v.put f.s w f.d (List.zipWith (fun (ab : Nat × Nat) c =>
    thrRound f.t (fmaNum .rne (thrFloat f.t ab.1) (thrFloat f.t ab.2) (thrFloat f.t c)))
    ((v.elems f.s w f.a).zip (v.elemsB f.s f.bz w f.b)) (v.elems f.s w f.c)))

/-- MIN (R49). -/
def execThrMin (f : TR) (s : State) : Out := thrArith f s minNum min

/-- MAX (R49). -/
def execThrMax (f : TR) (s : State) : Out := thrArith f s maxNum max

/-- ABS: a NaN becomes canonical. -/
def execThrAbs (f : TR) (s : State) : Out :=
  thrUnary f s (fun a => if f.t = .int32 then wrapInt 32 (signedOf 32 a).natAbs else thrRound f.t (thrFloat f.t a).abs)

/-- NEG. -/
def execThrNeg (f : TR) (s : State) : Out :=
  thrUnary f s (fun a => if f.t = .int32 then wrapInt 32 (0 - signedOf 32 a) else thrRound f.t (thrFloat f.t a).neg)

/-- AND. -/
def execThrAnd (f : TR) (s : State) : Out := thrBinary f s (fun a b => a &&& b)

/-- OR. -/
def execThrOr (f : TR) (s : State) : Out := thrBinary f s (fun a b => a ||| b)

/-- XOR. -/
def execThrXor (f : TR) (s : State) : Out := thrBinary f s (fun a b => a ^^^ b)

/-- SHL, by b mod 32. -/
def execThrShl (f : TR) (s : State) : Out := thrBinary f s (fun a b => a * 2 ^ (b % 32) % 2 ^ 32)

/-- SHR, zero-filled. -/
def execThrShr (f : TR) (s : State) : Out := thrBinary f s (fun a b => a / 2 ^ (b % 32))

/-- SRA, sign-filled. -/
def execThrSra (f : TR) (s : State) : Out :=
  thrBinary f s (fun a b => wrapInt 32 (signedOf 32 a / (2 ^ (b % 32) : Nat)))

/-- ADDS, saturating. -/
def execThrAdds (f : TR) (s : State) : Out :=
  thrBinary f s (fun a b => wrapInt 32 (satInt 32 (signedOf 32 a + signedOf 32 b)))

/-- CMP (R434). -/
def execThrCmp (f : TRCmp) (s : State) : Out :=
  let w := f.t.fmt.width
  thrPure s (fun v => v.put f.s w f.d (List.zipWith (fun a b => if condElem f.cond f.t.fmt a b then 1 else 0)
    (v.elems f.s w f.a) (v.elemsB f.s f.bz w f.b)))

/-- SEL (R434). -/
def execThrSel (f : TR) (s : State) : Out :=
  let w := f.t.fmt.width
  thrPure s (fun v => v.put f.s w f.d (List.zipWith (fun (ab : Nat × Nat) c => if c = 0 then ab.2 else ab.1)
    ((v.elems f.s w f.a).zip (v.elemsB f.s f.bz w f.b)) (v.elems f.s w f.c)))

/-- CVT (R435): the first 16 elements under RNE; a BF16 result has its elements 16 to 31 zero. -/
def execThrCvt (f : TRCvt) (s : State) : Out :=
  let c : ConvSpec := { t := f.t.fmt, fs := f.t2.fmt, mode := .rne, sat := f.t == .int32, scaled := false, k := 0 }
  thrPure s (fun v => v.put f.s f.t.fmt.width f.d (((v.elems f.s f.t2.fmt.width f.a).take 16).map (fun a =>
    (c.elem a 0 (decodeElem f.t2.fmt a)).bits)))

/-- EX2 (R436). -/
def execThrEx2 (f : TR) (s : State) : Out := thrUnary f s (fun a => thrRound f.t (exp2Num (thrFloat f.t a)))

/-- LG2 (R436). -/
def execThrLg2 (f : TR) (s : State) : Out := thrUnary f s (fun a => thrRound f.t (log2Fn (thrFloat f.t a)))

/-! ### Moves (R437) -/

/-- MOVI. -/
def execThrMovi (f : TIMov) (s : State) : Out :=
  thrPure s (fun v => v.wrZ f.d (if f.h then BitVec.ofNat 32 (f.imm.toNat * 2 ^ 11) else f.imm.signExtend 32))

/-- ADDI. -/
def execThrAddi (f : TIAdd) (s : State) : Out := thrPure s (fun v => v.wrZ f.d (v.rdZ f.a + f.imm.signExtend 32))

/-- VEXT. -/
def execThrVext (f : TRLane) (s : State) : Out :=
  thrPure s (fun v => v.wrZ f.d (BitVec.ofNat 32 ((v.rdW f.a).toNat / 2 ^ (32 * f.x.toNat))))

/-- VBC. -/
def execThrVbc (f : TRLane) (s : State) : Out :=
  thrPure s (fun v => v.wrW f.d (BitVec.ofNat 512 (ofLanes 32 (List.replicate 16 (v.rdZ f.a).toNat))))

/-! ### The window and the header (R438, R439) -/

/-- The bytes of a TM access: 64 or 4. -/
def tmBytes (f : TM) : Nat := if f.s then 4 else 64

/-- za + OFF modulo 2^32. -/
def tmAddr (f : TM) (v : Invocation) : Nat := (v.rdZ f.a + f.off.zeroExtend 32).toNat

/-- The first byte beyond an invocation's window. -/
def Invocation.windowEnd (v : Invocation) : Nat := if v.spec.slot then 512 else 256

/-- A register of a TM access takes bytes. -/
def Invocation.putBytes (v : Invocation) (f : TM) (bs : List Byte) : Invocation :=
  if f.s then v.wrZ f.d (BitVec.ofNat 32 (natOfBytes bs)) else v.wrW f.d (BitVec.ofNat 512 (natOfBytes bs))

/-- The bytes of a register of a TM access. -/
def Invocation.regBytes (v : Invocation) (f : TM) : List Byte :=
  bytesOfNat (tmBytes f) (if f.s then (v.rdZ f.d).toNat else (v.rdW f.d).toNat)

/-- A window access at an aligned address inside the window, or the trap. -/
def windowAccess (f : TM) (s : State) (g : Invocation → Nat → Invocation) : Out :=
  thrInstr s (fun s v =>
    let a := tmAddr f v
    if a % 4 = 0 ∧ a + tmBytes f ≤ v.windowEnd then (s, g v a, .seq) else (s, v, .trap 0x02 a))

/-- PLD. -/
def execThrPld (f : TM) (s : State) : Out :=
  windowAccess f s (fun v a => v.putBytes f ((v.window.drop a).take (tmBytes f)))

/-- PST. -/
def execThrPst (f : TM) (s : State) : Out :=
  windowAccess f s (fun v a =>
    { v with window := v.window.take a ++ v.regBytes f ++ v.window.drop (a + tmBytes f) })

/-- A header field (R439). -/
def headerField (i : InvSpec) (n : Nat) : Nat :=
  match n with
  | 0 => if i.slot then 1 else 0
  | 1 => i.sender
  | 2 => i.dest
  | 3 => i.tenant
  | 4 => if i.slot then 0 else i.tag
  | 5 => i.flowKey % 2 ^ 32
  | 6 => i.flowKey / 2 ^ 32
  | 7 => i.beat
  | 8 => i.count
  | 9 => i.round
  | 10 => if i.slot then i.pass else 0
  | _ => 0

/-- HDR. -/
def execThrHdr (f : TRLane) (s : State) : Out :=
  thrPure s (fun v => v.wrZ f.d (BitVec.ofNat 32 (headerField v.spec f.x.toNat)))

/-! ### Bins (R440) -/

/-- The byte offset in bin memory and the size of a kernel's bin set (R428, R476). -/
def Dev.binSet (d : Dev) (k : Kernel) : Nat × Nat :=
  match k.bins.bind d.claim? with
  | some c => (c.attr.toNat % 2 ^ 23, c.size.toNat)
  | none => (0, 0)

def Dev.binBytes (d : Dev) (a n : Nat) : List Byte := (List.range n).map (fun i => cellsGet d.bins (a + i))

def Dev.putBins (d : Dev) (a : Nat) (bs : List Byte) : Dev :=
  { d with bins := (cellsAt a bs).foldl (fun m c => cellsPut m c.1 c.2) d.bins }

/-- A bin access of `n` bytes at offset `v`, or the trap. -/
def binAccess (s : State) (off : Invocation → Nat) (n : Nat) (g : State → Invocation → Nat → State × Invocation) : Out :=
  thrInstr s (fun s v =>
    let a := off v
    if v.binGone then (s, v, .trap 0x05 0)
    else if a % 4 = 0 ∧ a + n ≤ (s.dev.binSet v.kernel).2 then
      let q := g s v ((s.dev.binSet v.kernel).1 + a)
      (q.1, q.2, .seq)
    else (s, v, .trap 0x01 a))

/-- BLD. -/
def execThrBld (f : TM) (s : State) : Out :=
  binAccess s (tmAddr f) (tmBytes f) (fun s v a => (s, v.putBytes f (s.dev.binBytes a (tmBytes f))))

/-- BST. -/
def execThrBst (f : TM) (s : State) : Out :=
  binAccess s (tmAddr f) (tmBytes f) (fun s v a => (s.mapDev (fun d => d.putBins a (v.regBytes f)), v))

/-- A bin atomic's new value. -/
def bamoApply (o : BamoOp) (old b : Nat) : Nat :=
  match o with
  | .add => MemOp.apply .add 32 old b
  | .min => MemOp.apply .min 32 old b
  | .max => MemOp.apply .max 32 old b
  | .minu => MemOp.apply .minu 32 old b
  | .maxu => MemOp.apply .maxu 32 old b
  | .swap => b
  | .fadd32 => redApply .fadd32 32 old b
  | .and => MemOp.apply .and 32 old b
  | .or => MemOp.apply .or 32 old b
  | .xor => MemOp.apply .xor 32 old b

/-- BAMO. -/
def execThrBamo (f : TRBamo) (s : State) : Out :=
  binAccess s (fun v => (v.rdZ f.a).toNat) 4 (fun s v a =>
    let old := natOfBytes (s.dev.binBytes a 4)
    (s.mapDev (fun d => d.putBins a (bytesOfNat 4 (bamoApply f.op old (v.rdZ f.b).toNat))),
     v.wrZ f.d (BitVec.ofNat 32 old)))

/-! ### Control (R441 to R443) -/

/-- BR. -/
def execThrBr (f : TC) (s : State) : Out := thrInstr s (fun s v => (s, v, .jump (v.pc + f.o.toNat)))

/-- BC. -/
def execThrBc (f : TC) (s : State) : Out :=
  thrInstr s (fun s v => (s, v, if intCond (Cond.ofCode f.k.toNat) 32 (v.rdZ f.a).toNat 0 then .jump (v.pc + f.o.toNat) else .seq))

/-- Iterations of LOOPI. -/
def tripCount (f : TC) (v : Invocation) : Nat :=
  let n := f.k.toNat + 1
  if f.a = 0 then n else (min (signedOf 32 (v.rdZ f.a).toNat) n).toNat

/-- LOOPI. -/
def execThrLoopi (f : TC) (s : State) : Out :=
  thrInstr s (fun s v =>
    let stop := v.pc + 1 + f.o.toNat
    match tripCount f v with
    | 0 => (s, v, .jump stop)
    | k + 1 => (s, { v with trip := some { start := v.pc + 1, stop := stop, left := k } }, .jump (v.pc + 1)))

/-- FWD. -/
def execThrFwd (_ : TC) (s : State) : Out := thrPure s (fun v => { v with disp := .fwd })

/-- DROP. -/
def execThrDrop (_ : TC) (s : State) : Out := thrPure s (fun v => { v with disp := .drop })

/-- REDIR. -/
def execThrRedir (f : TC) (s : State) : Out := thrPure s (fun v => { v with disp := .redir (v.rdZ f.a) })

/-- TRAP. -/
def execThrTrap (f : TC) (s : State) : Out := thrInstr s (fun s v => (s, v, .trap 0x03 f.o.toNat))

/-- END. -/
def execThrEnd (_ : TC) (s : State) : Out := thrInstr s (fun s v => (s, v, .stop))

/-! ### Starting an invocation (R424, R446) -/

/-- The invocation of a kernel on its inputs: every register 0, the disposition FWD. -/
def Invocation.start (k : Kernel) (i : InvSpec) (gone : Bool) : Invocation :=
  { w := Vector.replicate 16 0, z := Vector.replicate 16 0,
    window := (i.input ++ List.replicate 256 0).take 256 ++ (i.partialIn ++ List.replicate 256 0).take 256,
    disp := .fwd, trip := none, pc := 0, last := 0, left := k.bound, kernel := k, binGone := gone, spec := i }

/-- Whether a kernel's bin set resolves GONE at the entry's own sync engine, where a recall that has begun answers GONE (R214, R440). A bin
set of another module is none of this switch's bin memory (R428). -/
def State.binsGone (s : State) (k : Kernel) : Bool :=
  match k.bins with
  | some nm => s.dev.goneByName nm || !(s.dev.claim? nm).any (fun c => s.dev.ownClaim c && c.visible k.tenant && c.state == .live)
  | none => true

def Dev.kernel? (d : Dev) (nm : ClaimName) : Option Kernel := d.kernels.find? (fun k => k.name == nm)

/-! ### A whole invocation (R425 to R427, R446) -/

/-- The meaning of a thresher instruction. -/
def thrExec (i : Instr) (s : State) : Out :=
  match i with
  | .thrAdd f => execThrAdd f s
  | .thrSub f => execThrSub f s
  | .thrMul f => execThrMul f s
  | .thrFma f => execThrFma f s
  | .thrMin f => execThrMin f s
  | .thrMax f => execThrMax f s
  | .thrAbs f => execThrAbs f s
  | .thrNeg f => execThrNeg f s
  | .thrAnd f => execThrAnd f s
  | .thrOr f => execThrOr f s
  | .thrXor f => execThrXor f s
  | .thrShl f => execThrShl f s
  | .thrShr f => execThrShr f s
  | .thrSra f => execThrSra f s
  | .thrAdds f => execThrAdds f s
  | .thrSel f => execThrSel f s
  | .thrEx2 f => execThrEx2 f s
  | .thrLg2 f => execThrLg2 f s
  | .thrCmp f => execThrCmp f s
  | .thrCvt f => execThrCvt f s
  | .thrMovi f => execThrMovi f s
  | .thrAddi f => execThrAddi f s
  | .thrVext f => execThrVext f s
  | .thrVbc f => execThrVbc f s
  | .thrHdr f => execThrHdr f s
  | .thrPld f => execThrPld f s
  | .thrPst f => execThrPst f s
  | .thrBld f => execThrBld f s
  | .thrBst f => execThrBst f s
  | .thrBamo f => execThrBamo f s
  | .thrBr f => execThrBr f s
  | .thrBc f => execThrBc f s
  | .thrLoopi f => execThrLoopi f s
  | .thrFwd f => execThrFwd f s
  | .thrDrop f => execThrDrop f s
  | .thrRedir f => execThrRedir f s
  | .thrTrap f => execThrTrap f s
  | .thrEnd f => execThrEnd f s
  | _ => .next s

/-- The instruction that the invocation fetches next. -/
def Invocation.fetch (v : Invocation) : Except Reject Instr := decodeThr ((v.kernel.words.getD v.pc 0).toNat)

/-- The invocation runs to its end; `fuel` is its bound (R446). -/
def runThr : Nat → State → State
  | 0, s => s
  | fuel + 1, s =>
    match s.thr with
    | none => s
    | some v =>
      match v.fetch with
      | .error _ => s
      | .ok i =>
        match thrExec i s with
        | .next t => runThr fuel t
        | _ => s

/-- A kernel runs on one input: the state after it, how it ended, and the window it leaves. A poisoned input is a trap
without a run (R426, R427). -/
def State.runKernel (s : State) (k : Kernel) (i : InvSpec) : State × ThrEnd × List Byte :=
  if i.poisoned then (s.thrTrapped i 0x04 0 0 true, .trap 0x04 0 0, i.input ++ i.partialIn)
  else
    let t := runThr (k.bound + 1) { s with thr := some (Invocation.start k i (s.binsGone k)), results := [] }
    let r : InvSpec × ThrEnd × List Byte := t.results.headD (i, .disp .fwd, i.input ++ i.partialIn)
    ({ t with thr := s.thr, results := s.results }, r.2.1, r.2.2)

/-! ### The checks of a load (R445) -/

/-- The words just past an instruction that control may reach, as distances; an END or a TRAP reaches none. -/
def thrExits (i : Instr) : List Nat :=
  match i with
  | .thrBr f => [f.o.toNat]
  | .thrBc f => [1, f.o.toNat]
  | .thrEnd _ | .thrTrap _ => []
  | _ => [1]

/-- The worst case of each word of a stretch without LOOPI, and 0 past it. -/
def bodyCosts : List Instr → List Nat
  | [] => [0]
  | i :: rest =>
    let cs := bodyCosts rest
    (1 + ((thrExits i).map (fun o => cs.getD (o - 1) 0)).foldl max 0) :: cs

/-- The worst case of each word, LOOPI as 1 plus its iterations times its body's. -/
def thrCosts : List Instr → List Nat
  | [] => [0]
  | i :: rest =>
    let cs := thrCosts rest
    (match i with
     | .thrLoopi f => 1 + (f.k.toNat + 1) * (bodyCosts (rest.take f.o.toNat)).headD 0 + cs.getD f.o.toNat 0
     | _ => 1 + ((thrExits i).map (fun o => cs.getD (o - 1) 0)).foldl max 0) :: cs

/-- The bodies of the loops: the first word and the word past the last. -/
def loopBodies (ws : List Instr) : List (Nat × Nat) :=
  ws.zipIdx.filterMap (fun q => match q.1 with
    | .thrLoopi f => some (q.2 + 1, q.2 + 1 + f.o.toNat)
    | _ => none)

/-- A body of R442: 1 to 64 words inside the kernel, no LOOPI, and no END but as its last word. -/
def bodyGood (ws : List Instr) (b : Nat × Nat) : Bool :=
  decide (b.1 < b.2) && decide (b.2 ≤ b.1 + 64) && decide (b.2 ≤ ws.length) &&
    (((ws.take b.2).drop b.1).zipIdx).all (fun q => match q.1 with
      | .thrLoopi _ => false
      | .thrEnd _ => b.1 + q.2 + 1 == b.2
      | _ => true)

/-- The target of a branch. -/
def branchTarget (i : Instr) (w : Nat) : Option Nat :=
  match i with
  | .thrBr f => some (w + f.o.toNat)
  | .thrBc f => some (w + f.o.toNat)
  | _ => none

/-- A branch goes forward to a word of the kernel, or just past a body at its end, and enters and leaves no body (R441,
R442). -/
def branchGood (n : Nat) (bs : List (Nat × Nat)) (w t : Nat) : Bool :=
  decide (w < t) && (decide (t < n) || (t == n && bs.any (fun b => b.2 == n))) &&
    bs.all (fun b => if b.1 ≤ w ∧ w < b.2 then decide (t ≤ b.2) else !(decide (b.1 ≤ t) && decide (t < b.2)))

/-- Whether an instruction is a bin op. -/
def isBinOp (i : Instr) : Bool :=
  match i with
  | .thrBld _ | .thrBst _ | .thrBamo _ => true
  | _ => false

/-- The header of an image (R444). -/
structure KernelHeader where
  nw : Nat
  slot : Bool
  forward : Bool
  bins : Bool
  bound : Nat
  binset : ClaimName
  deriving DecidableEq, Repr

/-- The header, where its fields are as R444 has them. -/
def headerOf (bs : List Byte) : Option KernelHeader :=
  let a := natOfBytes (bs.take 4)
  let b := natOfBytes ((bs.drop 4).take 4)
  let h : KernelHeader :=
    { nw := bitsAt a 8 0, slot := bitsAt a 16 16 == 1, forward := bitsAt a 17 17 == 1, bins := bitsAt a 18 18 == 1,
      bound := bitsAt b 7 0, binset := BitVec.ofNat 128 (natOfBytes ((bs.drop 16).take 16)) }
  if decide (1 ≤ h.nw) && decide (h.nw ≤ 256) && bitsAt a 15 9 == 0 && bitsAt a 31 19 == 0 && bitsAt b 31 8 == 0 &&
      natOfBytes ((bs.drop 8).take 8) == 0 && (!h.forward || !h.slot) && (h.bins || h.binset == 0) &&
      bs.length == 32 + 4 * h.nw then some h
  else none

/-- The words of an image. -/
def imageWords (bs : List Byte) (n : Nat) : List (BitVec 32) :=
  (List.range n).map (fun i => BitVec.ofNat 32 (natOfBytes ((bs.drop (32 + 4 * i)).take 4)))

/-- The instructions of an image's words, where every word decodes (R431). -/
def decodeAll : List (BitVec 32) → Option (List Instr)
  | [] => some []
  | w :: ws => match decodeThr w.toNat, decodeAll ws with
    | .ok i, some is => some (i :: is)
    | _, _ => none

/-- The checks 3, 4 and 6 of R445. -/
def kernelShape (ws : List Instr) (bound : Nat) : Bool :=
  let bs := loopBodies ws
  let worst := (thrCosts ws).headD 0
  bs.all (bodyGood ws) && ws.zipIdx.all (fun q => ((branchTarget q.1 q.2).map (branchGood ws.length bs q.2)).getD true) &&
    decide (worst ≤ 96) && worst == bound

/-- The checks of R445 on an image for a tenant, and the kernel it makes. -/
def State.kernelOf (s : State) (tenant : Nat) (bs : List Byte) (nm : ClaimName) : Option Kernel :=
  (headerOf bs).bind (fun h => (decodeAll (imageWords bs h.nw)).bind (fun is =>
    let binOk := if h.bins then (s.dev.claim? h.binset).any (fun c => c.ty == .bins && c.owner == tenant && c.state == .live)
      else !is.any isBinOp
    if kernelShape is h.bound && binOk then
      some { name := nm, tenant := tenant, words := imageWords bs h.nw, slot := h.slot, forward := h.forward,
             bins := if h.bins then some h.binset else none, bound := h.bound, traps := 0 }
    else none))

/-- ATTR of a kernel, its traps apart (R445). -/
def kernelAttr (k : Kernel) : X64 :=
  BitVec.ofNat 64 (k.words.length + 2 ^ 9 * k.bound + (if k.slot then 2 ^ 17 else 0) + (if k.forward then 2 ^ 18 else 0))

end Sys2Proof.Machine
end

