-- ==== Sys2Proof/Machine/Coll.lean ====
section
/-! DEFINITION. Collectives (R405 to R423): COLL and its checks, a round's walk, exact and compressed modes, and the slot
pass of this module's switch. -/

namespace Sys2Proof.Machine

/-! ### The record (R405, R406) -/

/-- Field `hi:lo` of the little-endian field at byte `o`. -/
def recField (bs : List Byte) (o hi lo : Nat) : Nat := bitsAt (natOfBytes ((bs.drop o).take 16)) hi lo

/-- The six coefficients of an affine form. -/
def formAt (bs : List Byte) (o : Nat) : List Int :=
  (List.range 6).map (fun i => signedOf 16 (natOfBytes ((bs.drop (o + 2 * i)).take 2)))

/-- The bytes that the digest of R408 covers. -/
def digestBytes (bs : List Byte) : List Byte :=
  (bs.drop 24).take 16 ++ (bs.drop 96).take 80 ++ (bs.drop 192).take 64

/-- The record in 256 bytes, for device `index`. -/
def collRecOf (bs : List Byte) (addr : X64) (home : List Part) (index : Nat) (collto : X64) : CollRec :=
  let n := recField bs 24 61 56 + 1
  let members := (List.range n).map (fun m => natOfBytes ((bs.drop (192 + m)).take 1))
  let tmo := recField bs 32 31 0
  { addr := addr, home := home, name := BitVec.ofNat 128 (recField bs 0 127 0), key := BitVec.ofNat 64 (recField bs 16 63 0),
    n := n, alg := recField bs 24 55 54, arith := recField bs 24 53 51, dfmt := recField bs 24 50 50 == 1,
    levels := recField bs 24 49 48 + 1, accsteps := recField bs 24 47 32, ntile := recField bs 24 31 16,
    tileq := recField bs 24 15 0, timeout := if tmo = 0 then collto.toNat % 2 ^ 32 else tmo, work := recField bs 40 20 0,
    glean := recField bs 48 20 0, kernel := BitVec.ofNat 128 (recField bs 64 127 0),
    bounds := (List.range 4).map (fun l => recField bs (96 + 8 * l) 31 0), speer := formAt bs 128, stile := formAt bs 140,
    rpeer := formAt bs 152, rtile := formAt bs 164, members := members, digest := Config.recordDigest (digestBytes bs),
    rank := members.findIdx (fun m => m == index) }

/-- 256-byte blocks of the buffer, and its bytes. -/
def CollRec.blocks (r : CollRec) : Nat := r.tileq * r.ntile
def CollRec.bytes (r : CollRec) : Nat := 256 * r.blocks

/-- Whether the mode keeps exponent words. -/
def CollRec.scaled (r : CollRec) : Bool := r.arith == 1 || r.arith == 5

/-- A scratch range of the mode: a multiple of 256 inside the local store. -/
def scratchOk (o n : Nat) : Bool := o % 256 == 0 && decide (o + n ≤ lsSize)

/-- Reserved bits of the record are 0 (R405). -/
def recReserved (bs : List Byte) : Bool :=
  recField bs 24 63 62 == 0 && recField bs 32 63 32 == 0 && recField bs 40 63 21 == 0 && recField bs 48 63 21 == 0 &&
    recField bs 56 21 16 == 0 && recField bs 80 127 0 == 0 && recField bs 176 127 0 == 0 &&
    (List.range 4).all (fun l => recField bs (96 + 8 * l) 63 32 == 0)

/-- The conditions of R406 on a record. -/
def collOk (bs : List Byte) (r : CollRec) (index : Nat) : Bool :=
  r.key != 0 && recReserved bs && r.alg != 3 && decide (r.arith < 6) && decide (0 < r.tileq) && decide (0 < r.ntile) &&
    decide (r.tileq ≤ 4096) &&
    (List.range 4).all (fun l =>
      let b := r.bounds.getD l 0
      if l < r.levels then decide (0 < b) && decide (b ≤ 65535)
      else b == 0 && [r.speer, r.stile, r.rpeer, r.rtile].all (fun f => f.getD l 0 == 0)) &&
    decide (r.accsteps ≤ r.bounds.getD 0 0) && (!r.dfmt || r.arith == 1) && (r.arith != 5 || r.alg == 0) &&
    (r.members.filter (fun m => m == index)).length == 1 &&
    (List.range 64).all (fun m => decide (m < r.n) || natOfBytes ((bs.drop (192 + m)).take 1) == 0) &&
    (!r.scaled || scratchOk r.work (4 * r.blocks)) && (r.arith != 5 || scratchOk r.glean (256 * r.blocks))

/-- The formats of SRC and DST (R406). -/
def CollRec.srcFmt (r : CollRec) : Fmt := if r.arith = 0 then .int32 else .fp32
def CollRec.dstFmt (r : CollRec) : Fmt := if r.arith = 0 then .int32 else if r.dfmt then .bfp64 else .fp32

/-- Whether the entries of a range hold RAW or a format. -/
def fmtRaw (l : List Stretch) (t : Fmt) : Bool :=
  l.all (fun q => (q.entry.map (fun e => e.fmt == .raw || e.fmt == t)).getD false)

/-- The record that a COLL reads, with its bytes. -/
def State.collRecord (s : State) (a : X64) : List Byte × CollRec :=
  let ps := s.partsOf (s.stretch a.toNat 256)
  let bs := (s.readParts s.view ps).map (·.1)
  (bs, collRecOf bs a ps s.dev.ident.index s.core.regs.sys.collto)

/-! ### COLL (R406, R407) -/

def chkColl (f : EA) (s : State) : Chk :=
  let a := s.rdX f.a
  let q := s.collRecord a
  let src := s.stretch (s.rdX f.b).toNat q.2.bytes
  let dst := s.stretch (s.rdX f.c).toNat q.2.bytes
  (s.needCtl f.a).and ((s.needCtl f.b).and ((s.needCtl f.c).and
  ((need (a.toNat % 64 == 0) 0x08 a).and
  ((rangeChk [.load] (s.stretch a.toNat 256)).and
  ((need (collOk q.1 q.2 s.dev.ident.index) 0x08 a).and
  ((mixedChk (src.map (fun x => (Perm.load, x)) ++ dst.map (fun x => (Perm.load, x)) ++
      dst.map (fun x => (Perm.store, x)))).and
  ((need (fmtRaw src q.2.srcFmt) 0x08 (s.rdX f.b)).and
  ((need (fmtRaw dst q.2.dstFmt) 0x08 (s.rdX f.c)).and
  ((need ((s.rdX f.b).toNat % 256 == 0) 0x08 (s.rdX f.b)).and
  ((need ((s.rdX f.c).toNat % 256 == 0) 0x08 (s.rdX f.c)).and
  (s.needGate.and (s.needRoom Cmd.isCopy 16))))))))))))

/-- COLL: the record is read and captured with the ranges, and the command waits in the gate. -/
def execColl (f : EA) (s : State) : Out :=
  issueOp s (chkColl f s) (s.readyRoom Cmd.isCopy 16) (fun s =>
    let r := (s.collRecord (s.rdX f.a)).2
    (s.chargeParts s.strandIdx r.home).gateCmd (s.px f.d) (.coll r (s.partsOf (s.stretch (s.rdX f.b).toNat r.bytes))
      (s.partsOf (s.stretch (s.rdX f.c).toNat r.bytes))))

/-! ### The walk's tuples (R409) -/

/-- Iterations of the nest. -/
def CollRec.total (r : CollRec) : Nat := ((r.bounds.take r.levels).foldl (· * ·) 1)

/-- The indices of iteration `k`, the innermost fastest. -/
def tupleOf : List Nat → Nat → List Nat
  | [], _ => []
  | b :: bs, k =>
    let inner := bs.foldl (· * ·) 1
    (if inner = 0 ∨ b = 0 then 0 else k / inner % b) :: tupleOf bs k

/-- An affine form at an iteration and rank, modulo `mo`. -/
def formVal (f : List Int) (idx : List Nat) (rank mo : Nat) : Nat :=
  let lin := ((List.range 4).map (fun l => f.getD l 0 * (idx.getD l 0 : Nat))).foldl (· + ·) (0 : Int)
  ((lin + f.getD 4 0 * rank + f.getD 5 0) % (mo : Int)).toNat

def CollRec.idx (r : CollRec) (k : Nat) : List Nat := tupleOf (r.bounds.take r.levels) k

def CollRec.sendPeer (r : CollRec) (k : Nat) : Nat := formVal r.speer (r.idx k) r.rank r.n
def CollRec.sendTile (r : CollRec) (k : Nat) : Nat := formVal r.stile (r.idx k) r.rank r.ntile
def CollRec.recvPeer (r : CollRec) (k : Nat) : Nat := formVal r.rpeer (r.idx k) r.rank r.n
def CollRec.recvTile (r : CollRec) (k : Nat) : Nat := formVal r.rtile (r.idx k) r.rank r.ntile

/-- Whether the receive of an iteration accumulates. -/
def CollRec.accumulates (r : CollRec) (k : Nat) : Bool := decide ((r.idx k).headD 0 < r.accsteps)

/-! ### Arithmetic of a round (R411 to R416) -/

/-- The identity that a dropped contribution enters as (R411). -/
def collIdentity (arith : Nat) : Nat :=
  match arith with
  | 2 => 0x80000000
  | 3 => 0xFF800000
  | 4 => 0x7F800000
  | _ => 0

/-- Accumulate element `e` into `d` (R411). -/
def collAccum (arith : Nat) (d e : BitVec 32) : BitVec 32 :=
  let fl := fun (g : Num → Num → Num) =>
    BitVec.ofNat 32 (roundFloat .fp32 .rne false 0 (g (decodeFloat .fp32 d.toNat) (decodeFloat .fp32 e.toNat))).bits
  match arith with
  | 2 => fl (addNum .rne)
  | 3 => fl maxNum
  | 4 => fl minNum
  | _ => d + e

/-- The smallest exponent from `x` up that fits, 255 when none does. -/
def leastExp (ok : Nat → Bool) : Nat → Nat → Nat
  | 0, _ => 255
  | fuel + 1, x => if ok x then x else leastExp ok fuel (x + 1)

/-- The local exponent of a block in exact mode (R413). -/
def exactExp (xs : List Num) : Nat :=
  leastExp (fun x => xs.all (fun v => fits24 (roundInt .rne 0 (v.scale (150 - (x : Int)))))) 256 0

/-- The local exponent of a block in compressed mode (R414). -/
def packedExp (vs : List Num) : Nat :=
  leastExp (fun x => vs.all (fun v => decide (roundInt .rne 0 (v.abs.scale (129 - (x : Int))) ≤ 7))) 256 0

/-- A block of a list of words. -/
def blockOf {α : Type} (l : List α) (b : Nat) : List α := (l.drop (64 * b)).take 64

/-- The sums x + g of a block in compressed mode. -/
def gleanSums (xs gs : List (BitVec 32)) : List Num :=
  List.zipWith (fun x g => decodeFloat .fp32 (roundFloat .fp32 .rne false 0
    (addNum .rne (decodeFloat .fp32 x.toNat) (decodeFloat .fp32 g.toNat))).bits) xs gs

/-- Whether a block's contribution is dropped, and its local exponent (R413 to R415). -/
def CollRec.localBlock (r : CollRec) (xs gs : List (BitVec 32)) (bad : Bool) : Bool × Nat :=
  if r.arith = 1 then
    let vs := xs.map (fun x => decodeFloat .fp32 x.toNat)
    if bad || !vs.all Num.isFinite then (true, 0) else (false, exactExp vs)
  else if r.arith = 5 then
    let vs := gleanSums xs gs
    if bad || !vs.all Num.isFinite then (true, 0) else (false, packedExp vs)
  else (bad, 0)

/-- A block's seed under the agreed exponent, its saturation mark and its new gleanings (R411, R413, R414). -/
def CollRec.seedBlock (r : CollRec) (xs gs : List (BitVec 32)) (dropped : Bool) (x : Nat) :
    List (BitVec 32) × Bool × List (BitVec 32) :=
  if dropped then (List.replicate 64 (BitVec.ofNat 32 (collIdentity r.arith)), false, gs)
  else if r.arith = 1 then
    let ms := xs.map (fun w => roundInt .rne 0 ((decodeFloat .fp32 w.toNat).scale (150 - (x : Int))))
    (ms.map (fun m => BitVec.ofInt 32 (satInt 24 m)), ms.any (fun m => !fits24 m), gs)
  else if r.arith = 5 then
    let vs := gleanSums xs gs
    let ms := vs.map (fun v => roundInt .rne 0 (v.scale (129 - (x : Int))))
    (ms.map (BitVec.ofInt 32), false,
     List.zipWith (fun v m => BitVec.ofNat 32 (roundFloat .fp32 .rne false 0
       (subNum .rne v ((Num.ofInt m).scale ((x : Int) - 129)))).bits) vs ms)
  else (xs, false, gs)

/-- The smallest shift that brings every sum into a mantissa (R416). -/
def leastShift (ss : List Int) : Nat :=
  leastExp (fun k => ss.all (fun v => fits24 (roundInt .rne 0 ((Num.ofInt v).scale (-(k : Int)))))) 33 0

/-- A finished block as DST receives it (R416). -/
def CollRec.finalBlock (r : CollRec) (ws : List (BitVec 32)) (x count : Nat) (sat : Bool) : List (BitVec 32) :=
  if r.arith = 1 && r.dfmt then
    let ss := ws.map (fun w => w.toInt)
    let k := leastShift ss
    (bfpWords { x := min (x + k) 255, poisoned := decide (0 < count), saturated := sat || decide (255 < x + k),
                dropped := min count 63, m := ss.map (fun v => roundInt .rne 0 ((Num.ofInt v).scale (-(k : Int)))) }).map
      (BitVec.ofNat 32)
  else if r.scaled then
    let e : Int := (x : Int) - (if r.arith = 1 then 150 else 129)
    ws.map (fun w => BitVec.ofNat 32 (roundFloat .fp32 .rne false 0 ((Num.ofInt w.toInt).scale e)).bits)
  else ws

/-! ### A round (R407 to R410) -/

/-- Words of little-endian bytes with whether any byte of the word is poisoned. -/
def wordsOf : List (Byte × Bool) → List (BitVec 32 × Bool)
  | a :: b :: c :: d :: t =>
    (BitVec.ofNat 32 (natOfBytes [a.1, b.1, c.1, d.1]), a.2 || b.2 || c.2 || d.2) :: wordsOf t
  | _ => []

/-- The four bytes of each word. -/
def beatBytes (ws : List (BitVec 32)) : List Byte := (ws.map (fun w => bytesOfNat 4 w.toNat)).flatten

/-- Per-block drop flags and local exponents. -/
def Round.locals (r : Round) : List (Bool × Nat) :=
  (List.range r.record.blocks).map (fun b =>
    r.record.localBlock (blockOf r.srcWords b) (blockOf r.glean b) (r.srcBad.getD b false))

/-- List `l` with the elements from `i` replaced by `xs`. -/
def splice {α : Type} (l : List α) (i : Nat) (xs : List α) : List α := l.take i ++ xs ++ l.drop (i + xs.length)

/-- The global addresses of the parts of a range. -/
def State.rangeAddrs (s : State) (ps : List Part) : List Nat := (ps.map s.partAddrs).flatten

/-- Offsets of a scratch range as global addresses. -/
def scratchAddrs (o n : Nat) : List Nat := (List.range n).map (fun i => ownLs (o + i))

/-- Words with their poison are written at these byte addresses. -/
def State.putWords (s : State) (addrs : List Nat) (ws : List (BitVec 32 × Bool)) : State :=
  let q := addrs.zip ((ws.map (fun w => (bytesOfNat 4 w.1.toNat).map (fun b => (b, w.2)))).flatten)
  s.engineStore (q.map (fun c => (c.1, c.2.1))) ((q.filter (fun c => c.2.2)).map (·.1))

/-- `n` blocks of DST from block `b` on, read or written, are charged (R461). -/
def State.chargeDst (s : State) (r : Round) (b n : Nat) : State :=
  s.chargeHomes r.id (((s.rangeAddrs r.dst).drop (256 * b)).take (256 * n))

/-- `n` blocks of DST from block `b` on, as memory holds them. -/
def State.dstWords (s : State) (r : Round) (b n : Nat) : List (BitVec 32 × Bool) :=
  wordsOf (((s.readParts s.mem r.dst).drop (256 * b)).take (256 * n))

/-- What DST and WORK hold now is among what an aborted round may leave (R420). -/
def Round.keepPast (r : Round) (s : State) : Round :=
  { r with
    past := r.past ++ [s.readParts s.mem r.dst],
    pastWork := if r.record.scaled then
        r.pastWork ++ [(scratchAddrs r.record.work (4 * r.record.blocks)).map (fun a => (s.mem.byte a, s.mem.poisoned a))]
      else r.pastWork }

/-- Words are written into DST from block `b` on. -/
def State.putDst (s : State) (r : Round) (b : Nat) (ws : List (BitVec 32 × Bool)) : State × Round :=
  let t := (s.chargeDst r b ((ws.length + 63) / 64)).putWords ((s.rangeAddrs r.dst).drop (256 * b)) ws
  (t, r.keepPast t)

/-- The exponent words stand in WORK (R413). -/
def State.writeWork (s : State) (r : Round) : State × Round :=
  if r.record.scaled then
    let t := s.engineStore (cellsAt (ownLs r.record.work) ((r.exps.map (bytesOfNat 4)).flatten)) []
    (t, r.keepPast t)
  else (s, r)

/-- The exponent words as WORK holds them; a poisoned one is a poisoned contribution of its block (R415). -/
def State.readWork (s : State) (r : Round) : Round :=
  if r.record.scaled then
    let ws := wordsOf ((scratchAddrs r.record.work (4 * r.record.blocks)).map (fun a => (s.mem.byte a, s.mem.poisoned a)))
    { r with exps := ws.map (fun w => if w.2 then 0 else w.1.toNat),
             drops := List.zipWith (fun d w => if w.2 then max d 1 else d) r.drops ws }
  else r

/-- DST is seeded (R411). -/
def State.seedRound (s : State) (r : Round) : State × Round :=
  let bs := (List.range r.record.blocks).map (fun b =>
    r.record.seedBlock (blockOf r.srcWords b) (blockOf r.glean b) (decide (0 < r.drops.getD b 0)) (r.exps.getD b 0))
  s.putDst { r with sats := bs.map (·.2.1), glean := (bs.map (·.2.2)).flatten } 0 (((bs.map (·.1)).flatten).map (fun w => (w, false)))

/-! ### Messages of the walk (R409, R410, R414, R415) -/

/-- A block's 64 words as 4-bit sign-magnitude mantissas in 8 words, and back (R414). -/
def packBlock (ws : List (BitVec 32)) : List (BitVec 32) :=
  (List.range 8).map (fun i => BitVec.ofNat 32 (ofLanes 4 (((ws.drop (8 * i)).take 8).map (fun w =>
    w.toInt.natAbs % 8 + (if w.toInt < 0 then 8 else 0)))))

def unpackBlock (ws : List (BitVec 32)) : List (BitVec 32) :=
  ((ws.take 8).map (fun w => (lanesOf 4 8 w.toNat).map (fun n =>
    if n < 8 then BitVec.ofNat 32 n else -(BitVec.ofNat 32 (n - 8))))).flatten

/-- The 64 words of block `j` of a message. -/
def msgBlock (m : CollMsg) (packed : Bool) (j : Nat) : List (BitVec 32) :=
  if packed then unpackBlock ((m.data.drop (8 * j)).take 8) else blockOf m.data j

/-- A block of DST as it is sent: a poisoned one as the identity, with a drop count of 1 (R415). -/
def CollRec.sentBlock (c : CollRec) (ws : List (BitVec 32 × Bool)) (drops : Nat) : List (BitVec 32) × Nat :=
  if ws.any (·.2) then (List.replicate 64 (BitVec.ofNat 32 (collIdentity c.arith)), 1) else (ws.map (·.1), drops)

/-- The message of a send: the tile as DST holds it. -/
def State.tileMessage (s : State) (r : Round) (k : Nat) : CollMsg :=
  let c := r.record
  let tile := c.sendTile k
  let ws := s.dstWords r (c.tileq * tile) c.tileq
  let bs := (List.range c.tileq).map (fun j => c.sentBlock (blockOf ws j) (r.drops.getD (c.tileq * tile + j) 0))
  { tenant := r.tenant, key := c.key, round := r.q, iter := k, fromRank := c.rank, toRank := c.sendPeer k, tile := tile,
    digest := c.digest, agree := false,
    data := (bs.map (fun b => if c.arith = 5 then packBlock b.1 else b.1)).flatten,
    drops := bs.map (·.2), satmarks := (r.sats.drop (c.tileq * tile)).take c.tileq,
    exps := if c.arith = 5 then (r.exps.drop (c.tileq * tile)).take c.tileq else [] }

/-- The message of a step of the agreement (R413). -/
def Round.expsMessage (r : Round) (step : Nat) : CollMsg :=
  let c := r.record
  { tenant := r.tenant, key := c.key, round := r.q, iter := step, fromRank := c.rank, toRank := (c.rank + 1) % c.n, tile := 0,
    digest := c.digest, agree := true, data := [], drops := [], satmarks := [], exps := r.exps }

/-- The message of the receive of a tuple is applied to its tile (R409, R411, R413, R415). -/
def State.applyTile (s : State) (r : Round) (k : Nat) (m : CollMsg) : State × Round :=
  let c := r.record
  let acc := c.accumulates k
  let o := c.tileq * c.recvTile k
  let old := s.dstWords r o c.tileq
  let new := (List.range c.tileq).map (fun j => msgBlock m (c.arith == 5) j)
  let ws := if acc then List.zipWith (fun (d : BitVec 32 × Bool) e => (collAccum c.arith d.1 e, d.2)) old new.flatten
    else new.flatten.map (fun w => (w, false))
  let oldD := (r.drops.drop o).take c.tileq
  let oldS := (r.sats.drop o).take c.tileq
  (if acc then s.chargeDst r o c.tileq else s).putDst { r with
    drops := splice r.drops o (if acc then List.zipWith (· + ·) oldD m.drops else m.drops.take c.tileq),
    sats := splice r.sats o (if acc then List.zipWith (· || ·) oldS m.satmarks else m.satmarks.take c.tileq),
    got := k :: r.got } o ws

/-- Whether a message matches the receive of its iteration (R409). -/
def Round.matches (r : Round) (m : CollMsg) : Bool :=
  m.agree || decide (r.record.total ≤ m.iter) ||
    (m.fromRank == r.record.recvPeer m.iter && m.tile == r.record.recvTile m.iter)

/-- Whether the send of a tuple may read its tile: the receives into it before are complete, and the sends to its peer before have left
(R410). -/
def Round.maySend (r : Round) (k : Nat) : Bool :=
  let c := r.record
  !r.sent.contains k && (List.range k).all (fun j =>
    (c.recvTile j != c.sendTile k || r.got.contains j) && (c.sendPeer j != c.sendPeer k || r.sent.contains j))

/-- Whether the message of a tuple may be applied: the sends of its tile up to and at the tuple have read it (R410); the receives into one
tile are applied in tuple order (R412). -/
def Round.mayTake (r : Round) (k : Nat) : Bool :=
  let c := r.record
  !r.got.contains k && (List.range (k + 1)).all (fun j => c.sendTile j != c.recvTile k || r.sent.contains j) &&
    (List.range k).all (fun j => c.recvTile j != c.recvTile k || r.got.contains j)

/-- The first tuple whose message is here and may be applied. -/
def Round.taking (r : Round) : Option (Nat × CollMsg) :=
  (List.range r.record.total).findSome? (fun k =>
    if r.mayTake k then
      (r.early.find? (fun m => !m.agree && m.iter == k && m.fromRank == r.record.recvPeer k)).map (fun m => (k, m))
    else none)

/-- What a round's progress brings: it waits, it is finished, or it aborts. -/
inductive RoundEnd where
  | waits
  | finished
  | aborts
  deriving DecidableEq, Repr

/-- A message goes out; its bytes are charged for their hops (R461). -/
def State.sendOut (s : State) (r : Round) (m : CollMsg) : State :=
  (s.chargeEngine r.id (4 * m.data.length + 4 * m.exps.length) (s.dev.hops (r.record.members.getD m.toRank 0))).mapDev (fun d =>
    { d with collOut := d.collOut ++ [m] })

/-- The walk goes on as far as the messages present let it, each tile in its own order (R409, R410). `fuel` bounds its steps. -/
def State.walk : Nat → State → Round → State × Round × RoundEnd
  | 0, s, r => (s, r, .waits)
  | fuel + 1, s, r =>
    let c := r.record
    match (List.range c.total).find? r.maySend with
    | some k =>
      if c.arith == 5 && (List.range k).any (fun j => r.got.contains j && c.recvTile j == c.sendTile k) then (s, r, .aborts)
      else
        let m := s.tileMessage r k
        let s := s.chargeDst r (c.tileq * c.sendTile k) c.tileq
        let r := { r with sent := k :: r.sent }
        if c.sendPeer k = c.rank then
          if r.matches m then State.walk fuel s { r with early := r.early ++ [m] } else (s, r, .aborts)
        else State.walk fuel (s.sendOut r m) r
    | none =>
      match r.taking with
      | some q =>
        let a := s.applyTile r q.1 q.2
        State.walk fuel a.1 { a.2 with early := a.2.early.erase q.2 }
      | none => (s, r, if (List.range c.total).all (fun k => r.sent.contains k && r.got.contains k) then .finished else .waits)

/-- The walk begins: a message held for the round that does not match its receive ends it (R408, R409). -/
def State.beginTuples (s : State) (r : Round) : State × Round × RoundEnd :=
  if r.early.all r.matches then
    let q := s.seedRound { r with stage := .walking }
    State.walk (2 * r.record.total + 1) q.1 q.2
  else (s, r, .aborts)

/-- The exponents go round the ring: the maximum of those before, from the rank before, `n - 1` times (R413). -/
def State.agree : Nat → State → Round → State × Round × RoundEnd
  | 0, s, r => (s, r, .waits)
  | fuel + 1, s, r =>
    let c := r.record
    match r.stage with
    | .agreeing step sent =>
      let r := s.readWork r
      if c.n ≤ step + 1 then s.beginTuples r
      else if !sent then State.agree fuel (s.sendOut r (r.expsMessage step)) { r with stage := .agreeing step true }
      else
        let from_ := (c.rank + c.n - 1) % c.n
        let here := fun (m : CollMsg) => m.agree && m.iter == step && m.fromRank == from_
        match r.early.find? here with
        | some m =>
          let q := s.writeWork { r with exps := List.zipWith max r.exps m.exps, stage := .agreeing (step + 1) false,
                                        early := r.early.filter (fun x => !here x) }
          State.agree fuel q.1 q.2
        | none => (s, r, .waits)
    | _ => (s, r, .waits)

/-- A walk begins: after the exponents are agreed where the mode has them. -/
def State.beginWalk (s : State) (r : Round) : State × Round × RoundEnd :=
  if r.record.scaled then
    let q := s.writeWork { r with stage := .agreeing 0 false }
    State.agree (2 * r.record.n + 1) q.1 q.2
  else s.beginTuples r

/-- A round on a walk goes on with the messages it has. -/
def State.pumpRound (s : State) (r : Round) : State × Round × RoundEnd :=
  match r.stage with
  | .agreeing _ _ => State.agree (2 * r.record.n + 1) s r
  | .walking => State.walk (2 * r.record.total + 1) s r
  | _ => (s, r, .waits)

/-! ### The route tree (R388, R417, R419) -/

/-- The module beside another, by a port of the torus. -/
def torusBeside (a p : Nat) : Nat :=
  let x := a / 4 ^ (p / 2) % 4
  a - x * 4 ^ (p / 2) + (if p % 2 = 0 then (x + 1) % 4 else (x + 3) % 4) * 4 ^ (p / 2)

/-- The live modules by their distance from the first ones; `seen` holds those found. -/
def Net.rings (n : Net) : Nat → List Nat → List Nat → List (List Nat)
  | 0, _, _ => []
  | fuel + 1, front, seen =>
    let next := (((front.map (fun m => (List.range 6).map (torusBeside m))).flatten).filter (fun m =>
      n.live.contains m && !seen.contains m)).dedup
    front :: (if next.isEmpty then [] else n.rings fuel next (seen ++ next))

/-- The next hop from `a` to `b`: R388's, unless a lost module lies on its route. Then the lowest port to a live module nearest to `b`: a
detour's path is not architectural, and this one is the model's (DESIGN CHOICE, log 82). -/
def Net.step (n : Net) (a b : Nat) : Option (Nat × Nat) :=
  if (routeTo b 6 a).any n.lost.contains then
    let rs := n.rings 64 [b] [b]
    let far := fun (m : Nat) => rs.findIdx (fun l => l.contains m)
    (((List.range 6).map (fun p => (p, torusBeside a p))).find? (fun q => far q.2 + 1 == far a && decide (far a < rs.length))).orElse
      (fun _ => torusStep a b)
  else torusStep a b

/-- The modules on the way from one module to another. -/
def Net.path (n : Net) (b : Nat) : Nat → Nat → List Nat
  | 0, a => [a]
  | fuel + 1, a => match n.step a b with
    | none => [a]
    | some q => a :: n.path b fuel q.2

/-- The switches of the tree of a record: the routes of its members to the root. -/
def CollRec.tree (c : CollRec) (n : Net) : List Nat := ((c.members.map (fun m => n.path (c.members.headD 0) 64 m)).flatten).dedup

/-- The child ports of a module in the tree, ascending, with the modules behind them. -/
def CollRec.childPorts (c : CollRec) (n : Net) (dev : Nat) : List (Nat × Nat) :=
  (List.range 6).filterMap (fun p =>
    ((c.tree n).find? (fun m => match n.step m (c.members.headD 0) with
      | some q => q.2 == dev && q.1 / 2 == p / 2 && q.1 != p
      | none => false)).map (fun m => (p, m)))

/-- The port toward the root. -/
def CollRec.parentPort (c : CollRec) (n : Net) (dev : Nat) : Option Nat := (n.step dev (c.members.headD 0)).map (·.1)

/-- The domain as it is now. -/
def Dev.net (d : Dev) : Net :=
  { lost := d.ident.lost,
    live := (d.ident.index :: d.ident.members.map (·.1)).filter (fun m => !d.ident.lost.contains m) }

/-! ### Starting and ending a round on this device -/

def State.setRound (s : State) (r : Round) : State :=
  s.mapDev (fun d => { d with rounds := d.rounds.map (fun o => if o.id == r.id then r else o) })

/-- The command of a round has its token. -/
def State.collToken (s : State) (id : Nat) (v : X64) : State :=
  s.mapCore (fun c => { c with engs := c.engs.map (fun e => if e.id == id then { e with done := some v } else e) })

/-- A 64-bit word of the record, in memory. -/
def State.recordWord (s : State) (r : CollRec) (o : Nat) : Nat :=
  natOfBytes (((((s.readParts s.mem r.home).drop o).take 8)).map (·.1))

def State.recordPut (s : State) (r : CollRec) (o v : Nat) : State :=
  let addrs := ((r.home.map s.partAddrs).flatten.drop o).take 8
  s.engineStore (addrs.zip (bytesOfNat 8 v)) []

/-- DROPS of a round: the sum of the block counts, and what the exponent pass dropped (R416, R426). -/
def Round.dropCount (r : Round) : Nat := r.drops.sum + r.lostExps

/-- The word at 56 of the record, read or written by a round, is charged (R461). -/
def State.chargeWord (s : State) (r : Round) : State :=
  s.chargeHomes r.id (((r.record.home.map s.partAddrs).flatten.drop 56).take 8)

/-- ROUNDS, LAST, SLOTUSED, LEASED and DROPS are written back (R407). -/
def State.writeBackRecord (s : State) (r : Round) (status : Nat) (leased : Bool) : State :=
  (s.chargeWord r).recordPut r.record 56 (r.q % 2 ^ 32 * 2 ^ 32 + status * 2 ^ 24 + (if r.slots then 2 ^ 23 else 0) +
    (if leased then 2 ^ 22 else 0) + min r.dropCount 65535)

/-- A lease of this switch is over: its slot is free, its entry GONE, and its grant forgotten (R417). -/
def Dev.freeLease (d : Dev) (nm : ClaimName) : Dev :=
  { d with
    slots := d.slots.map (fun o => o.filter (fun q => q.2 != nm)),
    grants := d.grants.filter (fun g => g.lease != nm),
    claims := d.claims.map (fun c => if c.name == nm then { c with state := .gone } else c) }

/-- The leases of a record are freed, here and, for its root, on the other switches of its tree (R417). -/
def State.freeLeases (s : State) (nm : ClaimName) : State :=
  let rs := s.dev.records.filter (fun r => r.name == nm)
  s.mapDev (fun d =>
    let d := { d with
      records := d.records.filter (fun r => r.name != nm),
      requestsOut := d.requestsOut ++ (rs.map (fun r => r.switches.map (fun w => (w, r.tenant, r.key, true)))).flatten }
    (rs.map (·.leases)).flatten.foldl Dev.freeLease d)

/-- The bytes of an aborted round's buffer: each one of the values that it has had (R420). -/
def State.freeAmong (s : State) (addrs : List Nat) (past : List (List (Byte × Bool))) : State :=
  if past.isEmpty then s
  else
    let pick := addrs.zipIdx.map (fun q => (q.1, (past.getD (Config.freePick s.freeCtr q.1 % past.length) []).getD q.2 (0, false)))
    (s.engineStore (pick.map (fun q => (q.1, q.2.1))) ((pick.filter (fun q => q.2.2)).map (·.1))).bump

/-- What has come early for a round is over with it. -/
def Dev.endEarly (d : Dev) (r : Round) : Dev :=
  { d with
    earlyBeats := d.earlyBeats.filter (fun b => !(b.tenant == r.tenant && b.key == r.record.key && b.round == r.q)),
    earlyAborts := d.earlyAborts.filter (fun a => !(a.1 == r.tenant && a.2.1 == r.record.key && a.2.2.1 == r.q)),
    earlyDecisions := d.earlyDecisions.filter (fun m => !(m.tenant == r.tenant && m.key == r.record.key && m.round == r.q)) }

/-- The root of a round that ends before its decision gives back what its requests are granted: here, and on every other switch that has not
refused (R417). -/
def State.giveUp (s : State) (r : Round) : State :=
  if r.stage = .deciding ∧ r.record.rank = 0 then
    let mine := (s.dev.grants.filter (fun g => g.tenant == r.tenant && g.key == r.record.key)).map (·.lease)
    s.mapDev (fun d =>
      let d := mine.foldl Dev.freeLease d
      { d with requestsOut := d.requestsOut ++
          ((r.record.tree r.net).filter (fun w => !r.answers.contains (w, false))).map (fun w => (w, r.tenant, r.record.key, true)) })
  else s

/-- The round leaves this device with a status other than OK. One that has not started has no number, and its record is as it was. -/
def State.failRound (s : State) (r : Round) (status : Nat) : State :=
  let moved := status == 7 || status == 11
  let t := s.mapDev (fun d => Dev.endEarly { d with
    rounds := d.rounds.filter (fun o => o.id != r.id),
    aborted := if moved && r.stage != .queued then (r.tenant, r.record.key, r.q) :: d.aborted else d.aborted } r)
  if r.stage = .queued then t.collToken r.id (token status 0)
  else
    let t := if moved then t.freeAmong (s.rangeAddrs r.dst) r.past else t
    let t := if moved then t.freeAmong (scratchAddrs r.record.work (4 * r.record.blocks)) r.pastWork else t
    let t := if moved then t.giveUp r else t
    let t := if status = 7 then t.freeLeases r.record.name else t
    let leased := t.dev.records.any (fun q => q.name == r.record.name)
    (t.writeBackRecord r status leased).collToken r.id (token status 0)

/-- A member ends the round, and tells the others (R420). -/
def State.abortRound (s : State) (r : Round) (status : Nat) : State :=
  let t := s.failRound r status
  if r.stage = .queued then t
  else t.mapDev (fun d => { d with abortsOut := d.abortsOut ++ [(r.tenant, r.record.key, r.q, status)] })

/-- Where SRC and DST overlap in part, each byte of DST ends at the result or at what DST held before (R406). -/
def State.settleOverlap (s : State) (r : Round) : State :=
  let src := s.rangeAddrs r.src
  let dst := s.rangeAddrs r.dst
  match r.past with
  | first :: _ =>
    if r.src != r.dst && src.any dst.contains then s.freeAmong dst [first, s.readParts s.mem r.dst] else s
  | [] => s

/-- The round is finished: DST, GLEAN and the record are written, and the token (R407, R414, R416). -/
def State.finishRound (s : State) (r : Round) : State :=
  let c := r.record
  let out := ((List.range c.blocks).map (fun b => c.finalBlock ((s.dstWords r b 1).map (·.1)) (r.exps.getD b 0)
    (r.drops.getD b 0) (r.sats.getD b false))).flatten
  let t := if c.scaled then (((s.chargeDst r 0 c.blocks).chargeDst r 0 c.blocks).putWords (s.rangeAddrs r.dst) (out.map (fun w => (w, false))))
    else s
  let t := t.settleOverlap r
  let t := if c.arith = 5 then t.engineStore (cellsAt (ownLs c.glean) (beatBytes r.glean)) [] else t
  let t := t.mapDev (fun d => Dev.endEarly { d with rounds := d.rounds.filter (fun o => o.id != r.id) } r)
  (t.writeBackRecord r 0 (t.dev.records.any (fun q => q.name == c.name))).collToken r.id (token 0 c.bytes)

/-- What a round's progress leaves. -/
def State.settleRound (q : State × Round × RoundEnd) : State :=
  match q.2.2 with
  | .waits => q.1.setRound q.2.1
  | .finished => q.1.finishRound q.2.1
  | .aborts => q.1.abortRound q.2.1 11

/-- Whether a member is of the domain and not lost (R407). -/
def Dev.memberOk (d : Dev) (m : Nat) : Bool :=
  (m == d.ident.index || d.ident.members.any (fun q => q.1 == m)) && !d.ident.lost.contains m

/-- SRC as it stands at the fork of the COLL `id`: what the strand's later accesses have replaced since its release does not count (R423). -/
def State.srcAtFork (s : State) (id : Nat) (src : List Part) : List (Byte × Bool) :=
  let kept := ((s.core.engs.find? (fun e => e.id == id)).map (·.kept)).getD []
  List.zipWith (fun a b => ((kept.find? (fun q => q.1 == a)).map (·.2)).getD b)
    (src.map (fun p => (List.range p.len).map (fun i => p.addr + i))).flatten (s.readParts s.mem src)

/-- A released COLL forks (R407): its token at once, or a round that waits for the earlier ones of its record, with SRC as it
stands (R423). -/
def State.forkColl (s : State) (id tenant : Nat) (c : CollRec) (src dst : List Part) : State :=
  let claimed := match s.resolve tenant c.name with
    | some q => q.ty == .coll && q.base == c.addr && q.owner == tenant && decide (256 ≤ q.size.toNat)
    | none => false
  let s := s.learn c.name
  if !claimed then s.collToken id (token 1 0)
  else if !c.members.all s.dev.memberOk then s.collToken id (token 7 0)
  else
    let words := wordsOf (s.srcAtFork id src)
    let s := s.chargeHomes id (s.rangeAddrs src)
    let r : Round :=
      { id := id, record := c, q := 0, tenant := tenant, since := s.core.now, src := src, dst := dst, srcWords := words.map (·.1),
        srcBad := (List.range c.blocks).map (fun b => orAll ((blockOf words b).map (·.2))), stage := .queued, drops := [],
        sats := List.replicate c.blocks false, exps := [], glean := [], early := [], sent := [], got := [], past := [], pastWork := [],
        slots := false, leased := false, answers := [], kernel := none, lostExps := 0 }
    s.mapDev (fun d => { d with rounds := d.rounds ++ [r] })

/-- Whether an earlier round of the record is in flight on this device (R407). -/
def Dev.roundBehind (d : Dev) (r : Round) : Bool :=
  (d.rounds.takeWhile (fun o => o.id != r.id)).any (fun o => o.record.name == r.record.name)

/-! ### The slot pass (R419, R426) -/

/-- The kernel of a name for a tenant on this switch (R449): one that this module holds, or one of another module with the image that the
request has brought. -/
def State.kernelFor (s : State) (tenant : Nat) (nm : ClaimName) (image : List Byte) : Option Kernel :=
  if nm = 0 then none
  else if serialOf nm = s.dev.ident.serial then (s.dev.kernel? nm).filter (fun k => k.tenant == tenant)
  else (headerOf image).map (fun h => { name := nm, tenant := tenant, words := imageWords image h.nw, slot := h.slot, forward := h.forward,
                                        bins := if h.bins then some h.binset else none, bound := h.bound, traps := 0 })

/-- The kernel of a round on this switch: as granted, else as this module holds it. -/
def State.roundKernel (s : State) (r : Round) : Option Kernel :=
  ((s.dev.grants.find? (fun g => g.tenant == r.tenant && g.key == r.record.key)).bind (fun g =>
    g.kernel.filter (fun k => k.name == r.record.kernel))).orElse (fun _ => s.kernelFor r.tenant r.record.kernel [])

/-- Beats of a pass. -/
def CollRec.beats (c : CollRec) (pass : Nat) : Nat := if c.scaled && pass == 0 then (c.blocks + 63) / 64 else c.blocks

/-- The partial result of a beat: its words, its drops and its saturation mark. -/
structure Partial where
  words : List (BitVec 32)
  drops : Nat
  sat : Bool
  deriving DecidableEq, Repr

/-- What this member puts into a beat of a pass: 64 exponent words, or a block as DST holds it. -/
def State.ownBeat (s : State) (r : Round) (pass beat : Nat) : Partial :=
  if r.record.scaled && pass == 0 then { words := ((r.exps.drop (64 * beat)).take 64).map (BitVec.ofNat 32), drops := 0, sat := false }
  else
    let b := r.record.sentBlock (s.dstWords r beat 1) (r.drops.getD beat 0)
    { words := b.1, drops := b.2, sat := r.sats.getD beat false }

/-- What the inputs of a beat are combined under: the record, the tenant, the round, the kernel and the domain at its start. -/
structure Combine where
  record : CollRec
  tenant : Nat
  q : Nat
  kernel : Option Kernel
  net : Net
  deriving DecidableEq, Repr

/-- An input that is dropped leaves the partial result as it is, and its drops count (R426). -/
def Partial.dropping (p : Partial) (i : Beat) : Partial := { p with drops := p.drops + 1 + i.drops }

/-- The partial result of a first input; of a poisoned one the identity, as dropped (R426). -/
def Combine.first (c : Combine) (pass : Nat) (i : Beat) : Partial :=
  let zero := if c.record.scaled && pass == 0 then 0 else collIdentity c.record.arith
  if i.poisoned then { words := List.replicate 64 (BitVec.ofNat 32 zero), drops := 1 + i.drops, sat := false }
  else { words := i.words, drops := i.drops, sat := i.satmark }

/-- One further input of a beat, from the module `sender`, is combined (R419, R426); `count` counts the inputs, this one included. -/
def State.combineBeat (s : State) (c : Combine) (pass beat count sender : Nat) (p : Partial) (i : Beat) : State × Partial :=
  if c.record.scaled && pass == 0 then
    (s, if i.poisoned then p.dropping i
      else { p with words := List.zipWith (fun a b => if a.toNat < b.toNat then b else a) p.words i.words, drops := p.drops + i.drops })
  else if c.record.kernel = 0 then
    (s, if i.poisoned then p.dropping i
      else { words := List.zipWith (collAccum c.record.arith) p.words i.words, drops := p.drops + i.drops, sat := p.sat || i.satmark })
  else
    match c.kernel with
    | none => (s, p.dropping i)
    | some k =>
      let spec : InvSpec :=
        { kernel := c.record.kernel, slot := true, input := beatBytes i.words, partialIn := beatBytes p.words, poisoned := i.poisoned,
          sender := sender, dest := s.dev.ident.index, tenant := c.tenant, tag := 0, key := c.record.key, beat := beat,
          count := count, round := c.q, pass := pass }
      let e := s.runKernel k spec
      match e.2.1 with
      | .disp .drop => (e.1, p.dropping i)
      | .disp _ =>
        (e.1, { words := (wordsOf (((e.2.2.drop 256).take 256).map (fun b => (b, false)))).map (·.1),
                drops := p.drops + i.drops, sat := p.sat || i.satmark })
      | .trap _ _ _ => (e.1, p.dropping i)

/-- Further inputs, each with its module, in order; `count` counts those combined before. -/
def State.combineAll (s : State) (c : Combine) (pass beat count : Nat) (p : Partial) (ins : List (Nat × Beat)) : State × Partial :=
  let q := ins.foldl (fun (acc : State × Partial × Nat) i =>
    let o := acc.1.combineBeat c pass beat (acc.2.2 + 1) i.1 acc.2.1 i.2
    (o.1, o.2, acc.2.2 + 1)) (s, p, count)
  (q.1, q.2.1)

/-- The inputs of a beat from every child port, in port order, once all are here. -/
def Dev.inputsOf (d : Dev) (c : Combine) (pass beat : Nat) : Option (List (Nat × Beat)) :=
  let ins := (c.record.childPorts c.net d.ident.index).map (fun p =>
    (d.earlyBeats.find? (fun b => b.tenant == c.tenant && b.key == c.record.key && b.round == c.q && b.pass == pass && b.beat == beat &&
      !b.down && b.port == p.1)).map (fun b => (p.2, b)))
  if ins.all (·.isSome) then some (ins.filterMap id) else none

/-- A beat leaves by a port. -/
def State.sendBeat (s : State) (c : Combine) (pass beat port : Nat) (down : Bool) (p : Partial) (po : Bool) : State :=
  let s := match s.dev.rounds.find? (fun r => r.tenant == c.tenant && r.record.key == c.record.key && r.q == c.q) with
    | some r => s.chargeEngine r.id (4 * p.words.length) 1
    | none => s
  s.mapDev (fun d => { d with beatsOut := d.beatsOut ++
    [{ tenant := c.tenant, key := c.record.key, round := c.q, digest := c.record.digest, pass := pass, beat := beat, port := port,
       down := down, words := p.words, drops := p.drops, satmark := p.sat, poisoned := po }] })

/-- The root's result goes down the tree. -/
def State.sendDown (s : State) (c : Combine) (pass beat : Nat) (p : Partial) (po : Bool) : State :=
  (c.record.childPorts c.net s.dev.ident.index).foldl (fun (t : State) q => t.sendBeat c pass beat q.1 true p po) s

def State.dropBeats (s : State) (bs : List Beat) : State :=
  s.mapDev (fun d => { d with earlyBeats := d.earlyBeats.filter (fun b => !bs.contains b) })

/-- The root's result of a beat reaches this member, into WORK or DST (R419). -/
def State.takeBeat (s : State) (r : Round) (pass beat : Nat) (p : Partial) (po : Bool) : State × Round :=
  if r.record.scaled && pass == 0 then
    s.writeWork { r with
      exps := splice r.exps (64 * beat) ((p.words.take (r.exps.length - 64 * beat)).map (fun w => w.toNat)),
      lostExps := r.lostExps + p.drops }
  else
    s.putDst { r with drops := splice r.drops beat [p.drops], sats := splice r.sats beat [p.sat] } beat
      ((p.words.take 64).map (fun w => (w, po)))

/-- The next beat, the next pass, or the end. -/
def State.nextBeat (s : State) (r : Round) (pass beat : Nat) : State :=
  if beat + 1 < r.record.beats pass then s.setRound { r with stage := .passing pass (beat + 1) false }
  else if r.record.scaled && pass == 0 then
    let q := s.seedRound (s.readWork r)
    q.1.setRound { q.2 with stage := .passing 1 0 false }
  else s.finishRound r

/-- The round's combining on this switch. -/
def Round.combine (r : Round) : Combine := { record := r.record, tenant := r.tenant, q := r.q, kernel := r.kernel, net := r.net }

/-- One step of a slot pass on this member, where its inputs let it: its switch combines the beat, its own first, and the result stands at
the root or goes on toward it; or the root's result comes back and goes on down. -/
def State.slotTurn (s : State) (r : Round) : Option State :=
  let c := r.combine
  match r.stage with
  | .passing pass beat false =>
    (s.dev.inputsOf c pass beat).map (fun ins =>
      let s := if r.record.scaled && pass == 0 then s else s.chargeDst r beat 1
      let q := s.combineAll c pass beat 1 (s.ownBeat r pass beat) ins
      let t := q.1.dropBeats (ins.map (·.2))
      match r.record.parentPort r.net s.dev.ident.index with
      | some p => (t.sendBeat c pass beat p false q.2 false).setRound { r with stage := .passing pass beat true }
      | none =>
        let u := (t.sendDown c pass beat q.2 false).takeBeat r pass beat q.2 false
        u.1.nextBeat u.2 pass beat)
  | .passing pass beat true =>
    (s.dev.earlyBeats.find? (fun b => b.tenant == r.tenant && b.key == r.record.key && b.round == r.q && b.pass == pass && b.beat == beat &&
      b.down)).map (fun b =>
        let p : Partial := { words := b.words, drops := b.drops, sat := b.satmark }
        let u := ((s.dropBeats [b]).sendDown c pass beat p b.poisoned).takeBeat r pass beat p b.poisoned
        u.1.nextBeat u.2 pass beat)
  | _ => none

/-- A round on slots goes on as far as its inputs let it. -/
def State.pumpSlots (id : Nat) : Nat → State → State
  | 0, s => s
  | fuel + 1, s =>
    match (s.dev.rounds.find? (fun r => r.id == id)).bind s.slotTurn with
    | some t => State.pumpSlots id fuel t
    | none => s

def State.runSlots (s : State) (r : Round) : State :=
  State.pumpSlots r.id (2 * (r.record.beats 0 + r.record.beats 1) + 2) s

/-- A slot pass begins: DST is seeded, after the exponents where the mode has them. -/
def State.beginSlots (s : State) (r : Round) : State :=
  let r := { r with slots := true, kernel := s.roundKernel r, stage := .passing 0 0 false }
  let q := if r.record.scaled then s.writeWork r else s.seedRound r
  (q.1.setRound q.2).runSlots q.2

end Sys2Proof.Machine
end

