-- ==== Sys2Proof/Machine/Scalar.lean ====
section
/-! DEFINITION. The scalar integer, scalar float and branch families of the S slot (R111 to R121). -/

namespace Sys2Proof.Machine

/-! ### Operations -/

/-- An op of two X sources (R111). -/
def scalar2 (f : RG) (lat : Nat) (op : X64 → X64 → X64) (s : State) : Out :=
  issueOp s .ok .go (fun s => s.putX f.d lat (op (s.rdX f.a) (s.rdX f.b)) (s.poisonX f.a || s.poisonX f.b))

/-- An op of one X source. -/
def scalar1 (f : RG) (lat : Nat) (op : X64 → X64) (s : State) : Out :=
  issueOp s .ok .go (fun s => s.putX f.d lat (op (s.rdX f.a)) (s.poisonX f.a))

/-- The immediate form of an op: IMM sign-extended from 40 bits (R111). -/
def scalarImm (f : IM) (op : X64 → X64 → X64) (s : State) : Out :=
  issueOp s .ok .go (fun s => s.putX f.d 1 (op (s.rdX f.a) (f.imm.signExtend 64)) (s.poisonX f.a))

def flagX (b : Bool) : X64 := if b then 1 else 0

/-- Bits 127:64 of the signed product (R111). -/
def mulHigh (a b : X64) : X64 := BitVec.ofInt 64 (a.toInt * b.toInt / 2 ^ 64)

def mulHighU (a b : X64) : X64 := BitVec.ofNat 64 (a.toNat * b.toNat / 2 ^ 64)

/-- Quotient and remainder of R112, signed. -/
def divS (a b : X64) : X64 × X64 :=
  if b = 0 then (BitVec.allOnes 64, a)
  else (BitVec.ofInt 64 (a.toInt.tdiv b.toInt), BitVec.ofInt 64 (a.toInt.tmod b.toInt))

/-- Quotient and remainder of R112, unsigned. -/
def divU (a b : X64) : X64 × X64 :=
  if b = 0 then (BitVec.allOnes 64, a) else (a.udiv b, a.umod b)

def shlX (a b : X64) : X64 := a <<< (b.toNat % 64)
def shrX (a b : X64) : X64 := a >>> (b.toNat % 64)
def sraX (a b : X64) : X64 := a.sshiftRight (b.toNat % 64)
def rotrX (a b : X64) : X64 := a.rotateRight (b.toNat % 64)

/-- Leading zero bits; 64 for 0. -/
def clzX (a : X64) : X64 := BitVec.ofNat 64 (if a = 0 then 64 else 63 - Nat.log2 a.toNat)

def popcX (a : X64) : X64 := BitVec.ofNat 64 ((lanesOf 1 64 a.toNat).sum)

def minX (a b : X64) : X64 := if b.slt a then b else a
def maxX (a b : X64) : X64 := if a.slt b then b else a
def minuX (a b : X64) : X64 := if b < a then b else a
def maxuX (a b : X64) : X64 := if a < b then b else a

/-- Bits pos+width−1 : pos of `a`, zero-extended; the op encodes width − 1 (R114). -/
def extrX (a : X64) (pos width1 : Nat) : X64 := BitVec.ofNat 64 (a.toNat / 2 ^ pos % 2 ^ (width1 + 1))

/-- `old` with bits pos+width−1 : pos replaced by the low bits of `a` (R114). -/
def insrX (old a : X64) (pos width1 : Nat) : X64 :=
  let m : X64 := BitVec.ofNat 64 ((2 ^ (width1 + 1) - 1) * 2 ^ pos)
  (old &&& ~~~m) ||| ((a <<< pos) &&& m)

/-! ### Scalar integer (R111 to R115) -/

/-- ADD: a + b modulo 2^64. -/
def execAdd (f : RG) (s : State) : Out := scalar2 f 1 (fun a b => a + b) s

/-- SUB: a − b modulo 2^64. -/
def execSub (f : RG) (s : State) : Out := scalar2 f 1 (fun a b => a - b) s

/-- MUL: the low 64 bits of the product. -/
def execMul (f : RG) (s : State) : Out := scalar2 f 3 (fun a b => a * b) s

/-- MULH: the high half of the signed product. -/
def execMulh (f : RG) (s : State) : Out := scalar2 f 3 mulHigh s

/-- MULHU: the high half of the unsigned product. -/
def execMulhu (f : RG) (s : State) : Out := scalar2 f 3 mulHighU s

/-- DIV (R112). -/
def execDiv (f : RG) (s : State) : Out := scalar2 f 20 (fun a b => (divS a b).1) s

/-- DIVU (R112). -/
def execDivu (f : RG) (s : State) : Out := scalar2 f 20 (fun a b => (divU a b).1) s

/-- REM (R112). -/
def execRem (f : RG) (s : State) : Out := scalar2 f 20 (fun a b => (divS a b).2) s

/-- REMU (R112). -/
def execRemu (f : RG) (s : State) : Out := scalar2 f 20 (fun a b => (divU a b).2) s

/-- AND. -/
def execAnd (f : RG) (s : State) : Out := scalar2 f 1 (fun a b => a &&& b) s

/-- OR. -/
def execOr (f : RG) (s : State) : Out := scalar2 f 1 (fun a b => a ||| b) s

/-- XOR. -/
def execXor (f : RG) (s : State) : Out := scalar2 f 1 (fun a b => a ^^^ b) s

/-- SHL: by b mod 64. -/
def execShl (f : RG) (s : State) : Out := scalar2 f 1 shlX s

/-- SHR: by b mod 64, zero-filled. -/
def execShr (f : RG) (s : State) : Out := scalar2 f 1 shrX s

/-- SRA: by b mod 64, sign-filled. -/
def execSra (f : RG) (s : State) : Out := scalar2 f 1 sraX s

/-- ROTR: by b mod 64. -/
def execRotr (f : RG) (s : State) : Out := scalar2 f 1 rotrX s

/-- CLZ. -/
def execClz (f : RG) (s : State) : Out := scalar1 f 1 clzX s

/-- POPC. -/
def execPopc (f : RG) (s : State) : Out := scalar1 f 1 popcX s

/-- MIN, signed. -/
def execMin (f : RG) (s : State) : Out := scalar2 f 1 minX s

/-- MAX, signed. -/
def execMax (f : RG) (s : State) : Out := scalar2 f 1 maxX s

/-- MINU. -/
def execMinu (f : RG) (s : State) : Out := scalar2 f 1 minuX s

/-- MAXU. -/
def execMaxu (f : RG) (s : State) : Out := scalar2 f 1 maxuX s

/-- CMP (R113). -/
def execCmp (f : RG) (s : State) : Out := scalar2 f 1 (fun a b => flagX (intCond f.cond 64 a.toNat b.toNat)) s

/-- SEL (R113). -/
def execSel (f : RG) (s : State) : Out :=
  issueOp s .ok .go (fun s =>
    s.putX f.d 1 (if s.rdX f.c = 0 then s.rdX f.b else s.rdX f.a) (s.poisonX f.a || s.poisonX f.b || s.poisonX f.c))

/-- EXTR (R114): field B holds pos, field C width − 1. -/
def execExtr (f : RG) (s : State) : Out := scalar1 f 1 (fun a => extrX a f.b.toNat f.c.toNat) s

/-- INSR (R114): reads xd as a source. -/
def execInsr (f : RG) (s : State) : Out :=
  issueOp s .ok .go (fun s =>
    s.putX f.d 1 (insrX (s.rdX f.d) (s.rdX f.a) f.b.toNat f.c.toNat) (s.poisonX f.a || s.poisonX f.d))

/-- ADDI. -/
def execAddi (f : IM) (s : State) : Out := scalarImm f (fun a b => a + b) s

/-- ANDI. -/
def execAndi (f : IM) (s : State) : Out := scalarImm f (fun a b => a &&& b) s

/-- ORI. -/
def execOri (f : IM) (s : State) : Out := scalarImm f (fun a b => a ||| b) s

/-- XORI. -/
def execXori (f : IM) (s : State) : Out := scalarImm f (fun a b => a ^^^ b) s

/-- SHLI. -/
def execShli (f : IM) (s : State) : Out := scalarImm f shlX s

/-- SHRI. -/
def execShri (f : IM) (s : State) : Out := scalarImm f shrX s

/-- SRAI. -/
def execSrai (f : IM) (s : State) : Out := scalarImm f sraX s

/-- MOVI (R115): IMM sign-extended from 46 bits. -/
def execMovi (f : MW) (s : State) : Out :=
  issueOp s .ok .go (fun s => s.putX f.d 1 (f.imm.signExtend 64) false)

/-- MOVHI (R115): bits 63:46 replaced by bits 17:0 of IMM. -/
def execMovhi (f : MW) (s : State) : Out :=
  issueOp s .ok .go (fun s =>
    s.putX f.d 1 (insrX (s.rdX f.d) (f.imm.zeroExtend 64) 46 17) (s.poisonX f.d))

/-! ### Scalar float (R116 to R118) -/

/-- An X operand as a value of the op's type (R110). -/
def State.rdF (s : State) (t : Fmt) (r : Reg) : Num := decodeFloat t (lowBits t.width (s.rdX r))

/-- A scalar float op of two or three sources: one rounding, with draw `sr_draw(0)` (R56, R116). -/
def scalarF (f : RG) (lat : Nat) (three : Bool) (op : RMode → Num → Num → Num → Num) (seq : Bool)
    (s : State) : Out :=
  issueOp s (needTyped f.t) .go (fun s =>
    let n := s.snap f.rnd
    let r := roundFloat f.t n.mode f.sat (srDraw n.draw 0) (op n.mode (s.rdF f.t f.a) (s.rdF f.t f.b) (s.rdF f.t f.c))
    let s := if seq then s.takeSeq else s
    s.putX f.d lat (BitVec.ofNat 64 r.bits) (s.poisonX f.a || s.poisonX f.b || (three && s.poisonX f.c)))

/-- FADD. -/
def execFadd (f : RG) (s : State) : Out := scalarF f 5 false (fun m a b _ => addNum m a b) true s

/-- FSUB. -/
def execFsub (f : RG) (s : State) : Out := scalarF f 5 false (fun m a b _ => subNum m a b) true s

/-- FMUL. -/
def execFmul (f : RG) (s : State) : Out := scalarF f 5 false (fun _ a b _ => mulNum a b) true s

/-- FFMA: one rounding. -/
def execFfma (f : RG) (s : State) : Out := scalarF f 5 true fmaNum true s

/-- FMIN (R49): exact. -/
def execFmin (f : RG) (s : State) : Out := scalarF f 2 false (fun _ a b _ => minNum a b) false s

/-- FMAX (R49): exact. -/
def execFmax (f : RG) (s : State) : Out := scalarF f 2 false (fun _ a b _ => maxNum a b) false s

/-- FCMP (R117). -/
def execFcmp (f : RG) (s : State) : Out :=
  issueOp s (needTyped f.t) .go (fun s =>
    s.putX f.d 2 (flagX (condElem f.cond f.t (lowBits f.t.width (s.rdX f.a)) (lowBits f.t.width (s.rdX f.b))))
      (s.poisonX f.a || s.poisonX f.b))

/-- FCVT (R118): a float result is zero-extended, an integer result sign-extended (R110). -/
def execFcvt (f : RG) (s : State) : Out :=
  issueOp s ((needTyped f.t).and (needTyped f.t2)) .go (fun s =>
    let n := s.snap f.rnd
    let bits := lowBits f.t2.width (s.rdX f.a)
    let r := (convSpec f.t f.t2 f.sat f.scl n).elem bits (srDraw n.draw 0) (decodeElem f.t2 bits)
    let v : X64 := if f.t.isInt then BitVec.ofInt 64 (signedOf f.t.width r.bits) else BitVec.ofNat 64 r.bits
    (s.takeSeq.putX f.d 3 v (s.poisonX f.a)).putOvfs 3 f.scl r.ovf)

/-! ### Branches and loop control (R119 to R121) -/

/-- Control continues at `a` after the bundle (R119). -/
def State.branchTo (s : State) (a : Nat) : State := s.mapIss (fun i => { i with next := .taken a })

/-- The bundle's address plus 8 × OFF (R120). -/
def State.target (s : State) (off : BitVec 42) : Nat :=
  (BitVec.ofInt 64 (s.core.iss.cur.addr + 8 * off.toInt)).toNat

/-- BR. -/
def execBr (f : BRF) (s : State) : Out :=
  issueOp s .ok .go (fun s => s.branchTo (s.target f.off))

/-- BC: branches if xc cond 0 holds; a poisoned condition traps (R359). -/
def execBc (f : BRF) (s : State) : Out :=
  issueOp s (s.needCtl f.d) .go (fun s =>
    if condZero f.cond (s.rdX f.d) then s.branchTo (s.target f.off) else s)

/-- The checks of BRL: a rotating counter (R15), then a poisoned one (R359). -/
def chkBrl (f : BRF) (s : State) : Chk := (need (decide (f.d.toNat < 48)) 0x10 0).and (s.needCtl f.d)

/-- RRB after BRL (R15): each base falls by 1 modulo its region; VB stays 0 when nV < 64. -/
def rrbStep (nV : Nat) (r : X64) : X64 :=
  rrbOf (rrbXB r + 15) (if nV < 64 then 0 else rrbVB r + 31) (rrbPB r + 7)

/-- BRL (R15, R120). -/
def execBrl (f : BRF) (s : State) : Out :=
  issueOp s (chkBrl f s) .go (fun s =>
    let v := s.rdX f.d - 1
    let t := (s.putX f.d 1 v false).mapRegs (fun r => { r with rrb := rrbStep s.core.nV r.rrb })
    if v ≠ 0 then t.branchTo (s.target f.off) else t)

/-- CALL: the link is the address of the next bundle in memory. -/
def execCall (f : BRF) (s : State) : Out :=
  issueOp s .ok .go (fun s =>
    (s.putX f.d 1 (BitVec.ofNat 64 s.core.iss.cur.after) false).branchTo (s.target f.off))

/-- RET. -/
def execRet (f : RG) (s : State) : Out :=
  issueOp s (s.needCtl f.a) .go (fun s => s.branchTo (s.rdX f.a).toNat)

/-- JMPX: reads xa before it writes xl. -/
def execJmpx (f : RG) (s : State) : Out :=
  issueOp s (s.needCtl f.a) .go (fun s =>
    (s.putX f.d 1 (BitVec.ofNat 64 s.core.iss.cur.after) false).branchTo (s.rdX f.a).toNat)

/-- REP (R35): the next N bundles issue CNT times. -/
def execRep (f : RP) (s : State) : Out :=
  issueOp s .ok .go (fun s => s.mapRegs (fun r => { r with
    rep := some { start := s.core.iss.cur.after, cursor := s.core.iss.cur.after, len := f.n.toNat, left := f.n.toNat,
                  passes := f.cnt.toNat - 1 } }))

/-- LOOPB (R36): the next N bundles are pinned in place of any range pinned before. -/
def execLoopb (f : RP) (s : State) : Out :=
  issueOp s .ok .go (fun s => s.mapRegs (fun r => { r with
    loopb := some { start := s.core.iss.cur.after, left := f.n.toNat, addrs := [], words := [] } }))

end Sys2Proof.Machine
end

