-- ==== Sys2Proof/Machine/Strand.lean ====
section
/-! DEFINITION. Strands and groups (R166 to R182, R188): write-backs, the group ops BARG, JOING and LEAVEG, SPAWN, SUSP,
YIELD, NEXTT and EXIT, and the end of a strand (R176, R178). -/

namespace Sys2Proof.Machine

/-! ### The strand record (R166, R167) -/

def StrandState.code (s : StrandState) : Nat :=
  match s with
  | .runnable => 0
  | .running => 1
  | .waiting => 2
  | .parked => 3
  | .trapped => 4
  | .done => 5
  | .killed => 6

/-- The eight words of a record. -/
def Strand.words (t : Strand) : List Nat :=
  [t.pc % 2 ^ 64,
   t.number % 2 ^ 24 * 2 ^ 40 + t.cores.toNat * 2 ^ 32 + t.cluster % 32 * 2 ^ 27 + t.nA % 8 * 2 ^ 24 +
     (t.nV / 8 - 1) % 8 * 2 ^ 21 + t.tenant % 64 * 2 ^ 8 + t.cls % 4 * 16 + (if t.fresh then 8 else 0) + t.state.code,
   t.groupsAddr.toNat, t.save.toNat, t.xlive.toNat,
   t.vlive.toNat + t.plive.toNat * 2 ^ 32 + t.alive.toNat * 2 ^ 48 + (if t.full then 2 ^ 52 else 0),
   t.pendMask.toNat, t.arg.toNat]

/-- The names of the groups of a strand as its GROUPS area receives them. -/
def Strand.groupWords (t : Strand) : List Nat :=
  ((t.groups.map (·.1)).map (fun n => [n.toNat % 2 ^ 64, n.toNat / 2 ^ 64])).flatten

def Dev.setStrand (d : Dev) (k : Nat) (f : Strand → Strand) : Dev :=
  { d with strands := d.strands.zipIdx.map (fun p => if p.2 == k then f p.1 else p.1) }

/-- The scheduler writes the record back, and the group names (R166, R167). -/
def State.writeRecord (s : State) (k : Nat) : State :=
  match s.dev.strands[k]? with
  | none => s
  | some t =>
    if t.pool then s
    else
      let u := (s.tenantStore t.tenant t.recAddr (wordsBytes t.words)).getD s
      if t.groupsAddr = 0 then u
      else (u.tenantStore t.tenant t.groupsAddr.toNat (wordsBytes ((t.groupWords ++ List.replicate 16 0).take 16))).getD u

/-- Bytes of a save area (R171). -/
def saveBytes : Nat := 288 * 1024

/-- A save leaves bytes in the save area that no rule describes (R171). -/
def State.scrambleSave (s : State) (k : Nat) : State :=
  match s.dev.strands[k]? with
  | none => s
  | some t =>
    if t.pool then s
    else (((s.tenantStore t.tenant t.save.toNat
      ((List.range saveBytes).map (fun i => Config.freeByte s.freeCtr (t.save.toNat + i)))).getD s).mapDev (fun d =>
        d.setStrand k (fun t => { t with saved := s.freeCtr }))).bump

/-! ### Groups (R179 to R182) -/

def Dev.group? (d : Dev) (nm : ClaimName) : Option Group := d.groups.find? (fun g => g.name == nm)

def Dev.setGroup (d : Dev) (g : Group) : Dev := { d with groups := d.groups.map (fun o => if o.name == g.name then g else o) }

/-- The phase that a strand joined. -/
def Strand.joined (t : Strand) (nm : ClaimName) : Option Nat := (t.groups.find? (fun q => q.1 == nm)).map (·.2)

/-- The running strand's table entry. -/
def State.self (s : State) : Option Strand := s.core.running.bind (fun k => s.dev.strands[k]?)

def State.joinedPhase (s : State) (nm : ClaimName) : Option Nat := s.self.bind (fun t => t.joined nm)

def setX (n : Nat) (v : X64) (r : Regs) : Regs := Dest.apply (.x n v false) r

/-- The result of a wait that has issued (R177): it goes to the running strand's register, and into its restart point, or
into the saved image. -/
def State.answerWait (s : State) (k : Nat) (v : X64) : State :=
  if s.core.running = some k then
    s.mapCore (fun c => { c with
      regs := setX c.iss.waitReg v c.regs,
      shadow := { c.shadow with regs := setX c.iss.waitReg v c.shadow.regs },
      iss := { c.iss with waits := none } })
  else s.mapDev (fun d => d.setStrand k (fun t => { t with
    regs := setX t.waitReg v t.regs, waits := none,
    state := if t.state = .waiting then .runnable else t.state }))

/-- One turn of `check` (R180): the phase completes. -/
def Group.turn (g : Group) : Group :=
  { g with phase := (g.phase + 1) % 2 ^ 56, expected := g.members, arrived := g.arrnext, arrnext := 0,
           waiters := g.waiters.filter (fun w => w.2 != g.phase) }

/-- Whether the current phase is complete. -/
def Group.complete (g : Group) : Bool :=
  g.expected == g.arrived && (decide (0 < g.arrived) || decide (0 < g.arrnext) || decide (0 < g.members))

/-- `check` (R180): the group after it, and the strands released with their phases. After two turns no arrival is left to
complete another, so four bound it. -/
def Group.check : Nat → Group → Group × List (Nat × Nat)
  | 0, g => (g, [])
  | n + 1, g =>
    if g.complete then
      let r := Group.check n g.turn
      (r.1, g.waiters.filter (fun w => w.2 == g.phase) ++ r.2)
    else (g, [])

/-- A group operation's `check`: the group is stored, and the released strands receive their phase. -/
def State.checkGroup (s : State) (g : Group) : State :=
  let r := Group.check 4 g
  r.2.foldl (fun (s : State) w => s.answerWait w.1 (BitVec.ofNat 64 w.2)) (s.mapDev (fun d => d.setGroup r.1))

/-- LEAVEG's effect for strand `k` (R180). -/
def State.leaveGroup (s : State) (k : Nat) (nm : ClaimName) : State :=
  match s.dev.group? nm, s.dev.strands[k]? with
  | some g, some t =>
    match t.joined nm with
    | some j =>
      let g := { g with members := g.members - 1, expected := if j ≤ g.phase then g.expected - 1 else g.expected }
      (s.mapDev (fun d => d.setStrand k (fun t => { t with groups := t.groups.filter (fun q => q.1 != nm) }))).checkGroup g
    | none => s
  | _, _ => s

/-- Group misuse, and the type of the name (R180). -/
def State.chkGroup (s : State) (nm : ClaimName) (misuse : Group → Bool) : Chk :=
  match s.resolve s.core.tenant nm with
  | none => .ok
  | some c => (need (c.ty = ClaimType.group) 0x0F 0).and
    (match s.dev.group? nm with
     | some g => need (!misuse g) 0x11 0
     | none => .ok)

/-- The name of a group op's A field. -/
def groupName (f : CG) (s : State) : ClaimName := s.rdN f.a.toNat

/-- Checks of JOING. A membership of a group that has since been retired still counts toward the eight: the model's choice, R180 being
silent (log 73). -/
def chkJoing (f : CG) (s : State) : Chk :=
  s.chkGroup (groupName f s) (fun g => (s.joinedPhase g.name).isSome || decide (65535 ≤ g.members) ||
    decide (8 ≤ ((s.self.map (fun t => t.groups.length)).getD 0)))

def chkMember (f : CG) (s : State) : Chk := s.chkGroup (groupName f s) (fun g => (s.joinedPhase g.name).isNone)

/-- The group that a name resolves to; at the group itself a recall that has begun answers GONE (R214, R216). -/
def State.liveGroup (s : State) (nm : ClaimName) : Option Group :=
  match s.resolve s.core.tenant nm with
  | some c => if c.state = .live then s.dev.group? nm else none
  | none => none

def gone : X64 := token 1 0

/-- JOING. -/
def execJoing (f : CG) (s : State) : Out :=
  issueSerial s (chkJoing f s) .go (fun _ => .go) (fun s =>
    match s.liveGroup (groupName f s) with
    | none => (s.learn (groupName f s)).putX f.d 1 gone false
    | some g =>
      let j := (g.phase + 1) % 2 ^ 56
      ((s.mapDev (fun d => (d.setGroup { g with members := g.members + 1 }).setStrand s.strandIdx (fun t =>
        { t with groups := t.groups ++ [(g.name, j)] })))).putX f.d 1 (BitVec.ofNat 64 j) false)

/-- LEAVEG. -/
def execLeaveg (f : CG) (s : State) : Out :=
  issueSerial s (chkMember f s) .go (fun _ => .go) (fun s =>
    match s.liveGroup (groupName f s) with
    | none => (s.learn (groupName f s)).putX f.d 1 gone false
    | some g => (s.putX f.d 1 (BitVec.ofNat 64 g.phase) false).leaveGroup s.strandIdx g.name)

/-- BARG waits until every access of the strand's earlier bundles is performed (R180, R262). -/
def readyBarg (s : State) : Ready := if s.core.loads.isEmpty && s.core.fars.isEmpty then .go else .wait (some .other)

/-- A strand arrives at a group: its phase, and the group with the arrival counted. -/
def Group.arrive (g : Group) (k joined : Nat) : Group × Nat :=
  if g.phase < joined then ({ g with arrnext := g.arrnext + 1, waiters := g.waiters ++ [(k, joined)] }, joined)
  else ({ g with arrived := g.arrived + 1, waiters := g.waiters ++ [(k, g.phase)] }, g.phase)

/-- BARG: the arrival, then the wait for its phase. -/
def execBarg (f : CG) (s : State) : Out :=
  issueSerial s (chkMember f s) .go readyBarg (fun s =>
    match s.liveGroup (groupName f s) with
    | none => (s.learn (groupName f s)).putX f.d 1 gone false
    | some g =>
      let a := g.arrive s.strandIdx ((s.joinedPhase g.name).getD 0)
      (s.mapIss (fun i => { i with waits := some (.barg g.name a.2), waitReg := s.px f.d })).checkGroup a.1)

/-! ### SPAWN (R173) -/

/-- The words of the record image at a virtual address. -/
def State.spawnWords (s : State) (v : Nat) : List Nat :=
  let bs := s.readParts s.view (s.partsOf (s.stretch v 64))
  (List.range 8).map (fun i => natOfBytes (((bs.drop (8 * i)).take 8).map (·.1)))

/-- The strand that a record image describes, with the fields the device fills in. -/
def strandOf (w : List Nat) (v tenant : Nat) (arg : X64) (sys : SysRegs) (block : Option Nat) (hold : Bool) : Strand :=
  let g := fun (i : Nat) => w.getD i 0
  { recAddr := v, pool := false, number := bitsAt (g 1) 63 40, tenant := tenant, cls := bitsAt (g 1) 5 4,
    cluster := bitsAt (g 1) 31 27, cores := BitVec.ofNat 8 (bitsAt (g 1) 39 32), nA := bitsAt (g 1) 26 24,
    nV := 8 * (bitsAt (g 1) 23 21 + 1), state := .runnable, fresh := true, groupsAddr := BitVec.ofNat 64 (g 2),
    save := BitVec.ofNat 64 (g 3), xlive := 0, vlive := 0, plive := 0, alive := 0, full := false, pendMask := 0,
    arg := arg, pc := g 0, regs := setX 1 arg { Regs.cleared with sys := sys }, pending := [], cycle := 0, energy := 0,
    block := block, persistent := false, groups := [], waits := none, waitReg := 0, since := 0, debugHold := hold,
    wasWaiting := false, broken := 0, ending := false, rett := false, byFence := false, issuing := [], saved := 0 }

/-- What makes SPAWN answer ABORT. -/
def spawnBad (w : List Nat) (own : Nat) : Bool :=
  let g := fun (i : Nat) => w.getD i 0
  decide (bitsAt (g 1) 5 4 < own) || bitsAt (g 1) 39 32 == 0 || decide (4 < bitsAt (g 1) 26 24) || g 0 % 8 != 0 ||
    g 3 % 4096 != 0

def Strand.live (t : Strand) : Bool := t.state != .done && t.state != .killed

/-- Live strands of a die. -/
def Dev.liveStrands (d : Dev) (die : Nat) : Nat :=
  (d.strands.filter (fun t => t.live && t.cluster / 16 == die)).length

def chkSpawn (f : CG) (s : State) : Chk :=
  (s.needCtl f.a).and ((s.needCtl f.b).and ((rangeChk [.load] (s.stretch (s.rdX f.a).toNat 64)).and
    (need ((s.rdX f.a).toNat % 64 == 0) 0x08 (s.rdX f.a))))

/-- SPAWN waits for the strand's own far stores to the record, which its commit has released (R231, R344, R347). -/
def readySpawn (f : CG) (s : State) : Ready :=
  let ps := s.partsOf (s.stretch (s.rdX f.a).toNat 64)
  if s.core.fars.any (fun o => o.strand == s.strandIdx && o.parts.any (fun p => ps.any p.overlaps)) then .wait (some .other) else .go

/-- SPAWN: the record is read once, and the strand entered in the scheduler. -/
def execSpawn (f : CG) (s : State) : Out :=
  issueSerial s (chkSpawn f s) .go (readySpawn f) (fun s =>
    let v := (s.rdX f.a).toNat
    let w := s.spawnWords v
    if spawnBad w ((s.self.map (·.cls)).getD 0) then s.putX f.d 1 (token 11 0) false
    else if 65536 ≤ s.dev.liveStrands (bitsAt (w.getD 1 0) 31 31) then s.putX f.d 1 (token 9 0) false
    else
      let t := { (strandOf w v s.core.tenant (s.rdX f.b) s.core.regs.sys (s.self.bind (·.block))
        ((s.self.map (·.debugHold)).getD false)) with since := s.core.now }
      let u := s.mapDev (fun d => { d with strands := d.strands ++ [t] })
      (u.engineStore ((((s.partsOf (s.stretch v 64)).map s.partAddrs).flatten).zip (wordsBytes t.words)) []).putX f.d 1
        (BitVec.ofNat 64 t.number) false)

/-! ### SUSP and YIELD (R174, R175) -/

def setV {n : Nat} {α : Type} (v : Vector α n) (keep : Nat → Bool) (d : α) : Vector α n :=
  Vector.ofFn (fun i => if keep i.val then v[i] else d)

/-- The registers outside the live masks read 0 after the resume (R170); a pinned range is not saved (R171). -/
def Regs.keepLive (r : Regs) (x v p a : Nat → Bool) : Regs :=
  { r with x := setV r.x x 0, xPoison := setV r.xPoison x false, v := setV r.v v 0, vPoison := setV r.vPoison v 0,
           p := setV r.p (fun i => p i || i == 0) 0, pPoison := setV r.pPoison p false, a := setV r.a a 0,
           aPoison := setV r.aPoison a false, loopb := none }

/-- The physical registers that masks of architectural ones name through RRB. -/
def liveOf (mask : Nat) (n : Nat) (phys : Nat → Nat) (i : Nat) : Bool :=
  (List.range n).any (fun k => mask.testBit k && phys k == i)

def chkSusp (f : CG) (s : State) : Chk :=
  (s.needCtl f.a).and ((s.needCtl f.b).and ((need (bitsAt (s.rdX f.b).toNat 63 52 == 0) 0x08 0).and
    (need ((List.range 8).all (fun q => (s.rdQ q).isNone)) 0x0E 0)))

/-- SUSP waits until every store of the strand is performed. -/
def readySusp (s : State) : Ready := if s.core.fars.all (fun f => f.atom.isSome) then .go else .wait (some .other)

/-- The live registers of SUSP's masks. -/
def suspRegs (f : CG) (s : State) (r : Regs) : Regs :=
  let xm := (s.rdX f.a).toNat
  let b := (s.rdX f.b).toNat
  r.keepLive (fun i => decide (i ≠ 0) && liveOf xm 64 (physX s.rrb) i)
    (liveOf (ofLanes 2 ((lanesOf 1 32 (bitsAt b 31 0)).map (fun q => 3 * q))) 64 (physV s.rrb))
    (liveOf (bitsAt b 47 32) 16 (physP s.rrb)) (fun i => (bitsAt b 51 48).testBit i)

/-- SUSP: the live registers are saved, and the strand is runnable at once. The saved VLIVE and ALIVE keep the operands' bits of unallocated
registers, and bit 0 of XLIVE is 0 (DESIGN CHOICE, log 75). -/
def execSusp (f : CG) (s : State) : Out :=
  issueSerial s (chkSusp f s) .go readySusp (fun s =>
    let b := (s.rdX f.b).toNat
    let k := s.strandIdx
    let t := s.leaveCore .runnable s.core.iss.nextPc
    ((t.mapDev (fun d => d.setStrand k (fun t => { t with
      regs := suspRegs f s t.regs, full := false, since := s.core.now,
      xlive := s.rdX f.a &&& ~~~(1#64), vlive := BitVec.ofNat 32 (bitsAt b 31 0), plive := BitVec.ofNat 16 (bitsAt b 47 32),
      alive := BitVec.ofNat 4 (bitsAt b 51 48) }))).writeRecord k).scrambleSave k)

/-- Whether a runnable strand may run on the core (R193); a fenced cluster takes none (R470). -/
def Dev.eligible (d : Dev) (t : Strand) : Bool :=
  t.state == .runnable && t.cluster == ownCore / 8 && !d.links.fenced.contains t.cluster &&
    !d.links.fencing.contains t.cluster && t.cores.getLsbD (ownCore % 8) &&
    bitsAt (d.page t.tenant).weight.toNat (8 * t.cls + 7) (8 * t.cls) != 0

/-- A strand that waits for the core, of a class that satisfies the test; no other core of its set counts as free
(log 3). -/
def Dev.waiter (d : Dev) (cls : Nat → Bool) : Bool := d.strands.any (fun t => d.eligible t && cls t.cls)

/-- A full save: every allocated register; a pinned range is not saved. -/
def State.fullSave (s : State) (st : StrandState) (pc : Nat) : State :=
  let k := s.strandIdx
  let t := s.leaveCore st pc
  ((t.mapDev (fun d => d.setStrand k (fun t => { t with
    regs := { t.regs with loopb := none }, since := s.core.now }))).writeRecord k).scrambleSave k

/-- On entry to STATE 4 under debug hold, the core makes a full save of the strand it ran (R178); a pinned range is not saved (R171). -/
def State.heldTrap (s : State) (was : Option Nat) : State :=
  match was with
  | none => s
  | some k =>
    match s.dev.strands[k]? with
    | some t => if s.core.running.isNone && t.state == .trapped && t.debugHold then
        ((s.mapDev (fun d => d.setStrand k (fun t => { t with regs := { t.regs with loopb := none } }))).writeRecord k).scrambleSave k
      else s
    | none => s

/-- YIELD: a full save where a strand of the same or a higher class waits, else nothing. -/
def execYield (f : CG) (s : State) : Out :=
  issueSerial s .ok .go (fun _ => .go) (fun s =>
    if s.dev.waiter (fun c => decide (c ≤ (s.self.map (·.cls)).getD 0)) then s.fullSave .runnable s.core.iss.nextPc else s)

/-! ### NEXTT (R188) -/

def Block.sheafCount (b : Block) : Nat := (b.levels.map (·.bound)).foldl (· * ·) 1

/-- The indices of sheaf `n`, outermost first (R186). -/
def sheafIdx : List Level → Nat → List Nat
  | [], _ => []
  | l :: ls, n =>
    let inner := (ls.map (·.bound)).foldl (· * ·) 1
    (n / inner % l.bound) :: sheafIdx ls n

/-- Bits of a packed index (R187). -/
def idxBits (bound : Nat) : Nat := if bound ≤ 2 then 1 else Nat.log2 (bound - 1) + 1

/-- The packed form of indices. -/
def packIdx : List Level → List Nat → Nat
  | _ :: ls, i :: is => i * 2 ^ ((ls.map (fun q => idxBits q.bound)).sum) + packIdx ls is
  | _, _ => 0

def noSheaf : X64 := 0x8000000000000000

/-- NEXTTs whose results are still in flight and have not slipped. -/
def State.nexttsOut (s : State) : Nat :=
  (s.core.iss.pend.filter (fun w => w.slot == 7 && !w.slip && decide (s.core.iss.cur.sched < w.due) &&
    decide (w.bundle < s.core.iss.cur.bundle))).length

def chkNextt (f : CG) (_ : State) : Chk := need (decide (48 ≤ f.d.toNat)) 0x10 0

/-- A fifth NEXTT waits for the first. -/
def readyNextt (s : State) : Ready := if s.nexttsOut < 4 then .go else .wait (some .nextt)

/-- The running strand's block and its place, for a persistent strand. -/
def State.drawFrom (s : State) : Option (Nat × Block) :=
  match s.self with
  | some t => if t.persistent then t.block.bind (fun b => (s.dev.blocks[b]?).map (fun k => (b, k))) else none
  | none => none

def Dev.setBlock (d : Dev) (b : Nat) (f : Block → Block) : Dev :=
  { d with blocks := d.blocks.zipIdx.map (fun p => if p.2 == b then f p.1 else p.1) }

/-- NEXTT: the next sheaf's packed form, or the value for none. Sheaves go to the strands that ask in the order in which their NEXTTs issue, of
the orders that R188 allows (DESIGN CHOICE, log 76). -/
def execNextt (f : CG) (s : State) : Out :=
  issueSerial s (chkNextt f s) (readyNextt s) (fun _ => .go) (fun s =>
    match s.drawFrom with
    | some (i, b) =>
      if b.drawn < b.sheafCount then
        (s.mapDev (fun d => d.setBlock i (fun b => { b with drawn := b.drawn + 1 }))).putX f.d 40
          (BitVec.ofNat 64 (packIdx b.levels (sheafIdx b.levels b.drawn))) false
      else s.putX f.d 40 noSheaf false
    | none => s.putX f.d 40 noSheaf false)

/-! ### The end of a strand (R43, R176, R178) -/

/-- A strand's totals go to its block (R176, R190); the record names the strand killed first, of one cycle the lowest-numbered (R191). -/
def Block.addStrand (b : Block) (t : Strand) (broke : Nat) : Block :=
  let u := { b with cycles := b.cycles + t.cycle, energy := b.energy + t.energy, broken := min (b.broken + broke) (2 ^ 32 - 1) }
  if t.state = .killed then
    let v := { u with killed := min (u.killed + 1) (2 ^ 32 - 1) }
    if b.killed = 0 ∨ t.since < b.killedAt ∨ (t.since = b.killedAt ∧ t.number < b.firstKilled) then
      { v with cause := t.regs.sys.trapc.toNat % 256, firstKilled := t.number, killedAt := t.since,
               trappc := t.regs.sys.trappc, trapval := t.regs.sys.trapval }
    else v
  else u

/-- An arrival of a strand killed in BARG is withdrawn (R180). -/
def Group.withdraw (g : Group) (k : Nat) : Group :=
  match g.waiters.find? (fun w => w.1 == k) with
  | some (_, ph) =>
    let h := { g with waiters := g.waiters.filter (fun w => w.1 != k) }
    if ph = g.phase then { h with arrived := h.arrived - 1 } else { h with arrnext := h.arrnext - 1 }
  | none => g

/-- A strand that is off the core ends in the state `st`: it leaves its groups, breaks its chutes, and is counted (R190, R462)
and written back. -/
def State.endStrand (s : State) (k : Nat) (st : StrandState) : State :=
  let s := s.mapDev (fun d => { d with groups := d.groups.map (fun g => g.withdraw k) })
  let s := ((s.dev.strands[k]?).map (fun t => t.groups.map (·.1))).getD [] |>.foldl (fun (s : State) nm => s.leaveGroup k nm) s
  let q := s.breakChutes k
  let s := q.1.mapDev (fun d => d.setStrand k (fun t => { t with state := st, broken := q.2, waits := none, ending := false }))
  let s := match s.dev.strands[k]? with
    | some t =>
      let u := s.mapDev (fun d => d.mapPage t.tenant (fun p => { p with tenergy := p.tenergy + BitVec.ofNat 64 t.energy }))
      match t.block with
      | some b => u.mapDev (fun d => d.setBlock b (fun b => b.addStrand t q.2))
      | none => u
    | none => s
  s.writeRecord k

/-- EXIT waits until the strand's accesses, commands and streams are done (R43, R281). -/
def readyExit (s : State) : Ready :=
  if s.core.fars.isEmpty && s.core.engs.all (fun e => e.strand != s.strandIdx) &&
      (List.range 8).all (fun q => match s.rdQ q with
        | some t => t.dir != .wr || s.buffered q == 0
        | none => true) then .go
  else .wait (some .other)

/-- The strand leaves the core for good; STRAND_END is due. -/
def State.leaveForGood (s : State) (st : StrandState) (pc : Nat) : State :=
  (s.leaveCore st pc).mapDev (fun d => d.setStrand s.strandIdx (fun t => { t with ending := true, since := s.core.now }))

/-- EXIT: the strand leaves the core once its waits are over; STRAND_END does the rest. -/
def execExit (f : CG) (s : State) : Out :=
  issueSerial s .ok .go readyExit (fun s => s.leaveForGood .done s.core.iss.nextPc)

end Sys2Proof.Machine
end

