-- ==== Sys2Proof/Machine/Vector.lean ====
section
/-! DEFINITION. Vector arithmetic, comparison, conversion and reduction (R122 to R129). -/

namespace Sys2Proof.Machine

/-! ### Element-wise operations -/

/-- The fields of an op of one, two or three vector sources and a vector destination. -/
def vf1 : VFields := { d := true, a := true, b := false, c := false }
def vf2 : VFields := { d := true, a := true, b := true, c := false }
def vf3 : VFields := { d := true, a := true, b := true, c := true }

/-- A vector op (R108): its checks and waits, then a result written under the guard. `seq`: it receives a SEQ (R56). -/
def vectorOp (f : RG) (v : VFields) (typed : List Fmt) (lat : Nat) (seq : Bool) (res : State → VRes)
    (s : State) : Out :=
  issueOp s (s.chkV f v typed) (s.readyV f) (fun s =>
    let t := (s.putV f lat (res s)).useStream f
    if seq then t.takeSeq else t)

/-- A function of an element's index and bits over one source. -/
def map1 (g : Nat → Nat → Nat) (as : List Elem) : List Elem := as.zipIdx.map (fun q => (g q.2 q.1.1, q.1.2))

def map2 (g : Nat → Nat → Nat → Nat) (as bs : List Elem) : List Elem :=
  (as.zip bs).zipIdx.map (fun q => (g q.2 q.1.1.1 q.1.2.1, q.1.1.2 || q.1.2.2))

def map3 (g : Nat → Nat → Nat → Nat → Nat) (as bs cs : List Elem) : List Elem :=
  (as.zip (bs.zip cs)).zipIdx.map (fun q =>
    (g q.2 q.1.1.1 q.1.2.1.1 q.1.2.2.1, q.1.1.2 || q.1.2.1.2 || q.1.2.2.2))

/-- A float result of element `e`, rounded once (R107). -/
def roundElem (t : Fmt) (n : Snap) (e : Nat) (x : Num) : Nat := (roundFloat t n.mode false (srDraw n.draw e) x).bits

/-- An op of one source. -/
def unary (f : RG) (lat : Nat) (seq : Bool) (g : Snap → Nat → Nat → Nat) (s : State) : Out :=
  vectorOp f vf1 [f.t] lat seq (fun s => ⟨f.t.width, map1 (g (s.snap f.rnd)) (s.srcA f f.t.width)⟩) s

/-- An op of two sources. -/
def binary (f : RG) (lat : Nat) (seq : Bool) (g : Snap → Nat → Nat → Nat → Nat) (s : State) : Out :=
  vectorOp f vf2 [f.t] lat seq
    (fun s => ⟨f.t.width, map2 (g (s.snap f.rnd)) (s.srcA f f.t.width) (s.srcB f f.t.width)⟩) s

/-- An op that rounds a float result and wraps an integer one (R122). -/
def arith (f : RG) (lat : Nat) (fl : RMode → Num → Num → Num) (it : Int → Int → Int) (s : State) : Out :=
  binary f lat true (fun n e a b =>
    if f.t.isFloat then roundElem f.t n e (fl n.mode (decodeFloat f.t a) (decodeFloat f.t b))
    else wrapInt f.t.width (it (signedOf f.t.width a) (signedOf f.t.width b))) s

/-- An integer op on signed elements. -/
def intOp (f : RG) (lat : Nat) (it : Int → Int → Int) (s : State) : Out :=
  binary f lat false (fun _ _ a b =>
    wrapInt f.t.width (it (signedOf f.t.width a) (signedOf f.t.width b))) s

/-- An integer op on the elements' bits. -/
def bitOp (f : RG) (op : Nat → Nat → Nat) (s : State) : Out :=
  binary f 2 false (fun _ _ a b => op a b % 2 ^ f.t.width) s

/-! ### Arithmetic (R122) -/

/-- VADD. -/
def execVadd (f : RG) (s : State) : Out :=
  arith f 2 addNum (fun a b => a + b) s

/-- VSUB. -/
def execVsub (f : RG) (s : State) : Out :=
  arith f 2 subNum (fun a b => a - b) s

/-- VADDS, saturating. -/
def execVadds (f : RG) (s : State) : Out :=
  intOp f 2 (fun a b => satInt f.t.width (a + b)) s

/-- VSUBS, saturating. -/
def execVsubs (f : RG) (s : State) : Out :=
  intOp f 2 (fun a b => satInt f.t.width (a - b)) s

/-- VMUL. -/
def execVmul (f : RG) (s : State) : Out :=
  arith f 5 (fun _ a b => mulNum a b) (fun a b => a * b) s

/-- VMULH: the high half of the signed product. -/
def execVmulh (f : RG) (s : State) : Out :=
  intOp f 5 (fun a b => a * b / (2 ^ f.t.width : Nat)) s

/-- The exact products of the low elements, widened to twice the width (R123). -/
def wideProducts (f : RG) (s : State) : List (Int × Bool) :=
  let w := f.t.width
  (((s.srcA f w).zip (s.srcB f w)).take (2048 / (2 * w))).map (fun q =>
    (signedOf w q.1.1 * signedOf w q.2.1, q.1.2 || q.2.2))

/-- VMULW (R123). -/
def execVmulw (f : RG) (s : State) : Out :=
  vectorOp f vf2 [f.t] 5 false (fun s =>
    ⟨2 * f.t.width, (wideProducts f s).map (fun p => (wrapInt (2 * f.t.width) p.1, p.2))⟩) s

/-- VMACW (R123): reads vd as a source. -/
def execVmacw (f : RG) (s : State) : Out :=
  vectorOp f vf2 [f.t] 5 false (fun s =>
    ⟨2 * f.t.width, ((wideProducts f s).zip (elemsOf (2 * f.t.width) (s.rdV f.d, s.poisonV f.d))).map (fun q =>
      (wrapInt (2 * f.t.width) (signedOf (2 * f.t.width) q.2.1 + q.1.1), q.1.2 || q.2.2))⟩) s

/-- VFMA: one rounding. -/
def execVfma (f : RG) (s : State) : Out :=
  vectorOp f vf3 [f.t] 5 true (fun s =>
    let n := s.snap f.rnd
    let w := f.t.width
    ⟨w, map3 (fun e a b c => roundElem f.t n e
      (fmaNum n.mode (decodeFloat f.t a) (decodeFloat f.t b) (decodeFloat f.t c))) (s.srcA f w) (s.srcB f w) (s.srcC f w)⟩) s

/-- VFMS: a × b − c with one rounding. -/
def execVfms (f : RG) (s : State) : Out :=
  vectorOp f vf3 [f.t] 5 true (fun s =>
    let n := s.snap f.rnd
    let w := f.t.width
    ⟨w, map3 (fun e a b c => roundElem f.t n e
      (fmaNum n.mode (decodeFloat f.t a) (decodeFloat f.t b) (decodeFloat f.t c).neg)) (s.srcA f w) (s.srcB f w)
        (s.srcC f w)⟩) s

/-- A float sign operation: exact, a NaN becoming canonical. -/
def signElem (t : Fmt) (g : Num → Num) (a : Nat) : Nat := (roundFloat t .rne false 0 (g (decodeFloat t a))).bits

/-- VNEG. -/
def execVneg (f : RG) (s : State) : Out :=
  unary f 2 false (fun _ _ a =>
    if f.t.isFloat then signElem f.t Num.neg a else wrapInt f.t.width (0 - signedOf f.t.width a)) s

/-- VABS. -/
def execVabs (f : RG) (s : State) : Out :=
  unary f 2 false (fun _ _ a =>
    if f.t.isFloat then signElem f.t Num.abs a else wrapInt f.t.width (signedOf f.t.width a).natAbs) s

/-- Minimum or maximum of two elements (R49, R122). -/
def pickElem (t : Fmt) (fl : Num → Num → Num) (it : Int → Int → Int) (a b : Nat) : Nat :=
  if t.isFloat then (roundFloat t .rne false 0 (fl (decodeFloat t a) (decodeFloat t b))).bits
  else wrapInt t.width (it (signedOf t.width a) (signedOf t.width b))

/-- VMIN. -/
def execVmin (f : RG) (s : State) : Out :=
  binary f 2 false (fun _ _ a b => pickElem f.t minNum min a b) s

/-- VMAX. -/
def execVmax (f : RG) (s : State) : Out :=
  binary f 2 false (fun _ _ a b => pickElem f.t maxNum max a b) s

/-- VAND. -/
def execVand (f : RG) (s : State) : Out :=
  bitOp f (fun a b => a &&& b) s

/-- VOR. -/
def execVor (f : RG) (s : State) : Out :=
  bitOp f (fun a b => a ||| b) s

/-- VXOR. -/
def execVxor (f : RG) (s : State) : Out :=
  bitOp f (fun a b => a ^^^ b) s

/-- VNOT. -/
def execVnot (f : RG) (s : State) : Out :=
  unary f 2 false (fun _ _ a => 2 ^ f.t.width - 1 - a) s

/-- VSHL: by b mod w. -/
def execVshl (f : RG) (s : State) : Out :=
  bitOp f (fun a b => a * 2 ^ (b % f.t.width)) s

/-- VSHR: by b mod w, zero-filled. -/
def execVshr (f : RG) (s : State) : Out :=
  bitOp f (fun a b => a / 2 ^ (b % f.t.width)) s

/-- VSRA: by b mod w, sign-filled. -/
def execVsra (f : RG) (s : State) : Out :=
  bitOp f (fun a b => wrapInt f.t.width (signedOf f.t.width a / (2 ^ (b % f.t.width) : Nat))) s

/-! ### Compare and select (R124, R125) -/

/-- VCMP: the predicate bits of every element the guard enables. Any poisoned source element poisons pd (R358). -/
def execVcmp (f : RG) (s : State) : Out :=
  issueOp s (s.chkV f { d := false, a := true, b := true, c := false } [f.t]) (s.readyV f) (fun s =>
    let w := f.t.width
    let as := s.srcA f w
    let bs := s.srcB f w
    let g := s.guard f.g
    let bits := (as.zip bs).map (fun q => condElem f.cond f.t q.1.1 q.2.1)
    let po := orAll (as.map (·.2)) || orAll (bs.map (·.2)) || g.2
    (s.putP f.d.toNat (maskOf w bits) (maskOf w (guardBits w g.1)) po).useStream f)

/-- VSEL: copies bits. -/
def execVsel (f : RG) (s : State) : Out :=
  vectorOp f vf2 [f.t] 2 false (fun s =>
    let w := f.t.width
    let p := guardBits w (s.rdP f.c.toNat)
    let pp := s.poisonP f.c.toNat
    ⟨w, ((s.srcA f w).zip ((s.srcB f w).zip p)).map (fun q =>
      let e := if q.2.2 then q.1 else q.2.1
      (e.1, e.2 || pp))⟩) s

/-! ### Transcendentals (R126) -/

/-- A correctly rounded function of R66, element by element. -/
def realFn (f : RG) (g : Num → Num) (s : State) : Out :=
  unary f 8 true (fun n e a => roundElem f.t n e (g (decodeFloat f.t a))) s

/-- VRCP. -/
def execVrcp (f : RG) (s : State) : Out :=
  realFn f rcpNum s

/-- VRSQ. -/
def execVrsq (f : RG) (s : State) : Out :=
  realFn f rsqNum s

/-- VSQRT. -/
def execVsqrt (f : RG) (s : State) : Out :=
  realFn f sqrtNum s

/-- VEXP2. -/
def execVexp2 (f : RG) (s : State) : Out :=
  realFn f exp2Num s

/-- VLOG2. -/
def execVlog2 (f : RG) (s : State) : Out :=
  realFn f log2Fn s

/-! ### Conversions (R127, R128) -/

/-- The groups of sixteen FP32 elements of a source, as exact values; an element the guard disables enters as +0. -/
def sxGroups (as : List Elem) (en : List Bool) : List (List (Num × Bool)) :=
  groupsOf 16 4 ((as.zip en).map (fun q => if q.2 then (decodeFloat .fp32 q.1.1, q.1.2) else (Num.zero false, false)))

/-- The result of VCVT and whether it sets OVFS: elements the guard disables are no result elements (log 17). -/
def vcvtResult (f : RG) (s : State) : VRes × Bool :=
  let n := s.snap f.rnd
  let c := convSpec f.t f.t2 f.sat f.scl n
  let g := s.guard f.g
  if f.t.isSx then
    let en := guardBits 32 g.1
    let blocks := (sxGroups (s.srcA f 32) en).zipIdx.map (fun q =>
      (c.block (q.1.map (·.1)) (fun j => srDraw n.draw (16 * q.2 + j)), orAll (q.1.map (·.2))))
    (⟨32, (blocks.map (fun b => (List.range 16).map (fun j =>
      ((roundFloat .fp32 .rne false 0 (sxDecode (sxMag f.t) b.1.1 j)).bits, b.2)))).flatten⟩,
     orAll (blocks.map (fun b => b.1.2)))
  else
    let w := f.t.width
    let k := 2048 / max w f.t2.width
    let rs := ((s.srcA f f.t2.width).take k).zipIdx.map (fun q =>
      (c.elem q.1.1 (srDraw n.draw q.2) (decodeElem f.t2 q.1.1), q.1.2))
    (⟨w, rs.map (fun r => (r.1.bits, r.2))⟩, orAll ((rs.zip (guardBits w g.1)).map (fun q => q.1.1.ovf && q.2)))

/-- VCVT. -/
def execVcvt (f : RG) (s : State) : Out :=
  issueOp s (s.chkV f vf1 [f.t, f.t2]) (s.readyV f) (fun s =>
    let r := vcvtResult f s
    (((s.putV f 3 r.1).useStream f).putOvfs 3 f.scl r.2).takeSeq)

/-- The bytes of VPACKSX's result: four blocks, then zeros. -/
def packResult (f : RG) (s : State) : VRes :=
  let n := s.snap .dyn
  let c := convSpec f.t .fp32 f.sat .none n
  let g := s.guard f.g
  let en := guardBits 32 g.1
  let bs := blockBytes f.t
  let out := (sxGroups (s.srcA f 32) en).zipIdx.map (fun q =>
    let po := orAll (q.1.map (·.2)) || (g.2 && orAll ((en.drop (16 * q.2)).take 16))
    (lanesOf 8 bs (sxPack (sxMag f.t) (c.block (q.1.map (·.1)) (fun j => srDraw n.draw (16 * q.2 + j))).1)).map
      (fun b => (b, po)))
  ⟨8, out.flatten ++ List.replicate (256 - 4 * bs) (0, false)⟩

/-- VPACKSX: the whole register is written. -/
def execVpacksx (f : RG) (s : State) : Out :=
  issueOp s (s.chkV f vf1 [f.t]) (s.readyV f) (fun s =>
    ((s.putVWith f 3 (BitVec.allOnes 256, false) (packResult f s)).useStream f).takeSeq)

/-- The FP32 elements of four packed blocks. -/
def unpackResult (f : RG) (s : State) : VRes :=
  let bs := blockBytes f.t
  let bytes := s.srcA f 8
  ⟨32, ((List.range 4).map (fun g =>
    let part := (bytes.drop (g * bs)).take bs
    let b := sxUnpack (sxMag f.t) (ofLanes 8 (part.map (·.1)))
    let po := orAll (part.map (·.2))
    (List.range 16).map (fun j => ((roundFloat .fp32 .rne false 0 (sxDecode (sxMag f.t) b j)).bits, po)))).flatten⟩

/-- VUNPKSX. -/
def execVunpksx (f : RG) (s : State) : Out :=
  vectorOp f vf1 [f.t] 3 false (unpackResult f) s

/-! ### Reductions (R129) -/

/-- The accumulation of a reduction in ascending lane, over the enabled elements. -/
def foldElems {α : Type} (step : Nat → α → α → α) : List (Nat × α) → Option α → Option α
  | [], acc => acc
  | (_, x) :: t, none => foldElems step t (some x)
  | (e, x) :: t, some a => foldElems step t (some (step e a x))

/-- A reduction of the enabled elements: lane 0 of the result, the other lanes 0. A float one folds FP32 values, an integer
one 32-bit integers; without an enabled element it gives the identity. -/
def reduceWith (f : RG) (fl : Snap → Nat → Num → Num → Num) (it : Int → Int → Int) (fid : Num) (iid : Int)
    (s : State) : VRes :=
  let w := f.t.width
  let n := s.snap f.rnd
  let g := s.guard f.g
  let xs := ((s.srcA f w).zipIdx.zip (guardBits w g.1)).filterMap (fun q => if q.2 then some q.1 else none)
  let po := orAll (xs.map (fun q => q.1.2 || g.2))
  let v := if f.t.isFloat then
      (roundFloat .fp32 .rne false 0
        ((foldElems (fl n) (xs.map (fun q => (q.2, decodeFloat f.t q.1.1))) none).getD fid)).bits
    else wrapInt 32 ((foldElems (fun _ a x => it a x) (xs.map (fun q => (q.2, signedOf w q.1.1))) none).getD iid)
  ⟨32, (v, po) :: List.replicate 63 (0, false)⟩

/-- The form of a reduction: a whole register after 12 cycles. -/
def reduction (f : RG) (seq : Bool) (res : State → VRes) (s : State) : Out :=
  issueOp s (s.chkV f vf1 [f.t]) .go (fun s =>
    let t := s.putVWith f 12 (BitVec.allOnes 256, false) (res s)
    if seq then t.takeSeq else t)

/-- VREDADD: each step rounds once to FP32 with draw `sr_draw(i)`; an integer sum wraps. -/
def execVredadd (f : RG) (s : State) : Out :=
  reduction f true (reduceWith f (fun n e a x =>
      decodeFloat .fp32 (roundElem .fp32 n e (addNum n.mode a x))) (fun a x => signedOf 32 (wrapInt 32 (a + x)))
    (Num.zero false) 0) s

/-- VREDMAX. -/
def execVredmax (f : RG) (s : State) : Out :=
  reduction f false (reduceWith f (fun _ _ a x => maxNum a x) max (.inf true)
    (-((2 ^ (f.t.width - 1) : Nat) : Int))) s

/-- VREDMIN. -/
def execVredmin (f : RG) (s : State) : Out :=
  reduction f false (reduceWith f (fun _ _ a x => minNum a x) min (.inf false)
    ((2 ^ (f.t.width - 1) : Nat) - 1)) s

end Sys2Proof.Machine
end

