-- ==== Sys2Proof/Machine/VectorMove.lean ====
section
/-! DEFINITION. Moving elements (R130, R131) and the predicate ops (R132). -/

namespace Sys2Proof.Machine

/-! ### Moving elements (R130) -/

/-- VBCAST: every element becomes element b mod n. -/
def execVbcast (f : RG) (s : State) : Out :=
  vectorOp f vf1 [f.t] 2 false (fun s =>
    let w := f.t.width
    let n := 2048 / w
    let e := elemAt (s.srcA f w) ((s.rdX f.b).toNat % n)
    ⟨w, List.replicate n (e.1, e.2 || s.poisonX f.b)⟩) s

/-- VEXT: xd is written only when the element's guard bit is 1. -/
def execVext (f : RG) (s : State) : Out :=
  issueOp s (s.chkV f { d := false, a := true, b := false, c := false } [f.t]) (s.readyV f) (fun s =>
    let w := f.t.width
    let k := (s.rdX f.b).toNat % (2048 / w)
    let e := elemAt (s.srcA f w) k
    let g := s.guard f.g
    let v : X64 := if f.t.isInt then BitVec.ofInt 64 (signedOf w e.1) else BitVec.ofNat 64 e.1
    let t := if (guardBits w g.1).getD k false then s.putX f.d 2 v (e.2 || s.poisonX f.b || g.2) else s
    t.useStream f)

/-- VINS: writes one element, if its guard bit is 1. -/
def execVins (f : RG) (s : State) : Out :=
  issueOp s (s.chkV f { d := true, a := false, b := false, c := false } [f.t]) .go (fun s =>
    let w := f.t.width
    let n := 2048 / w
    let k := (s.rdX f.b).toNat % n
    let g := s.guard f.g
    let one := maskOf w ((List.range n).map (fun i => i == k))
    s.putVWith f 2 (g.1 &&& one, g.2)
      ⟨w, List.replicate n (lowBits w (s.rdX f.a), s.poisonX f.a || s.poisonX f.b)⟩)

/-- VPERM: element i becomes element u mod n of va, u being element i of vb read unsigned. -/
def execVperm (f : RG) (s : State) : Out :=
  vectorOp f vf2 [f.t] 2 false (fun s =>
    let w := f.t.width
    let as := s.srcA f w
    ⟨w, (s.srcB f w).map (fun u =>
      let e := elemAt as (u.1 % (2048 / w))
      (e.1, e.2 || u.2))⟩) s

/-- VSLIDE: element i becomes element i + b of va, or 0 outside it. -/
def execVslide (f : RG) (s : State) : Out :=
  vectorOp f vf1 [f.t] 2 false (fun s =>
    let w := f.t.width
    let n := 2048 / w
    let as := s.srcA f w
    let po := s.poisonX f.b
    ⟨w, (List.range n).map (fun (i : Nat) =>
      let j : Int := (i : Int) + (s.rdX f.b).toInt
      let e := if 0 ≤ j ∧ j < n then elemAt as j.toNat else (0, false)
      (e.1, e.2 || po))⟩) s

/-- VIOTA: element i becomes i mod 2^w. -/
def execViota (f : RG) (s : State) : Out :=
  vectorOp f { d := true, a := false, b := false, c := false } [f.t] 2 false (fun _ =>
    ⟨f.t.width, (List.range (2048 / f.t.width)).map (fun i => (i % 2 ^ f.t.width, false))⟩) s

/-- VMOV: copies bits. -/
def execVmov (f : RG) (s : State) : Out :=
  vectorOp f vf1 [f.t] 2 false (fun s => ⟨f.t.width, s.srcA f f.t.width⟩) s

/-- The checks of VMOVI. -/
def chkVmovi (f : VI) (s : State) : Chk := (s.needAlloc [(46, s.hasV f.d)]).and (needTyped f.t)

/-- VMOVI: every element becomes bits w−1:0 of IMM. -/
def execVmovi (f : VI) (s : State) : Out :=
  issueOp s (chkVmovi f s) .go (fun s =>
    let w := f.t.width
    let m := (VRes.mk w (List.replicate (2048 / w) (f.imm.toNat % 2 ^ w, false))).image (s.guard f.g)
    s.writeAfter 2 (.v (s.pv f.d) m.1 m.2.1 m.2.2))

/-! ### Predicates (R132) -/

/-- A predicate op of two predicates. -/
def pred2 (f : RG) (op : PBits → PBits → PBits) (s : State) : Out :=
  issueOp s .ok .go (fun s =>
    s.putP f.d.toNat (op (s.rdP f.a.toNat) (s.rdP f.b.toNat)) (BitVec.allOnes 256)
      (s.poisonP f.a.toNat || s.poisonP f.b.toNat))

/-- A predicate op of one predicate. -/
def pred1 (f : RG) (op : PBits → PBits) (s : State) : Out :=
  issueOp s .ok .go (fun s =>
    s.putP f.d.toNat (op (s.rdP f.a.toNat)) (BitVec.allOnes 256) (s.poisonP f.a.toNat))

/-- PAND. -/
def execPand (f : RG) (s : State) : Out := pred2 f (fun a b => a &&& b) s

/-- POR. -/
def execPor (f : RG) (s : State) : Out := pred2 f (fun a b => a ||| b) s

/-- PXOR. -/
def execPxor (f : RG) (s : State) : Out := pred2 f (fun a b => a ^^^ b) s

/-- PNOT. -/
def execPnot (f : RG) (s : State) : Out := pred1 f (fun a => ~~~a) s

/-- The bits of the first min(a, n) elements of width `w`. -/
def lenMask (w : Nat) (a : X64) : PBits := BitVec.ofNat 256 (2 ^ (min a.toNat (2048 / w) * (w / 8)) - 1)

/-- PLEN: an SX type counts one byte per element. -/
def execPlen (f : RG) (s : State) : Out :=
  issueOp s (needTyped f.t) .go (fun s =>
    s.putP f.d.toNat (lenMask f.t.width (s.rdX f.a)) (BitVec.allOnes 256) (s.poisonX f.a))

/-- PSET: bit j becomes bit j mod 64 of a. -/
def execPset (f : RG) (s : State) : Out :=
  issueOp s .ok .go (fun s =>
    let a := (s.rdX f.a).toNat
    s.putP f.d.toNat (BitVec.ofNat 256 (ofLanes 64 [a, a, a, a])) (BitVec.allOnes 256) (s.poisonX f.a))

/-- PCNT. -/
def execPcnt (f : RG) (s : State) : Out :=
  issueOp s .ok .go (fun s =>
    s.putX f.d 2 (BitVec.ofNat 64 (lanesOf 1 256 (s.rdP f.a.toNat).toNat).sum) (s.poisonP f.a.toNat))

/-- PMOV. -/
def execPmov (f : RG) (s : State) : Out := pred1 f id s

end Sys2Proof.Machine
end

