-- ==== Sys2Proof/Machine/Bundle.lean ====
section
/-! DEFINITION. Dispatch and issue: the checks of a bundle before it issues (R98, R34), fetching (R37, R100, R101), breakpoint
comparators (R372), REP and LOOPB (R35, R36), BUNDLE_DISPATCH itself, and the eight queues (R22 to R27). -/

namespace Sys2Proof.Machine

/-! ### Entries and checks -/

/-- The ops that take an entry of the store gate (R345). -/
def takesEntry (i : Instr) (s : State) : Bool :=
  match i with
  | .st _ | .vst _ | .vsts _ | .vstx _ | .fst _ | .vfst _ | .lsfmt _ | .mdrain _ | .maccst _ | .amo _ | .red _
    | .casn _ | .copy _ | .copya _ | .pusht _ | .popt _ | .markr _ | .splitr _ | .joinr _ | .claim _ | .retire _
    | .chcommit _ | .send _ | .recv _ | .coll _ | .mma _ =>
    true
  | .vadd f | .vsub f | .vadds f | .vsubs f | .vmul f | .vmulh f | .vmulw f | .vmacw f | .vmin f | .vmax f
    | .vand f | .vor f | .vxor f | .vshl f | .vshr f | .vsra f | .vsel f | .vperm f | .vfma f | .vfms f
    | .vcvt f | .vneg f | .vabs f | .vnot f | .vrcp f | .vrsq f | .vsqrt f | .vexp2 f | .vlog2 f | .vredadd f
    | .vredmax f | .vredmin f | .vbcast f | .vslide f | .vmov f | .vpacksx f | .vunpksx f | .vcmp f | .vext f
    | .vins f | .viota f =>
    f.qsel == .d
  | .vld f | .vfld f => f.q
  | .vlds f | .vldx f => f.q
  | .wrsr f => f.srn == 0x017 && (s.rdX f.a).toNat % 16 == 1
  | _ => false

/-- The CTL of a C-slot op (R26). -/
def ctlOf (i : Instr) : Ctl :=
  match i with
  | .ctl f | .barg f | .joing f | .leaveg f | .spawn f | .susp f | .exit f | .yield f | .nextt f | .rett f
    | .tstpsn f | .rdeng f | .rdcyc f | .lsstep f =>
    f.ctl
  | .fence f => f.ctl
  | .trap f | .svc f => f.ctl
  | .rdsr f | .wrsr f | .bkpt f => f.ctl
  | _ => Ctl.none

/-- The checks of an op before its bundle issues (R98, step 4, and the checks that its description gives). -/
def opCheck (i : Instr) (s : State) : Chk :=
  match i with
  | .fadd f | .fsub f | .fmul f | .ffma f | .fmin f | .fmax f | .fcmp f | .plen f => needTyped f.t
  | .fcvt f => (needTyped f.t).and (needTyped f.t2)
  | .bc f => s.needCtl f.d
  | .brl f => chkBrl f s
  | .ret f | .jmpx f => s.needCtl f.a
  | .vadd f | .vsub f | .vadds f | .vsubs f | .vmul f | .vmulh f | .vmulw f | .vmacw f | .vmin f | .vmax f
    | .vand f | .vor f | .vxor f | .vshl f | .vshr f | .vsra f | .vsel f | .vperm f =>
    s.chkV f vf2 [f.t]
  | .vfma f | .vfms f => s.chkV f vf3 [f.t]
  | .vcvt f => s.chkV f vf1 [f.t, f.t2]
  | .vneg f | .vabs f | .vnot f | .vrcp f | .vrsq f | .vsqrt f | .vexp2 f | .vlog2 f | .vredadd f | .vredmax f
    | .vredmin f | .vbcast f | .vslide f | .vmov f | .vpacksx f | .vunpksx f =>
    s.chkV f vf1 [f.t]
  | .vcmp f => s.chkV f { d := false, a := true, b := true, c := false } [f.t]
  | .vext f => s.chkV f { d := false, a := true, b := false, c := false } [f.t]
  | .vins f | .viota f => s.chkV f { d := true, a := false, b := false, c := false } [f.t]
  | .vmovi f => chkVmovi f s
  | .mma f => chkMma f s
  | .mzero f => chkMzero f s
  | .mdrain f => chkMdrain f s
  | .maccld f => chkMaccld f s
  | .maccst f => chkMaccst f s
  | .epld f => chkEpld f s
  | .ld f => chkLd f s
  | .fld f => chkFld f s
  | .st f => chkSt f s
  | .fst f => chkFst f s
  | .vld f => chkVld f s
  | .vfld f => chkVfld f s
  | .vst f => chkVst f s
  | .vfst f => chkVfst f s
  | .vlds f => chkVlds f s
  | .vldx f => chkVldx f s
  | .vsts f => chkVsts f s
  | .vstx f => chkVstx f s
  | .lsfmt f => chkLsfmt f s
  | .copya f => chkCopya f s
  | .strb f => chkStrb f s
  | .stru f => chkStru f s
  | .pusht f => chkPusht f s
  | .popt f => chkPopt f s
  | .markr f => chkMarkr f s
  | .splitr f => chkSplitr f s
  | .joinr f => chkJoinr f s
  | .rickq f => chkRickq f s
  | .popq f => chkPopq f s
  | .amo f => chkAmo f s
  | .red f => chkRed f s
  | .claim f => chkClaim f s
  | .resolve f => chkResolve f s
  | .qclaim f => chkQclaim f s
  | .casn f => chkCasn f s
  | .chopen f => chkChopen f s
  | .chcommit f => chkChcommit f s
  | .send f => chkSend f s
  | .recv f => chkRecv f s
  | .coll f => chkColl f s
  | .joing f => chkJoing f s
  | .spawn f => chkSpawn f s
  | .susp f => chkSusp f s
  | .nextt f => chkNextt f s
  | .rett f => chkRett f s
  | .tstpsn f => chkTstpsn f s
  | .lsstep f => chkLsstep f s
  | .svc f => chkSvc f s
  | .rdsr f => chkRdsr f s
  | .wrsr f => chkWrsr f s
  | .bkpt f => chkBkpt f s
  | .copy f => chkCopyOp f s
  | .retire _ => s.needGate
  | .barg f | .leaveg f => chkMember f s
  | _ => .ok

/-! ### Sources in flight (R29 to R34, R347) -/

/-- The register whose interlocked result a read would meet; X0 is never written. -/
def State.regOf (s : State) (r : Rd) : Option RegName :=
  match r with
  | .x r => if r = 0 then none else some (.x (s.px r))
  | .v r => some (.v (s.pv r))
  | .name n => some (.n n)
  | .ch n => some (.ch n)
  | .k n => some (.k n)
  | _ => none

/-- Whether a write of the register waits for a token of an earlier bundle (R280); a far load's result does not hold it
(R32). -/
def State.tokenDue (s : State) (r : Reg) : Option RegName :=
  if r ≠ 0 ∧ s.core.inter.any (fun i => i.reg == .x (s.px r) && decide (i.bundle < s.core.iss.cur.bundle) &&
      !s.core.loads.any (fun l => l.id == i.id)) then some (.x (s.px r)) else none

/-- The registers whose interlocked results an op waits for: its sources (R29), and a destination that a token will
write (R280). -/
def State.awaited (s : State) (i : Instr) : List RegName :=
  (readsOf i).filterMap s.regOf ++ ((destX i).bind s.tokenDue).toList

/-- Whether an op must wait for an interlocked result. -/
def State.busySource (s : State) (i : Instr) : Bool := (s.awaited i).any (fun n => s.busy n && !s.gatedOwn n)

/-- Whether an op needs the result of a command that its own interval holds in the gate (R347, log 33). -/
def State.ownSource (s : State) (i : Instr) : Bool := (s.awaited i).any s.gatedOwn

/-- Whether a message that a RECV must check has not arrived (R393); the checks of R391 come first. -/
def State.busyRecv (s : State) (i : Instr) : Bool :=
  match i with
  | .recv f => s.chkLink f.a f.b f.c == .ok && readyRecv f s != .go
  | _ => false

/-- What a RECV of the bundle waits for. -/
def State.recvWait (s : State) (ops : List (Nat × Instr)) : Option WaitFor :=
  (ops.find? (fun o => s.busyRecv o.2)).bind (fun o => match o.2 with
    | .recv f => some (.recv (linkPeer (s.rdX f.a)))
    | _ => none)

/-- File and physical number of a source that latency may expose (R34). -/
def State.exposed (s : State) (r : Rd) : Option (Nat × Nat) :=
  match r with
  | .x r => if r = 0 then none else some (0, s.px r)
  | .v r => some (1, s.pv r)
  | .p n => if n = 0 then none else some (2, s.pp n)
  | .a n => some (3, n)
  | .name _ | .ch _ | .k _ => none

/-- Whether a read of the bundle in issue is undersized against a producer (R30). -/
def State.late (s : State) (k : Nat × Nat) : Bool :=
  s.core.iss.pend.any (fun w => w.dest.key == some k && decide (w.bundle < s.core.iss.cur.bundle) &&
    decide (s.core.iss.cur.sched < w.due))

/-- The first undersized read of a bundle: its slot, file and physical register. -/
def State.firstLate (s : State) (ops : List (Nat × Instr)) : Option (Nat × Nat × Nat) :=
  ((ops.map (fun o => ((readsOf o.2).filterMap s.exposed).filterMap (fun k =>
    if s.late k then some (o.1, k.1, k.2) else none))).flatten).head?

/-! ### Checking a bundle (R98) -/

/-- The element types that an op may not take RAW as (R45). -/
def typesOf (i : Instr) : List Fmt :=
  match i with
  | .fadd f | .fsub f | .fmul f | .ffma f | .fmin f | .fmax f | .fcmp f | .plen f => [f.t]
  | .fcvt f | .vcvt f => [f.t, f.t2]
  | .vadd f | .vsub f | .vadds f | .vsubs f | .vmul f | .vmulh f | .vmulw f | .vmacw f | .vmin f | .vmax f
    | .vand f | .vor f | .vxor f | .vshl f | .vshr f | .vsra f | .vsel f | .vperm f | .vfma f | .vfms f
    | .vneg f | .vabs f | .vnot f | .vrcp f | .vrsq f | .vsqrt f | .vexp2 f | .vlog2 f | .vredadd f
    | .vredmax f | .vredmin f | .vbcast f | .vslide f | .vmov f | .vpacksx f | .vunpksx f | .vcmp f | .vext f
    | .vins f | .viota f =>
    [f.t]
  | .vmovi f => [f.t]
  | .mdrain f => [f.t]
  | _ => []

/-- Whether an op's cause 0x03 reports a scale of data it does not convert, a check of its own. -/
def scalesData (i : Instr) : Bool :=
  match i with
  | .copy _ | .pusht _ => true
  | _ => false

/-- The ops that use an object through a handle register (R12). -/
def usesHandle (i : Instr) : Bool :=
  match i with
  | .mma _ | .mdrain _ | .chcommit _ | .pusht _ | .popt _ | .markr _ | .splitr _ | .joinr _ => true
  | _ => false

/-- Whether an op's cause 0x10 is rotating misuse that no value decides (R15, R16): a WRSR of RRB in a loop. -/
def misuse (i : Instr) (s : State) : Bool :=
  match i with
  | .brl _ | .nextt _ => true
  | .wrsr _ => s.core.iss.cur.loop
  | _ => false

/-- Whether a trap of an op's checks comes before a wait for the value of a source: unallocated registers, RAW, handles, streams and
rotating misuse (R98, step 4). What an op finds by a value it reads comes after it. -/
def early (i : Instr) (cause : Nat) (val : X64) (s : State) : Bool :=
  (cause == 0x0E && (opStream i).isSome) || (cause == 0x0F && usesHandle i) || (cause == 0x10 && misuse i s) ||
    (cause == 0x03 && val.toNat / 2 ^ 8 % 64 != 0 && !scalesData i) || (cause == 0x08 && (typesOf i).contains .raw)

/-- Whether a lookup that an op's checks find to fail belongs to its issue (R352): all but those of far loads and stores, whose lookups come
after it (R230). -/
def looksUpFirst (i : Instr) : Bool :=
  match i with
  | .fld _ | .vfld _ | .fst _ | .vfst _ => false
  | _ => true

/-- Step 4 for one op. A wait on the interval's own gated result traps as R348 says, after the checks that need no
value. -/
def checkOp (i : Instr) (s : State) : Chk :=
  let k := opCheck i s
  if s.ownSource i then
    match k with
    | .trap cause val => if early i cause val s then k else s.needOwn true
    | _ => s.needOwn true
  else k

/-- The slots that an MMA will have reserved. -/
def State.foreseeSlots (s : State) (f : MM) : State :=
  let take := fun (t : State) (h : Nat) => match t.chuteOf h with
    | some c => t.setChute (c.reserve (c.need f.t (MM.steps f)))
    | none => t
  if MM.void f s then s else take (take s f.cha.toNat) f.chb.toNat

/-- The state against which the next op is checked: the op's gate entry, slots, image count and accumulator (R345, R350). -/
def State.afterCheck (s : State) (i : Instr) : State :=
  let t := if takesEntry i s then s.gatePush (.pop 0) else s
  let t := match i with
    | .mma f => (t.foreseeSlots f).mapCore (fun c => { c with accs := f.acc.toNat :: c.accs })
    | _ => t
  match opStream i with
  | some q => t.countImage q
  | none => t

/-- Step 4 for the ops of a bundle in ascending slot: the first check that fails decides. -/
def checkOps : List (Nat × Instr) → State → Chk
  | [], _ => .ok
  | (slot, i) :: t, s =>
    let s := s.mapIss (fun q => { q with cur := { q.cur with slot := slot } })
    match checkOp i s with
    | .trap cause val => .trap cause val
    | .lookup cause addr => if looksUpFirst i then .lookup cause addr else checkOps t (s.afterCheck i)
    | .ok => checkOps t (s.afterCheck i)

/-! ### Fetching (R37, R100, R101, R229) -/

/-- What fetching a bundle gives: its words, or the first thing wrong. -/
inductive Fetch where
  | words (ws : List Nat)
  | broken (index slot : Nat)
  | lookup (cause addr : Nat)
  | miss (line : Nat)
  | damaged
  deriving DecidableEq, Repr

/-- The home of a word of code, or the cause that fetching it traps with. -/
def State.codeHome (s : State) (v : Nat) : Except Nat Nat :=
  match entryAt s.core.table v with
  | none => .error 0x06
  | some e =>
    if e.absent then .error 0x05
    else if !e.x then .error 0x07
    else .ok (s.route (keyOf s.dev.ident.index e.dev (e.phys v)))

/-- Where the cache holds the word of code at home `a`, of a bundle that begins at home `b`: the line's number, which must be there, and
the line and offset that the word is read from. A bundle that runs on from its line into the next is read from its own line's copy of
both. -/
def codePlace (a b : Nat) : Nat × Nat × Nat := if a / 64 = b / 64 + 1 then (a / 64, b / 64, 64 + a % 64) else (a / 64, a / 64, a % 64)

/-- The word of code at a home: from the cached line, or from memory where a line stored over reads as new (R37). -/
def State.codeWord (s : State) (v : Nat) : Fetch :=
  match s.codeHome v with
  | .error cause => .lookup cause v
  | .ok a =>
    let p := codePlace a (match s.codeHome s.core.iss.pc with
      | .ok b => b
      | .error _ => a)
    if s.mem.poisoned a || s.mem.poisoned (a + 4) || (decide (0 < devOf a) && s.dev.ident.lost.contains (devOf a - 1)) then
      .damaged
    else
      match s.core.icache.find? (fun l => l.1 == p.1), s.core.icache.find? (fun l => l.1 == p.2.1) with
      | none, _ => .miss p.1
      | _, none => .miss p.2.1
      | some _, some l =>
        let old := natOfBytes ((l.2.drop p.2.2).take 8)
        let new := s.mem.num a 8
        .words [if old = new then old else if Config.freeFetch s.freeCtr s.core.iss.pc then new else old]

/-- BR, BC, BRL, CALL, RET, JMPX, REP and LOOPB, which no REP body holds (R35). -/
def controlWord (w : Nat) : Bool := wordSlot w == 0 && decide (0x40 ≤ wordOpc w) && decide (wordOpc w ≤ 0x47)

/-- The words of a pinned bundle that the loop buffer holds (R36). -/
def State.loopWords (s : State) (pc : Nat) : Option (List Nat) :=
  (s.core.regs.loopb.bind (fun l => l.words.find? (fun q => q.1 == pc))).map (·.2)

/-- The word of code at `v` of the bundle in fetch: from the loop buffer where it holds the bundle (R36). -/
def State.wordAt (s : State) (v : Nat) : Fetch :=
  match s.loopWords s.core.iss.pc with
  | some ws => .words [ws.getD ((v - s.core.iss.pc) / 8) 0]
  | none => s.codeWord v

/-- The words of a bundle from `v` on, in address order: slots rise, so at most eight. -/
def State.fetchFrom (s : State) (body : Bool) : Nat → Nat → Nat → Nat → Fetch
  | 0, _, _, _ => .words []
  | fuel + 1, v, index, low =>
    match s.wordAt v with
    | .words ws =>
      let w := ws.headD 0
      if decide (wordSlot w < low) || wordBroken w || (body && controlWord w) then .broken index (wordSlot w)
      else if wordStop w then .words [w]
      else match s.fetchFrom body fuel (v + 8) (index + 1) (wordSlot w + 1) with
        | .words ws => .words (w :: ws)
        | r => r
    | r => r

/-- Whether the next bundle is of a REP body (log 16). -/
def State.inBody (s : State) : Bool :=
  match s.core.regs.rep with
  | some r => s.core.iss.pc == r.cursor
  | none => false

/-- The next bundle of the strand. -/
def State.fetch (s : State) : Fetch := s.fetchFrom s.inBody 8 s.core.iss.pc 0 0

/-- Whether a bundle may run on from or into the line at a place that is not the next line's: at the ends of a 256-byte line, by which
translation and migration place code (R224, R370). -/
def edgeLine (n : Nat) : Bool := n % 4 == 0 || n % 4 == 3

/-- A line enters the instruction cache, which holds 1,024 of them (R37), with a copy of the line after it. With a line at such an edge
every other one there is read again, so that a bundle over two lines is all old or all new (log 10). -/
def State.fillLine (s : State) (line : Nat) : State :=
  s.mapCore (fun c => { c with icache :=
    ((line, s.mem.bytes (64 * line) 128) :: (c.icache.filter (fun l => l.1 != line)).map (fun l =>
      if edgeLine line && edgeLine l.1 then (l.1, s.mem.bytes (64 * l.1) 128) else l)).take 1024 })

/-- Steps 2 and 3 of R98: the ops of a bundle with their slots, or a cause with its TRAPVAL (R99). -/
def decodeBundle (ws : List Nat) : Except (Nat × Nat) (List (Nat × Instr)) :=
  match ws.find? (fun w => (opRow (wordSlot w) (wordOpc w)).isNone) with
  | some w => .error (0x02, wordSlot w * 2 ^ 16)
  | none =>
    ws.foldr (fun w r =>
      match decodeOp w with
      | .error (.field b) => .error (0x03, wordSlot w * 2 ^ 16 + b * 2 ^ 8)
      | .error .opcode => .error (0x02, wordSlot w * 2 ^ 16)
      | .ok i => match r with
        | .ok l => .ok ((wordSlot w, i) :: l)
        | .error e => .error e) (.ok [])

/-! ### Breakpoint comparators (R372, R373) -/

/-- Whether comparator `n` matches a bundle at `pc` with ops in the given slots. -/
def SysRegs.hit (y : SysRegs) (pc : Nat) (slots : List Nat) (n : Nat) : Bool :=
  let a := (vget y.bka n 0).toNat
  let m := (vget y.bkm n 0).toNat % 256
  a.testBit 0 && a % 2 ^ 56 / 8 * 8 == pc && (m == 0 || slots.any (fun s => m.testBit s))

/-- A comparator's registers after a match. -/
def SysRegs.countHit (y : SysRegs) (n : Nat) : SysRegs :=
  let c := (vget y.bkc n 0).toNat
  let hits := min (c / 2 ^ 32 + 1) (2 ^ 32 - 1)
  { y with bkc := vset y.bkc n (BitVec.ofNat 64 (hits * 2 ^ 32 + (c % 2 ^ 32 - 1))) }

/-- The comparators in ascending number: the registers after them, and the one that breaks. -/
def SysRegs.compare (y : SysRegs) (pc : Nat) (slots : List Nat) : List Nat → SysRegs × Option Nat
  | [] => (y, none)
  | n :: t =>
    if y.hit pc slots n then
      if (vget y.bkc n 0).toNat % 2 ^ 32 = 0 then (y.countHit n, some n) else (y.countHit n).compare pc slots t
    else y.compare pc slots t

/-! ### REP bodies and pinned ranges (R35, R36, R121) -/

/-- The addresses of up to `n` consecutive bundles of a range of code; `fuel` bounds the words. -/
def State.bundleStarts (s : State) : Nat → Nat → Nat → Bool → List Nat
  | 0, _, _, _ => []
  | fuel + 1, n, v, start =>
    if n = 0 then []
    else match s.codeHome v with
      | .error _ => []
      | .ok a =>
        let stop := wordStop (s.mem.num a 8)
        (if start then [v] else []) ++ s.bundleStarts fuel (if stop then n - 1 else n) (v + 8) stop

/-- The bundles of a LOOPB are found when the first of them is dispatched. -/
def State.pin (s : State) : State :=
  match s.core.regs.loopb with
  | some l => if l.left = 0 then s
    else s.mapRegs (fun r => { r with loopb := some { l with left := 0, addrs := s.bundleStarts 512 l.left l.start true } })
  | none => s

def State.pinned (s : State) (v : Nat) : Bool := ((s.core.regs.loopb.map (fun l => l.addrs.contains v)).getD false)

/-- A pinned bundle enters the loop buffer when it is first dispatched (R36). -/
def State.keepWords (s : State) (ws : List Nat) : State :=
  let v := s.core.iss.cur.addr
  if s.pinned v && (s.loopWords v).isNone then
    s.mapRegs (fun r => { r with loopb := r.loopb.map (fun l => { l with words := (v, ws) :: l.words }) })
  else s

/-- A bundle of a REP body is dispatched: the body's next bundle, its next pass, or its end. -/
def State.stepRep (s : State) : State :=
  match s.core.regs.rep with
  | none => s
  | some r =>
    if s.core.iss.cur.addr ≠ r.cursor then s
    else if 1 < r.left then s.mapRegs (fun q => { q with rep := some { r with left := r.left - 1, cursor := s.core.iss.cur.after } })
    else if 0 < r.passes then
      (s.mapRegs (fun q => { q with rep := some { r with left := r.len, cursor := r.start, passes := r.passes - 1 } })).mapIss
        (fun i => { i with next := .again r.start })
    else s.mapRegs (fun q => { q with rep := none })

/-! ### The end of a bundle and of a turn -/

/-- A taken branch leaves the pinned range (R36). -/
def State.unpin (s : State) : State :=
  match s.core.iss.next with
  | .taken a => if s.pinned s.core.iss.top.addr && !s.pinned a then s.mapRegs (fun r => { r with loopb := none }) else s
  | _ => s

/-- Idle cycles of a taken branch whose target is not in the loop buffer (R119). -/
def State.branchIdle (s : State) : Nat :=
  match s.core.iss.next with
  | .taken a => if s.pinned a then 0 else 1
  | _ => 0

/-- Whether the op that a slot has reached is still in its queue. -/
def Issue.stuck (i : Issue) (n : Nat) : Bool :=
  i.iq.any (fun q => q.ctx.slot == n && q.ctx.bundle + vget i.lag n 0 == i.bundle)

/-- Whether the bundle dispatched last ends with the present cycle: an op of the C slot, CTL apart, keeps it open until it has issued. -/
def Issue.closes (i : Issue) : Bool := i.isOpen && !i.iq.any (fun q => cOp q.op && q.ctx.bundle == i.bundle)

/-- By how many bundles each slot trails once the present cycle is over (R22 to R24): at a bundle's end a slot that has not issued
falls behind; without one, every slot that has issued comes one bundle nearer (R27). -/
def Issue.lagAfter (i : Issue) : Vector Nat 8 :=
  Vector.ofFn (fun n => if i.stuck n.val then (if i.closes then i.lag[n] + 1 else i.lag[n])
    else if i.closes then i.lag[n] else i.lag[n] - 1)

/-- No slot trails. -/
def level (lag : Vector Nat 8) : Bool := lag.toList.all (fun n => n == 0)

/-- Whether every slot is level, by REALIGN or a serialising op, before the bundle's ops issue (R25, R344). -/
def Ctx.levels (c : Ctx) (iq : List Slotted) : Bool := c.ctl.realign == 255 || iq.any (fun q => serialising q.op)

/-- The bundle dispatched last has had its cycle: the next bundle is the one that control selects, its scheduled distance passes,
and the results due land (R30). The stall count passes too, at once where no slot trails (R27); a slot that trails slips (R31). -/
def State.endBundle (s : State) : State :=
  let i := s.core.iss
  let idle := i.top.ctl.stall.toNat + s.branchIdle
  let lag := i.lagAfter
  let t := s.unpin.mapIss (fun i => { i with
    pc := i.nextPc, next := .seq, bundle := i.bundle + 1, sched := i.sched + 1 + i.top.ctl.stall.toNat, lag := lag,
    stall := if level lag then 0 else idle, drift := if level lag then i.drift - idle else i.drift, held := none })
  let t := if level lag then t else t.mapIss Issue.slipAll
  (t.land.tick (if level lag then 1 + idle else 1)).mapCore (fun c => { c with meter := { c.meter with waited := 0 } })

/-- A cycle without a new bundle: a stall cycle, or a wait of dispatch, whose length is open (log 9). Trailing slots come nearer, and a
slot may slip (R27, R31); the cycles that a wait after issue or for a RECV's message has lasted are counted (R177). -/
def State.waitTurn (s : State) : State :=
  let i := s.core.iss
  let lag := i.lagAfter
  let moved := decide (0 < i.stall) || lag != i.lag
  let n := if moved then 1 else 1 + Config.waitCycles s.freeCtr
  let t := (s.tick n).mapIss (fun i => { i with
    lag := lag, stall := i.stall - 1, drift := if 0 < i.stall then i.drift - 1 else min 16 (i.drift + n) })
  (t.mapIss Issue.slipAll).land.mapCore (fun c => { c with meter := { c.meter with
    waited := if i.held.isSome || i.waits.isSome then c.meter.waited + n else 0 } })

/-- After a trap: the bundle ends where a handler runs; a strand without one has left the core (R353). -/
def State.afterTrap (s : State) (was : Option Nat) : State :=
  if s.core.running.isSome && !s.core.iss.absent then s.endBundle else s.heldTrap was

/-- The cycle ends: a lookup that failed is taken first (R352). -/
def State.closeTurn (s : State) : State :=
  match s.core.iss.fault with
  | some f => (s.lookupTrap f).afterTrap s.core.running
  | none => if s.core.iss.closes then s.endBundle else s.waitTurn

/-! ### Shoot-down and window writes at dispatch (R259, R368) -/

/-- Whether the core's table maps a window write with WIN = 1 (R259). -/
def State.mapsWindow (s : State) (w : WinWrite) : Bool :=
  s.core.table.any (fun e => e.win && w.cells.any (fun c =>
    decide (keyOf s.dev.ident.index e.dev e.pbase ≤ c.1) && decide (c.1 < keyOf s.dev.ident.index e.dev e.pbase + 2 ^ e.size)))

/-- A store by an agent that is no strand: bytes at their homes. -/
def State.plainStore (s : State) (cells : List Host.Cell) : State :=
  s.storeAt (cells.map (fun c => (s.route c.1, c.2))) []

/-- The pieces of earlier host writes are performed: no read on the link, and no window write that is applied, passes them (R260). -/
def State.landPieces (s : State) : State :=
  (s.dev.pieces.foldl (fun (t : State) p => t.plainStore p) s).mapDev (fun d => { d with pieces := [] })

/-- HWIN: the window writes that the core's table maps are performed in arrival order (R259). -/
def State.applyWindow (s : State) : State :=
  let s := s.landPieces
  let due := s.dev.ingress.filter s.mapsWindow
  let t := s.mapDev (fun d => { d with ingress := d.ingress.filter (fun w => !s.mapsWindow w) })
  due.foldl (fun (s : State) w => s.plainStore w.cells) t

/-- Window writes that no loaded table maps any longer are performed at once (R259). -/
def State.flushUnmapped (s : State) : State :=
  let s := s.landPieces
  let due := s.dev.ingress.filter (fun w => !s.mapsWindow w)
  let t := s.mapDev (fun d => { d with ingress := d.ingress.filter s.mapsWindow })
  due.foldl (fun (s : State) w => s.plainStore w.cells) t

/-- The core's acknowledgement ends the shoot-down of a tenant, and with it the migrations whose lines have all moved
(R368, R371). -/
def Dev.endShootDown (d : Dev) : Dev :=
  { d with shootDowns := [], migrations := d.migrations.filter (fun m => decide (256 * m.moved < m.len)) }

/-- The core takes its table from the tenant's list and acknowledges (R368); a list that is invalid leaves it the old one. Its streams
translate by the new table from then on. -/
def State.ackShootDown (s : State) : State :=
  let t := s.core.tenant
  let u := { s with
    core := { s.core with table := (s.tenantTable? t).getD s.core.table, tableOf := some t, shootDown := false }, dev := s.dev.endShootDown }
  State.flushUnmapped (u.mapCore (fun c => { c with
    regs := u.rebind c.regs, shadow := { c.shadow with regs := u.rebind c.shadow.regs } }))

/-! ### The local bytes of an op, and their banks -/

/-- The bank that serves the byte at an offset of local store (R138). -/
def SysRegs.bank (y : SysRegs) (off : Nat) : Nat :=
  let p := (vget y.lswz (off / 0x40000) 0).toNat % 32
  if p = 0 then off / 64 % 32 else ((off / 64) ^^^ (off / 2 ^ p)) % 32

/-- The most lines of one bank among the bytes at these offsets. -/
def SysRegs.bankLines (y : SysRegs) (offs : List Nat) : Nat :=
  let lines := (offs.map (· / 64)).foldl setAdd []
  ((List.range 32).map (fun b => (lines.filter (fun l => y.bank (64 * l) == b)).length)).foldl max 0

/-- The spread of a strided or indexed access. -/
def State.spreadOf (s : State) (i : Instr) : Option (MVX × Spread × Bool) :=
  match i with
  | .vlds f => some (f, s.stride f.b, false)
  | .vsts f => some (f, s.stride f.b, true)
  | .vldx f => some (f, s.index f.b f.t, false)
  | .vstx f => some (f, s.index f.b f.t, true)
  | _ => none

/-- Cycles for which a strided or indexed access holds its slot before it issues (R241). -/
def State.bankDelay (s : State) (i : Instr) : Nat :=
  match s.spreadOf i with
  | none => 0
  | some (f, sp, st) =>
    match localAccess s.view (s.memAddr f.a f.off.toInt) f.t st sp (s.guard f.g) with
    | none => 0
    | some v => s.core.regs.sys.bankLines (rangesAddrs v.ranges) - 1

/-- The own local bytes that an L or ST op accesses. -/
def State.localTouch (s : State) (i : Instr) : List Nat :=
  let vec := fun (a : Reg) (off : Int) (t : Fmt) (st : Bool) (sp : Spread) (g : BitVec 4) =>
    match localAccess s.view (s.memAddr a off) t st sp (s.guard g) with
    | some v => rangesAddrs v.ranges
    | none => []
  match i with
  | .ld f | .st f => span (s.memAddr f.a f.off.toInt) (widthBytes f.w)
  | .vld f => vec f.a f.off.toInt f.t false .contiguous f.g
  | .vst f => vec f.a f.off.toInt f.t true .contiguous f.g
  | i =>
    match s.spreadOf i with
    | some (f, sp, st) => vec f.a f.off.toInt f.t st sp f.g
    | none => []

/-! ### What keeps a bundle from dispatch

Its ops' checks need the values that they look at, and what the ops before them do to those (log 4). -/

/-- The sources whose values an op's checks look at: all but the operands of the arithmetic ops and a store's datum. -/
def checkedReads (i : Instr) : List Rd :=
  match i with
  | .st _ | .fst _ => (readsOf i).drop 1
  | .vst f | .vfst f => if f.q then readsOf i else (readsOf i).drop 1
  | .vsts f | .vstx f => if f.q then readsOf i else (readsOf i).drop 1
  | .bc _ | .brl _ | .ret _ | .jmpx _ | .ld _ | .fld _ | .vld _ | .vfld _ | .vlds _ | .vldx _ => readsOf i
  | i => if cOp i || (streamUse i).isSome && (opStream i).isNone then readsOf i
    else match i with
    | .mdrain _ | .maccst _ | .maccld _ | .epld _ | .lsfmt _ | .copy _ | .copya _ | .markr _ | .pusht _ | .popt _ | .splitr _
      | .joinr _ | .rickq _ | .send _ | .recv _ | .coll _ | .amo _ | .red _ | .claim _ | .resolve _ | .qclaim _ | .retire _
      | .casn _ | .chopen _ | .chcommit _ => readsOf i
    | _ => []

/-- A source whose producers have all issued and landed, as far as a read by the bundle is timely (R31). -/
def State.settledKey (s : State) (n : Ctx) (k : Nat × Nat) : Bool :=
  !s.core.iss.iq.any (fun q => q.writes.contains k) &&
    !s.core.iss.pend.any (fun w => w.dest.key == some k && decide (w.bundle < n.bundle) && decide (w.due ≤ n.sched))

/-- Whether the values that the op's checks look at are not all there. -/
def State.unknownSource (s : State) (n : Slotted) : Bool :=
  (checkedReads n.op).any (fun r => (s.regOf r).any (fun k => s.busy k && !s.gatedOwn k) ||
    ((r.key n.ctx.rrb).map (fun k => !s.settledKey n.ctx k)).getD false) ||
    s.core.iss.iq.any (fun q => q.ctx.slot == 6 && q.writes.any (fun k => n.reads.contains k || n.writes.contains k))

/-- Whether the output of a queued MDRAIN or MACCST, as far as its place is known, covers a byte of the own local store (R150, R154,
R155). -/
def State.drainCovers (s : State) (q : Slotted) (a : Nat) : Bool :=
  let t := s.mapIss (fun i => { i with cur := q.ctx })
  let within := fun (b n : Nat) => decide (b ≤ a) && decide (a < b + n)
  match q.op with
  | .maccst f => within (t.rdX f.a).toNat 65536
  | .mdrain f =>
    t.program.any (fun e => match e with
      | .redr _ b => within b 512
      | _ => false) ||
    (match outputOf t.program with
     | .chute h => (t.chuteOf h).any (fun c => within c.base (c.slots * c.slotBytes))
     | .push _ => false
     | _ => (List.range 128).any (fun r => within (outBase (t.rdX f.a) + r * outPitch (t.rdX f.a) f.t) (rowBytes f.t)))
  | _ => false

/-- Whether the op `q`, queued before, could change what the checks of `n` find: of an L or ST op, a tag, an atomic, or an output that
covers its bytes; of an MMA or MDRAIN, what changes chutes, handles, tags or the program; of an EPLD, what writes the program's bytes; of
a command, every access of memory before it. -/
def State.checkDepends (s : State) (q n : Slotted) : Bool :=
  match n.op with
  | .mma _ => changesChutes q.op
  | .mdrain _ => changesChutes q.op || (match q.op with
    | .epld _ | .rickq _ => true
    | _ => false)
  | .epld _ => q.ctx.slot == 5 || drains q.op
  | .mzero _ | .maccld _ | .maccst _ => false
  | _ =>
    if n.ctx.slot == 6 then q.ctx.slot == 4 || q.ctx.slot == 5 || q.ctx.slot == 6 || drains q.op
    else if n.ctx.slot == 4 || n.ctx.slot == 5 then
      (match q.op with
        | .lsfmt _ => true
        | _ => false) || isAtomic q.op || (drains q.op && (s.localTouch n.op).any (s.drainCovers q))
    else false

/-- Whether an op queued before could change what the checks of `n` find: accesses of memory, chutes and tags; what the streams hold;
anything before an op of the C slot. -/
def State.unsettled (s : State) (n : Slotted) : Bool :=
  let s := s.mapIss (fun i => { i with cur := n.ctx })
  s.core.iss.iq.any (fun q => cOp n.op || s.checkDepends q n ||
    ((n.ctx.slot == 6 || q.ctx.slot == 6) && (streamUse q.op).isSome && streamUse q.op == streamUse n.op))

/-- Whether an op that selects what is fetched next could not issue in the cycle of its dispatch (R119). -/
def State.lateSteer (s : State) (n : Slotted) : Bool :=
  (steers n.op || cOp n.op) && (vget s.core.iss.lag n.ctx.slot 0 != 0 || s.core.iss.iq.any (fun q => q.delays n) || s.busySource n.op)

/-- Whether the slots of REALIGN's mask are not level yet (R25); SUSP acts as 0xFF (R174). -/
def Issue.unaligned (i : Issue) (mask : Nat) : Bool := (List.range 8).any (fun n => mask.testBit n && vget i.lag n 0 != 0)

/-- Whether the next bundle, its place in `cur`, waits at dispatch. -/
def State.waitsAtDispatch (s : State) (ops : List (Nat × Instr)) : Bool :=
  let c := s.core.iss.cur
  let susp := ops.any (fun o => match o.2 with
    | .susp _ => true
    | _ => false)
  let checked := s.core.regs.sys.chkctl.getLsbD 0 || c.ctl.chk
  s.core.iss.unaligned (if susp then 255 else c.ctl.realign.toNat) || ((c.ctl.mark || c.ctl.qp || c.ctl.hwin) && !s.core.iss.iq.isEmpty) ||
    ops.any (fun o =>
      let n : Slotted := { ctx := { c with slot := o.1 }, op := o.2, wait := none, since := 0 }
      s.unknownSource n || s.unsettled n || s.lateSteer n || s.busyRecv o.2 ||
        (checked && n.reads.any (fun k => s.core.iss.iq.any (fun q => q.writes.contains k))))

/-- Whether the core may look at the next bundle: the one before has had its cycle and its stall count, no wait after issue is open,
no slot trails by more than 16 bundles (R24), and no op of the C slot but CTL is queued. -/
def Issue.mayDispatch (i : Issue) : Bool :=
  !i.isOpen && i.stall == 0 && i.waits.isNone && !i.absent && !i.halted && i.lag.toList.all (fun n => decide (n ≤ 16)) &&
    !i.iq.any (fun q => cOp q.op)

/-- Whether every op dispatched has issued in every slot, as a trap waits for (R18). -/
def Issue.quiet (i : Issue) : Bool := i.iq.isEmpty && level i.lag

/-! ### BUNDLE_DISPATCH -/

/-- The place of the next bundle's ops. -/
def State.place (s : State) (after : Nat) (ctl : Ctl) : Ctx :=
  let i := s.core.iss
  { slot := 0, bundle := i.bundle, addr := i.pc, after := after, ctl := ctl, sched := i.sched, rrb := s.core.regs.rrb,
    loop := s.inBody || s.pinned i.pc, seq := s.core.regs.seq + (i.iq.filter (fun q => takesSeqOp q.op)).length }

/-- The ops of a bundle at the place `c` in their slots, each with its SEQ, in ascending slot (R56). -/
def Ctx.slotted (c : Ctx) : List (Nat × Instr) → List Slotted
  | [] => []
  | o :: t => { ctx := { c with slot := o.1 }, op := o.2, wait := none, since := 0 } ::
      Ctx.slotted (if takesSeqOp o.2 then { c with seq := c.seq + 1 } else c) t

/-- The next bundle's place with nothing known of it. -/
def State.placeBare (s : State) : State :=
  let c := s.place s.core.iss.pc Ctl.none
  s.mapIss (fun i => { i with cur := c })

/-- An issue trap of the next bundle, once every op before it has issued (R18). -/
def State.trapBundle (s : State) (cause : Nat) (val : X64) : State :=
  if s.core.iss.quiet then (s.placeBare.issueTrap cause val).afterTrap s.core.running else s

/-- A fetch that a lookup refuses (R101, R352). -/
def State.codeFault (s : State) (cause addr : Nat) : State :=
  (s.placeBare.lookupTrap { cause := cause, addr := BitVec.ofNat 64 addr }).afterTrap s.core.running

/-- The ops of a checked bundle enter their queues. -/
def State.enqueue (s : State) (ops : List (Nat × Instr)) : State :=
  let drift := if s.core.iss.cur.levels (ops.map (fun o => { ctx := s.core.iss.cur, op := o.2, wait := none, since := 0 })) then 0
    else s.core.iss.drift
  s.stepRep.mapIss (fun i => { i with
    rett := false, top := i.cur, drift := drift, slip := !level i.lag || drift != 0,
    iq := i.iq ++ i.cur.slotted ops })

/-- What the checks of a bundle come to: it issues, from this state, or it traps, or a lookup that belongs to an op's issue fails. -/
inductive Checked where
  | issue (s : State)
  | trap (s : State) (cause : Nat) (val : X64)
  | lookup (s : State) (cause : Nat) (addr : X64)

/-- The state against which the bundle's ops are checked: those queued before count as issued. -/
def State.foreseen (s : State) : State := s.core.iss.iq.foldl (fun s q => s.afterCheck q.op) s

/-- The checks of a bundle whose sources are ready: the comparators, every op, undersized reads (R98, R34). -/
def State.checkBundle (s : State) (ops : List (Nat × Instr)) : Checked :=
  let y := s.core.regs.sys
  let cmp := if s.core.iss.rett || y.trapc.getLsbD 8 then (y, none)
    else y.compare s.core.iss.pc (ops.map (·.1)) [0, 1, 2, 3]
  let t := s.mapSys (fun _ => cmp.1)
  match cmp.2 with
  | some n => .trap t 0x0C (BitVec.ofNat 64 n)
  | none =>
    let u := if t.core.iss.cur.ctl.hwin then t.applyWindow else t
    match checkOps ops u.foreseen with
    | .trap cause val => .trap t cause val
    | .lookup cause addr => .lookup t cause addr
    | .ok =>
      match u.firstLate ops with
      | none => .issue u
      | some (slot, file, n) =>
        let y := u.core.regs.sys
        if !(y.chkctl.getLsbD 0 || u.core.iss.cur.ctl.chk) then .issue u
        else if y.chkctl.getLsbD 1 then
          let c := bitsAt y.chkctl.toNat 47 32
          .issue (u.mapSys (fun y => { y with chkctl := y.chkctl + (if c < 65535 then BitVec.ofNat 64 (2 ^ 32) else 0) }))
        else .trap t 0x04 (BitVec.ofNat 64 (slot * 2 ^ 16 + file * 2 ^ 8 + n))

/-- Whether what the core issued before a shoot-down's QP bundle is performed, the images appended to streams with it (R368). -/
def Core.performed (c : Core) : Bool :=
  c.loads.isEmpty && c.fars.isEmpty && c.engs.isEmpty && c.strm.toList.all (fun e => e.coming.isEmpty)

/-- A decoded bundle: its waits, at which the restart point before it may commit already (R344), its restart point, a shoot-down at a quiescent point, its checks. -/
def State.dispatchOps (s : State) (ws : List Nat) (ops : List (Nat × Instr)) (after : Nat) : State :=
  let ctl := ((ops.find? (fun o => o.1 == 7)).map (fun o => ctlOf o.2)).getD Ctl.none
  let c := s.place after ctl
  let u := s.mapIss (fun i => { i with cur := c })
  if u.waitsAtDispatch ops then
    (if (ctl.mark || ctl.qp) && s.core.iss.iq.isEmpty then s.commitAt s.core.iss.bundle s.core.iss.pc else s).mapIss (fun i =>
      { i with held := u.recvWait ops })
  else
    let u := if ctl.mark || ctl.qp then u.commitAt s.core.iss.bundle s.core.iss.pc else u
    if ctl.qp && u.core.shootDown && !u.core.performed then u
    else
      let u := (if ctl.qp && u.core.shootDown then u.ackShootDown.tick (1 + Config.waitCycles u.freeCtr) else u)
      match u.checkBundle ops with
      | .issue t => (t.keepWords ws).enqueue ops
      | .trap t cause val => if u.core.iss.quiet then (t.issueTrap cause val).afterTrap s.core.running else s
      | .lookup t cause addr =>
        if u.core.iss.quiet then (t.lookupTrap { cause := cause, addr := addr }).afterTrap s.core.running else s

/-- BUNDLE_DISPATCH: fetches the strand's next bundle, checks it, and queues its ops; where the core may not look at it, or a line is
missing there, nothing is dispatched. -/
def execBundleDispatch (s : State) : Out :=
  let i := s.core.iss
  if s.core.running.isNone || !i.mayDispatch then .next s
  else
    let s := s.land.pin
    if i.pc % 8 ≠ 0 then .next (s.trapBundle 0x01 0)
    else match s.fetch with
      | .miss _ => .next s
      | .damaged => .next (s.trapBundle 0x0B 0)
      | .lookup cause addr => .next (s.codeFault cause addr)
      | .broken index slot => .next (s.trapBundle 0x01 (BitVec.ofNat 64 (slot * 2 ^ 16 + index)))
      | .words ws =>
        match decodeBundle ws with
        | .error (cause, val) => .next (s.trapBundle cause (BitVec.ofNat 64 val))
        | .ok ops => .next (s.dispatchOps ws ops (i.pc + 8 * ws.length))

/-! ### Issue -/

/-- The ops that their slots have reached (R22). -/
def Issue.heads (i : Issue) : List Slotted := i.iq.filter (fun q => q.ctx.bundle + vget i.lag q.ctx.slot 0 == i.bundle)

/-- Whether an L or ST op meets the bytes of a report that the rick engine has yet to write for an earlier bundle (R151, R331). -/
def State.meetsReport (s : State) (q : Slotted) : Bool :=
  s.core.engs.any (fun e => e.strand == s.strandIdx && decide (e.bundle < q.ctx.bundle) && e.done.isNone && (match e.cmd with
    | .rick c => (match c.op with
      | .query dst => (s.localTouch q.op).any (fun a => decide (dst ≤ a) && decide (a < dst + 2112))
      | _ => false)
    | _ => false))

/-- Whether an acquire load of an earlier bundle, or of a lower slot of the op's own, has not returned: it holds the L, ST and E
slots (R247, R252). -/
def State.acquiring (s : State) (q : Slotted) : Bool :=
  decide (4 ≤ q.ctx.slot) && decide (q.ctx.slot ≤ 6) && s.core.loads.any (fun l => l.acq && l.strand == s.strandIdx &&
    (decide (l.bundle < q.ctx.bundle) || (l.bundle == q.ctx.bundle && decide (l.slot < q.ctx.slot))))

/-- Whether an op queued waits for the token of an engine command (R279). -/
def State.joining (s : State) (p : Slotted) : Bool :=
  let t := s.mapIss (fun i => { i with cur := p.ctx })
  (readsOf p.op).any (fun r => match r with
    | .x r => r != 0 && t.core.inter.any (fun i => i.reg == .x (t.px r) && decide (i.bundle < p.ctx.bundle) &&
        !superseded i i.later t.core.iss.pend t.core.inter && !t.core.loads.any (fun l => l.id == i.id) &&
        !t.core.fars.any (fun f => f.id == i.id))
    | _ => false)

/-- Whether a join holds an op of the L, ST or E slot: one at an earlier place waits for its token (R279). -/
def State.joinHolds (s : State) (q : Slotted) : Bool :=
  decide (4 ≤ q.ctx.slot) && decide (q.ctx.slot ≤ 6) && s.core.iss.iq.any (fun p => p.ctx.before q.ctx && s.joining p)

/-- Whether the op that a slot has reached waits: for an op before it, for a result that is due or that only time brings, for the
lookups before a serialising op (R344), for an acquire load (R252), a join (R279) or a report (R331), or for the banks of its access (R241). -/
def State.mustWait (s : State) (q : Slotted) : Bool :=
  s.core.iss.iq.any (fun p => p.delays q) || s.busySource q.op ||
    s.core.iss.pend.any (fun w => decide (w.bundle < q.ctx.bundle) && decide (w.due ≤ q.ctx.sched) &&
      (w.dest.key.map (fun k => q.reads.contains k)).getD false) ||
    (serialising q.op && s.core.iss.fault.isSome) || s.acquiring q || s.joinHolds q || s.meetsReport q ||
    decide ((if q.wait.isSome then s.core.now - q.since else 0) < s.bankDelay q.op)

/-- The op waits in its queue, for `w` (R23). -/
def Slotted.waiting (q : Slotted) (w : WaitFor) (now : Nat) : Slotted :=
  { q with wait := some w, since := if q.wait.isSome then q.since else now }

/-- An op back in its place in the queues. -/
def requeue (q : Slotted) : List Slotted → List Slotted
  | [] => [q]
  | p :: t => if q.ctx.before p.ctx then q :: p :: t else p :: requeue q t

/-- The op leaves its queue to issue. -/
def State.issuing (s : State) (q : Slotted) : State :=
  s.mapIss (fun i => { i with iq := i.iq.filter (fun p => p != q), cur := q.ctx, waited := s.core.mx.keeps q, held := none })

/-- The op stays in its queue: it must wait before it is tried. -/
def State.keptWaiting (s : State) (q : Slotted) : State :=
  s.mapIss (fun i => { i with iq := requeue (q.waiting (q.wait.getD .other) s.core.now) (i.iq.filter (fun p => p != q)) })

/-- After an op has been tried, in the state `v`: it is back in its queue where it waits. -/
def State.tried (s : State) (q : Slotted) (v : State) : State :=
  v.mapIss (fun j => { j with
    iq := match j.held with
      | some w => requeue (q.waiting w s.core.now) j.iq
      | none => j.iq,
    held := s.core.iss.held })

/-- The ops that their slots have reached issue, each by `ex`, those that must wait apart; then the cycle ends. -/
def runHeads (ex : Instr → State → Out) : List Slotted → State → Out
  | [], s => .next s.closeTurn
  | q :: t, s =>
    if !s.core.iss.iq.contains q then runHeads ex t s
    else if (s.issuing q).mustWait q then runHeads ex t (s.keptWaiting q)
    else match ex q.op (s.issuing q) with
      | .next v => if v.core.running != s.core.running then .next (v.heldTrap s.core.running) else runHeads ex t (s.tried q v)
      | o => o

end Sys2Proof.Machine
end

