-- ==== Sys2Proof/Machine/EvCore.lean ====
section
/-! DEFINITION. The core's own events: cache fills, landing results, restart points, lookup faults (R352), the order and the
performance of far accesses (R242, R245 to R253, R387), streams (R292, R293), and accesses from other devices (R386, R371). -/

namespace Sys2Proof.Machine

/-! ### Fetch, results, restart points -/

/-- ICACHE_FILL: the line that the next bundle misses arrives (R37). -/
def execIcacheFill (s : State) : Out :=
  if s.core.running.isNone then .next s
  else match s.fetch with
    | .miss line => .next ((s.fillLine line).tick (1 + Config.waitCycles s.freeCtr))
    | _ => .next s

/-- FIXED_LATENCY_WRITE: the results whose latency has elapsed land (R28). -/
def execFixedLatencyWrite (s : State) : Out := .next s.land

/-- LOOKUP_FAULT: the lookup that has failed is taken (R352). -/
def execLookupFault (s : State) : Out :=
  match s.core.iss.fault with
  | some f => if s.core.iss.absent then .next s else .next ((s.lookupTrap f).afterTrap s.core.running)
  | none => .next s

/-- Clears ABSENT of the entry that maps an address, in the core's table (R352). -/
def Core.present (c : Core) (v : Nat) : Core :=
  { c with table := c.table.map (fun e => if e.maps v then { e with absent := false } else e) }

/-- PAGE_MADE_PRESENT: the strand that waits for the range runs on from its restart point; a range without backing becomes
a fault of cause 0x06 (R352). -/
def execPageMadePresent (backed : Bool) (s : State) : Out :=
  match s.core.iss.fault, s.core.iss.absent with
  | some f, true =>
    let t := s.mapIss (fun i => { i with absent := false, fault := none })
    if backed then .next (t.mapCore (fun c => c.present f.addr.toNat))
    else .next ((t.takeTrap 0x06 f.addr t.core.shadow.pc).afterTrap s.core.running)
  | _, _ => .next s

/-- The ops of the next bundle, where it fetches and decodes. -/
def State.nextOps (s : State) : List (Nat × Instr) :=
  match s.fetch with
  | .words ws =>
    match decodeBundle ws with
    | .ok ops => ops
    | .error _ => []
  | _ => []

/-- The CTL of the next bundle. -/
def State.nextCtl (s : State) : Option Ctl := (s.nextOps.find? (fun o => o.1 == 7)).map (fun o => ctlOf o.2)

/-- RESTART_POINT_COMMIT: every earlier bundle has issued, and the next one begins an interval (R343, R344). -/
def execRestartPointCommit (s : State) : Out :=
  let i := s.core.iss
  if s.core.running.isSome && i.mayDispatch && i.iq.isEmpty then
    match s.nextCtl with
    | some c => if c.mark || c.qp then .next (s.commitAt i.bundle i.pc) else .next s
    | none => .next s
  else .next s

/-! ### The order of far accesses (R249 to R253, R277) -/

/-- Whether a place in program order lies before another. -/
def before (b1 s1 b2 s2 : Nat) : Bool := decide (b1 < b2) || (b1 == b2 && decide (s1 < s2))

/-- Whether two accesses are ordered by their kinds or their bytes (R249, R250). -/
def orderedParts (p q : List Part) : Bool :=
  (p.any (fun a => a.kind == .so) && q.any (fun a => a.kind == .so)) || p.any (fun a => q.any a.overlaps)

/-- Whether an access reaches host memory. -/
def toHost (p : List Part) : Bool := p.any (fun a => homeOf (physOf a.addr) == .host)

/-- Whether a far load keeps an access of its strand at a later place from being performed (R249, R250, R252). -/
def FarLoad.blocks (l : FarLoad) (strand bundle slot : Nat) (ps : List Part) (all : Bool) : Bool :=
  l.strand == strand && before l.bundle l.slot bundle slot && (all || l.acq || orderedParts l.left ps)

/-- The same for a far store or atomic. -/
def FarOp.blocks (f : FarOp) (strand bundle slot : Nat) (ps : List Part) (all : Bool) : Bool :=
  f.strand == strand && before f.bundle f.slot bundle slot && (all || orderedParts f.parts ps)

/-- Whether an access may be performed now; `all` for a release store (R253) or an engine's fork (R277), which wait for
every earlier access. -/
def State.mayPerform (s : State) (strand bundle slot : Nat) (ps : List Part) (all : Bool) : Bool :=
  !s.core.loads.any (fun l => l.blocks strand bundle slot ps all) && !s.core.fars.any (fun f => f.blocks strand bundle slot ps all)

/-- Whether the other devices among the homes of an access have answered; a device that is lost needs none (R386, R387, log 68). -/
def State.answered (s : State) (ps : List Part) : Bool :=
  ps.all (fun p => devOf p.addr == 0 || s.lostNow p || Config.linkAnswers s.freeCtr (devOf p.addr - 1))

/-- Whether an op is a far load. -/
def isFarLoad (i : Instr) : Bool :=
  match i with
  | .fld _ | .vfld _ => true
  | _ => false

/-- Whether an op of the strand waits for a far load before the next restart point, for its value or, where sixteen are outstanding, for
its place: one that is queued, or one of the next bundle where that begins no interval. -/
def State.wantsLoad (s : State) (l : FarLoad) : Bool :=
  let k := (match l.form with
    | .scalar _ => 0
    | _ => 1, l.reg)
  let wants := fun (q : Slotted) => (l.stream.isNone && q.reads.contains k) || (isFarLoad q.op && decide (16 ≤ s.core.loads.length)) || (l.acq && decide (4 ≤ q.ctx.slot) && decide (q.ctx.slot ≤ 6))
  s.core.iss.iq.any wants ||
    (!(s.nextCtl.map (fun c => c.mark || c.qp)).getD false &&
      s.nextOps.any (fun o => wants { ctx := { s.place 0 Ctl.none with slot := o.1 }, op := o.2, wait := none, since := 0 }))

/-- Whether an SO access of the strand's own gate comes before an SO part of the load (R249). The load waits for its release; where
an op of the interval waits for the load, no restart point can release the gate, and the load counts the gated accesses as
performed, as R347 says (log 65). -/
def State.gatedSo (s : State) (l : FarLoad) (ps : List Part) : Bool :=
  s.core.running == some l.strand && ps.any (fun p => p.kind == .so) &&
    s.core.gate.any (fun e => before e.bundle e.slot l.bundle l.slot && (match e.op with
      | .far f => f.parts.any (fun p => p.kind == .so)
      | _ => false)) && !s.wantsLoad l

/-- Whether the order lets part `i` of a far load be performed, by its own page's kind (R251). -/
def State.loadDue (s : State) (q : FarLoad × Nat) : Bool :=
  s.mayPerform q.1.strand q.1.bundle q.1.slot (q.1.part q.2) false && !s.gatedSo q.1 (q.1.part q.2)

/-- Whether part `i` of a far load may be performed. -/
def State.loadReady (s : State) (q : FarLoad × Nat) : Bool := s.loadDue q && s.answered (q.1.part q.2)

/-- The parts of the loads that are outstanding. -/
def Core.loadParts (c : Core) : List (FarLoad × Nat) := (c.loads.map (fun l => l.todo.map (fun i => (l, i)))).flatten

/-- Writes to host memory stay in issue order on the link (R260). -/
def State.hostBehind (s : State) (f : FarOp) : Bool :=
  toHost f.parts && s.core.fars.any (fun o => o.strand == f.strand && before o.bundle o.slot f.bundle f.slot && toHost o.parts)

def State.farReady (s : State) (f : FarOp) : Bool :=
  s.mayPerform f.strand f.bundle f.slot f.parts f.rel && !s.hostBehind f && s.answered f.parts

/-! ### Far loads -/

/-- What a far load writes, from the bytes it read. -/
def FarLoad.result (l : FarLoad) (bytes : List (Byte × Bool)) : RegName × Dest × Bool :=
  match l.form with
  | .scalar u =>
    let v := scalarValue bytes u
    (.x l.reg, .x l.reg v.1 (v.2 || l.inject), v.2 || l.inject)
  | .vector sh t f g units guard gpois =>
    let m := loadImage sh t f g units (guard, gpois) l.inject bytes
    (.v l.reg, .v l.reg m.1 m.2.1 m.2.2, m.2.2 != 0)

/-- A load that delivered poison is counted as of its bundle (R362). -/
def State.countLoad (s : State) (l : FarLoad) : State :=
  if s.core.running = some l.strand then
    let w : PWrite := { dest := .loaded, due := 0, bundle := l.bundle, slot := l.slot, slip := false }
    s.mapCore (fun c => { c with
      iss := { c.iss with pend := pendInsert w c.iss.pend },
      shadow := if l.bundle < c.shadow.bundle then { c.shadow with pend := pendInsert w c.shadow.pend } else c.shadow })
  else s.sysOf l.strand SysRegs.countLoaded

/-- The image that a far load has brought: in its place in the gate, or, its entry released, appended (R293, R345). -/
def State.bringImage (s : State) (l : FarLoad) (q : Nat) (v : VBits) (po : BitVec 64) : State :=
  let mine := fun (e : GateEntry) => match e.op with
    | .imageOf _ i => i == l.id
    | _ => false
  if s.core.gate.any mine then
    s.mapCore (fun c => { c with gate := c.gate.map (fun e => if mine e then { e with op := .image q c.now v po } else e) })
  else if s.core.running == some l.strand then s.landImage q s.core.now v po
  else s

/-- What a far load has read goes to its register or its stream (R238, R242). -/
def State.returnLoad (s : State) (l : FarLoad) (r : RegName × Dest × Bool) : State :=
  match l.stream, r.2.1 with
  | some q, .v _ v _ po => s.bringImage l q v po
  | _, d => s.deliver l.id r.1 d

/-- A part of a far load is performed at its home; the load returns with its last one (R242, R251, R347). -/
def State.performLoad (s : State) (q : FarLoad × Nat) : State :=
  let l := { q.1 with got := q.1.got ++ [(q.2, s.readParts (s.viewAt q.1.bundle) (q.1.part q.2))] }
  let s := s.chargeParts q.1.strand (q.1.part q.2)
  if l.left.isEmpty then
    let t := s.mapCore (fun c => { c with loads := c.loads.filter (fun o => o.id != l.id) })
    let r := l.result (((List.range l.got.length).map (fun i => ((l.got.find? (fun g => g.1 == i)).map (·.2)).getD [])).flatten)
    let u := t.returnLoad l r
    if r.2.2 then u.countLoad l else u
  else s.mapCore (fun c => { c with loads := c.loads.map (fun o => if o.id == l.id then l else o) })

/-- FAR_LOAD_RETURN: part `k` of those outstanding, where the ordering rules let it be performed. -/
def execFarLoadReturn (k : Nat) (s : State) : Out :=
  match s.core.loadParts[k]? with
  | some q => if s.loadReady q then .next (s.performLoad q) else .next s
  | none => .next s

/-! ### Far stores and atomics -/

/-- Whether a byte of a store lies in one of the pieces. -/
def inParts (ps : List Part) (a : Nat) : Bool := ps.any (fun p => decide (p.addr ≤ a) && decide (a < p.addr + p.len))

/-- The bytes of a store that lie in the pieces `ps`, at the places where they are performed. -/
def FarOp.dataIn (f : FarOp) (s : State) (ps : List Part) : StoreData :=
  { f.data with
    cells := (f.data.cells.filter (fun c => inParts ps c.1)).map (fun c => (s.route c.1, c.2)),
    poisoned := (f.data.poisoned.filter (inParts ps)).map s.route }

/-- Another part of a split store has been performed, but for the pieces of a lost device (R251, R387). -/
def FarOp.joined (o : FarOp) (good : List Part) (missed : Bool) : FarOp :=
  { o with performed := o.performed ++ good, missed := o.missed || missed }

/-- A store, or a part of one, is performed at its home, but for the pieces of a device that is lost then; with its last part it is
counted, and at error counter 2 where a part was not performed (R251, R362, R387). -/
def State.performFar (s : State) (f : FarOp) : State :=
  let good := f.parts.filter (fun p => !s.lostNow p)
  let missed := f.parts.any s.lostNow
  let d := f.dataIn s good
  let t := (s.chargeParts f.strand f.parts).storeAt d.cells d.poisoned
  if s.core.fars.any (fun o => o.id == f.id) then
    t.mapCore (fun c => { c with fars := c.fars.map (fun o => if o.id == f.id then o.joined good missed else o) })
  else
    let u := t.sysOf f.strand (f.dataIn s (f.performed ++ good)).book
    if f.missed || missed then u.mapDev (fun v => v.countErr 2) else u

/-- An access leaves the far-store queue: a part of a split store on its own. What it replaces of the SRC of a COLL before it is kept
(R423). -/
def State.dropFar (s : State) (f : FarOp) : State :=
  (s.keepSrc f.strand f.bundle f.slot ((f.parts.map (fun p => (List.range p.len).map (fun i => p.addr + i))).flatten)).mapCore (fun c =>
    { c with fars := c.fars.erase f })

/-- FAR_STORE_PERFORMED: entry `k` of the far-store queue, a store, where the ordering rules let it be performed. -/
def execFarStorePerformed (k : Nat) (s : State) : Out :=
  match s.core.fars[k]? with
  | some f => if f.atom.isNone && s.farReady f then .next ((s.dropFar f).performFar f) else .next s
  | none => .next s

/-- ATOMIC_PERFORMED: entry `k`, an atomic or reduction (R298, R300). -/
def execAtomicPerformed (k : Nat) (s : State) : Out :=
  match s.core.fars[k]? with
  | some f =>
    match f.atom with
    | some op => if s.farReady f then .next (((s.dropFar f).chargeParts f.strand f.parts).performAtom f op) else .next s
    | none => .next s
  | none => .next s

/-! ### Streams -/

/-- Whether an engine may fork (R277): the accesses of its strand before its place are performed, none waits in the gate, and no op before
it that accesses memory is still queued. -/
def State.forked (s : State) (strand bundle slot : Nat) : Bool :=
  s.mayPerform strand bundle slot [] true &&
    (s.core.running != some strand ||
     s.core.gate.all (fun e => !before e.bundle e.slot bundle slot || (match e.op with
      | .store _ | .output _ | .far _ | .drainChute _ _ | .drainPush _ _ => false
      | _ => true)) &&
      s.core.iss.iq.all (fun q => !(memorySlot q.ctx.slot && before q.ctx.bundle q.ctx.slot bundle slot)))

/-- Whether a stream's engine has forked (R277, R294). -/
def State.streamForked (s : State) (t : Stream) : Bool := s.forked s.strandIdx t.bundle 6

/-- Byte `o` of a stream's pattern: its home, and the status that its access meets. -/
def State.streamByte (s : State) (t : Stream) (o : Nat) : Option (Nat × Nat) :=
  if o < t.pat.total then some (s.byteHome t.home o) else none

/-- The next image of a `.rd` stream: lanes with a poisoned byte read as poisoned zeros (R292). A byte whose home is lost, or whose host access
failed, reads as a clean 0 (DESIGN CHOICE, log 88). -/
def State.fetchImage (s : State) (t : Stream) (moved : Nat) : (VBits × BitVec 64) × List Nat :=
  let bs := (List.range 256).map (fun i => match s.streamByte t (256 * moved + i) with
    | some (a, code) => if code = 0 then ((s.mem.byte a).toNat, s.mem.poisoned a, if s.mem.poisoned a then 3 else 0) else (0, false, code)
    | none => (0, false, 0))
  let lanes := (List.range 64).map (fun l =>
    let b := (bs.drop (4 * l)).take 4
    let po := orAll (b.map (fun q => q.2.1))
    (if po then 0 else ofLanes 8 (b.map (·.1)), po))
  ((BitVec.ofNat 2048 (ofLanes 32 (lanes.map (·.1))), BitVec.ofNat 64 (ofLanes 1 (lanes.map (fun l => if l.2 then 1 else 0)))),
   bs.map (fun q => q.2.2))

/-- The homes of the bytes of image `moved` of a stream (R461). -/
def State.streamHomes (s : State) (t : Stream) (moved : Nat) : List (Nat × Nat) :=
  (List.range (min 256 (t.pat.total - 256 * moved))).map (fun i => ((s.byteHome t.home (256 * moved + i)).1, 1))

def State.fetchReady (s : State) (q : Nat) : Bool :=
  let e := vget s.core.strm q StreamEngine.empty
  match s.rdQ q with
  | some t => t.dir == .rd && decide (e.moved < t.pat.images) && decide (e.images.length < 8) && s.streamForked t && s.answered t.home
  | none => false

/-- STREAM_FETCH. -/
def execStreamFetch (q : BitVec 3) (s : State) : Out :=
  let n := q.toNat
  let e := vget s.core.strm n StreamEngine.empty
  match s.rdQ n with
  | some t =>
    if s.fetchReady n then
      let r := s.fetchImage t e.moved
      let g : StreamEngine := { e with images := e.images ++ [r.1], moved := e.moved + 1, code := lowestCode (e.code :: r.2) }
      .next (((s.chargeBytes s.strandIdx (s.streamHomes t e.moved)).mapCore (fun c => { c with strm := vset c.strm n g })).bump)
    else .next s
  | none => .next s

/-- Whether an image waits whose result has landed, the engine having forked (R277, R293). -/
def State.writebackDue (s : State) (q : Nat) : Bool :=
  match s.rdQ q with
  | some t => t.dir == .wr && s.streamForked t && (match (vget s.core.strm q StreamEngine.empty).coming with
    | im :: _ => decide (im.1 ≤ s.core.now)
    | [] => false)
  | none => false

def State.writebackReady (s : State) (q : Nat) : Bool := s.writebackDue q && (s.rdQ q).all (fun t => s.answered t.home)

/-- The image that was appended first goes to the pattern; a poisoned lane's bytes are written with poison (R293). -/
def State.performWriteback (s : State) (n : Nat) : State :=
  let e := vget s.core.strm n StreamEngine.empty
  match s.rdQ n, e.coming with
  | some t, (_, im) :: rest =>
    let out := ((lanesOf 8 256 im.1.toNat).zipIdx).filterMap (fun b =>
      (s.streamByte t (256 * e.moved + b.2)).map (fun h => (h.1, h.2, BitVec.ofNat 8 b.1, im.2.getLsbD (b.2 / 4))))
    let good := out.filter (fun o => o.2.1 == 0)
    let u := s.engineStore (good.map (fun o => (o.1, o.2.2.1))) ((good.filter (fun o => o.2.2.2)).map (·.1))
    let g : StreamEngine := { e with coming := rest, moved := e.moved + 1, code := lowestCode (e.code :: out.map (fun o => o.2.1)) }
    ((u.chargeBytes u.strandIdx (u.streamHomes t e.moved)).mapCore (fun c => { c with strm := vset c.strm n g })).bump
  | _, _ => s

/-- STREAM_WRITEBACK. -/
def execStreamWriteback (q : BitVec 3) (s : State) : Out :=
  .next (if s.writebackReady q.toNat then s.performWriteback q.toNat else s)

/-! ### Accesses from other devices -/

/-- Whether another device's access may reach a physical range of this one (R386). -/
def remoteHome (pa len : Nat) : Bool :=
  let h := homeOf pa
  h == homeOf (pa + len - 1) && h != .none && h != .host

/-- A read from outside receives the bytes at these homes. -/
def State.answerBytes (s : State) (homes : List Nat) : State :=
  s.mapDev (fun d => { d with answer := some (homes.map (fun a => if s.mem.poisoned a then none else some (s.mem.byte a))) })

/-- The status of an atomic from outside. -/
def State.replied (s : State) (status : Nat) : State := s.mapDev (fun d => { d with reply := status })

/-- An access of another device at its home here (R386, R371): the homes of moved lines are the new ones. -/
def State.performRemote (s : State) (op : RemoteOp) : State :=
  match op with
  | .load a n => if remoteHome a n then s.answerBytes ((List.range n).map (fun i => s.route (a + i))) else s
  | .store a bs po =>
    if remoteHome a bs.length then
      s.engineStore ((cellsAt a bs).map (fun c => (s.route c.1, c.2)))
        ((po.zipIdx.filter (fun q => q.1 && decide (q.2 < bs.length))).map (fun q => s.route (a + q.2)))
    else s
  | .amo o w a b c po =>
    let n := widthBytes w
    let h := s.route a
    if !remoteHome a n || a % n != 0 then s
    else if s.poisonedAt h n then (s.answerBytes (span h n)).replied 3
    else
      let r := amoApply o (8 * n) (s.mem.num h n) (lowBits (8 * n) b) (lowBits (8 * n) c)
      ((s.answerBytes (span h n)).replied r.2).putWord h n r.1 po
  | .red o w a b lanes po =>
    let n := if o = .bfpadd then 256 else widthBytes w
    let h := s.route a
    if !remoteHome a n then s
    else if s.poisonedAt h n then s.mapDev (fun d => d.countErr 3)
    else if o = .bfpadd then s.bfpAddAt h lanes po
    else s.putWord h n (redApply o (8 * n) (s.mem.num h n) (lowBits (8 * n) b)) po
  | .casn a exp new live tenant =>
    let h := s.route a
    let t := if live then ((s.answerBytes (span h 16)).noteQueried new).bump else s.answerBytes (span h 16)
    let was : ClaimName := if s.poisonedAt h 16 then 0 else BitVec.ofNat 128 (s.mem.num h 16)
    if !remoteHome a 16 || a % 16 != 0 then s
    else if live && !s.pins tenant new then t.replied 1
    else if was = exp then (t.replied 0).putWord h 16 new.toNat false
    else t.replied 11
  | .ownStore _ _ _ => s

/-- Another device's agents have written `bytes` at a physical address of its own. -/
def State.storeElsewhere (s : State) (dev addr : Nat) (bytes : List Byte) (poisoned : List Bool) : State :=
  let a := (dev + 1) * physSpace + addr
  if dev != s.dev.ident.index && remoteHome addr bytes.length then
    s.storeAt (cellsAt a bytes) ((poisoned.zipIdx.filter (fun q => q.1 && decide (q.2 < bytes.length))).map (fun q => a + q.2))
  else s

/-- When this device last received a flit of another, its own reset at the earliest (R389). -/
def Links.heardAt (l : Links) (dev : Nat) : Nat := ((l.heard.find? (fun q => q.1 == dev)).map (·.2)).getD 0

/-- Something of another device has come. -/
def State.hear (s : State) (dev : Nat) : State :=
  s.mapDev (fun d => { d with links := { d.links with heard := (dev, s.core.now) :: d.links.heard.filter (fun q => q.1 != dev) } })

/-- REMOTE_ACCESS: nothing of a device that the domain has declared lost arrives (R387). -/
def execRemoteAccess (dev : Nat) (op : RemoteOp) (s : State) : Out :=
  if s.dev.ident.lost.contains dev then .next s
  else match op with
    | .ownStore a bs po => .next ((s.hear dev).storeElsewhere dev a bs po)
    | op => .next ((s.hear dev).performRemote op)

/-- The first byte that an access touches. -/
def remoteAddr (op : RemoteOp) : Nat :=
  match op with
  | .load a _ => a
  | .store a _ _ => a
  | .amo _ _ a _ _ _ => a
  | .red _ _ a _ _ _ => a
  | .casn a _ _ _ _ => a
  | .ownStore a _ _ => a

/-- FORWARDED_ACCESS: an access that reaches the old home of a moved line is performed once, at the new home (R371). -/
def execForwardedAccess (op : RemoteOp) (s : State) : Out :=
  if s.route (remoteAddr op) ≠ remoteAddr op then .next (s.performRemote op) else .next s

end Sys2Proof.Machine
end

