-- ==== Sys2Proof/Machine/EvStrand.lean ====
section
/-! DEFINITION. The scheduler's events (R168, R170, R176 to R178, R193 to R195, R364 to R367): pickup, the halt and save of a
running strand, waits that end, and what the owner runtime does to strands. -/

namespace Sys2Proof.Machine

/-! ### The choice of the next strand (R195) -/

def Dev.weightOf (d : Dev) (t cls : Nat) : Nat := bitsAt (d.page t).weight.toNat (8 * cls + 7) (8 * cls)

/-- The tenants with weight in a class, ascending. -/
def Dev.weighted (d : Dev) (cls : Nat) : List Nat := (List.range 64).filter (fun t => d.weightOf t cls != 0)

/-- Whether a tenant has an eligible strand of a class. -/
def Dev.hasEligible (d : Dev) (cls t : Nat) : Bool := d.strands.any (fun q => q.cls == cls && q.tenant == t && d.eligible q)

/-- The tenant after `t` among those with weight, in a ring. -/
def nextTenant (ws : List Nat) (t : Nat) : Nat := (ws.find? (fun u => decide (t < u))).getD (ws.headD 0)

/-- Where the round-robin pointer of a class stands. -/
def Dev.pointer (d : Dev) (cls : Nat) : Nat := (vget d.sched.rr cls none).getD ((d.weighted cls).headD 0)

/-- What a whole number of rounds adds: deficits of tenants with eligible strands grow by weight times quantum a round, the
others are cleared. -/
def Dev.addRounds (d : Dev) (cls n : Nat) : Dev :=
  if n = 0 then d
  else { d with sched := (d.weighted cls).foldl (fun q t =>
      q.setDeficit cls t (if d.hasEligible cls t then q.deficitOf cls t + n * (d.weightOf t cls * vget d.set.quant cls 0)
        else 0)) d.sched }

/-- Rounds that pass before any tenant's deficit can turn positive. -/
def Dev.idleRounds (d : Dev) (cls : Nat) : Nat :=
  let ks := ((d.weighted cls).filter (d.hasEligible cls)).map (fun t =>
    ((-(d.sched.deficitOf cls t)) / (d.weightOf t cls * vget d.set.quant cls 0 : Nat)).toNat)
  ks.foldl min (ks.headD 0) - 1

/-- The loop of `pick`: the tenant whose strand runs next. -/
def Dev.pickLoop (cls : Nat) : Nat → Dev → Option Nat × Dev
  | 0, d => (none, d)
  | fuel + 1, d =>
    let t := d.pointer cls
    let has := d.hasEligible cls t
    if has && decide (0 < d.sched.deficitOf cls t) then (some t, d)
    else
      let q := if has then d.sched else d.sched.setDeficit cls t 0
      let u := nextTenant (d.weighted cls) t
      let q := q.setDeficit cls u (q.deficitOf cls u + (d.weightOf u cls * vget d.set.quant cls 0 : Nat))
      Dev.pickLoop cls fuel { d with sched := { q with rr := vset q.rr cls (some u) } }

/-- Of a tenant's eligible strands of a class, the one runnable earliest, then the lowest number. -/
def Dev.earliest (d : Dev) (cls t : Nat) : Option Nat :=
  (d.strands.zipIdx.filter (fun q => q.1.cls == cls && q.1.tenant == t && d.eligible q.1)).foldl
    (fun (b : Option (Strand × Nat)) q => match b with
      | none => some q
      | some o => if q.1.since < o.1.since ∨ (q.1.since = o.1.since ∧ q.1.number < o.1.number) then some q else b) none
    |>.map (·.2)

/-- `pick`: the strand, and the scheduler after it. -/
def Dev.pick (d : Dev) : Option Nat × Dev :=
  match [0, 1, 2, 3].find? (fun c => d.strands.any (fun q => q.cls == c && d.eligible q)) with
  | none => (none, d)
  | some c =>
    let p := Dev.pickLoop c 256 (d.addRounds c (d.idleRounds c))
    (p.1.bind (p.2.earliest c), p.2)

/-! ### Pickup (R170, R227, R228) -/

/-- The number of a strand's launch; a strand of no block counts as of launch 0. -/
def Dev.launchOf (d : Dev) (t : Strand) : Nat := ((t.block.bind (fun b => d.blocks[b]?)).map (fun b => b.launch)).getD 0

/-- The table for a strand: the core's own where it holds that of the strand's launch, else as the foreman walks the list; none if the list
is invalid. -/
def State.loadTable (s : State) (t : Strand) : Option (List Entry) :=
  if s.core.tableOf = some t.tenant && s.core.tableLaunch == some (s.dev.launchOf t) then some s.core.table else s.tenantTable? t.tenant

/-- The first pickup of a block whose list is invalid: the block is rejected, and none of its strands runs (R228). -/
def Dev.rejectBlock (d : Dev) (b cause : Nat) : Dev :=
  { (d.setBlock b (fun q => { q with rejected := some cause })) with
    strands := d.strands.map (fun t => if t.block = some b then { t with state := .done } else t) }

/-- A stream's engine as the core that restores the strand begins it again. -/
def restartStream (q : Option Stream) : StreamEngine :=
  match q with
  | some t => { StreamEngine.empty with moved := t.taken, code := t.code }
  | none => StreamEngine.empty

/-- A register's value from its place in the save area: a byte that a store has written since the save is the store's (R171). -/
def savedValue (stored : List (Nat × Byte)) (place w v : Nat) : Nat :=
  ofLanes 8 ((lanesOf 8 w v).zipIdx.map (fun b => match stored.find? (fun q => q.1 == place + b.2) with
    | some q => q.2.toNat
    | none => b.1))

/-- The bytes of the save area that differ from what the save left there (R171). -/
def State.storedOver (s : State) (t : Strand) : List (Nat × Byte) :=
  let bs := ((s.tenantLoad t.tenant t.save.toNat saveBytes).getD []).zipIdx
  (bs.filter (fun b => b.1.1 != Config.freeByte t.saved (t.save.toNat + b.2))).map (fun b => (b.2, b.1.1))

/-- A system register after a store into its save area: its reserved bits read 0, and RMODE has no reserved mode. -/
def savedSys (get : Nat → Nat → Nat → Nat) (n : Nat) (v : X64) : X64 :=
  let u := BitVec.ofNat 64 (get n 8 v.toNat) &&& sysMask n
  if n = 0x001 && decide (5 < u.toNat % 8) then v else u

/-- The system registers of the saved block, each read by its number (R474). -/
def SysRegs.reread (y : SysRegs) (f : Nat → X64 → X64) : SysRegs :=
  { rmode := f 0x001 y.rmode, srseed := f 0x002 y.srseed, lscale := f 0x003 y.lscale, lsmin := f 0x004 y.lsmin, lsmax := f 0x005 y.lsmax,
    lsgrow := f 0x006 y.lsgrow, lsstat := f 0x007 y.lsstat, lssat := f 0x008 y.lssat, chkctl := f 0x009 y.chkctl, trapv := f 0x010 y.trapv,
    trapc := f 0x011 y.trapc, trappc := f 0x012 y.trappc, trapval := f 0x013 y.trapval, poison := f 0x014 y.poison,
    collto := f 0x016 y.collto, errinj := f 0x017 y.errinj, chst := f 0x018 y.chst,
    lswz := Vector.ofFn (fun i => f (0x020 + i) y.lswz[i]), bka := Vector.ofFn (fun i => f (0x030 + i) y.bka[i]),
    bkm := Vector.ofFn (fun i => f (0x034 + i) y.bkm[i]), bkc := Vector.ofFn (fun i => f (0x038 + i) y.bkc[i]) }

/-- A handle as a number, and the handle that bytes stored over it give: one of an object of the tenant's, or an invalid one (R7). -/
def Handle.code (h : Handle) : Nat :=
  match h with
  | .invalid => 0
  | .valid n => 1 + 256 * n.toNat
  | .dead n => 2 + 256 * n.toNat

def State.savedHandle (s : State) (tenant : Nat) (ty : ClaimType) (get : Nat → Nat → Nat) (h : Handle) : Handle :=
  let u := get 17 h.code
  let nm := BitVec.ofNat 128 (u / 256)
  if u = h.code then h
  else if u % 256 = 1 && (s.resolve tenant nm).any (fun c => c.ty == ty) then .valid nm else .invalid

/-- An epilogue program after a store into its save area: the stored words where EPLD would take them, else as saved. -/
def savedProgram (get : Nat → Nat → Nat → Nat) (p : List (BitVec 32)) : List (BitVec 32) :=
  let ws := (p.zipIdx).map (fun w => get w.2 4 w.1.toNat)
  if (epiCheck ws.length ws [] 0).isNone then ws.map (BitVec.ofNat 32) else p

/-- The registers that a strand resumes with: as saved, or, after a store into its save area, for each either its saved value or bytes
that the store wrote (R171). -/
def State.resumedRegs (s : State) (t : Strand) : Regs :=
  if t.fresh || t.pool || (s.storedOver t).isEmpty then t.regs
  else
    let o := s.storedOver t
    let r := t.regs
    let get := fun (file i w v : Nat) => savedValue o (Config.savePlace t.saved file i) w v
    { r with
      rrb := (let u := savedSys (get 5) 0x000 r.rrb; if t.nV = 64 || rrbVB u == 0 then u else r.rrb),
      seq := get 4 0 8 r.seq, rep := r.rep.map (fun q => { q with passes := get 4 1 2 q.passes % 4096 }),
      epi := savedProgram (get 6) r.epi, sys := r.sys.reread (savedSys (get 5)),
      n := Vector.ofFn (fun i => BitVec.ofNat 128 (get 7 i 16 r.n[i].toNat)),
      ch := Vector.ofFn (fun i => s.savedHandle t.tenant .chute (get 8 i) r.ch[i]),
      k := Vector.ofFn (fun i => s.savedHandle t.tenant .rick (get 9 i) r.k[i]),
      x := Vector.ofFn (fun i => if i.val = 0 then 0 else BitVec.ofNat 64 (savedValue o (Config.savePlace t.saved 0 i) 8 r.x[i].toNat)),
      v := Vector.ofFn (fun i => BitVec.ofNat 2048 (savedValue o (Config.savePlace t.saved 1 i) 256 r.v[i].toNat)),
      p := Vector.ofFn (fun i => if i.val = 0 then r.p[i] else BitVec.ofNat 256 (savedValue o (Config.savePlace t.saved 2 i) 32 r.p[i].toNat)),
      a := Vector.ofFn (fun i => BitVec.ofNat 524288 (savedValue o (Config.savePlace t.saved 3 i) 65536 r.a[i].toNat)) }

/-- A count of a strand's, CYCLE or ENERGY, which its save holds as a system register. -/
def State.resumedCount (s : State) (t : Strand) (n v : Nat) : Nat :=
  if t.fresh || t.pool || (s.storedOver t).isEmpty then v else savedValue (s.storedOver t) (Config.savePlace t.saved 5 n) 8 v

/-- The strand `k` starts on the core, or goes on from its saved context (R42, R170): the register clear takes
2 + nV/8 + 64·nA cycles, and no load of the table is charged. SLICE and WAITQ are in force as they are now (R482). A serialising op that has issued and waits goes on waiting (R344). -/
def State.startStrand (s : State) (k : Nat) (t : Strand) (table : List Entry) : State :=
  let b := max s.core.iss.bundle (max s.core.iss.cur.bundle s.core.iss.top.bundle) + 1
  let regs := State.rebind (s.mapCore (fun c => { c with table := table })) (s.resumedRegs t)
  let iq := t.issuing.map (fun q => { q with ctx := { q.ctx with bundle := b - 1 } })
  let iss : Issue :=
    { s.core.iss with
      pc := t.pc, bundle := b, iq := iq, lag := lagOf iq b, drift := 0, stall := 0, waited := false, held := none,
      cur := { s.core.iss.cur with bundle := b - 1 }, top := { s.core.iss.top with bundle := b - 1 }, pend := [],
      next := .seq, slip := false, fault := none, waits := t.waits, waitReg := t.waitReg, rett := t.rett, absent := false,
      halted := false }
  let c : Core :=
    { s.core with
      regs := regs, nV := t.nV, nA := t.nA, iss := iss,
      shadow := { regs := regs, pend := [], pc := t.pc, bundle := b }, gate := [],
      inter := t.pending.map (fun i => { i with gated := false, later := [] }),
      strm := Vector.ofFn (fun i => restartStream (vget t.regs.q i none)), accs := [], table := table,
      slice := vget s.dev.set.slice t.cls 0, waitq := s.dev.set.waitq,
      tableOf := some t.tenant, tableLaunch := some (s.dev.launchOf t), running := some k, number := t.number, tenant := t.tenant,
      meter := { cycle := s.resumedCount t 0x00D t.cycle, energy := s.resumedCount t 0x00C t.energy, since := 0, waited := 0, gddr := t.gddr, evgil := t.evgil } }
  let d := s.dev.setStrand k (fun t => { t with
    state := .running, fresh := false, pending := [], pendMask := 0, waits := none, rett := false, issuing := [] })
  let d := match t.block with
    | some q => d.setBlock q (fun q => { q with checked := true })
    | none => d
  (State.flushUnmapped { s with core := c, dev := d }).tick (2 + t.nV / 8 + 64 * t.nA)

/-- Whether the save area of a strand that goes on cannot be read (R363). -/
def State.saveLost (s : State) (t : Strand) : Bool :=
  !t.fresh && !t.pool && ((s.tenantLoad t.tenant t.save.toNat saveBytes).map (fun bs => bs.any (·.2))).getD true

/-- The trap registers of a kill that no trap of the strand caused: the cause, and no place (R190, R191, log 64). -/
def SysRegs.untrapped (y : SysRegs) (cause : Nat) : SysRegs := { y with trapc := BitVec.ofNat 64 cause, trappc := 0, trapval := 0 }

/-- Whether a free core has a strand to pick. -/
def State.mayPick (s : State) : Bool := s.core.running.isNone && !s.dev.quiesced && s.dev.strands.any s.dev.eligible

/-- PICKUP. A list that has become invalid after its block's first pickup maps nothing. -/
def execPickup (s : State) : Out :=
  if !s.mayPick then .next s
  else
    let p := s.dev.pick
    match p.1.bind (fun k => (p.2.strands[k]?).map (fun t => (k, t))) with
    | none => .next s
    | some (k, t) =>
      let s := { s with dev := p.2 }
      if s.saveLost t then
        .next (s.mapDev (fun d => d.setStrand k (fun t => { t with
          state := .killed, ending := true, since := s.core.now, regs := { t.regs with sys := t.regs.sys.untrapped 0x0B } })))
      else match s.loadTable t with
      | some table => .next (s.startStrand k t table)
      | none =>
        match t.block.filter (fun b => !((s.dev.blocks[b]?).map (·.checked)).getD true) with
        | some b => .next (s.mapDev (fun d => d.rejectBlock b 0x06))
        | none => .next (s.startStrand k t [])

/-! ### Halting a core (R364) -/

/-- The accesses that have left the gate are performed, in the order the rules allow; `fuel` bounds their number. The images that streams
have released are awaited, however long another device takes (R364). -/
def State.settle : Nat → State → State
  | 0, s => s
  | fuel + 1, s =>
    match s.core.loadParts.find? (fun q => s.loadReady q || (q.1.stream.isSome && s.loadDue q)) with
    | some l => State.settle fuel (s.performLoad l)
    | none =>
      match s.core.fars.find? s.farReady with
      | some f => State.settle fuel (match f.atom with
          | some op => ((s.dropFar f).chargeParts f.strand f.parts).performAtom f op
          | none => (s.dropFar f).performFar f)
      | none =>
        match (List.range 8).find? s.writebackDue with
        | some q => State.settle fuel (s.performWriteback q)
        | none => s

/-- Accesses that may be under way. -/
def State.settleFuel (s : State) : Nat :=
  2 * s.core.loadParts.length + s.core.fars.length + ((List.range 8).map (fun q => (vget s.core.strm q StreamEngine.empty).coming.length)).sum

/-- A serialising op that has issued and waited for accesses goes on where they are performed (R344). -/
def State.finishIssued (s : State) : State :=
  match s.core.committed with
  | [q] =>
    let u := s.mapIss (fun i => { i with iq := i.iq.filter (fun p => p != q), cur := q.ctx, waited := true, held := none })
    let o := match q.op with
      | .barg f => execBarg f u
      | .fence f => execFence f u
      | .spawn f => execSpawn f u
      | .susp f => execSusp f u
      | _ => .next s
    match o with
    | .next v => if v.core.iss.held.isSome then s else v
    | _ => s
  | _ => s

/-- The images released are appended: their results have landed. -/
def State.landImages (s : State) : State :=
  s.mapCore (fun c => { c with strm := c.strm.map (fun e => { e with coming := e.coming.map (fun q => (0, q.2)) }) })

/-- The core stops dispatch and rolls back to its last committed restart point; what was released goes on. A wait of an op that
has issued stands. A SUSP that has issued ends the strand's run itself. -/
def State.halt (s : State) : State :=
  let s := s.landImages
  let u := (State.settle s.settleFuel s).finishIssued
  if u.core.running != s.core.running then u else u.rollback.mapIss (fun j => { j with absent := false, halted := true })

/-- The strand on the halted core leaves it with a full save, in the state `st`; `w` is what it waits for. -/
def State.saveHalted (s : State) (st : StrandState) (w : Option WaitFor) : State :=
  match s.core.running with
  | none => s
  | some k =>
    let i := s.core.iss
    let t := s.leaveCore st s.core.shadow.pc
    ((t.mapDev (fun d => d.setStrand k (fun t => { t with
      regs := { t.regs with loopb := none }, waits := w, waitReg := i.waitReg, rett := i.rett }))).writeRecord k).scrambleSave k

/-- The running strand counts as runnable from now on. -/
def State.requeue (s : State) : State :=
  match s.core.running with
  | none => s
  | some k => s.mapDev (fun d => d.setStrand k (fun t => { t with since := s.core.now }))

/-- PREEMPT: the foreman halts the core. -/
def execPreempt (s : State) : Out :=
  if s.core.running.isNone || s.core.iss.halted then .next s else .next s.halt.requeue

/-- CONTEXT_SAVE: the halted core saves its strand, which is runnable. -/
def execContextSave (s : State) : Out :=
  if s.core.running.isSome && s.core.iss.halted then .next (s.saveHalted .runnable s.core.iss.waits) else .next s

/-- The running strand's class. -/
def State.ownClass (s : State) : Nat := (s.self.map (·.cls)).getD 0

/-- Whether the running strand has run for its class's slice, as SLICE is now (R194, R482), and another waits. -/
def State.sliceDue (s : State) : Bool :=
  s.core.running.isSome && !s.core.iss.halted && decide (vget s.dev.set.slice s.ownClass 0 ≤ s.core.meter.since) &&
    s.dev.waiter (fun c => decide (c ≤ s.ownClass))

/-- Whether a slice ends of itself now: a lower SLICE than at the pick is in force from the next pick by a free core, which a free value may
bring at any time (R482). -/
def State.sliceEnds (s : State) : Bool :=
  s.sliceDue && (decide (s.core.slice ≤ s.core.meter.since) || (Config.freeByte s.freeCtr 4).getLsbD 0)

/-- SLICE_EXPIRY. -/
def execSliceExpiry (s : State) : Out := if s.sliceDue then .next s.halt.requeue else .next s

def State.classDue (s : State) : Bool :=
  s.core.running.isSome && !s.core.iss.halted && s.dev.waiter (fun c => decide (c < s.ownClass))

/-- CLASS_PREEMPTION: the strand keeps its place in line (R193). -/
def execClassPreemption (s : State) : Out := if s.classDue then .next s.halt else .next s

/-! ### Waits (R177) -/

/-- What the running strand has waited for `n` cycles for, where the wait qualifies: an op that has not issued, one that has, or the
RECV of the next bundle. -/
def State.waitedFor (s : State) (n : Nat) : Option WaitFor :=
  let i := s.core.iss
  match (i.iq.filter (fun q => decide (n ≤ s.core.now - q.since))).findSome? (fun q => q.wait.filter (fun w => w != .other)) with
  | some w => some w
  | none => if n ≤ s.core.meter.waited then i.waits.orElse (fun _ => i.held) else none

/-- What it has waited for WAITQ cycles for, as WAITQ is now. -/
def State.longWait (s : State) : Option WaitFor := s.waitedFor s.dev.set.waitq

def State.descheduleDue (s : State) : Bool :=
  s.core.running.isSome && !s.core.iss.halted && s.longWait.isSome && s.dev.waiter (fun _ => true)

/-- Whether a strand is descheduled of itself now: as `sliceEnds` (R482). -/
def State.descheduleEnds (s : State) : Bool :=
  s.descheduleDue && ((s.waitedFor (max s.core.waitq s.dev.set.waitq)).isSome || (Config.freeByte s.freeCtr 5).getLsbD 0)

/-- DESCHEDULE. -/
def execDeschedule (s : State) : Out :=
  if s.descheduleDue then .next (s.halt.saveHalted .waiting s.longWait) else .next s

/-- Whether the event that strand `t` awaits has occurred; the answers to BARG and SVC make their strands runnable
themselves. -/
def State.eventHolds (s : State) (t : Strand) : Bool :=
  match t.waits with
  | some (.chute nm n) =>
    match s.chute? nm with
    | none => true
    | some c => c.final || (s.dev.claim? nm).any (fun q => q.state != .live) ||
        (if n = 0 then c.room else decide (n ≤ c.available))
  | some (.send peer n) => s.dev.unreachable peer || decide (n ≤ (s.dev.links.queue t.tenant peer).credits)
  | some (.recv peer) => s.dev.silent peer || !(s.dev.links.queue t.tenant peer).msgs.isEmpty
  | some (.barg _ _) | some .svc => false
  | _ => true

def State.wakes (s : State) (k : Nat) : Bool :=
  match s.dev.strands[k]? with
  | some t => t.state == .waiting && s.eventHolds t
  | none => false

/-- WAIT_EVENT_OCCURRED. -/
def execWaitEventOccurred (k : Nat) (s : State) : Out :=
  if s.wakes k then .next (s.mapDev (fun d => d.setStrand k (fun t => { t with
    state := .runnable, waits := none, since := s.core.now })))
  else .next s

/-- PENDING_TOKEN_ARRIVAL: the token of strand `k`'s physical register reaches its saved image or, where it runs again, its
register. A command still on this core's engines delivers only the token it has. -/
def execPendingTokenArrival (k : Nat) (reg : Reg) (value : X64) (s : State) : Out :=
  let here := if s.core.running = some k then s.core.inter.filter (fun i => decide (i.bundle < s.core.shadow.bundle))
    else ((s.dev.strands[k]?).map (·.pending)).getD []
  match here.find? (fun i => i.reg == .x reg.toNat) with
  | none => .next s
  | some i =>
    if s.core.loads.any (fun l => l.id == i.id) || s.core.fars.any (fun f => f.id == i.id) then .next s
    else match s.core.engs.find? (fun e => e.id == i.id) with
      | some e =>
        if e.done = some value then
          .next ((s.deliverTok e.tok e.id value false).mapCore (fun c => { c with engs := c.engs.filter (fun o => o.id != e.id) }))
        else .next s
      | none => .next (s.deliverTok reg.toNat i.id value false)

/-! ### The owner runtime and strands (R168, R178, R367) -/

/-- PARK: a running strand is pre-empted first. -/
def execPark (k : Nat) (s : State) : Out :=
  let h := if s.core.iss.halted then s else s.halt.requeue
  let t := if s.core.running = some k then h.saveHalted .runnable h.core.iss.waits else s
  .next (t.mapDev (fun d => d.setStrand k (fun t =>
    if t.state = .runnable ∨ t.state = .waiting then { t with state := .parked, wasWaiting := t.state = .waiting } else t)))

/-- UNPARK: runnable or waiting, as before; a wait answered meanwhile is over. It ends a quiescence (log 72). -/
def execUnpark (k : Nat) (s : State) : Out :=
  .next (s.mapDev (fun d => Dev.setStrand { d with quiesced := false } k (fun t =>
    if t.state = .parked then
      { t with state := if t.wasWaiting && t.waits.isSome then .waiting else .runnable, since := s.core.now, byFence := false }
    else t)))

/-- The record of a kill that no trap caused: cause 0x0B for a strand parked on a fenced cluster (R470). -/
def Strand.killed (t : Strand) (fenced : List Nat) (now : Nat) : Strand :=
  { t with state := .killed, ending := true, since := now,
           regs := if t.state = .parked && fenced.contains t.cluster then { t.regs with sys := t.regs.sys.untrapped 0x0B }
             else if t.state = .trapped then t.regs else { t.regs with sys := t.regs.sys.untrapped 0 } }

/-- KILL of strand `k`; a running one is halted, and leaves without its fixed-latency results (R178). -/
def State.killStrand (s : State) (k : Nat) : State :=
  if s.core.running = some k then
    let h := if s.core.iss.halted then s else s.halt
    if h.core.running = some k then (h.mapSys (fun y => y.untrapped 0)).leaveForGood .killed h.core.shadow.pc else h
  else s.mapDev (fun d => d.setStrand k (fun t =>
    if t.live && t.state != .runnable then t.killed s.dev.links.fenced s.core.now else t))

/-- KILL. -/
def execKill (k : Nat) (s : State) : Out := .next (s.killStrand k)

/-- RESUME: a trapped strand of a launch with debug hold goes on as RETT would (R356). -/
def execResume (k : Nat) (s : State) : Out :=
  .next (s.mapDev (fun d => d.setStrand k (fun t =>
    if t.state = .trapped && t.debugHold then
      { t with
        state := .runnable, since := s.core.now, rett := true, pc := t.regs.sys.trappc.toNat,
        regs := { t.regs with sys := { t.regs.sys with trapc := t.regs.sys.trapc &&& ~~~(0x100#64) } } }
    else t)))

/-- CHANGE_AFFINITY of a parked strand; a new cluster only for one that has never run. -/
def execChangeAffinity (k cluster : Nat) (cores : BitVec 8) (s : State) : Out :=
  .next (s.mapDev (fun d => d.setStrand k (fun t =>
    if t.state = .parked && cores != 0 && decide (cluster < 32) && (t.fresh || cluster == t.cluster) then
      { t with cluster := cluster, cores := cores } else t)))

/-! ### The end (R176, R178) -/

/-- The strands that have left for good and whose commands are done (R281). -/
def State.endingStrand (s : State) : Option Nat :=
  (s.dev.strands.zipIdx.find? (fun q => q.1.ending && !s.core.engs.any (fun e => e.strand == q.2) &&
    !s.core.fars.any (fun f => f.strand == q.2))).map (·.2)

/-- STRAND_END. -/
def execStrandEnd (s : State) : Out :=
  match s.endingStrand with
  | some k => match s.dev.strands[k]? with
    | some t => .next (s.endStrand k t.state)
    | none => .next s
  | none => .next s

/-- The strand in STATE 4 that nothing holds there: it is to be killed. -/
def State.toKill (s : State) : Option Nat :=
  (s.dev.strands.zipIdx.find? (fun q => q.1.state == .trapped && !q.1.debugHold)).map (·.2)

end Sys2Proof.Machine
end

