-- ==== Sys2Proof/Machine/EvBlock.lean ====
section
/-! DEFINITION. Operator blocks and the reaper (R183 to R192, R263, R397): the tenant queue, the checks of a block, its
strands, and its completion record. -/

namespace Sys2Proof.Machine

/-! ### The tenant queue (R397) -/

/-- A launch begins: it has no names yet, and nothing has failed it. -/
def Page.newLaunch (p : Page) : Page :=
  { p with launched := false, launchBad := false, names := [], ricks := [], launchNo := p.launchNo + 1 }

/-- TAIL_WRITE, in order with the host writes before it (R260). -/
def execTailWrite (place : TailPlace) (value : BitVec 32) (s : State) : Out :=
  let s := s.landPieces
  let p := s.dev.page place.tenant
  if !p.active then .next s
  else if (value - p.head).toNat ≤ 2 ^ p.qsize then
    .next (s.mapDev (fun d => d.mapPage place.tenant (fun p => { (if place.launch then p.newLaunch else p) with tail := value })))
  else
    .next (s.mapDev (fun d => (d.mapPage place.tenant (fun p => { p with badtail := min (p.badtail + 1) (2 ^ 32 - 1) })).raiseError
      place.tenant))

/-! ### Records (R183, R184) -/

/-- The 64-bit word at byte `o` of a record. -/
def wordAt (bs : List Byte) (o : Nat) : Nat := natOfBytes ((bs.drop o).take 8)

/-- A template record. -/
def templateOf (bs : List Byte) : Template :=
  let w := wordAt bs 16
  { pc := BitVec.ofNat 64 (wordAt bs 0), srseed := BitVec.ofNat 64 (wordAt bs 8), nA := bitsAt w 55 53,
    nV := 8 * (bitsAt w 52 50 + 1), chk := bitsAt w 49 48, lsgrow := bitsAt w 47 32, lsmax := BitVec.ofNat 8 (bitsAt w 31 24),
    lsmin := BitVec.ofNat 8 (bitsAt w 23 16), lscale := BitVec.ofNat 8 (bitsAt w 15 8), rmode := bitsAt w 2 0,
    lswz := (List.range 8).map (fun m => bitsAt (wordAt bs 24) (5 * m + 4) (5 * m)) }

/-- Whether a template record breaks R185. -/
def templateBad (bs : List Byte) : Bool :=
  let w := wordAt bs 16
  let t := templateOf bs
  decide (5 < t.rmode) || decide (4 < t.nA) || t.lswz.any (fun p => !(p == 0 || (decide (7 ≤ p) && decide (p ≤ 17)))) ||
    bitsAt w 63 56 != 0 || bitsAt w 7 3 != 0 || bitsAt (wordAt bs 24) 63 40 != 0 ||
    [32, 40, 48, 56].any (fun o => wordAt bs o != 0)

/-- The levels of a block's bytes, `n` of them. -/
def levelsOf (bs : List Byte) (n : Nat) : List Level :=
  (List.range n).map (fun l =>
    { start := BitVec.ofNat 64 (wordAt bs (64 + 16 * l)), bound := bitsAt (wordAt bs (72 + 16 * l)) 31 0,
      stride := signedOf 32 (bitsAt (wordAt bs (72 + 16 * l)) 63 32) })

/-- The operator block of 256 bytes. -/
def blockOfBytes (bs : List Byte) (tenant : Nat) (t : Template) (p : Page) : Block :=
  let w := wordAt bs 8
  { tenant := tenant, template := t, pcount := bitsAt w 63 48, cores := BitVec.ofNat 8 (bitsAt w 47 40),
    die := bitsAt w 32 32, clusters := BitVec.ofNat 16 (bitsAt w 31 16), scope := bitsAt w 10 8, serial := bitsAt w 6 6 == 1,
    cls := bitsAt w 5 4, persist := bitsAt w 3 3 == 1, completion := BitVec.ofNat 64 (wordAt bs 16), home := [],
    seq := BitVec.ofNat 64 (wordAt bs 24), strandBase := bitsAt (wordAt bs 32) 23 0, levels := levelsOf bs (bitsAt w 2 0),
    args := (List.range 8).map (fun i => BitVec.ofNat 64 (wordAt bs (160 + 8 * i))), sheaves := 0, placed := 0, drawn := 0,
    checked := false, rejected := none, complete := false, killed := 0, cause := 0, firstKilled := 0, killedAt := 0, trappc := 0,
    trapval := 0, energy := 0, cycles := 0, broken := 0, debugHold := p.debugHold,
    names := p.names, ricks := p.ricks, launch := p.launchNo }

/-- Reserved bits of a block, and its levels at or above DEPTH, are 0 (R185). -/
def blockReserved (bs : List Byte) : Bool :=
  let w := wordAt bs 8
  bitsAt w 39 33 == 0 && bitsAt w 15 11 == 0 && bitsAt w 7 7 == 0 && bitsAt (wordAt bs 32) 63 24 == 0 &&
    [40, 48, 56, 224, 232, 240, 248].all (fun o => wordAt bs o == 0) &&
    (List.range 6).all (fun l => decide (l < bitsAt w 2 0) || (wordAt bs (64 + 16 * l) == 0 && wordAt bs (72 + 16 * l) == 0))

/-- Bits of the packed form of a sheaf (R187). -/
def packedWidth (ls : List Level) : Nat := (ls.map (fun l => idxBits l.bound)).sum

/-- Whether a block is well formed (R185). -/
def blockGood (bs : List Byte) (b : Block) : Bool :=
  let depth := bitsAt (wordAt bs 8) 2 0
  blockReserved bs && decide (1 ≤ depth) && decide (depth ≤ 6) && b.levels.all (fun l => l.bound != 0) &&
    decide (b.sheafCount ≤ 2 ^ 40) && decide (1 ≤ b.scope) && decide (b.scope ≤ 5) && b.clusters != 0 && b.cores != 0 &&
    (b.persist == decide (0 < b.pcount)) && (!b.persist || decide (packedWidth b.levels ≤ 63))

/-- Whether a home lies inside a block's SCOPE (R255, R263). -/
def Block.holds (b : Block) (a : Nat) : Bool :=
  let pa := physOf a
  let h := homeOf pa
  let own := devOf a == 0
  match b.scope with
  | 1 => own && (h == .local || h == .sram) && coreOf pa / 128 == b.die && b.clusters.getLsbD (coreOf pa / 8 % 16)
  | 2 => own && (h == .local || h == .sram || h == .sync) && dieOf pa == b.die
  | 3 => own && h != .host
  | 4 => h != .host
  | _ => true

/-! ### BLOCK_READ (R185, R397) -/

/-- A block of the queue is counted as dropped, and HEAD advances past it. -/
def State.dropBlock (s : State) (t : Nat) : State :=
  s.mapDev (fun d => (d.mapPage t (fun p => { p with head := p.head + 1, dropped := satUp16 p.dropped 1 })).raiseError t)

/-- Whether the tenant's queue holds a block to read. -/
def Page.hasBlock (p : Page) : Bool := p.active && p.en && p.head != p.tail

/-- BLOCK_READ: the next block of the tenant's queue is read and checked; it takes the names of the launch. By an invalid list the reaper
reads as far as its entries go; the block's first pickup rejects it (R228; DESIGN CHOICE, log 78). -/
def execBlockRead (t : Nat) (s : State) : Out :=
  let s := s.landPieces
  let p := s.dev.page t
  let table := s.listEntries t
  if !p.hasBlock then .next s
  else
    match s.loadBy table (p.qbase.toNat + 256 * (p.head.toNat % 2 ^ p.qsize)) 256 with
    | none => .next (s.dropBlock t)
    | some data =>
      let bs := data.map (·.1)
      let completion := wordAt bs 16
      match s.partsBy table [.store] completion 64 with
      | none => .next (s.dropBlock t)
      | some home =>
        if data.any (·.2) || completion % 64 != 0 then .next (s.dropBlock t)
        else
          let tb := (s.loadBy table (wordAt bs 0) 64).filter (fun q => !q.any (·.2)) |>.map (fun q => q.map (·.1))
          let b := blockOfBytes bs t (templateOf (tb.getD [])) p
          let cause := if p.launchBad || !blockGood bs b || (tb.map templateBad).getD true then some 0x03
            else if !(home.map s.partAddrs).flatten.all b.holds then some 0x06 else none
          .next (s.mapDev (fun d =>
            (d.mapPage t (fun p => { p with head := p.head + 1, launched := true })) |> fun d => { d with
              blocks := d.blocks ++ [{ b with sheaves := b.sheafCount, rejected := cause, home := home }] }))

/-! ### SHEAF_RELEASE (R186, R187) -/

/-- The system registers of a template's strand (R19, R183). -/
def Template.sys (t : Template) : SysRegs :=
  { SysRegs.reset with
    rmode := BitVec.ofNat 64 t.rmode, srseed := t.srseed, lscale := t.lscale.zeroExtend 64, lsmin := t.lsmin.zeroExtend 64,
    lsmax := t.lsmax.zeroExtend 64, lsgrow := BitVec.ofNat 64 t.lsgrow, chkctl := BitVec.ofNat 64 t.chk,
    lswz := Vector.ofFn (fun i => BitVec.ofNat 64 (t.lswz.getD i.val 0)) }

/-- The registers of a strand with the names and handles of its launch. -/
def Regs.launched (sys : SysRegs) (names ricks : List ClaimName) : Regs :=
  { Regs.cleared with
    sys := sys, n := Vector.ofFn (fun i => names.getD i.val 0),
    k := Vector.ofFn (fun i => (ricks[i.val]?).elim .invalid .valid) }

/-- A K handle that a launch places for a rick under recall, or gone, is dead from the start (R215). -/
def Regs.withoutDead (r : Regs) (d : Dev) (ricks : List ClaimName) : Regs :=
  (ricks.filter (fun nm => !(d.claim? nm).any (fun c => c.state == .live))).foldl Regs.killHandles r

/-- The clusters of a block that are not fenced (R470). -/
def Dev.openClusters (d : Dev) (b : Block) : List Nat :=
  ((List.range 16).filter (fun i => b.clusters.getLsbD i)).map (fun i => 16 * b.die + i) |>.filter (fun c =>
    !d.links.fenced.contains c && !d.links.fencing.contains c)

/-- The strands a block still places: a fresh one for every sheaf, or its persistent ones. -/
def Block.toPlace (b : Block) : Nat := if b.persist then b.pcount else b.sheafCount

/-- Whether a block has started, or never will. -/
def Block.started (b : Block) : Bool := decide (0 < b.placed) || b.complete || b.rejected.isSome

/-- Whether a block runs (R189): it starts after every block before it in its tenant's queue has, a SERIAL one once the block before it is
complete. -/
def Dev.blockRuns (d : Dev) (k : Nat) (b : Block) : Bool :=
  let earlier := (d.blocks.take k).filter (fun q => q.tenant == b.tenant)
  b.rejected.isNone && !b.complete &&
    (decide (0 < b.placed) || (earlier.all Block.started && (!b.serial || (earlier.getLast?.map (fun q => q.complete)).getD true)))

/-- Whether the next strand of block `k` may be placed. -/
def Dev.mayPlace (d : Dev) (k : Nat) : Bool :=
  match d.blocks[k]? with
  | some b => !d.quiesced && d.blockRuns k b && decide (b.placed < b.toPlace) && decide (d.liveStrands b.die < 65536) &&
      !(d.openClusters b).isEmpty
  | none => false

/-- The values of X1 to X14 of strand `n` of a block. -/
def Block.start (b : Block) (n : Nat) : List X64 :=
  let coords := if b.persist then []
    else (b.levels.zip (sheafIdx b.levels n)).map (fun q => q.1.start + BitVec.ofInt 64 (q.2 * q.1.stride))
  (coords ++ List.replicate (6 - coords.length) 0) ++ b.args

/-- Strand `n` of block `k`. -/
def Dev.blockStrand (d : Dev) (k : Nat) (b : Block) (n now : Nat) : Strand :=
  let cs := d.openClusters b
  { recAddr := 0, pool := true, number := (b.strandBase + n) % 2 ^ 24, tenant := b.tenant, cls := b.cls,
    cluster := cs.getD (n % cs.length) 0, cores := b.cores, nA := b.template.nA, nV := b.template.nV, state := .runnable,
    fresh := true, groupsAddr := 0, save := 0, xlive := 0, vlive := 0, plive := 0, alive := 0, full := false, pendMask := 0,
    arg := 0, pc := b.template.pc.toNat,
    regs := ((b.start n).zipIdx).foldl (fun r q => setX (q.2 + 1) q.1 r) ((Regs.launched b.template.sys b.names b.ricks).withoutDead d b.ricks),
    pending := [], cycle := 0, energy := 0, block := some k, persistent := b.persist, groups := [], waits := none,
    waitReg := 0, since := now, debugHold := b.debugHold, wasWaiting := false, broken := 0, ending := false, rett := false,
    byFence := false, issuing := [], saved := 0 }

/-- SHEAF_RELEASE: the next strand of block `k` is runnable. -/
def execSheafRelease (k : Nat) (s : State) : Out :=
  if s.dev.mayPlace k then
    match s.dev.blocks[k]? with
    | some b => .next (s.mapDev (fun d =>
        { (d.setBlock k (fun b => { b with placed := b.placed + 1 })) with
          strands := d.strands ++ [d.blockStrand k b b.placed s.core.now] }))
    | none => .next s
  else .next s

/-! ### BLOCK_COMPLETE (R189 to R192) -/

/-- Whether block `k` is complete: its strands have all been placed and have ended, and what they sent out is done. -/
def State.blockDone (s : State) (k : Nat) : Bool :=
  match s.dev.blocks[k]? with
  | none => false
  | some b =>
    let mine := fun (i : Nat) => (s.dev.strands[i]?).any (fun t => t.block == some k)
    !b.complete && (b.rejected.isSome || b.placed == b.toPlace) &&
      !s.dev.strands.any (fun t => t.block == some k && (t.live || t.ending)) &&
      !s.core.engs.any (fun e => mine e.strand) && !s.core.fars.any (fun f => mine f.strand)

/-- Sheaves that no strand has received. -/
def Block.undelivered (b : Block) : Nat := if b.persist && b.rejected.isNone then b.sheafCount - b.drawn else 0

/-- The words of a completion record (R190, R191). -/
def Block.completionWords (b : Block) : List Nat :=
  let cause := (b.rejected).getD (if b.killed = 0 then 0 else b.cause)
  let status := if b.killed != 0 || b.undelivered != 0 || b.rejected.isSome then 11 else 0
  [b.seq.toNat, b.killed * 2 ^ 32 + cause * 2 ^ 8 + status, b.firstKilled % 2 ^ 24, b.trappc.toNat, b.trapval.toNat,
   b.energy % 2 ^ 64, b.cycles % 2 ^ 64, min b.undelivered (2 ^ 32 - 1) * 2 ^ 32 + b.broken]

/-- Bytes of a block's completion record are written: where the tenant's list maps them now, or, where it does not (an invalid list
rejects the block, R228), where it mapped them when the block was read (DESIGN CHOICE, log 67). -/
def State.recordStore (s : State) (b : Block) (off : Nat) (bs : List Byte) : State :=
  (s.tenantStore b.tenant (b.completion.toNat + off) bs).getD
    (s.engineStore ((((b.home.map s.partAddrs).flatten).drop off).zip bs) [])

/-- BLOCK_COMPLETE: the record, the launch's ballast in TENERGY (R462; its strands' ENERGY is there since they ended), then SEQ; a host-scope block raises vector 0 (R397). -/
def execBlockComplete (k : Nat) (s : State) : Out :=
  match s.dev.blocks[k]? with
  | none => .next s
  | some b =>
    if !s.blockDone k then .next s
    else
      let t := (s.recordStore b 8 (wordsBytes (b.completionWords.drop 1))).recordStore b 0 (wordsBytes (b.completionWords.take 1))
      .next (t.mapDev (fun d =>
        let d := (d.setBlock k (fun b => { b with complete := true })).mapPage b.tenant (fun p =>
          { p with tenergy := p.tenergy + BitVec.ofNat 64 b.ballast })
        if b.scope = 5 && (d.page b.tenant).inten then d.raise b.tenant 0 else d))

end Sys2Proof.Machine
end

