-- ==== Sys2Proof/Machine/EvMem.lean ====
section
/-! DEFINITION. The host's accesses (R259 to R261, R396), shoot-downs (R368) and migration (R370, R371). -/

namespace Sys2Proof.Machine

/-! ### Host accesses -/

/-- The home pieces of a BAR2 access, unless it fails translation or reaches the host aperture. -/
def State.barParts (s : State) (t : Nat) (p : Perm) (off len : Nat) : Option (List Part) :=
  (s.tenantParts t [p] ((s.dev.page t).wbase.toNat + off) len).filter (fun ps =>
    !ps.any (fun q => homeOf (physOf q.addr) == .host))

/-- Bytes that a die's ingress buffer holds (R260). -/
def Dev.ingressBytes (d : Dev) (die : Nat) : Nat := ((d.ingress.filter (fun w => w.die == die)).map (fun w => w.cells.length)).sum

/-- The pieces of a host write that is no window write: 64-byte aligned, in ascending address (R260). -/
def hostPieces : List Host.Cell → List (List Host.Cell)
  | [] => []
  | c :: t =>
    match hostPieces t with
    | (d :: g) :: gs => if c.1 / 64 = d.1 / 64 then (c :: d :: g) :: gs else [c] :: (d :: g) :: gs
    | gs => [c] :: gs

/-- HOST_WRITE: a die whose buffer is full, or has no room for a window write, accepts none, and PCIe holds the write back (R260). -/
def execHostWrite (tenant off : Nat) (bytes : List Byte) (s : State) : Out :=
  match s.barParts tenant .store off bytes.length with
  | none => .next (s.mapDev (fun d => (d.mapPage tenant (fun p => { p with badwr := satUp16 p.badwr 1 })).raiseError tenant))
  | some ps =>
    let addrs := (ps.map (fun p => (List.range p.len).map (fun i => (p.addr + i, s.lostNow p)))).flatten
    let cells := ((addrs.zip bytes).filter (fun q => !q.1.2)).map (fun q => (q.1.1, q.2))
    let die := dieOf (physOf ((addrs.map (·.1)).headD 0))
    let w : WinWrite := { tenant := tenant, die := die, cells := cells, since := s.core.now, winto := s.dev.set.winto }
    if s.mapsWindow w then
      (if 2 ^ 18 < s.dev.ingressBytes die + cells.length then .next s
       else .next (s.mapDev (fun d => { d with ingress := d.ingress ++ [w] })))
    else if 2 ^ 18 ≤ s.dev.ingressBytes die then .next s
    else .next (s.mapDev (fun d => { d with pieces := d.pieces ++ hostPieces cells }))

/-- A word of a tenant page (R397, R448, R462, R478); a reserved offset has none. -/
def Page.read (p : Page) (off : Nat) : Option Nat :=
  let bit := fun (b : Bool) => if b then 1 else 0
  match off with
  | 0x00 => some (p.qbase.toNat + p.qsize)
  | 0x08 => some (4 * bit p.errint + 2 * bit p.inten + bit p.en)
  | 0x10 => some p.tail.toNat
  | 0x18 => some p.head.toNat
  | 0x20 => some p.wbase.toNat
  | 0x28 => some (p.badwr * 2 ^ 48 + p.dropped * 2 ^ 32 + p.badtail)
  | 0x30 => some (p.trbase.toNat + p.trq)
  | 0x38 => some p.trcount.toNat
  | 0x40 => some p.tenergy.toNat
  | 0x48 => some p.mapbase.toNat
  | 0x50 => some p.weight.toNat
  | 0x58 => some p.winlate
  | _ => none

/-- A register of a baler (R480). GO is write-only. -/
def Baler.read (b : Baler) (off : Nat) : Option Nat :=
  match off with
  | 0x00 => some b.rbase.toNat
  | 0x08 => some b.rlen.toNat
  | 0x10 => some b.bale.toNat
  | 0x18 => some b.cpl.toNat
  | 0x20 => some ((if b.running.isSome then 2 ^ 8 else 0) + (if b.dir then 2 else 0))
  | _ => none

/-- The settings of R477, by offset. -/
def Settings.read (q : Settings) (off : Nat) : Option Nat :=
  let cls := fun (c : Nat) => some (vget q.slice c 0 * 2 ^ 32 + vget q.quant c 0)
  match off with
  | 0x10 => some (q.ownlvl * 2 ^ 24 + q.pblvl * 2 ^ 16 + q.limit)
  | 0x18 => some q.rampt
  | 0x20 => some q.qpwdog
  | 0x28 => some q.lostto
  | 0x30 => some q.waitq
  | 0x38 => some q.winto
  | 0x40 => cls 0
  | 0x48 => cls 1
  | 0x50 => cls 2
  | 0x58 => cls 3
  | _ => none

/-- A word of the device register block (R477); a reserved offset has none. -/
def Dev.readBlock (d : Dev) (off : Nat) : Option Nat :=
  if off = 0x0 then some (d.ident.gen % 2 ^ 24 * 2 ^ 40 + d.ident.serial % 2 ^ 40)
  else if off = 0x8 then some ((if d.ident.indom then 2 ^ 8 else 0) + d.ident.indexReg)
  else if off < 0x60 then d.set.read off
  else if (0x1000 ≤ off ∧ off < 0x1200) ∨ (0x2000 ≤ off ∧ off < 0x8800) then some (d.blockWord off)
  else if 0x8800 ≤ off ∧ off < 0x8880 then (vget d.balers ((off - 0x8800) / 0x40) Baler.reset).read ((off - 0x8800) % 0x40)
  else if 0x9000 ≤ off ∧ off < 0x9030 then some (vget d.errors ((off - 0x9000) / 8) 0).toNat
  else none

/-- What a read of BAR0 of a function finds: a word of the register block or of a tenant page for an aligned access of 8 bytes, bytes of the
bin window for one of 4 or 8; else nothing (R396, R476). -/
def Dev.readBar0 (d : Dev) (fn off len : Nat) : Option (List Byte) :=
  let word := fun (o : Option Nat) => if len = 8 ∧ off % 8 = 0 then o.map (bytesOfNat 8) else none
  if fn ≠ 0 then word (if off < 0x10000 then (d.page fn).read off else none)
  else if 0x800000 ≤ off ∧ off < 0x1000000 then
    (if (len = 4 ∨ len = 8) ∧ off % len = 0 then some (d.binBytes (off - 0x800000) len) else none)
  else if 0x1000000 ≤ off ∧ off < 0x1400000 then word ((d.page ((off - 0x1000000) / 0x10000)).read (off % 0x10000))
  else word (d.readBlock off)

/-- HOST_READ: the data, or Unsupported Request. A read of BAR2 gets no byte where memory is poisoned (log 51). -/
def execHostRead (p : ReadPlace) (off len : Nat) (s : State) : Out :=
  let s := s.landPieces
  if p.bar0 then .next (s.mapDev (fun d => { d with answer := (d.readBar0 p.fn off len).map (fun bs => bs.map some) }))
  else match s.barParts p.fn .load off len with
  | none => .next (s.mapDev (fun d => { d with answer := none }))
  | some ps =>
    let data := (s.readParts s.mem ps).map (fun b => if b.2 then none else some b.1)
    .next (s.mapDev (fun d => { d with answer := some data }))

/-- Whether a window write has waited the WINTO it arrived under, in microseconds of 1,050 cycles each (R261, R482). -/
def State.windowDue (s : State) (w : WinWrite) : Bool := decide (w.since + 1050 * w.winto ≤ s.core.now)

/-- The window writes that a timeout at a die performs: its oldest one, once that has waited WINTO, after those of its tenant
that arrived before it. -/
def State.timedOut (s : State) (die : Nat) : List WinWrite :=
  match s.dev.ingress.find? (fun w => w.die == die) with
  | some w => if s.windowDue w then
      (s.dev.ingress.takeWhile (fun o => o != w)).filter (fun o => o.tenant == w.tenant) ++ [w] else []
  | none => []

/-- WINDOW_TIMEOUT: the writes are performed whole and in arrival order, and each is counted for its tenant. -/
def execWindowTimeout (die : Nat) (s : State) : Out :=
  let s := s.landPieces
  .next ((s.timedOut die).foldl (fun (t : State) w => (t.plainStore w.cells).mapDev (fun d =>
    Dev.mapPage { d with ingress := d.ingress.erase w } w.tenant (fun p =>
      { p with winlate := min (p.winlate + 1) (2 ^ 32 - 1) }))) s)

/-! ### Shoot-downs (R368) -/

/-- A request is noted at the core that holds the tenant's table. -/
def State.requestShootDown (s : State) (t : Nat) : State :=
  if s.core.tableOf = some t || (s.core.running.isSome && s.core.tenant == t) then
    (s.mapCore (fun c => { c with shootDown := true, tableOf := none })).mapDev (fun d =>
      { d with shootDowns := d.shootDowns ++ [{ tenant := t, since := s.core.now, limit := s.dev.set.qpwdog }] })
  else s

/-- Requests for tenants; where no core has one to acknowledge, they are complete. -/
def State.shootDownAll (s : State) (ts : List Nat) : State :=
  (ts.foldl State.requestShootDown s).mapDev (fun d => if d.shootDowns.isEmpty then d.endShootDown else d)

/-- SHOOT_DOWN_REQUEST. -/
def execShootDownRequest (t : Nat) (s : State) : Out := .next (s.shootDownAll [t])

/-- Every access and command of the core is performed. -/
def State.quietCore (s : State) : Bool := s.core.performed

/-- A core that has left its strand, or runs one that took the new table at its pickup, owes only the commands before. -/
def State.ackIdle (s : State) : Bool := s.core.shootDown && (s.core.running.isNone || s.core.tableOf.isSome) && s.quietCore

/-- SHOOT_DOWN_ACK: at a QP bundle, once every access and command before it is performed, or off the core. -/
def execShootDownAck (s : State) : Out :=
  let i := s.core.iss
  if !s.core.shootDown then .next s
  else if s.ackIdle then .next ((s.mapCore (fun c => { c with shootDown := false })).mapDev Dev.endShootDown)
  else if s.core.running.isSome && i.mayDispatch && i.iq.isEmpty &&
      (s.nextCtl.map (·.qp)).getD false then
    let t := s.commitAt i.bundle i.pc
    if t.quietCore then .next (t.ackShootDown.tick (1 + Config.waitCycles t.freeCtr)) else .next t
  else .next s

/-- Whether the watchdog of a request at the running core has run out (R368, R369). -/
def State.watchdogDue (s : State) : Bool :=
  s.core.shootDown && s.core.running.isSome && s.core.tableOf.isNone && !s.core.iss.halted &&
    s.dev.shootDowns.any (fun d => decide (d.since + d.limit ≤ s.core.now))

/-- QPWDOG_EXPIRY: the core is pre-empted. -/
def execQpwdogExpiry (s : State) : Out := if s.watchdogDue then .next s.halt.requeue else .next s

/-! ### Migration (R370) -/

/-- The words of the entries of a tenant's list, with the addresses of their second words. -/
def listSlots (m : Memory) (base : Nat) : List (Nat × (Nat × Nat)) :=
  (List.range 128).map (fun i => (base + 16 * i + 8, (m.num (base + 16 * i) 8, m.num (base + 16 * i + 8) 8)))

/-- Tenants whose context names a list. -/
def Dev.listed (d : Dev) : List Nat := (List.range 64).filter (fun t => (d.page t).active && (d.page t).mapbase != 0)

/-- Whether an entry's bytes lie in a range of homes, in part. -/
def Entry.meets (e : Entry) (index src len : Nat) : Bool :=
  let a := keyOf index e.dev e.pbase
  decide (a < src + len) && decide (src < a + 2 ^ e.size)

def Entry.within (e : Entry) (index src len : Nat) : Bool :=
  let a := keyOf index e.dev e.pbase
  decide (src ≤ a) && decide (a + 2 ^ e.size ≤ src + len)

/-- Every list's entries that map bytes of a range. -/
def State.mappers (s : State) (src len : Nat) : List (Nat × (Nat × Entry)) :=
  ((s.dev.listed.map (fun t => (listSlots s.homeMem (s.dev.page t).mapbase.toNat).filterMap (fun w =>
    (entryOfWords w.2.1 w.2.2).bind (fun e =>
      if e.meets s.dev.ident.index src len then some (w.1, (w.2.2, e)) else none)))).flatten)

/-- Rewrites the second word of an entry in its list. -/
def State.putEntry (s : State) (a w : Nat) : State := s.plainStore (cellsAt a (bytesOfNat 8 w))

/-- A range may migrate: lines of 256 bytes to another place of the same alignment as the entries that map it, which lie
inside it (log 34). -/
def State.mayMigrate (s : State) (src dst len : Nat) : Bool :=
  decide (0 < len) && len % 256 == 0 && src % 256 == 0 && dst % 256 == 0 &&
    (decide (src + len ≤ dst) || decide (dst + len ≤ src)) && s.dev.migrations.isEmpty &&
    (s.mappers src len).all (fun q => q.2.2.within s.dev.ident.index src len &&
      (dst + (keyOf s.dev.ident.index q.2.2.dev q.2.2.pbase - src)) % 2 ^ q.2.2.size == 0)

/-- MIGRATION: MIGRATING is set in the entries that map the range, and its lines begin to move. -/
def execMigration (src dst len : Nat) (s : State) : Out :=
  if s.mayMigrate src dst len then
    let t := (s.mappers src len).foldl (fun (s : State) q =>
      s.putEntry q.1 (if bitsAt q.2.1 12 12 = 0 then q.2.1 + 2 ^ 12 else q.2.1)) s
    .next ((t.mapCore (fun c => { c with table := c.table.map (fun e =>
        if e.meets s.dev.ident.index src len then { e with migrating := true } else e) })).mapDev (fun d =>
      { d with migrations := d.migrations ++ [{ src := src, dst := dst, len := len, moved := 0 }] }))
  else .next s

/-- The second word of an entry whose bytes have moved by a migration. -/
def movedWord (index w : Nat) (e : Entry) (m : Migration) : Nat :=
  let a := m.dst + (keyOf index e.dev e.pbase - m.src)
  let dev := if devOf a = 0 then index else devOf a - 1
  dev * 2 ^ 58 + physOf a / 2 ^ 16 * 2 ^ 28 + w % 2 ^ 28 - (if bitsAt w 12 12 = 0 then 0 else 2 ^ 12)

/-- Every line has moved: the lists are rewritten, and a shoot-down of their tenants runs. -/
def State.endMigration (s : State) (m : Migration) : State :=
  let t := (s.mappers m.src m.len).foldl (fun (t : State) q =>
    t.putEntry q.1 (movedWord s.dev.ident.index q.2.1 q.2.2 m)) s
  let hit := s.dev.listed.filter (fun t => (listSlots s.homeMem (s.dev.page t).mapbase.toNat).any (fun w =>
    ((entryOfWords w.2.1 w.2.2).map (fun e => e.meets s.dev.ident.index m.src m.len)).getD false))
  t.shootDownAll hit

/-- LINE_COPY: the next line of the range moves, with its poison, and is homed at its new place. -/
def execLineCopy (s : State) : Out :=
  match s.dev.migrations.find? (fun m => decide (256 * m.moved < m.len)) with
  | none => .next s
  | some m =>
    let a := m.src + 256 * m.moved
    let b := m.dst + 256 * m.moved
    let pois := (List.range 256).filter (fun i => s.mem.poisoned (a + i))
    let t := s.mapMem (fun mm => mm.store (cellsAt b (s.mem.bytes a 256)) (pois.map (fun i => b + i)))
    let n := { m with moved := m.moved + 1 }
    let u := t.mapDev (fun d => { d with migrations := d.migrations.map (fun o => if o.src == m.src then n else o) })
    .next (if n.len ≤ 256 * n.moved then u.endMigration n else u)

end Sys2Proof.Machine
end

