-- ==== Sys2Proof/Machine/EvArray.lean ====
section
/-! DEFINITION. The matrix array's events (R140, R149, R152, R160, R161), chute copies (R198), the power manager (R458,
R459), power-off and boot (R202, R471). -/

namespace Sys2Proof.Machine

/-! ### Chutes and the array -/

/-- CHUTE_COMMIT_LANDS: copy `k` of those owed lands. -/
def execChuteCommitLands (k : Nat) (s : State) : Out :=
  match s.dev.owedCopies[k]? with
  | some q => .next (s.landCopy q.1 q.2)
  | none => .next s

/-- The COL-order operand that the waiting MMA still needs staged; its slots are there. -/
def State.toStage (s : State) : Option ClaimName :=
  match s.core.iss.iq.find? (fun q => isMma q.op && q.wait.isSome) with
  | some q => match q.op with
    | .mma f =>
      let u := s.mapIss (fun i => { i with cur := q.ctx })
      let due := fun (h n : Nat) (col : Bool) => if col && u.slotState h n == .ready then
        ((u.chuteOf h).map (·.name)).filter (fun nm => !u.core.mx.staged.contains nm) else none
      (due f.cha.toNat (MM.needs f u).1 f.oa).orElse (fun _ => due f.chb.toNat (MM.needs f u).2 f.ob)
    | _ => none
  | none => none

/-- COL_STAGING_DONE. -/
def execColStagingDone (s : State) : Out :=
  match s.toStage with
  | some nm => .next (s.mapCore (fun c => { c with mx := { c.mx with staged := nm :: c.mx.staged } }))
  | none => .next s

/-- An MMA pops the slots it took of a chute (R149). -/
def Chute.pop (c : Chute) (n : Nat) : Chute :=
  { c with members := c.members.map (fun m => if m.core == ownCore then
      { m with head := m.head + n, reserved := m.reserved - n } else m) }

/-- The MMA that is due to pop: MMAs take and give back their slots in issue order. -/
def State.retiring (s : State) : Option MmaFlight := (s.core.mx.mmas.head?).filter (fun m => m.released && decide (m.due ≤ s.core.now))

/-- MMA_RETIRE: at the later of its retirement and its release (R346). -/
def execMmaRetire (s : State) : Out :=
  match s.retiring with
  | some m =>
    let t := m.chutes.foldl (fun (t : State) q => match t.chute? q.1 with
      | some c => t.setChute (c.pop q.2.2)
      | none => t) s
    .next (t.mapCore (fun c => { c with mx := { c.mx with mmas := c.mx.mmas.drop 1 } }))
  | none => .next s

/-- DRAIN_COMPLETE: the drain engine is idle once 128 cycles have passed; its outputs are the gate's. -/
def execDrainComplete (s : State) : Out :=
  if s.core.mx.drainUntil ≤ s.core.now then .next (s.mapCore (fun c => { c with mx := { c.mx with drainUntil := 0 } }))
  else .next s

/-- ARRAY_FEED_FREE. -/
def execArrayFeedFree (s : State) : Out :=
  let m := s.core.mx
  if m.feeding && decide (m.feedUntil ≤ s.core.now) && !s.mmaWaits then
    .next (s.mapCore (fun c => { c with mx := c.mx.ballast s.dev.set.rampt }))
  else .next s

/-- RAMP_DUTY_STEP: one step up while MMAs feed or wait, one step down in ballast. -/
def execRampDutyStep (s : State) : Out :=
  let m := s.core.mx
  if m.dutyAt + m.ramp ≤ s.core.now then
    if m.feeding then
      (if decide (m.dutyAt + m.ramp ≤ m.feedUntil) || s.mmaWaits then
        .next (s.mapCore (fun c => { c with mx := { c.mx with
          duty := min 8 (max 1 m.duty + 1), dutyAt := m.dutyAt + m.ramp, ramp := s.dev.set.rampt } }))
      else .next s)
    else .next (s.mapCore (fun c => { c with mx := { c.mx with
      duty := m.duty - 1, dutyAt := m.dutyAt + m.ramp, ramp := s.dev.set.rampt } }))
  else .next s

/-! ### The power manager (R459) -/

/-- One step of a level against a limit: up above it, down below 0.95 of it. -/
def stepLevel (l : Nat) (x limit : Int) : Nat :=
  if limit < x then min 7 (l + 1) else if 100 * x < 95 * limit then l - 1 else l

/-- POWER_STEP, with the current of each die; PWRLIM's fields take effect (R482); THERMAL and CURRENT hold their levels while a sensor is
recalibrated (R469). -/
def execPowerStep (watts : Nat) (temp : Int) (amps : Nat × Nat) (s : State) : Out :=
  .next (s.mapDev (fun d =>
    let p := d.power
    let hold := !p.sensorHeld.isEmpty
    { d with power := { p with
        ownlvl := d.set.ownlvl, pblvl := d.set.pblvl,
        power := stepLevel p.power watts d.set.limit,
        thermal := if hold then p.thermal else if 110 ≤ temp then 7 else stepLevel p.thermal temp 100,
        current := if hold then p.current else (stepLevel p.current.1 amps.1 800, stepLevel p.current.2 amps.2 800) } }))

/-- PWRBRK_ASSERT. -/
def execPwrbrkAssert (s : State) : Out :=
  .next (s.mapDev (fun d => { d with power := { d.power with pwrbrk := true, pwrbrkHold := false } }))

/-- PWRBRK_DEASSERT: the level holds on. -/
def execPwrbrkDeassert (s : State) : Out :=
  if s.dev.power.pwrbrk then
    .next (s.mapDev (fun d => { d with power := { d.power with pwrbrk := false, pwrbrkHold := true } }))
  else .next s

/-- PWRBRK_HOLD_EXPIRY. -/
def execPwrbrkHoldExpiry (s : State) : Out :=
  .next (s.mapDev (fun d => { d with power := { d.power with pwrbrkHold := false } }))

/-! ### Power-off (R202, R459) -/

/-- Memory that outlives the module's power: the host's and other devices'. -/
def Memory.outside (m : Memory) : Memory :=
  { cells := m.cells.filter (fun c => decide (physSpace ≤ c.1) || homeOf (physOf c.1) == .host),
    poison := m.poison.filter (fun w => decide (physSpace ≤ 4 * w)),
    tags := m.tags.filter (fun t => decide (physSpace ≤ 4096 * t.1)) }

/-- The module without power: GEN, the serial, the fused version and the flash images are kept, all else is lost. -/
def State.off (s : State) : State :=
  { State.reset with
    mem := s.mem.outside, agenda := s.agenda, freeCtr := s.freeCtr,
    dev := { Dev.reset with
      ident := { Dev.reset.ident with powered := false, gen := s.dev.ident.gen, serial := s.dev.ident.serial },
      fw := { s.dev.fw with response := .none } } }

/-- POWER_DOWN. -/
def execPowerDown (s : State) : Out := .next s.off

/-- OVERTEMP_POWER_OFF. -/
def execOvertempPowerOff (temp : Int) (s : State) : Out := if 115 ≤ temp then .next s.off else .next s

/-! ### Boot (R202, R471) -/

def ImageKind.code (k : ImageKind) : Nat :=
  match k with
  | .foreman => 0
  | .switch => 1
  | .baler => 2
  | .power => 3

/-- The image of a kind for a die, as flash holds it. -/
def Firmware.image (f : Firmware) (k : ImageKind) (die : Nat) : FwImage :=
  match f.images.find? (fun q => q.1 == die && q.2.kind == k) with
  | some q => q.2
  | none =>
    let i := Config.factoryImage (ImageKind.code k) die
    { kind := k, bytes := i.1, sig := i.2.1, secver := i.2.2 }

/-- The boot ROM's checks of an image. -/
def Firmware.accepts (f : Firmware) (i : FwImage) : Bool := Config.sm2Verify (Config.sm3 i.bytes) i.sig && decide (f.minVersion ≤ i.secver)

def Firmware.store (f : Firmware) (die : Nat) (i : FwImage) : Firmware :=
  { f with images := (die, i) :: f.images.filter (fun q => !(q.1 == die && q.2.kind == i.kind)) }

/-- The images that the boot ROM verifies, by die. The switch, the balers and the power manager are the module's, and their images are those of
die 0. -/
def bootImages : List (Nat × ImageKind) := [(0, .foreman), (1, .foreman), (0, .switch), (0, .baler), (0, .power)]

/-- COLD_START: everything volatile starts anew, each image is verified, and GEN rises where the flash takes it. How a unit goes on whose image
is refused the spec does not say, but for the foreman's (R471; DESIGN CHOICE, log 84). -/
def execColdStart (flashOk : Bool) (s : State) : Out :=
  let t := s.off
  let ok := flashOk && decide (s.dev.ident.gen < 2 ^ 24 - 1)
  .next (t.mapDev (fun d => { d with
   fw := { d.fw with refused := bootImages.filter (fun q => !d.fw.accepts (d.fw.image q.2 q.1)) },
   ident := { d.ident with
    powered := true, recovery := !(d.fw.accepts (d.fw.image .foreman 0) || d.fw.accepts (d.fw.image .foreman 1)),
    issuing := ok, gen := if ok then d.ident.gen + 1 else d.ident.gen, count := 1 } }))

/-- RECOVERY_IMAGE_ACCEPT: a foreman image that passes serves both dies, and the module runs. -/
def execRecoveryImageAccept (img : FwImage) (s : State) : Out :=
  if s.dev.ident.recovery && img.kind == .foreman && s.dev.fw.accepts img then
    .next (s.mapDev (fun d => { d with fw := (d.fw.store 0 img).store 1 img, ident := { d.ident with recovery := false } }))
  else .next s

end Sys2Proof.Machine
end

