-- ==== Sys2Proof/Machine/EvClaim.lean ====
section
/-! DEFINITION. The claim table's events (R204 to R209, R213 to R216): what the owner runtime creates and retires, recalls,
and answered lookups. -/

namespace Sys2Proof.Machine

/-! ### Recalls -/

/-- Step 4 of a recall: the strands that wait in BARG on a group receive GONE (R216). -/
def State.answerGone (s : State) (nm : ClaimName) : State :=
  match s.dev.groups.find? (fun g => g.name == nm) with
  | none => s
  | some g => g.waiters.foldl (fun (s : State) w => s.answerWait w.1 (token 1 0))
      (s.mapDev (fun d => { d with groups := d.groups.map (fun o => if o.name == nm then { o with waiters := [] } else o) }))

/-- The recall of a LIVE entry begins (R214): RETIRING, and its waiters receive GONE. -/
def State.recall (s : State) (nm : ClaimName) (id : Option Nat) : State :=
  match s.dev.claim? nm with
  | some c => if c.state = .live then (s.startRecall nm id).answerGone nm else s
  | none => s

/-- A retired lease is over: with it the others of its record here, and, where another module is the root, the root is told (R417). -/
def State.endLease (s : State) (nm : ClaimName) : State :=
  let root := (s.dev.grants.find? (fun g => g.lease == nm)).bind (fun g =>
    let w := g.record.members.headD 0
    if w = s.dev.ident.index then none else some (w, g.tenant, g.key, true))
  let t := match s.dev.records.find? (fun r => r.leases.contains nm) with
    | some r => s.freeLeases r.name
    | none => s.mapDev (fun d => d.freeLease nm)
  t.mapDev (fun d => { d with requestsOut := d.requestsOut ++ root.toList })

/-- Step 6, with the leases of a record or of a slot (R417). -/
def State.finishRecall (s : State) (c : Claim) : State :=
  let t := s.endRecall c
  match c.ty with
  | .coll => t.freeLeases c.name
  | .lease => t.endLease c.name
  | _ => t

/-- The recall of `nm` ends where it may. -/
def State.tryEnd (s : State) (nm : ClaimName) : State :=
  match s.dev.claim? nm with
  | some c => if s.recallDone c then s.finishRecall c else s
  | none => s

/-- CLAIM_SHOOT_DOWN: the core's cache drops a recalled entry, and the handles that name it die. Another device's shoot-down tells this
one that the entry is RETIRING, and the waits on it end (R214, R216). -/
def execClaimShootDown (nm : ClaimName) (s : State) : Out :=
  match s.dev.claim? nm with
  | some c =>
    if c.state = .retiring then .next (s.dropCached nm)
    else if c.state = .live && !s.dev.ownClaim c then
      .next ((s.mapDev (fun d => d.setClaim nm (fun c => { c with state := .retiring }))).dropCached nm)
    else .next s
  | none => if serialOf nm = s.dev.ident.serial then .next s else .next (s.dropCached nm)

/-- RECALL_ACK: an acknowledgement is in; the last one ends the recall where no use is held. This core acknowledges once its
cache has dropped the entry. -/
def execRecallAck (nm : ClaimName) (cache : Nat) (s : State) : Out :=
  match s.dev.claim? nm with
  | some c =>
    if c.state != .retiring || (cache == ownCache && s.handled nm) then .next s
    else .next ((s.mapDev (fun d => d.setClaim nm (fun c => { c with holders := c.holders.filter (fun h => h != cache) }))).tryEnd nm)
  | none => .next s

/-- The name that a command in flight has resolved. -/
def Cmd.looked (c : Cmd) : Option ClaimName :=
  match c with
  | .resolve n _ => some n
  | .chopen n => some n
  | .rick r => some r.rick
  | _ => none

/-- The device's own entry that a resolution from elsewhere finds for a tenant (R207, R208, R214 step 1). -/
def State.lookup (s : State) (tenant : Nat) (nm : ClaimName) : Option Claim :=
  if s.dev.goneByName nm then none
  else (s.dev.claim? nm).filter (fun c => s.dev.ownClaim c && c.visible tenant && c.state == .live)

/-- CLAIM_LOOKUP: the answer to a resolution in flight fills the core's cache; the device answers one of another core or device, whose
cache becomes a holder (R205), and whose op takes a use and releases it when it completes (R214). -/
def execClaimLookup (q : ClaimAsk) (s : State) : Out :=
  let nm := q.name
  match q.who with
  | .own =>
    if s.core.engs.any (fun e => e.cmd.looked == some nm) && !s.core.cache.contains nm &&
        (s.resolve s.core.tenant nm).isSome then .next (s.fillCache nm).bump
    else .next s
  | .cache dev core tenant =>
    let h := if dev = s.dev.ident.index then core else 1024 * (dev + 1) + core
    match s.lookup tenant nm with
    | some c =>
      if h = ownCache || c.holders.contains h then .next s
      else .next (s.mapDev (fun d => d.setClaim nm (fun c => { c with holders := c.holders ++ [h] })))
    | none => .next s
  | .use dev tenant =>
    match s.lookup tenant nm with
    | some _ => .next (s.mapDev (fun d => d.setClaim nm (fun c => { c with uses := c.uses ++ [dev] })))
    | none => .next s
  | .release dev =>
    if (s.dev.claim? nm).any (fun c => c.uses.contains dev) then
      .next ((s.mapDev (fun d => d.setClaim nm (fun c => { c with uses := c.uses.erase dev }))).tryEnd nm)
    else .next s

/-! ### What the owner runtime creates (R204) -/

/-- The cores that a chute's declaration names: those of the mask in the cluster of HOME. -/
def declMembers (c : ChuteDecl) (home : Nat) : List Nat :=
  ((List.range 8).filter (fun i => c.cores.getLsbD i)).map (fun i => 8 * bitsAt home 11 7 + i)

/-- The ranges of R81 and R144, and the geometries of R45. -/
def declGood (c : ChuteDecl) (base : Nat) : Bool :=
  decide (2 ≤ c.slots) && decide (c.slots ≤ 16) && c.slotBytes % 256 == 0 && decide (256 ≤ c.slotBytes) &&
    decide (c.slotBytes ≤ 65536) && (c.geo != .planar || c.fmt.isSx) && base % 64 == 0 && decide (base + c.slots * c.slotBytes ≤ lsSize) && c.cores != 0

/-- A new chute: head and tail 0, nothing committed or reserved. -/
def declChute (c : ChuteDecl) (nm : ClaimName) (base home : Nat) : Chute :=
  { name := nm, base := base, slotBytes := c.slotBytes, slots := c.slots, fmt := c.fmt, geo := c.geo, commits := 0,
    extents := [], members := (declMembers c home).map (fun k => { core := k, head := 0, reserved := 0, landed := 0 }),
    producer := none, dirty := [], broken := false, closed := false }

/-- The loadable tables of a rick, where each sums to 4,096 (R320). -/
def State.rickTables (s : State) (c : NewClaim) : Option (List (List Nat)) :=
  let n := bitsAt c.attr.toNat 4 0
  let ts := if n = 0 then some [] else
    (s.tenantLoad c.owner c.base (512 * n)).map (fun bs => (List.range n).map (fun i => (List.range 256).map (fun j =>
      natOfBytes ((((bs.drop (512 * i + 2 * j)).take 2)).map (·.1)))))
  ts.filter (fun ts => ts.all (fun t => t.sum == 4096))

/-- The capacity and the top window of a rick (R312). -/
def rickSizes (c : NewClaim) : Bool :=
  let top := bitsAt c.attr.toNat 25 8
  c.size % 65536 == 0 && decide (65536 ≤ c.size) && decide (c.size ≤ 2 ^ 40) && top % 64 == 0 && decide (64 ≤ top) &&
    decide (top ≤ 1024) && decide (bitsAt c.attr.toNat 4 0 ≤ 16) && c.attr.toNat == bitsAt c.attr.toNat 4 0 + 256 * top

/-- Whether bin bytes are free of every live bin set (R428). -/
def Dev.binsFree (d : Dev) (o n : Nat) : Bool :=
  !d.claims.any (fun q => d.ownClaim q && q.ty == .bins && q.state != .gone && decide (o < q.attr.toNat + q.size.toNat) &&
    decide (q.attr.toNat < o + n))

/-- Whether HOME is one that a claim of its type has (R204, R428): the module itself, and a die, with its cluster and an engine for a
chute or a rick; for a tensor region the home of its first byte under the owner's table, of either die where the byte places none. -/
def State.homeOk (s : State) (c : NewClaim) : Bool :=
  let die := bitsAt c.home 6 6
  let cluster := bitsAt c.home 11 7
  let own := decide (c.home < 2 ^ 16) && c.home % 64 == s.dev.ident.index
  match c.ty with
  | .tensor =>
    match entryAt (s.tenantTable c.owner) c.base with
    | some e => c.home == homeOfByte e c.base ||
      ((match homeOf (e.phys c.base) with
        | .local | .sram | .sync => false
        | _ => true) && c.home == homeOfByte e c.base + 2 ^ 6)
    | none => false
  | .chute | .rick => own && die == cluster / 16
  | _ => own && cluster == 0 && bitsAt c.home 15 12 == 0

/-- What a new claim's object adds to the device, where its declaration is met; records and completion words are CLAIM's alone
(R204). -/
def State.newObject (s : State) (c : NewClaim) : Option (ClaimName → Dev → Dev) :=
  match c.ty with
  | .chute =>
    (c.chute.filter (fun k => declGood k c.base)).map (fun k nm d => { d with chutes := d.chutes ++ [declChute k nm c.base c.home] })
  | .rick =>
    if rickSizes c then (s.rickTables c).map (fun ts nm d =>
      { d with ricks := d.ricks ++ [Rick.fresh nm c.size (1024 * bitsAt c.attr.toNat 25 8) ts] })
    else none
  | .bins =>
    let o := c.attr.toNat
    if o % 4096 = 0 ∧ c.size % 4096 = 0 ∧ 0 < c.size ∧ o + c.size ≤ 2 ^ 23 ∧ s.dev.binsFree o c.size then
      some (fun _ d => { d with bins := d.bins.filter (fun b => !(decide (o ≤ b.1) && decide (b.1 < o + c.size))) })
    else none
  | .kernel | .lease | .coll | .cword => none
  | _ => some (fun _ d => d)

/-- The claims of a launch are named in the order of their directives (R179, R313); the first after a block of the tenant has
been read begins a new launch. -/
def Page.openLaunch (p : Page) : Page :=
  if p.launched then p.newLaunch else p

/-- The names that a launch's strands receive. -/
def Page.addName (p : Page) (ty : ClaimType) (nm : ClaimName) : Page :=
  match ty with
  | .chute | .group => { p with names := p.names ++ [nm] }
  | .rick => { p with names := p.names ++ [nm], ricks := p.ricks ++ [nm] }
  | _ => p

/-- Whether a claim can be entered (R202, R205). -/
def State.mayEnter (s : State) (home : Nat) : Bool := s.dev.ident.issues && !s.dev.tableFull home

/-- OWNER_RUNTIME_CREATES_CLAIM: a directive that cannot be met rejects its launch. -/
def execOwnerRuntimeCreatesClaim (c : NewClaim) (s : State) : Out :=
  if !(s.dev.page c.owner).active then .next s
  else
    let s := if c.launch then s.mapDev (fun d => d.mapPage c.owner Page.openLaunch) else s
    match (s.newObject c).filter (fun _ => s.homeOk c && s.mayEnter c.home) with
    | some f =>
      let q := s.enterClaim c.ty c.owner c.home (BitVec.ofNat 64 c.base) (BitVec.ofNat 64 c.size) c.attr
      .next (q.1.mapDev (fun d =>
        let d := f q.2 d
        if c.launch then d.mapPage c.owner (fun p => p.addName c.ty q.2) else d))
    | none =>
      if c.launch then .next (s.mapDev (fun d => d.mapPage c.owner (fun p => { p with launchBad := true }))) else .next s

/-- OWNER_RUNTIME_RETIRES_CLAIM. -/
def execOwnerRuntimeRetiresClaim (nm : ClaimName) (s : State) : Out := .next ((s.recall nm none).tryEnd nm)

end Sys2Proof.Machine
end

