-- ==== Sys2Proof/Machine/EvLink.lean ====
section
/-! DEFINITION. The links' events (R388 to R394, R399) and loss (R207, R387, R389); the flow hooks (R427, R450, R479). -/

namespace Sys2Proof.Machine

/-! ### Ports (R388, R389) -/

/-- FLIT_RECEIVE: a flit shows its port live, and its origin; one whose CRC fails is resent from the replay buffer, a corrected error. -/
def execFlitReceive (port origin : Nat) (crcOk : Bool) (s : State) : Out :=
  if 8 ≤ port ∨ s.dev.ident.lost.contains origin then .next s
  else if crcOk then
    .next (((s.hear origin)).mapDev (fun d => { d with links := { d.links with down := d.links.down.filter (fun p => p != port) } }))
  else .next (s.mapDev (fun d => d.countErr 0))

/-- IDLE_FLIT: a live port sends a flit that carries nothing. -/
def execIdleFlit (_ : Nat) (s : State) : Out := .next s

/-- PORT_DOWN. -/
def execPortDown (port : Nat) (s : State) : Out :=
  if port < 8 && !s.dev.links.down.contains port then
    .next (s.mapDev (fun d => { d with links := { d.links with down := d.links.down ++ [port] } }))
  else .next s

/-! ### Loss (R207, R387, R389) -/

/-- The names of a device that the core's cache or a handle register holds. -/
def State.heldNames (s : State) (serial : Nat) : List ClaimName :=
  let ds := s.core.iss.pend ++ s.core.shadow.pend
  let hs := fun (r : Regs) => (r.ch.toList ++ r.k.toList).filterMap (fun h => match h with
    | .valid nm => some nm
    | _ => none)
  (s.core.cache ++ hs s.core.regs ++ hs s.core.shadow.regs ++ (s.dev.strands.map (fun t => hs t.regs)).flatten ++
    ds.filterMap (fun w => match w.dest with
      | .ch _ (.valid nm) => some nm
      | .k _ (.valid nm) => some nm
      | _ => none)).filter (fun nm => serialOf nm == serial)

/-- The holder set and the uses of an entry without those of a lost device (R207). -/
def Claim.without (c : Claim) (dev : Nat) : Claim :=
  { c with holders := c.holders.filter (fun h => h / 1024 != dev + 1), uses := c.uses.filter (fun u => u != dev) }

/-- The RETIREs of a lost device's names end with GONE (R207, R213: the names resolve GONE; DEDUCED, log 19). -/
def State.endRetires (s : State) (serial : Nat) : State :=
  (s.dev.claims.filter (fun c => serialOf c.name == serial)).foldl (fun (t : State) c => match c.token with
    | some id => t.endToken id (token 1 0)
    | none => t) s

/-- A device is declared lost: its names are shot down, rounds with it end TIMEOUT, and vector 1 of the physical function is
raised; the notice goes on over every live port. Leases that a root holds on its switch end with it (DESIGN CHOICE, log 82). -/
def State.loseDevice (s : State) (dev : Nat) : State :=
  let serial := ((s.dev.ident.members.find? (fun m => m.1 == dev)).map (·.2)).getD 0
  let t := ((s.heldNames serial).foldl State.dropCached s).endRetires serial
  let t := t.mapDev (fun d => { d with
    claims := d.claims.map (fun c => let c := c.without dev; if serialOf c.name = serial then { c with state := .gone, token := none } else c),
    ident := { d.ident with lost := d.ident.lost ++ [dev], lostSerials := d.ident.lostSerials ++ [serial] }, links := { d.links with notices := d.links.notices ++ [dev] } })
  let hit := t.dev.rounds.filter (fun r => r.record.members.contains dev)
  let t := (t.dev.records.filter (fun r => r.switches.contains dev)).foldl (fun (t : State) r => t.freeLeases r.name) t
  (hit.foldl (fun (t : State) r => t.abortRound r 7) t).mapDev (fun d => d.raise 0 1)

/-- Another device of the domain that is not lost. -/
def Dev.losable (d : Dev) (dev : Nat) : Bool :=
  dev != d.ident.index && d.ident.members.any (fun m => m.1 == dev) && !d.ident.lost.contains dev

/-- Whether this device has received nothing of another for LOSTTO microseconds of 1,050 cycles, measured from the last write of LOSTTO at
the earliest (R389, R482). -/
def State.silentFor (s : State) (dev : Nat) : Bool :=
  decide (max (s.dev.links.heardAt dev) s.dev.links.losttoAt + 1050 * s.dev.set.lostto ≤ s.core.now)

/-- LOSTTO_EXPIRY: that no other survivor has heard the device either, and no probe was answered, is the event's own. -/
def execLosttoExpiry (dev : Nat) (s : State) : Out :=
  if s.dev.losable dev && s.silentFor dev then .next (s.loseDevice dev) else .next s

/-- LOSS_NOTICE. -/
def execLossNotice (dev : Nat) (s : State) : Out := if s.dev.losable dev then .next (s.loseDevice dev) else .next s

/-! ### Flow hooks (R425, R427, R450) -/

/-- The kernel name of the lowest loaded hook of a tenant and TAG (R479). -/
def Dev.hook (d : Dev) (tenant tag : Nat) : Option ClaimName :=
  ((List.range 64).find? (fun h =>
    let w := d.entryWord (0x8000 + 32 * h)
    bitsAt w 63 63 == 1 && bitsAt w 13 8 == tenant && bitsAt w 4 0 == tag)).map (fun h =>
      BitVec.ofNat 128 (d.entryWord (0x8010 + 32 * h) * 2 ^ 64 + d.entryWord (0x8008 + 32 * h)))

/-- The kernel that a message runs: of its tenant, LIVE, and a flow kernel. -/
def State.flowKernel (s : State) (tenant tag : Nat) : Option Kernel :=
  (s.dev.hook tenant tag).bind (fun nm =>
    if (s.dev.claim? nm).any (fun c => c.ty == .kernel && c.owner == tenant && c.state == .live) && !s.dev.goneByName nm then
      (s.dev.kernel? nm).filter (fun k => !k.slot)
    else none)

/-- What one entry becomes. -/
inductive EntryEnd where
  | keep (bytes : List Byte) (poisoned : List Bool)
  | drop
  | redir (target : Nat) (bytes : List Byte)
  deriving DecidableEq, Repr

/-- The kernel runs on entry `i` of a message. -/
def State.flowEntry (s : State) (k : Kernel) (m : LinkMsg) (sender i : Nat) : State × EntryEnd :=
  let bs := (m.bytes.drop (256 * i)).take 256
  let po := (m.poisoned.drop (256 * i)).take 256
  let spec : InvSpec :=
    { kernel := k.name, slot := false, input := bs, partialIn := [], poisoned := orAll po, sender := sender,
      dest := s.dev.ident.index, tenant := m.tenant, tag := m.tag, key := 0, beat := i, count := msgEntries m, round := m.seq,
      pass := 0 }
  let r := s.runKernel k spec
  let clean := List.replicate 256 false
  match r.2.1 with
  | .disp .fwd => (r.1, .keep (r.2.2.take 256) clean)
  | .disp .drop => (r.1, .drop)
  | .disp (.redir t) => (r.1, if t.toNat = s.dev.ident.index then .keep (r.2.2.take 256) clean else .redir t.toNat (r.2.2.take 256))
  | .trap _ _ _ => (r.1, if k.forward then .keep bs po else .drop)

/-- A message through its kernel: the entries' ends, in order. -/
def State.flowRun (s : State) (k : Kernel) (m : LinkMsg) (sender : Nat) : State × List EntryEnd :=
  (List.range (msgEntries m)).foldl (fun (q : State × List EntryEnd) i =>
    let r := q.1.flowEntry k m sender i
    (r.1, q.2 ++ [r.2])) (s, [])

/-- What becomes of a message. -/
inductive MsgEnd where
  | placed (m : LinkMsg)
  | dropped
  | sentOn (target : Nat) (m : LinkMsg)
  deriving DecidableEq, Repr

def msgEnd (m : LinkMsg) (es : List EntryEnd) : MsgEnd :=
  let bytes := (es.map (fun e => match e with
    | .keep b _ => b
    | .redir _ b => b
    | .drop => [])).flatten
  let pois := (es.map (fun e => match e with
    | .keep _ p => p
    | .redir _ b => b.map (fun _ => false)
    | .drop => [])).flatten
  let out := { m with bytes := bytes, poisoned := pois }
  if es.contains .drop then .dropped
  else match es.findSome? (fun e => match e with
    | .redir t _ => some t
    | _ => none) with
  | some t => .sentOn t out
  | none => .placed out

/-- A message passes its hook; one that a kernel has redirected passes none (R425). -/
def State.flow (s : State) (m : LinkMsg) (sender : Nat) : State × MsgEnd :=
  match (s.flowKernel m.tenant m.tag).filter (fun _ => !m.redirected) with
  | none => (s, .placed m)
  | some k =>
    let r := s.flowRun k m sender
    (r.1, msgEnd m r.2)

/-- Credits go back to a sender of the domain. -/
def Links.giveBack (l : Links) (m : LinkMsg) : Links :=
  if 256 ≤ m.peer then l else { l with creditsOut := l.creditsOut ++ [(m.tenant, m.peer, msgEntries m)] }

/-- A message takes its place: in its queue, nowhere, or among those that wait here for room at another device (R427). A dropped message
returns its credits where its sender holds some. -/
def State.placeMessage (s : State) (m : LinkMsg) (sender : Nat) : State :=
  let q := s.flow m sender
  match q.2 with
  | .placed n => q.1.mapDev (fun d => d.mapQueue m.tenant m.peer (fun o => { o with msgs := o.msgs ++ [n] }))
  | .dropped => q.1.mapDev (fun d => { d with links := d.links.giveBack m })
  | .sentOn t n => q.1.mapDev (fun d => { d with links := { d.links with
      waiting := d.links.waiting ++ [(t, { n with redirected := true })] } })

/-- The first messages that wait for room at their targets have found it: they are placed there, and the credits of the original pair
return (R427). -/
def Links.goOn (l : Links) (n : Nat) : Links :=
  let out := l.waiting.take n
  out.foldl (fun (l : Links) q => l.giveBack q.2) { l with waiting := l.waiting.drop n, forwarded := l.forwarded ++ out }

/-- Entries that a queue holds, those of messages that a RECV has reserved among them. -/
def queued (q : LinkQueue) : Nat := (q.msgs.map msgEntries).sum + q.taken

/-- Whether a queue of 64 entries has room for `k` more. -/
def State.hasRoom (s : State) (tenant peer k : Nat) : Bool := decide (queued (s.dev.links.queue tenant peer) + k ≤ 64)

/-- MESSAGE_ARRIVAL: a whole message of a device of the domain, which holds credits for it. -/
def execMessageArrival (m : LinkMsg) (s : State) : Out :=
  let k := msgEntries m
  if (s.dev.page m.tenant).active && s.dev.losable m.peer && decide (m.tag < 32) && decide (1 ≤ k) && decide (k ≤ 64) &&
      m.bytes.length % 256 == 0 && s.hasRoom m.tenant m.peer k then
    .next ((s.hear m.peer).placeMessage { m with seq := 0 } m.peer)
  else .next s

/-- CREDIT_RETURN. -/
def execCreditReturn (tenant peer k : Nat) (s : State) : Out :=
  .next ((s.hear peer).mapDev (fun d => d.mapQueue tenant peer (fun q => { q with credits := min 64 (q.credits + k) })))

/-! ### Between domains (R399) -/

/-- The message numbered `r.recvSeq`, once every fragment of it is present. -/
def RouteState.whole (r : RouteState) : Option LinkMsg :=
  let fs := r.frags.filter (fun f => f.seq == r.recvSeq)
  match fs with
  | [] => none
  | f :: _ =>
    let parts := (List.range f.nfrag).map (fun i => fs.find? (fun g => g.frag == i))
    if parts.all (·.isSome) then
      let bytes := (parts.filterMap (fun g => g.map (·.payload))).flatten
      if bytes.length = 256 * f.entries then
        some { tenant := f.tenant, peer := 256 + r.route, tag := f.tag, seq := r.recvSeq, bytes := bytes,
               poisoned := bytes.map (fun _ => false) }
      else none
    else none

/-- An acknowledgement frame goes out with a number, unless its port is down or being retrained (R388, R469); its header's other fields are
not given (R399). -/
def State.acknowledge (s : State) (route seq : Nat) : State :=
  let e := s.dev.routeEntry route
  if s.dev.routeLive route then
    s.mapDev (fun d => { d with links := { d.links with acksOut := d.links.acksOut ++ [(etherOf e, ridxOf e, seq)] } })
  else s

/-- Messages of a route that are whole take their places in order, while the queue has room, and are acknowledged; `fuel`
bounds their number. -/
def State.placeRoute (route : Nat) : Nat → State → State
  | 0, s => s
  | fuel + 1, s =>
    let r := s.dev.links.routeState route
    match r.whole with
    | none => s
    | some m =>
      if s.hasRoom m.tenant (256 + route) (msgEntries m) then
        let t := (s.placeMessage m (Config.foreignIndex route)).mapDev (fun d => { d with links :=
          (d.links.setRoute { r with recvSeq := r.recvSeq + 1, frags := r.frags.filter (fun f => f.seq != r.recvSeq) }) })
        State.placeRoute route fuel (t.acknowledge route r.recvSeq)
      else s

/-- The messages that waited for room after a RECV from a route. -/
def State.placeWaiting (s : State) (peer : Nat) : State :=
  match routeOf peer with
  | some r => State.placeRoute r (s.dev.links.routeState r).frags.length s
  | none => s

/-- What the header of a frame must hold (R399). -/
def frameGood (h : FrameHead) (kind : Nat) : Bool := h.ver == 1 && h.kind == kind && h.zeros

/-- Whether the port that a route's frames come by is down or being retrained: it receives none (R388, R469). -/
def Dev.deaf (d : Dev) (route : Nat) : Bool := decide (route < 768) && !d.routeLive route

/-- DATA_FRAME: a frame that R399 does not describe is discarded and counted; a number already placed is acknowledged again. -/
def execDataFrame (f : Frame) (s : State) : Out :=
  if s.dev.deaf f.srcRoute then .next s
  else if !frameGood f.head 0 then .next (s.mapDev (fun d => d.countErr 5))
  else if 768 ≤ f.srcRoute then .next s
  else
    let r := s.dev.links.routeState f.srcRoute
    if f.seq < r.recvSeq then .next (s.acknowledge f.srcRoute f.seq)
    else
      let known := r.frags.any (fun g => g.seq == f.seq && g.frag == f.frag)
      let n := if known then r else { r with frags := r.frags ++ [f] }
      let t := s.mapDev (fun d => { d with links := d.links.setRoute n })
      .next (State.placeRoute f.srcRoute n.frags.length t)

/-- A SEND on a route ends with a token. -/
def State.endUnacked (s : State) (u : Unacked) (v : X64) : State :=
  (s.mapDev (fun d => { d with links := { d.links with unacked := d.links.unacked.filter (fun o => o.id != u.id) } })).collToken u.id v

/-- The source and size of the SEND of an operation. -/
def State.sendOf (s : State) (id : Nat) : Option (Nat × Nat × Nat) :=
  (s.core.engs.find? (fun e => e.id == id)).bind (fun e => match e.cmd with
    | .send _ tag src k _ => some (tag, src, k)
    | _ => none)

/-- ACK_FRAME: the SEND is locally complete. -/
def execAckFrame (head : FrameHead) (route seq : Nat) (s : State) : Out :=
  if s.dev.deaf route then .next s
  else if !frameGood head 1 then .next (s.mapDev (fun d => d.countErr 5))
  else
    match s.dev.links.unacked.find? (fun u => u.route == route && u.seq == seq) with
    | some u => .next (s.endUnacked u (token 0 (256 * ((s.sendOf u.id).map (·.2.2)).getD 0)))
    | none => .next s

/-- Whether the RTO of its entry, in microseconds of 1,050 cycles, has passed since a message's frames went out (R399, R479). -/
def Unacked.overdue (u : Unacked) (now : Nat) : Bool := decide (u.since + 1050 * bitsAt u.entry.2 23 0 ≤ now)

/-- The first message of a tenant on a route that is overdue. -/
def State.unansweredOn (s : State) (tenant route : Nat) : Option Unacked :=
  s.dev.links.unacked.find? (fun u => u.tenant == tenant && u.route == route && u.overdue s.core.now)

/-- RETRANSMIT_TIMEOUT of a tenant's message on a route: it is resent from its source bytes by the entry that it started with, eight times at
most. -/
def execRetransmitTimeout (tenant route : Nat) (s : State) : Out :=
  match s.unansweredOn tenant route with
  | none => .next s
  | some u =>
    if 8 ≤ u.tries then .next (s.endUnacked u (token 7 0))
    else match s.sendOf u.id with
      | some q =>
        .next (((s.chargeEngine u.id (256 * q.2.2) 1).mapDev (fun d => { d with links := { d.links with unacked := d.links.unacked.map (fun o =>
          if o.id == u.id then { o with tries := o.tries + 1, since := s.core.now } else o) } })).sendFrames u.tenant u.entry u.seq
            q.1 q.2.1 q.2.2)
      | none => .next s

end Sys2Proof.Machine
end

