-- ==== Sys2Proof/Machine/EvColl.lean ====
section
/-! DEFINITION. The events of collective rounds (R407 to R410, R417 to R420, R426, R450). -/

namespace Sys2Proof.Machine

/-! ### Decisions (R418, R450) -/

/-- Whether the record's kernel is null or one that its tenant may run (R449, R450). -/
def State.kernelOk (s : State) (r : Round) : Bool :=
  r.record.kernel == 0 || (s.resolve r.tenant r.record.kernel).any (fun c => c.ty == .kernel && c.owner == r.tenant)

/-- A lease of this switch belongs to a record; its root holds one on `switches` as well. -/
def Dev.addLease (d : Dev) (r : Round) (switches : List Nat) : Dev :=
  let ls := (d.grants.filter (fun g => g.tenant == r.tenant && g.key == r.record.key)).map (·.lease)
  { d with records := { name := r.record.name, tenant := r.tenant, key := r.record.key, leases := ls, switches := switches } ::
      d.records.filter (fun q => q.name != r.record.name) }

/-- The other switches of the tree on which the root asks for a slot. -/
def State.otherSwitches (s : State) (r : Round) : List Nat := (r.record.tree r.net).filter (fun w => w != s.dev.ident.index)

/-- The root gives back what its requests have been granted, by the answers it has. -/
def State.giveBack (s : State) (r : Round) (answers : List (Nat × Bool)) : State :=
  let mine := (s.dev.grants.filter (fun g => g.tenant == r.tenant && g.key == r.record.key)).map (·.lease)
  s.mapDev (fun d =>
    let d := mine.foldl Dev.freeLease d
    { d with requestsOut := d.requestsOut ++
        ((answers.filter (fun a => a.2 && a.1 != d.ident.index)).map (fun a => (a.1, r.tenant, r.record.key, true))) })

/-- The round goes on as decided: it runs on slots, of which a root that has them leased keeps the leases, walks, or ends. -/
def State.takeDecision (s : State) (r : Round) (d : Decision) : State :=
  match d with
  | .slots =>
    if r.leased then s.beginSlots r
    else (s.mapDev (fun v => v.addLease r (if r.record.rank = 0 then s.otherSwitches r else []))).beginSlots r
  | .walk => State.settleRound ((s.freeLeases r.record.name).beginWalk r)
  | .noslot => (s.freeLeases r.record.name).failRound r 8
  | .gone => s.failRound r 1

/-- The root learns what it finds of the kernel's entry (R209). -/
def State.learnKernel (s : State) (r : Round) : State := if r.record.kernel = 0 then s else s.learn r.record.kernel

/-- What the root decides from the answers to its requests, once every one has come (R418, R450): GONE where the kernel is gone, slots where
every request was granted, else the walk or NOSLOT by ALG. -/
def State.decisionOf (s : State) (r : Round) (answers : List (Nat × Bool)) : Option Decision :=
  if !(r.record.tree r.net).all (fun w => answers.any (fun a => a.1 == w)) then none
  else if !s.kernelOk r then some .gone
  else if answers.all (·.2) then some .slots
  else some (if r.record.alg = 1 then .walk else .noslot)

/-- The root has decided, and sends its decision to every member. -/
def State.chooseAlg (s : State) (r : Round) (d : Decision) : State :=
  s.mapDev (fun v => { v with decisionsOut := v.decisionsOut ++
    [{ tenant := r.tenant, key := r.record.key, round := r.q, digest := r.record.digest, decision := d }] })

/-- The drops and the exponents of a round as SRC gives them (R411, R413, R415). -/
def Round.fresh (r : Round) : Round :=
  let ls := r.locals
  { r with drops := ls.map (fun l => if l.1 then 1 else 0), exps := ls.map (·.2), stage := .deciding, slots := false, leased := false,
           lostExps := 0 }

/-- A member takes the root's decision, for which its round waits (R418, R450). -/
def State.heedDecision (s : State) (r : Round) (m : DecisionMsg) : State :=
  let fits := match m.decision with
    | .walk => r.record.alg == 1
    | .noslot => r.record.alg == 2
    | _ => true
  if m.digest != r.record.digest then s.abortRound r 11
  else if fits && r.stage == .deciding then s.takeDecision r m.decision
  else s

/-! ### A round starts (R407, R413, R417) -/

/-- The status of an abort notice that has come for the round before it started (R420). -/
def Dev.earlyAbort (d : Dev) (r : Round) : Option Nat :=
  (d.earlyAborts.find? (fun a => a.1 == r.tenant && a.2.1 == r.record.key && a.2.2.1 == r.q)).map (fun a => a.2.2.2)

/-- Whether a message or a beat that has come for the round before it started disagrees with its digest (R408). -/
def Dev.earlyDiffers (d : Dev) (r : Round) : Bool :=
  r.early.any (fun m => m.digest != r.record.digest) || d.earlyBeats.any (fun b =>
    b.tenant == r.tenant && b.key == r.record.key && b.round == r.q && b.digest != r.record.digest)

/-- A member heeds the root's decision where that has come before its round started. -/
def State.heedEarly (s : State) (r : Round) : State :=
  match s.dev.earlyDecisions.find? (fun m => m.tenant == r.tenant && m.key == r.record.key && m.round == r.q) with
  | some m => s.heedDecision r m
  | none => s

/-- The root's requests go out (R417). -/
def State.askSlots (s : State) (r : Round) : State :=
  s.mapDev (fun d => { d with requestsOut := d.requestsOut ++ (r.record.tree r.net).map (fun w => (w, r.tenant, r.record.key, false)) })

/-- The root of a round with ALG 1 or 2 begins: with the slots that are leased, or GONE, decided at once, or with its requests (R417, R418,
R450). -/
def State.beginRoot (s : State) (r : Round) (leased : Bool) : State :=
  if !leased then s.askSlots r
  else
    let d : Decision := if s.kernelOk r then .slots else .gone
    ((s.learnKernel r).chooseAlg r d).takeDecision { r with leased := true } d

/-- The round of a COLL starts, once no earlier round of its record is in flight (R407): its number, its exponents and gleanings, and the
algorithm. An abort notice that has come for it ends it (R420), and so does what disagrees with its digest (R408). -/
def State.startRound (s : State) (r : Round) : State :=
  let c := r.record
  let gl : List (BitVec 32 × Bool) := if c.arith = 5 then
      wordsOf ((scratchAddrs c.glean (256 * c.blocks)).map (fun a => (s.mem.byte a, s.mem.poisoned a)))
    else []
  let hw := s.recordWord c 56
  let gleanWords : List (BitVec 32) := gl.map (fun w => w.1)
  let badBlock := fun (b : Nat) => r.srcBad.getD b false || orAll (List.map (fun (w : BitVec 32 × Bool) => w.2) (blockOf gl b))
  let q := (bitsAt hw 63 32 + 1) % 2 ^ 32
  let mine := fun (m : CollMsg) => m.tenant == r.tenant && m.key == c.key && m.round == q
  let leased := bitsAt hw 22 22 == 1 && s.dev.records.any (fun x => x.name == c.name)
  let r1 := ({ r with
    q := q, glean := gleanWords, early := s.dev.early.filter mine,
    srcBad := (List.range c.blocks).map (fun b => badBlock b), net := s.dev.net }.fresh).keepPast s
  let t := (((s.chargeWord r).chargeWord r).mapDev (fun d => { d with
    early := d.early.filter (fun m => !mine m), aborted := d.aborted.filter (fun a => a != (r.tenant, c.key, q)) })).recordPut c 56
      (q * 2 ^ 32 + hw % 2 ^ 32)
  let t := t.setRound r1
  match t.dev.earlyAbort r1 with
  | some status => t.failRound r1 status
  | none =>
    if t.dev.earlyDiffers r1 then t.abortRound r1 11
    else if c.alg = 0 then State.settleRound (t.beginWalk r1)
    else if c.rank = 0 then t.beginRoot r1 leased
    else t.heedEarly r1

/-! ### Messages (R408, R410) -/

/-- The round that a message is for. -/
def Dev.roundOf (d : Dev) (tenant : Nat) (key : X64) (q : Nat) : Option Round :=
  d.rounds.find? (fun r => r.stage != .queued && r.tenant == tenant && r.record.key == key && r.q == q)

/-- Whether a round takes a message that is for it: once the walk has begun, it receives that tile there (R409). -/
def Round.agrees (r : Round) (m : CollMsg) : Bool := r.stage == .deciding || r.matches m

/-- COLL_MESSAGE: it is held until its round starts, ends the round where its digest or its tuple does not agree (R408, R409), or is applied in
its turn; one of an aborted round, or for another rank, is discarded. -/
def execCollMessage (m : CollMsg) (s : State) : Out :=
  if s.dev.aborted.contains (m.tenant, m.key, m.round) then .next s
  else match s.dev.roundOf m.tenant m.key m.round with
  | none => .next (s.mapDev (fun d => { d with early := d.early ++ [m] }))
  | some r =>
    if m.digest != r.record.digest then .next (s.abortRound r 11)
    else if m.toRank != r.record.rank then .next s
    else if r.agrees m then .next (State.settleRound (s.pumpRound { r with early := r.early ++ [m] }))
    else .next (s.abortRound r 11)

/-! ### Slots (R417, R418) -/

/-- The round of the root on this device whose request to its own switch is still to be answered. -/
def Dev.requesting (d : Dev) (q : SlotReq) : Option Round :=
  d.rounds.find? (fun r => r.tenant == q.tenant && r.record.key == q.key && r.stage == .deciding && r.record.rank == 0 &&
    !r.answers.any (fun a => a.1 == d.ident.index))

/-- The allocator's answer goes to the root: to its round on this device, or out. -/
def State.answerRequest (s : State) (q : SlotReq) (own : Option Round) (yes : Bool) : State :=
  match own with
  | some r => s.setRound { r with answers := (s.dev.ident.index, yes) :: r.answers }
  | none => s.mapDev (fun d => { d with answersOut := d.answersOut ++ [(q.tenant, q.key, yes)] })

/-- One request at the allocator: the lowest free slot is granted as a claim of type 9; with none, or with no name to give, the answer is
NOSLOT. A release frees what was granted, and with
it the leases of the record on this module. The lease's HOME names die 0: the switch is of no die (DESIGN CHOICE, log 71). -/
def State.allocate (s : State) (q : SlotReq) : State :=
  let home := homeField s.dev.ident.index 0 0 0
  if q.release then
    let mine := (s.dev.grants.filter (fun g => g.tenant == q.tenant && g.key == q.key)).map (·.lease)
    let t := s.mapDev (fun d => mine.foldl Dev.freeLease d)
    (t.dev.records.filter (fun r => r.tenant == q.tenant && r.key == q.key)).foldl (fun (t : State) r => t.freeLeases r.name) t
  else
    let own := s.dev.requesting q
    match (List.range 64).find? (fun i => (vget s.dev.slots i none).isNone) with
    | none => s.answerRequest q own false
    | some i =>
      if !s.mayEnter home then s.answerRequest q own false
      else
        let e := s.enterClaim .lease q.tenant home 0 0 (BitVec.ofNat 64 (i + 64 * s.dev.ident.index))
        let rec_ := match own with
          | some r => r.record
          | none => collRecOf q.record 0 [] s.dev.ident.index 0
        let g : Grant := { tenant := q.tenant, key := q.key, record := rec_, lease := e.2,
                           kernel := s.kernelFor q.tenant rec_.kernel q.image, net := s.dev.net }
        (e.1.mapDev (fun d => { d with slots := vset d.slots i (some (q.tenant, e.2)), grants := d.grants ++ [g] })).answerRequest q own true

/-- Requests in ascending order of tenant, those of one tenant as they stand. -/
def reqInsert (q : SlotReq) : List SlotReq → List SlotReq
  | [] => [q]
  | p :: t => if q.tenant < p.tenant then q :: p :: t else p :: reqInsert q t

/-- SLOT_REQUEST: the requests that arrive in one switch cycle are applied one by one, in ascending tenant number. -/
def execSlotRequest (first : SlotReq) (more : List SlotReq) (s : State) : Out :=
  .next (((first :: more).foldl (fun l q => reqInsert q l) []).foldl State.allocate s)

/-- ALGORITHM_DECISION: at the root, the answers of the other switches have come, and it decides; at another member, the root's decision
arrives, and waits where the round has not started. -/
def execAlgorithmDecision (m : DecisionMsg) (answers : List (Nat × Bool)) (s : State) : Out :=
  match s.dev.rounds.find? (fun r => r.tenant == m.tenant && r.record.key == m.key && r.record.rank == 0 && r.stage == .deciding) with
  | some r =>
    let answers := r.answers ++ answers.filter (fun a => a.1 != s.dev.ident.index)
    match s.decisionOf r answers with
    | none => .next s
    | some d =>
      let t := (if d = .slots then s else s.giveBack r answers).learnKernel r
      .next ((t.chooseAlg r d).takeDecision { r with answers := answers } d)
  | none =>
    match s.dev.roundOf m.tenant m.key m.round with
    | some r => if r.record.rank = 0 then .next s else .next (s.heedDecision r m)
    | none => .next (s.mapDev (fun d => { d with earlyDecisions := d.earlyDecisions ++ [m] }))

/-! ### Beats (R419) -/

/-- A switch whose module has no part in the round: it combines the beat of its child ports, once all are here, and sends it on; the root's
result it sends down. -/
def State.relayBeat (s : State) (g : Grant) (b : Beat) : State :=
  let c : Combine := { record := g.record, tenant := g.tenant, q := b.round, kernel := g.kernel, net := g.net }
  if b.digest != g.record.digest then
    s.mapDev (fun d => { d with abortsOut := d.abortsOut ++ [(g.tenant, g.key, b.round, 11)] })
  else if b.down then s.sendDown c b.pass b.beat { words := b.words, drops := b.drops, sat := b.satmark } b.poisoned
  else
    let t := s.mapDev (fun d => { d with earlyBeats := d.earlyBeats ++ [b] })
    match t.dev.inputsOf c b.pass b.beat with
    | some (i :: ins) =>
      let q := t.combineAll c b.pass b.beat 1 (c.first b.pass i.2) ins
      match g.record.parentPort g.net s.dev.ident.index with
      | some p => (q.1.dropBeats ((i :: ins).map (·.2))).sendBeat c b.pass b.beat p false q.2 false
      | none => t
    | _ => t

/-- The grant of a collective of which this module is no member. -/
def Dev.relaying (d : Dev) (b : Beat) : Option Grant :=
  d.grants.find? (fun g => g.tenant == b.tenant && g.key == b.key && !g.record.members.contains d.ident.index)

/-- SLOT_BEAT: a beat arrives at this module's switch: for a round of this member, of another module's collective, or, where the round has
not started, to wait. -/
def execSlotBeat (tenant : Nat) (key : X64) (round : Nat) (digest : BitVec 32) (b : BeatIn) (s : State) : Out :=
  let b : Beat := { b with tenant := tenant, key := key, round := round, digest := digest }
  if s.dev.aborted.contains (b.tenant, b.key, b.round) then .next s
  else match s.dev.relaying b with
  | some g => .next (s.relayBeat g b)
  | none =>
    match s.dev.roundOf b.tenant b.key b.round with
    | none => .next (s.mapDev (fun d => { d with earlyBeats := d.earlyBeats ++ [b] }))
    | some r =>
      if b.digest != r.record.digest then .next (s.abortRound r 11)
      else .next ((s.mapDev (fun d => { d with earlyBeats := d.earlyBeats ++ [b] })).runSlots r)

/-! ### Ends (R420) -/

/-- ABORT_NOTICE: the member ends the round; a notice that comes before the round starts waits for it. -/
def execAbortNotice (c : CollKey) (round status : Nat) (s : State) : Out :=
  if status ≠ 7 ∧ status ≠ 11 then .next s
  else match s.dev.roundOf c.tenant c.key round with
  | some r => .next (s.failRound r status)
  | none => .next (s.mapDev (fun d => { d with earlyAborts := d.earlyAborts ++ [(c.tenant, c.key, round, status)] }))

/-- Whether a round's timeout has passed since its fork: TIMEOUT microseconds of 1,050 cycles; 0 is none (R420, R421). -/
def Round.timedOut (r : Round) (now : Nat) : Bool := r.record.timeout != 0 && decide (r.since + 1050 * r.record.timeout ≤ now)

/-- ROUND_TIMEOUT. -/
def execRoundTimeout (c : CollKey) (s : State) : Out :=
  match s.dev.rounds.find? (fun r => r.tenant == c.tenant && r.record.key == c.key && r.timedOut s.core.now) with
  | some r => .next (s.abortRound r 7)
  | none => .next s

end Sys2Proof.Machine
end

