-- ==== Sys2Proof/Machine/EvEngine.lean ====
section
/-! DEFINITION. Engine commands after their release (R276 to R281): what each does once it has forked, and its token; the
rick engine (R324); replies to SVC (R356). -/

namespace Sys2Proof.Machine

/-! ### Tokens (R278) -/

/-- The token of an engine command is written, and the command is over. -/
def State.finishEngine (s : State) (e : Engine) (v : X64) : State :=
  (s.deliverTok e.tok e.id v false).mapCore (fun c => { c with engs := c.engs.filter (fun o => o.id != e.id) })

/-- The command of an engine becomes another: it goes on waiting. -/
def State.setCmd (s : State) (id : Nat) (m : Cmd) : State :=
  s.mapCore (fun c => { c with engs := c.engs.map (fun e => if e.id == id then { e with cmd := m } else e) })

/-- Whether a command has started and waits for something else: a recall, a collective round, an acknowledgement. -/
def State.started (s : State) (e : Engine) : Bool :=
  match e.cmd with
  | .retire nm => (s.dev.claim? nm).any (fun c => c.token == some e.id)
  | .coll _ _ _ => s.dev.rounds.any (fun r => r.id == e.id)
  | .send _ _ _ _ _ => s.dev.links.unacked.any (fun u => u.id == e.id)
  | _ => false

/-! ### What the commands do -/

/-- Bytes of later writes are kept from gated stores of an earlier place (R151, R212). -/
def GateEntry.without (e : GateEntry) (addrs : List Nat) : GateEntry :=
  let cut := fun (d : StoreData) => { d with
    cells := d.cells.filter (fun c => !addrs.contains c.1), poisoned := d.poisoned.filter (fun a => !addrs.contains a) }
  { e with op := match e.op with
    | .store d => .store (cut d)
    | .output d => .output (cut d)
    | .drainChute d n => .drainChute (cut d) n
    | .drainPush d g => .drainPush (cut d) g
    | o => o }

/-- QCLAIM's write follows the stores before it. -/
def State.shieldGate (s : State) (e : Engine) (addrs : List Nat) : State :=
  s.mapCore (fun c => { c with gate := c.gate.map (fun g => if before g.bundle g.slot e.bundle e.slot then g.without addrs else g) })

/-- The entry that a RETIRE finds LIVE (R213). -/
def State.retirable (s : State) (tenant : Nat) (nm : ClaimName) : Bool :=
  s.pins tenant nm

/-- RETIRE at the entry (R213): GONE at once, or the recall. For another device's name this core's part of it is modelled: its cache and
handles are shot down and its uses awaited; when the other caches and uses are gone is a matter of when the token comes (log 19). -/
def State.runRetire (s : State) (e : Engine) (nm : ClaimName) : State :=
  let t := (s.noteQueried nm).bump
  if s.retirable (s.tenantOf e.strand) nm then (t.recall nm (some e.id)).tryEnd nm else t.finishEngine e (token 1 0)

/-- An interlocked result that writes nothing is no longer waited for. -/
def State.forgo (s : State) (id : Nat) (r : RegName) : State :=
  (s.mapCore (fun c => { c with inter := c.inter.filter (fun i => !(i.id == id && i.reg == r)) })).mapDev (fun d =>
    { d with strands := d.strands.map (fun t => { t with pending := t.pending.filter (fun i => !(i.id == id && i.reg == r)) }) })

/-- CLAIM: the name of the entry goes to N[H]; where none is made N[H] keeps its own (R210). -/
def State.runClaim (s : State) (e : Engine) (nh : Nat) (ty : ClaimType) (base size : X64) (home : Nat) : State :=
  let q := s.performClaim (s.tenantOf e.strand) ty base size home
  match q.2.1 with
  | some nm => (q.1.deliver e.id (.n nh) (.name nh nm)).finishEngine e q.2.2
  | none => (q.1.forgo e.id (.n nh)).finishEngine e q.2.2

/-- A commit that waits ends with its space, or with the chute (R146, R199, R216). -/
def State.runWait (s : State) (e : Engine) (nm : ClaimName) (n : Nat) : State :=
  match s.chute? nm with
  | none => s.finishEngine e (token 1 0)
  | some c =>
    if (s.dev.claim? nm).any (fun q => q.state != .live) then s.finishEngine e (token 1 0)
    else if c.final then s.finishEngine e (token 6 0)
    else if c.commitDone n then s.finishEngine e (BitVec.ofNat 64 (c.slotOff ((n + 1) % c.slots)))
    else s

/-- An in-domain SEND has forked, and reads its source from now on until its token is written (R392). -/
def State.beginSend (s : State) (id : Nat) : State :=
  s.mapCore (fun c => { c with engs := c.engs.map (fun e => if e.id == id then { e with begun := true } else e) })

/-- A command that has forked is performed, or begins. -/
def State.runEngine (s : State) (e : Engine) : State :=
  let fin := fun (q : State × X64) => q.1.finishEngine e q.2
  match e.cmd with
  | .copy c => fin (s.performCopy e.strand c)
  | .rick _ => s
  | .claim nh ty base size home => s.runClaim e nh ty base size home
  | .retire nm => s.runRetire e nm
  | .chcommit nm v =>
    let q := s.startCommit e.strand nm v
    match q.2 with
    | .inl t => q.1.finishEngine e t
    | .inr n => q.1.setCmd e.id (.chwait nm n)
  | .chwait nm n => s.runWait e nm n
  | .send peer tag src k gone =>
    if gone then s.finishEngine e (token 1 0)
    else
      match routeOf peer with
      | some r => (s.charge e.strand 0 (256 * k)).startRouteSend e.id (s.tenantOf e.strand) r tag src k
      | none =>
        if !e.begun then s.beginSend e.id
        else fin ((s.charge e.strand 0 (256 * k * s.dev.hops peer)).performSend (s.tenantOf e.strand) peer tag src k e.kept)
  | .recv peer _ dst k msg =>
    match msg with
    | some m =>
      let q := s.performRecv dst k m
      (q.1.finishEngine e q.2).placeWaiting peer
    | none => s.finishEngine e (token 1 0)
  | .coll r src dst =>
    match s.dev.rounds.find? (fun q => q.id == e.id) with
    | some q => s.startRound q
    | none => s.forkColl e.id (s.tenantOf e.strand) r src dst
  | .qclaim nm dst => fin ((s.shieldGate e (span (ownLs dst) 64)).performQclaim (s.tenantOf e.strand) nm dst)
  | .resolve _ _ | .chopen _ | .stru _ | .popq => s

/-- Whether an engine has something to do now: a QCLAIM orders as an MDRAIN does, every other command forks. -/
def State.engineReady (s : State) (e : Engine) : Bool :=
  if e.done.isSome then true
  else match e.cmd with
  | .rick _ => false
  | .qclaim _ _ => true
  | .chwait nm n =>
    match s.chute? nm with
    | none => true
    | some c => c.final || c.commitDone n || (s.dev.claim? nm).any (fun q => q.state != .live)
  | .retire nm =>
    if s.started e then (s.dev.claim? nm).any s.recallDone else s.forked e.strand e.bundle e.slot
  | .copy c => s.forked e.strand e.bundle e.slot && c.runs.all (fun r => s.answered r.src && s.answered r.dst)
  | .coll _ _ _ =>
    match s.dev.rounds.find? (fun q => q.id == e.id) with
    | some q => q.stage == .queued && !s.dev.roundBehind q
    | none => s.forked e.strand e.bundle e.slot
  | _ => !s.started e && (e.begun || s.forked e.strand e.bundle e.slot)

/-- Whether an engine goes on of itself now: how long a SEND reads its source, a free value says (R392). -/
def State.engineGoes (s : State) (e : Engine) : Bool :=
  s.engineReady e && (!e.begun || (Config.freeByte s.freeCtr 6).getLsbD 0)

/-- ENGINE_TOKEN_WRITE: engine `k` performs its command where it may, and writes its token. -/
def execEngineTokenWrite (k : Nat) (s : State) : Out :=
  match s.core.engs[k]? with
  | none => .next s
  | some e =>
    match e.done with
    | some v => .next (s.finishEngine e v)
    | none =>
      if !s.engineReady e then .next s
      else match e.cmd with
        | .retire nm => if s.started e then .next (s.tryEnd nm) else .next (s.runEngine e)
        | _ => .next (s.runEngine e)

/-! ### The rick engine (R324) -/

/-- Whether a rick command waits for one that was issued before it, in the gate or at the engine: issue order (R324). A RICKQ behind one that its
own interval holds in the gate waits for the next restart point, and what reads its token or its report before that waits for ever: R347's list
does not name it (DESIGN CHOICE, log 89). -/
def State.rickBehind (s : State) (e : Engine) : Bool :=
  s.core.engs.any (fun o => decide (o.id < e.id) && o.done.isNone && o.cmd.isRick) ||
    s.core.gate.any (fun g => match g.op with
      | .cmd o => decide (o.id < e.id) && o.cmd.isRick
      | .drainPush _ o => decide (o.id < e.id) && o.cmd.isRick
      | _ => false)

/-- A rick command is applied once those before it are. A report's bytes order as an MDRAIN output's do (R151, R331): its strand's
gated stores do not hold it. -/
def State.rickReady (s : State) (e : Engine) : Bool :=
  match e.cmd with
  | .rick c => e.done.isNone && !s.rickBehind e &&
      (match c.op with
       | .query _ => s.mayPerform e.strand e.bundle e.slot [] true
       | _ => s.forked e.strand e.bundle e.slot)
  | _ => false

/-- The bytes that the report of a rick command takes at most. -/
def reportSpan (c : RickCmd) : List Nat :=
  match c.op with
  | .query dst => span (ownLs dst) 2112
  | _ => []

/-- RICK_ENGINE_APPLY: the command or injection is applied whole, and its token written. -/
def execRickEngineApply (k : Nat) (s : State) : Out :=
  match s.core.engs[k]? with
  | none => .next s
  | some e =>
    match e.cmd with
    | .rick c =>
      if s.rickReady e then
        let q := (s.shieldGate e ((reportSpan c).take (8 * s.reportWords c))).performRick e.strand c
        .next (q.1.finishEngine e q.2)
      else .next s
    | _ => .next s

/-! ### SVC (R356) -/

/-- The strand that waits for the reply to a request of this tenant and number. -/
def State.svcWaiter (s : State) (tenant number : Nat) : Option Nat :=
  if s.core.running.isSome && s.core.iss.waits == some .svc && s.core.tenant == tenant && s.core.number == number then
    s.core.running
  else (s.dev.strands.zipIdx.find? (fun q => q.1.waits == some .svc && q.1.tenant == tenant && q.1.number == number)).map (·.2)

/-- SVC_REPLY: the oldest request of the service queue is answered; xd takes the reply, or ABORT where the runtime refuses. -/
def execSvcReply (reply : Option X64) (s : State) : Out :=
  match s.dev.svc with
  | [] => .next s
  | q :: rest =>
    let t := s.mapDev (fun d => { d with svc := rest })
    match s.svcWaiter q.1 q.2.1 with
    | some k => .next (t.answerWait k (reply.getD (token 11 0)))
    | none => .next t

end Sys2Proof.Machine
end

