-- ==== Sys2Proof/Machine/EvThr.lean ====
section
/-! DEFINITION. The threshers' events: an invocation begins (R424, R446), the load of a kernel (R444, R445), a hook's write
(R479), and the bin memory window (R476). -/

namespace Sys2Proof.Machine

/-- Whether two invocations run under one binding, whose invocations run one at a time (R425). -/
def sameBinding (a b : InvSpec) : Bool :=
  a.slot == b.slot && a.tenant == b.tenant && (if a.slot then a.key == b.key else a.tag == b.tag)

/-- Whether a thresher is free for an invocation: eight to a module (R1), and none runs under its binding. -/
def State.thrFree (s : State) (i : InvSpec) : Bool :=
  let busy := s.thr.toList ++ s.threshers
  decide (busy.length < 8) && !busy.any (fun v => sameBinding v.spec i)

/-- THRESHER_INVOCATION: an invocation of a loaded kernel of its tenant begins on a free thresher; a poisoned input is a trap
without a run (R447). -/
def execThresherInvocation (i : InvSpec) (s : State) : Out :=
  match (s.dev.kernel? i.kernel).filter (fun _ => s.thrFree i) with
  | some k =>
    if k.tenant != i.tenant || k.slot != i.slot then .next s
    else if i.poisoned then
      let t := s.thrTrapped i 0x04 0 0 true
      .next { t with results := t.results ++ [(i, .trap 0x04 0 0, i.input ++ i.partialIn)] }
    else
      let v := Invocation.start k i (s.binsGone k)
      .next (match s.thr with
        | none => { s with thr := some v }
        | some _ => { s with threshers := s.threshers ++ [v] })
  | none => .next s

/-- A launch's directive is not met: the launch is rejected (R204, R454). -/
def State.failLaunch (s : State) (l : KernelLoad) : State :=
  if l.launch then s.mapDev (fun d => d.mapPage l.tenant (fun p => { p with launchBad := true })) else s

/-- The launch fills each `.kname` with the kernel's name (R454): in this core's local store, or where the tenant's list maps it, whatever its
permissions: the image is laid down for the strand, not by it (R82). -/
def State.fillNames (s : State) (l : KernelLoad) (nm : ClaimName) : State :=
  l.knames.foldl (fun (t : State) p =>
    let addrs := match p with
      | .ls off => (List.range 16).map (fun i => ownLs (off + i))
      | .page v => ((t.partsOf (stretches (t.listEntries l.tenant) 300 v 16)).map t.partAddrs).flatten
    t.engineStore (addrs.zip (bytesOfNat 16 nm.toNat)) []) s

/-- The bin set that a launch's kernel asks for, homed on this module (R428, R454): its name, which goes into BINSET. -/
def State.launchBins (s : State) (l : KernelLoad) : Option (State × Option ClaimName) :=
  match l.bins with
  | none => some (s, none)
  | some (o, n) =>
    let c : NewClaim := { ty := .bins, owner := l.tenant, home := homeField s.dev.ident.index 0 0 0, base := 0, size := n,
                          attr := BitVec.ofNat 64 o, chute := none, launch := true }
    ((s.newObject c).filter (fun _ => s.homeOk c && s.mayEnter c.home)).map (fun f =>
      let q := s.enterClaim .bins l.tenant c.home 0 (BitVec.ofNat 64 n) c.attr
      (q.1.mapDev (f q.2), some q.2))

/-- An image whose BINSET holds a name. -/
def withBinset (bs : List Byte) (nm : Option ClaimName) : List Byte :=
  match nm with
  | some n => bs.take 16 ++ bytesOfNat 16 n.toNat ++ bs.drop 32
  | none => bs

/-- KERNEL_LOAD: a refused image makes no claim, and fails its launch; a launch's kernel is loaded with its bin set, or, where another module
holds it, only named here, and fails the launch here too where that module refuses it. Its retirement with the launch is the owner runtime's (OWNER_RUNTIME_RETIRES_CLAIM). The kernel's HOME names die 0:
the switch is of no die (DESIGN CHOICE, log 71). -/
def execKernelLoad (l : KernelLoad) (image : List Byte) (s : State) : Out :=
  let home := homeField s.dev.ident.index 0 0 0
  if !(s.dev.page l.tenant).active then .next s
  else
    let s := if l.launch then s.mapDev (fun d => d.mapPage l.tenant Page.openLaunch) else s
    match l.elsewhere with
    | some (some nm) => .next (s.fillNames l nm)
    | some none => .next (s.failLaunch l)
    | none =>
      match s.launchBins l with
      | none => .next (s.failLaunch l)
      | some b =>
        let image := withBinset image b.2
        match (b.1.kernelOf l.tenant image 0).filter (fun _ => b.1.mayEnter home) with
        | none => .next (s.failLaunch l)
        | some k =>
          let q := b.1.enterClaim .kernel l.tenant home 0 (BitVec.ofNat 64 image.length) (kernelAttr k)
          .next ((q.1.mapDev (fun d => { d with kernels := d.kernels ++ [{ k with name := q.2 }] })).fillNames l q.2)

/-- The image of a loaded kernel (R444). -/
def Kernel.image (k : Kernel) : List Byte :=
  bytesOfNat 4 (k.words.length + (if k.slot then 2 ^ 16 else 0) + (if k.forward then 2 ^ 17 else 0) +
    (if k.bins.isSome then 2 ^ 18 else 0)) ++ bytesOfNat 4 k.bound ++ bytesOfNat 8 0 ++
    bytesOfNat 16 (k.bins.getD 0).toNat ++ (k.words.map (fun w => bytesOfNat 4 w.toNat)).flatten

/-! ### Hooks and the bin window -/

/-- A word of the device register block. -/
def Dev.setBlockWord (d : Dev) (off : Nat) (v : X64) : Dev := { d with block := (off, v) :: d.block.filter (fun q => q.1 != off) }

/-- The bits of a hook's words that hold (R479). -/
def hookMask (w : Nat) : X64 :=
  match w with
  | 0 => 0x8000000000003F1F
  | 1 | 2 => 0xFFFFFFFFFFFFFFFF
  | _ => 0

/-- The entry of four words at `base` takes effect as it stands (R479). -/
def Dev.takeEntry (d : Dev) (base : Nat) : Dev :=
  { d with entries := (List.range 4).map (fun w => (base + 8 * w, BitVec.ofNat 64 (d.blockWord (base + 8 * w)))) ++
      d.entries.filter (fun q => !(decide (base ≤ q.1) && decide (q.1 < base + 32))) }

/-- A write of word `w` of the entry at `base`; with its word 0 the entry takes effect (R479). -/
def Dev.writeEntry (d : Dev) (base w : Nat) (v : X64) : Dev :=
  let d := d.setBlockWord (base + 8 * w) v
  if w = 0 then d.takeEntry base else d

/-- HOOK_WRITE: word `w` of entry `h`. -/
def execHookWrite (h w : Nat) (value : X64) (s : State) : Out :=
  if h < 64 && w < 4 then .next (s.mapDev (fun d => d.writeEntry (0x8000 + 32 * h) w (value &&& hookMask w)))
  else .next s

/-- BIN_WINDOW_ACCESS: an aligned access of 4 or 8 bytes; of another, a read receives Unsupported Request and a write is
discarded. -/
def execBinWindowAccess (off len : Nat) (write : Option X64) (s : State) : Out :=
  let ok := (len == 4 || len == 8) && off % len == 0 && decide (off + len ≤ 2 ^ 23)
  match write with
  | some v => if ok then .next (s.mapDev (fun d => d.putBins off (bytesOfNat len v.toNat))) else .next s
  | none => .next (s.mapDev (fun d => { d with answer := if ok then some ((d.binBytes off len).map some) else none }))

end Sys2Proof.Machine
end

