-- ==== Sys2Proof/Machine/EvBaler.lean ====
section
/-! DEFINITION. Balers (R463 to R467, R480): a bale's header and blocks, checkpoint, restore, and the completion token. A command
goes on block by block, at a free pace (log 37). -/

namespace Sys2Proof.Machine

/-! ### The CRC of R464 -/

/-- CRC-32C of bytes (log 38): the reflected Castagnoli polynomial, all ones before and after. -/
def crcByte (c : BitVec 32) (b : Byte) : BitVec 32 :=
  (List.range 8).foldl (fun (c : BitVec 32) _ => if c.getLsbD 0 then (c >>> 1) ^^^ 0x82F63B78#32 else c >>> 1) (c ^^^ b.zeroExtend 32)

def crc32c (bs : List Byte) : BitVec 32 := ~~~ (bs.foldl crcByte 0xFFFFFFFF#32)

/-! ### Blocks (R464, R465) -/

/-- A block's coded payload, if it fits. -/
def codedPayload (bs : List Byte) : Option (List Byte) :=
  let m := byteModel bs
  let p := ((m.1.map (fun w => bytesOfNat 4 w.toNat)).flatten) ++ ((m.2.1.map (bytesOfNat 8)).flatten)
  if m.2.2 || decide (4096 < p.length) then none else some p

/-- A block of a bale: its header, its payload, and zeros up to a multiple of 8. -/
def baleBlock (seq : Nat) (bs : List Byte) (poisoned : Bool) : List Byte :=
  let q : List Byte × Nat := match codedPayload bs with
    | some p => (p, 0)
    | none => (bs, 1)
  let head := seq % 2 ^ 16 * 2 ^ 48 + (if poisoned then 2 ^ 47 else 0) + q.2 * 2 ^ 45 + q.1.length * 2 ^ 32 + (crc32c bs).toNat
  bytesOfNat 8 head ++ q.1 ++ List.replicate ((8 - q.1.length % 8) % 8) 0

/-- The 4,096 bytes of a block's payload. -/
def decodeBale (mode : Nat) (p : List Byte) : List Byte :=
  if mode = 0 then
    let n := p.length - 256
    let lanes := (List.range 32).map (fun i => natOfBytes ((p.drop (n + 8 * i)).take 8))
    let c : Coder := { lanes := lanes, words := (rawWords (p.take n)).reverse }
    let f := c.popRaw 2
    let t := f.1.popRaw 5
    (t.1.popBody [] { flag := 0, g := .packed, t := .raw, len := 4096, tab := t.2 % 16 }).2
  else (p ++ List.replicate 4096 0).take 4096

/-- A bale's header. -/
def baleHeader (gen serial base blocks : Nat) : List Byte :=
  bytesOfNat 4 0x4C424654 ++ bytesOfNat 4 1 ++ bytesOfNat 8 (gen % 2 ^ 24 * 2 ^ 40 + serial % 2 ^ 40) ++ bytesOfNat 8 base ++
    bytesOfNat 8 blocks ++ List.replicate 32 0

/-! ### The commands -/

/-- A range of the physical space (R220). -/
def inSpace (a n : Nat) : Bool :=
  decide (a + n ≤ gddrEnd) || (decide (sramBase ≤ a) && decide (a + n ≤ 0x4221000000)) ||
    (decide (hostBase ≤ a) && decide (a + n ≤ 2 * hostBase))

/-- Bytes of a physical range, and a number there; those of lines that have moved are read at their new home (R370). -/
def State.viaBytes (s : State) (a n : Nat) : List Byte := (List.range n).map (fun i => s.mem.byte (s.route (a + i)))
def State.viaNum (s : State) (a n : Nat) : Nat := natOfBytes (s.viaBytes a n)

/-- A baler's store, forwarded in the same way. -/
def State.viaStore (s : State) (cells : List Host.Cell) (pois : List Nat) : State :=
  s.engineStore (cells.map (fun c => (s.route c.1, c.2))) (pois.map s.route)

/-- The words of a 4 KiB block, poisoned ones read as 0, with their poison (R465). -/
def State.baleWords (s : State) (a : Nat) : List (BitVec 32 × Bool) :=
  (List.range 1024).map (fun i =>
    let p := s.mem.poisoned (s.route (a + 4 * i))
    (if p then 0 else BitVec.ofNat 32 (s.mem.num (s.route (a + 4 * i)) 4), p))

/-- Block `k` of a bale, from its words. -/
def blockFrom (k : Nat) (ws : List (BitVec 32 × Bool)) : List Byte :=
  baleBlock k ((ws.map (fun w => bytesOfNat 4 w.1.toNat)).flatten) (ws.any (fun w => w.2))

/-- The bale of a range, as memory stands. -/
def State.baleOf (s : State) (base len : Nat) : List Byte :=
  let n := len / 4096
  baleHeader s.dev.ident.gen s.dev.ident.serial base n ++
    ((List.range n).map (fun i => blockFrom i (s.baleWords (base + 4096 * i)))).flatten

/-- A token of a baler at a physical address. -/
def State.balerToken (s : State) (cpl : Nat) (v : X64) : State :=
  if cpl % 8 = 0 && inSpace cpl 8 then s.viaStore (cellsAt cpl (bytesOfNat 8 v.toNat)) [] else s

def Dev.baler (d : Dev) (die : Nat) : Baler := vget d.balers die Baler.reset

def Dev.setBaler (d : Dev) (die : Nat) (f : Baler → Baler) : Dev := { d with balers := vset d.balers die (f (d.baler die)) }

/-- The alignments and ranges of R480. -/
def balerGood (base len bale cpl : Nat) : Bool :=
  base % 4096 == 0 && len % 4096 == 0 && decide (0 < len) && inSpace base len && bale % 64 == 0 && inSpace bale 64 &&
    (homeOf bale == .gddr || homeOf bale == .host) && cpl % 8 == 0 && inSpace cpl 8

/-- The words that a block's reading finds: a word that changed while the block was read is the old one or the new one (R7, R467). -/
def readBoth (ctr : Nat) (old new : List (BitVec 32 × Bool)) : List (BitVec 32 × Bool) :=
  ((old.zip new).zipIdx).map (fun q => if (Config.freeByte ctr q.2).getLsbD 0 then q.1.1 else q.1.2)

/-- Whether a command has done its last block, or has found no room for its bale. -/
def BaleRun.finished (r : BaleRun) : Bool := r.failed || r.block == r.len / 4096

/-- Its token (R463). -/
def BaleRun.token (r : BaleRun) : X64 := if r.failed then Sys2Proof.Machine.token 11 0 else Sys2Proof.Machine.token 0 r.off

/-- A step of a checkpoint: a block's reading begins, or ends and the block is written (R464, R465, R467). -/
def State.coverBlock (s : State) (r : BaleRun) : State × BaleRun :=
  let now := s.baleWords (r.base + 4096 * r.block)
  match r.old with
  | none => (s, { r with old := some now })
  | some o =>
    let out := blockFrom r.block (readBoth s.freeCtr o now)
    if inSpace (r.bale + r.off) out.length && homeOf (r.bale + r.off + out.length - 1) == homeOf r.bale then
      ((s.viaStore (cellsAt (r.bale + r.off) out) []).bump, { r with block := r.block + 1, off := r.off + out.length, old := none })
    else (s.bump, { r with failed := true, old := none })

/-- A step of a restore: the next block is decoded and written; a bad one is poisoned whole and counted (R466). -/
def State.restoreBlock (s : State) (r : BaleRun) : State × BaleRun :=
  let at_ := r.bale + r.off
  let head := s.viaNum at_ 8
  let n := bitsAt head 44 32
  let bs := decodeBale (bitsAt head 46 45) (s.viaBytes (at_ + 8) n)
  let bad := bitsAt head 47 47 == 1 || decide (1 < bitsAt head 46 45) || bitsAt head 63 48 != r.block % 2 ^ 16 ||
    (crc32c bs).toNat != head % 2 ^ 32
  let dst := r.base + 4096 * r.block
  let t := if inSpace dst 4096 then s.viaStore (cellsAt dst bs) (if bad then span dst 4096 else []) else s
  let t := if bad then t.mapDev (fun d => d.countErr 4) else t
  (t, { r with block := r.block + 1, off := r.off + 8 + (n + 7) / 8 * 8 })

/-- A step of a die's baler. -/
def State.baleStep (die : Nat) (s : State) : State :=
  match (s.dev.baler die).running with
  | some r =>
    if r.finished then s
    else
      let q := if r.dir then s.restoreBlock r else s.coverBlock r
      q.1.mapDev (fun d => d.setBaler die (fun b => { b with running := some q.2 }))
  | none => s

def State.baleSteps : Nat → Nat → State → State
  | 0, _, s => s
  | n + 1, die, s => State.baleSteps n die (State.baleStep die s)

/-- A checkpoint of a range of `len` bytes fits its bale as memory stands. -/
def State.baleFits (s : State) (base len bale : Nat) : Bool :=
  let n := (s.baleOf base len).length
  inSpace bale n && homeOf (bale + n - 1) == homeOf bale

/-- Whether a bale's header agrees with a restore's command (R466). -/
def State.headAgrees (s : State) (len bale : Nat) : Bool :=
  s.viaNum bale 4 == 0x4C424654 && s.viaNum (bale + 4) 4 == 1 && s.viaNum (bale + 24) 8 == len / 4096

/-- GO of die `die` in a direction: ignored while a command runs; a command that is not in order ends with ABORT and writes nothing else.
A checkpoint begins with its header. -/
def State.balerGo (s : State) (die : Nat) (dir : Bool) : State :=
  let b := s.dev.baler die
  let base := b.rbase.toNat
  let len := b.rlen.toNat
  let bale := b.bale.toNat
  if 2 ≤ die ∨ b.running.isSome then s
  else
    let t := s.mapDev (fun d => d.setBaler die (fun b => { b with dir := dir }))
    if !balerGood base len bale b.cpl.toNat then t.balerToken b.cpl.toNat (token 11 0)
    else
      let run : BaleRun :=
        { cpl := b.cpl, dir := dir, base := if dir then s.viaNum (bale + 16) 8 else base, len := len, bale := bale, block := 0, off := 64,
          old := none, failed := if dir then !s.headAgrees len bale else !s.baleFits base len bale }
      let u := if dir || run.failed then t
        else t.viaStore (cellsAt bale (baleHeader s.dev.ident.gen s.dev.ident.serial base (len / 4096))) []
      u.mapDev (fun d => d.setBaler die (fun b => { b with running := some run }))

/-- BALE_CHECKPOINT. -/
def execBaleCheckpoint (die : Nat) (s : State) : Out := .next (s.balerGo die false)

/-- BALE_RESTORE. -/
def execBaleRestore (die : Nat) (s : State) : Out := .next (s.balerGo die true)

/-- BALER_COMPLETE: the token of a command that is done is written at its completion address. -/
def execBalerComplete (die : Nat) (s : State) : Out :=
  match (s.dev.baler die).running with
  | some r =>
    if r.finished then
      .next ((s.balerToken r.cpl.toNat r.token).mapDev (fun d => d.setBaler die (fun b => { b with running := none })))
    else .next s
  | none => .next s

end Sys2Proof.Machine
end

