-- ==== Sys2Proof/Machine/EvOwner.lean ====
section
/-! DEFINITION. The owner runtime's registers (R477 to R482, R397, R448, R458, R460, R478) and quiescing (R468). -/

namespace Sys2Proof.Machine

/-! ### Device registers -/

/-- ERR_COUNTER_WRITE: any value clears the counter. -/
def execErrCounterWrite (e : Nat) (s : State) : Out := .next (s.mapDev (fun d => { d with errors := vset d.errors e 0 }))

/-- INDOM_WRITE: INDEX is written only while INDOM = 0, and governs while INDOM = 1; a change sends every core to its list at its
next pickup. -/
def execIndomWrite (value : X64) (s : State) : Out :=
  let v := value.toNat
  let i := s.dev.ident
  let reg := if i.indom then i.indexReg else bitsAt v 5 0
  let on := bitsAt v 8 8 == 1
  let t := s.mapDev (fun d => { d with ident := { d.ident with indom := on, indexReg := reg, index := if on then reg else 0 } })
  .next (if on = i.indom then t else t.mapCore (fun c => { c with tableOf := none }))

/-- Whether a value lies in a range. -/
def within (lo hi v : Nat) : Bool := decide (lo ≤ v) && decide (v ≤ hi)

/-- PWRLIM (R458). -/
def Settings.writePwrlim (q : Settings) (v : Nat) : Settings :=
  if within 900 1600 (bitsAt v 10 0) && decide (1 ≤ bitsAt v 18 16) then
    { q with limit := bitsAt v 10 0, pblvl := bitsAt v 18 16, ownlvl := bitsAt v 26 24 }
  else q

/-- SLICE and QUANT of a class (R194). -/
def Settings.writeClass (q : Settings) (c v : Nat) : Settings :=
  if within 4096 (2 ^ 26) (bitsAt v 58 32) && within 1024 (2 ^ 24) (bitsAt v 24 0) then
    { q with slice := vset q.slice c (bitsAt v 58 32), quant := vset q.quant c (bitsAt v 24 0) }
  else q

/-- A write of a setting, by offset; RAMPT is brought into its range (R460), and a value outside another's is ignored. -/
def Settings.write (q : Settings) (off v : Nat) : Settings :=
  let keep := fun (lo hi x : Nat) (r : Settings) => if within lo hi x then r else q
  match off with
  | 0x10 => q.writePwrlim v
  | 0x18 => { q with rampt := min (max (bitsAt v 14 0) 525) 21000 }
  | 0x20 => keep 1050 (2 ^ 32) (bitsAt v 31 0) { q with qpwdog := bitsAt v 31 0 }
  | 0x28 => keep 100 100000 (bitsAt v 16 0) { q with lostto := bitsAt v 16 0 }
  | 0x30 => keep 256 (2 ^ 20) (bitsAt v 20 0) { q with waitq := bitsAt v 20 0 }
  | 0x38 => keep 10 10000 (bitsAt v 13 0) { q with winto := bitsAt v 13 0 }
  | 0x40 => q.writeClass 0 v
  | 0x48 => q.writeClass 1 v
  | 0x50 => q.writeClass 2 v
  | 0x58 => q.writeClass 3 v
  | _ => q

/-- An entry of the serial-to-index map, written only while INDOM = 0; the device of a newly written entry is a member again. Its
generation has moved on by the `n` cold starts it has had since it was last noted, of which a lost device has had at least one (R202,
R389; logs 19, 39). -/
def Ident.writeMap (i : Ident) (k v n : Nat) : Ident :=
  if i.indom then i
  else
    let rest := i.map.filter (fun m => m.1 != k)
    let sn := bitsAt v 39 0
    if bitsAt v 63 63 = 1 then
      let gen := i.genOf sn + (if i.lostSerials.contains sn || !i.gens.any (fun g => g.1 == sn) then 1 + n else n)
      { i with map := (k, sn) :: rest, lost := i.lost.filter (fun d => d != k), lostSerials := i.lostSerials.filter (fun m => m != sn),
               gens := (sn, gen) :: i.gens.filter (fun g => g.1 != sn) }
    else { i with map := rest, lost := i.lost.filter (fun d => d != k) }

/-- The bits of a route's words that hold (R479). -/
def routeMask (w : Nat) : X64 :=
  match w with
  | 0 => 0xBFFFFFFFFFFFFFFF
  | 1 => 0x000003FF00FFFFFF
  | _ => 0

/-- A word of a route; an RTO out of range is ignored whole. -/
def Dev.writeRoute (d : Dev) (r w : Nat) (v : X64) : Dev :=
  if w = 1 && !within 10 10000 (bitsAt v.toNat 23 0) then d
  else d.writeEntry (0x2000 + 32 * r) w (v &&& routeMask w)

/-- A baler's register (R480); GO starts a command, unless one runs. -/
def State.writeBaler (s : State) (die reg : Nat) (v : X64) : State :=
  let field := v &&& 0x00003FFFFFFFF000
  let set := fun (f : Baler → Baler) => s.mapDev (fun d => d.setBaler die f)
  match reg with
  | 0 => set (fun b => { b with rbase := field })
  | 1 => set (fun b => { b with rlen := field })
  | 2 => set (fun b => { b with bale := v })
  | 3 => set (fun b => { b with cpl := v })
  | 4 =>
    let t := set (fun b => { b with dir := v.getLsbD 1 })
    if v.getLsbD 0 then t.balerGo die (v.getLsbD 1) else t
  | _ => s

/-! ### Tenant pages -/

/-- QBASE and QSIZE; QSIZE is written only while EN = 0. -/
def Page.writeQueue (p : Page) (v : X64) : Page :=
  let n := bitsAt v.toNat 4 0
  let q := { p with qbase := v &&& 0x00FFFFFFFFFFFF00 }
  if p.en then q else if within 4 16 n then { q with qsize := n } else p

/-- A tenant page's registers with no row of their own, by offset. -/
def Page.write (p : Page) (off : Nat) (v : X64) : Page :=
  match off with
  | 0x00 => p.writeQueue v
  | 0x08 => { p with errint := v.getLsbD 2, inten := v.getLsbD 1, en := v.getLsbD 0 }
  | 0x20 => { p with wbase := v }
  | 0x30 => { p with trbase := v &&& 0x00FFFFFFFFFFFFC0, trq := bitsAt v.toNat 3 0 }
  | 0x48 => { p with mapbase := v &&& 0x00FFFFFFFFFFF800 }
  | 0x50 => { p with weight := BitVec.ofNat 32 (bitsAt v.toNat 31 0) }
  | _ => p

/-- What a new weight does to the scheduler (R195): a tenant that gains weight in a class enters it with a deficit of 0, and a class
where no tenant had weight starts there. -/
def Dev.gainWeight (d : Dev) (old : BitVec 32) (t : Nat) : Dev :=
  [0, 1, 2, 3].foldl (fun (d : Dev) c =>
    if bitsAt old.toNat (8 * c + 7) (8 * c) = 0 && d.weightOf t c != 0 then
      let q := d.sched.setDeficit c t 0
      { d with sched := if d.weighted c = [t] then { q with rr := vset q.rr c (some t) } else q }
    else d) d

/-- A write into a tenant page; after one of MAPBASE the next pickup of a strand of the tenant walks its list (R482). -/
def State.writePage (s : State) (t off : Nat) (v : X64) : State :=
  (if off = 0x48 && s.core.tableOf == some t then s.mapCore (fun c => { c with tableLaunch := none }) else s).mapDev (fun d =>
    let old := (d.page t).weight
    let d := d.mapPage t (fun p => p.write off v)
    if off = 0x50 then d.gainWeight old t else d)

/-- A write through a virtual function, whose BAR0 is its own tenant page: the fields marked PF are read-only there (R396, R397). -/
def State.writeOwnPage (s : State) (t off : Nat) (v : X64) : Out :=
  if off = 0x10 then execTailWrite ⟨t, false⟩ (BitVec.ofNat 32 (bitsAt v.toNat 31 0)) s
  else if off = 0x08 then .next (s.mapDev (fun d => d.mapPage t (fun p => { p with errint := v.getLsbD 2, inten := v.getLsbD 1 })))
  else .next s

/-- REGISTER_WRITE at a BAR0 offset of a function, the physical one being 0: an aligned write of 8 bytes; a read-only or reserved place
keeps what it holds. A write of LOSTTO begins the silence that it measures, and a device of the map is heard of from its entry's write on
(R389, R482). -/
def execRegisterWrite (p : RegPlace) (value : X64) (s : State) : Out :=
  let off := p.off
  if off % 8 ≠ 0 then .next s
  else if p.fn ≠ 0 then s.writeOwnPage p.fn off value
  else if 0x1000000 ≤ off ∧ off < 0x1400000 then
    let t := (off - 0x1000000) / 0x10000
    let o := off % 0x10000
    if o = 0x10 then execTailWrite ⟨t, false⟩ (BitVec.ofNat 32 (bitsAt value.toNat 31 0)) s else .next (s.writePage t o value)
  else if off = 0x8 then execIndomWrite value s
  else if off = 0x18 then
    .next ((s.mapCore (fun c => { c with mx := c.mx.retime c.now s.dev.set.rampt s.mmaWaits })).mapDev (fun d =>
      { d with set := d.set.write off value.toNat }))
  else if 0x800000 ≤ off ∧ off < 0x1000000 then execBinWindowAccess (off - 0x800000) 8 (some value) s
  else if off = 0x28 then
    .next (s.mapDev (fun d => { d with set := d.set.write off value.toNat, links := { d.links with losttoAt := s.core.now } }))
  else if off < 0x60 then .next (s.mapDev (fun d => { d with set := d.set.write off value.toNat }))
  else if 0x1000 ≤ off ∧ off < 0x1200 then
    let n := Config.coldStarts s.freeCtr (bitsAt value.toNat 39 0)
    let t := s.mapDev (fun d => { d with ident := d.ident.writeMap ((off - 0x1000) / 8) value.toNat n })
    let u := if s.dev.ident.indom then t else t.mapDev (fun d => d.setBlockWord off (value &&& 0x800000FFFFFFFFFF))
    .next (u.hear ((off - 0x1000) / 8)).bump
  else if 0x2000 ≤ off ∧ off < 0x8000 then
    .next (s.mapDev (fun d => d.writeRoute ((off - 0x2000) / 32) (off % 32 / 8) value))
  else if 0x8000 ≤ off ∧ off < 0x8800 then execHookWrite ((off - 0x8000) / 32) (off % 32 / 8) value s
  else if 0x8800 ≤ off ∧ off < 0x8880 then .next (s.writeBaler ((off - 0x8800) / 0x40) (off % 0x40 / 8) value)
  else if 0x9000 ≤ off ∧ off < 0x9030 then execErrCounterWrite ((off - 0x9000) / 8) s
  else .next s

/-! ### Quiescing (R468) -/

/-- Every strand of an index list is parked. -/
def State.parkAll : List Nat → State → State
  | [], s => s
  | k :: ks, s =>
    match execPark k s with
    | .next t => State.parkAll ks t
    | _ => s

/-- QUIESCE: every tenant is parked, and the running core is pre-empted. Until an UNPARK no strand is placed or picked up; the tokens of
released engine commands come before the owner runtime's next baler command (`State.holdsGo`; log 72). -/
def execQuiesce (s : State) : Out :=
  .next ((State.parkAll (List.range s.dev.strands.length) s).mapDev (fun d => { d with quiesced := true }))

end Sys2Proof.Machine
end

