-- ==== Sys2Proof/Machine/EvService.lean ====
section
/-! DEFINITION. Live service and fencing (R469, R470), tenants (R204, R390), SPDM (R473), and the WRSR writes with a row of their
own (R200, R333, R375). -/

namespace Sys2Proof.Machine

/-! ### Live service (R469) -/

def State.mapLinks (s : State) (f : Links → Links) : State := s.mapDev (fun d => { d with links := f d.links })

/-- FIRMWARE_UPDATE: a foreman image that passes the boot ROM's checks runs on one die; another leaves the old one running. -/
def execFirmwareUpdate (die : Nat) (img : FwImage) (s : State) : Out :=
  if die < 2 && img.kind == .foreman && s.dev.fw.accepts img then .next (s.mapDev (fun d => { d with fw := d.fw.store die img }))
  else .next s

/-- PORT_RETRAIN. -/
def execPortRetrain (port : Nat) (s : State) : Out :=
  if port < 8 && !s.dev.links.retraining.contains port then
    .next (s.mapLinks (fun l => { l with retraining := l.retraining ++ [port] }))
  else .next s

/-- PORT_RETRAIN_DONE: the port carries traffic again. -/
def execPortRetrainDone (port : Nat) (s : State) : Out :=
  if s.dev.links.retraining.contains port then
    .next (s.mapLinks (fun l => { l with
      retraining := l.retraining.filter (fun p => p != port), down := l.down.filter (fun p => p != port) }))
  else .next s

/-- CHANNEL_GROUP_RETRAIN: the group is out of service. -/
def execChannelGroupRetrain (g : Nat) (s : State) : Out :=
  if g < 6 && !s.dev.links.groupsOut.contains g then .next (s.mapLinks (fun l => { l with groupsOut := l.groupsOut ++ [g] }))
  else .next s

/-- CHANNEL_GROUP_RETRAIN_DONE. -/
def execChannelGroupRetrainDone (g : Nat) (s : State) : Out :=
  .next (s.mapLinks (fun l => { l with groupsOut := l.groupsOut.filter (fun x => x != g) }))

/-- SENSOR_RECALIBRATION. -/
def execSensorRecalibration (die : Nat) (s : State) : Out :=
  if die < 2 && !s.dev.power.sensorHeld.contains die then
    .next (s.mapDev (fun d => { d with power := { d.power with sensorHeld := d.power.sensorHeld ++ [die] } }))
  else .next s

/-- SENSOR_RECALIBRATION_DONE. -/
def execSensorRecalibrationDone (die : Nat) (s : State) : Out :=
  .next (s.mapDev (fun d => { d with power := { d.power with sensorHeld := d.power.sensorHeld.filter (fun x => x != die) } }))

/-! ### Fencing (R470) -/

/-- CLUSTER_FENCING: nothing more is placed on the cluster. -/
def execClusterFencing (c : Nat) (s : State) : Out :=
  if c < 32 && !s.dev.links.fencing.contains c && !s.dev.links.fenced.contains c then
    .next (s.mapLinks (fun l => { l with fencing := l.fencing ++ [c] }))
  else .next s

/-- The strands of a cluster that are left at the deadline. -/
def Dev.strandsOn (d : Dev) (c : Nat) : List Nat :=
  (d.strands.zipIdx.filter (fun q => q.1.cluster == c && (q.1.state == .runnable || q.1.state == .waiting ||
    q.1.state == .running))).map (·.2)

/-- Notes which strands a fence has parked. -/
def State.noteFence (s : State) (ks : List Nat) : State :=
  s.mapDev (fun d => ks.foldl (fun (d : Dev) k => d.setStrand k (fun t => { t with byFence := t.state == .parked })) d)

/-- The claims homed on a cluster: this module's chutes and ricks, whatever index it had when it named them (R477). -/
def Dev.homedOn (d : Dev) (c : Nat) : List ClaimName :=
  (d.claims.filter (fun q => d.ownClaim q && q.state == .live && (q.ty == .chute || q.ty == .rick) && bitsAt q.home 11 7 == c)).map (·.name)

/-- FENCE_DEADLINE: the strands left are parked, the cluster's claims retired, and the cluster is powered down. -/
def execFenceDeadline (c : Nat) (s : State) : Out :=
  if s.dev.links.fencing.contains c then
    let ks := s.dev.strandsOn c
    let t := (State.parkAll ks s).noteFence ks
    let u := (s.dev.homedOn c).foldl (fun (t : State) nm => (t.recall nm none).tryEnd nm) t
    .next (u.mapLinks (fun l => { l with fencing := l.fencing.filter (fun x => x != c), fenced := l.fenced ++ [c] }))
  else .next s

/-- CLUSTER_UNFENCE: the strands that the fence has parked may run again. -/
def execClusterUnfence (c : Nat) (s : State) : Out :=
  let ks := (s.dev.strands.zipIdx.filter (fun q => q.1.cluster == c && q.1.byFence && q.1.state == .parked)).map (·.2)
  let t := ks.foldl (fun (t : State) k => match execUnpark k t with
    | .next u => u
    | _ => t) s
  .next (t.mapLinks (fun l => { l with fencing := l.fencing.filter (fun x => x != c), fenced := l.fenced.filter (fun x => x != c) }))

/-! ### Tenants -/

/-- A tenant's link queues are empty, with 64 credits each (R390). -/
def Links.clearTenant (l : Links) (t : Nat) : Links :=
  { l with queues := l.queues.filter (fun q => q.tenant != t), routes := l.routes.map (fun r => { r with frags := r.frags.filter (fun f => f.tenant != t) }) }

/-- TENANT_CREATE. -/
def execTenantCreate (t : Nat) (s : State) : Out :=
  if t < 64 && !(s.dev.page t).active then
    let u := if s.core.tableOf = some t then s.mapCore (fun c => { c with tableLaunch := none }) else s
    .next (u.mapDev (fun d => { (d.setPage t { Page.reset with active := true }) with links := d.links.clearTenant t }))
  else .next s

/-- TENANT_REMOVE: every claim that the tenant owns is retired. -/
def execTenantRemove (t : Nat) (s : State) : Out :=
  if t = 0 || !(s.dev.page t).active then .next s
  else
    let mine := (s.dev.claims.filter (fun c => c.owner == t && c.state == .live)).map (·.name)
    let u := mine.foldl (fun (u : State) nm => (u.recall nm none).tryEnd nm) s
    .next (u.mapDev (fun d => { (d.setPage t Page.reset) with links := d.links.clearTenant t }))

/-! ### SPDM (R473) -/

def State.answerSpdm (s : State) (r : Spdm) : State := s.mapDev (fun d => { d with fw := { d.fw with response := r } })

/-- GET_VERSION. -/
def execGetVersion (s : State) : Out := .next (s.answerSpdm .version)

/-- GET_CAPABILITIES. -/
def execGetCapabilities (s : State) : Out := .next (s.answerSpdm .capabilities)

/-- NEGOTIATE_ALGORITHMS: the answer is SM2 and SM3, whatever is asked. -/
def execNegotiateAlgorithms (_ _ : Nat) (s : State) : Out := .next (s.answerSpdm .algorithms)

/-- GET_DIGESTS. -/
def execGetDigests (s : State) : Out := .next (s.answerSpdm (.digests (Config.sm3 Config.certChain)))

/-- GET_CERTIFICATE. -/
def execGetCertificate (off len : Nat) (s : State) : Out := .next (s.answerSpdm (.certificate ((Config.certChain.drop off).take len)))

/-- CHALLENGE. -/
def execChallenge (nonce : List Byte) (s : State) : Out := .next (s.answerSpdm (.challengeAuth (Config.sm2Sign nonce)))

/-- Kernels in the order of their names. -/
def insertKernel (k : Kernel) : List Kernel → List Kernel
  | [] => [k]
  | q :: t => if k.name.toNat < q.name.toNat then k :: q :: t else q :: insertKernel k t

def sortKernels (ks : List Kernel) : List Kernel := ks.foldr insertKernel []

/-- An SM3 digest as bytes. -/
def digestBytesOf (bs : List Byte) : List Byte := (bytesOfNat 32 (Config.sm3 bs).toNat).reverse

/-- Measurement `i` of the table of R473. -/
def Dev.measurement (d : Dev) (i : Nat) : List Byte :=
  match i with
  | 1 => digestBytesOf Config.bootRom
  | 2 => digestBytesOf (d.fw.image .foreman 0).bytes
  | 3 => digestBytesOf (d.fw.image .foreman 1).bytes
  | 4 => digestBytesOf ((d.fw.image .switch 0).bytes ++ (d.fw.image .baler 0).bytes ++ (d.fw.image .power 0).bytes)
  | 5 => bytesOfNat 8 d.fw.minVersion ++ Config.fusedConfig
  | _ => digestBytesOf ((sortKernels d.kernels).map Kernel.image).flatten

/-- GET_MEASUREMENTS: one measurement or, for another index, all six, signed with the nonce. -/
def execGetMeasurements (index : Nat) (nonce : List Byte) (s : State) : Out :=
  let is := if 1 ≤ index ∧ index ≤ 6 then [index] else [1, 2, 3, 4, 5, 6]
  let bs := is.map (fun i => (i, s.dev.measurement i))
  .next (s.answerSpdm (.measurements bs (Config.sm2Sign ((bs.map (·.2)).flatten ++ nonce))))

/-- KEY_EXCHANGE: ERROR UnsupportedRequest. -/
def execKeyExchange (s : State) : Out := .next (s.answerSpdm .unsupported)

/-! ### WRSR writes with a row of their own -/

/-- CHST_WRITE. -/
def execChstWrite (value : X64) (s : State) : Out := if s.core.running.isSome then .next (s.writeChst value) else .next s

/-- A write of ERRINJ by the running strand, with the TARGET that its row names and its checks passed. -/
def State.errinjWrite (s : State) (target : Nat) (value : X64) : State :=
  if s.core.running.isSome && value.toNat % 16 == target && s.chkErrinj value == .ok then s.writeErrinj value else s

/-- ERRINJ_RICK_STREAM (R333). -/
def execErrinjRickStream (value : X64) (s : State) : Out := .next (s.errinjWrite 1 value)

/-- ERRINJ_POISON_LOAD (R375). -/
def execErrinjPoisonLoad (value : X64) (s : State) : Out := .next (s.errinjWrite 2 value)

/-- ERRINJ_CORRECTED (R375). -/
def execErrinjCorrected (value : X64) (s : State) : Out := .next (s.errinjWrite 3 value)

end Sys2Proof.Machine
end

