-- ==== Sys2Proof/Machine/Cycle.lean ====
section
/-! DEFINITION. What happens next (log 5): the order of events and of the core's bundles, over any meaning `ex` of the
instructions. -/

namespace Sys2Proof.Machine

/-! ### The machine's own events

Each is an event of the table that is enabled and that changes something: what its meaning answers. The core's turn comes when
none is left. -/

/-- The event of the first element of a list that a test holds of. -/
def eventAt {α : Type} (l : List α) (p : α → Bool) (e : Nat → Out) : Option Out :=
  let k := l.findIdx p
  if k < l.length then some (e k) else none

/-- An event where a condition holds. -/
def eventIf (c : Bool) (e : Unit → Out) : Option Out := if c then some (e ()) else none

/-- Streams, far accesses and engines. -/
def State.memoryEvent (s : State) : Option Out :=
  ((List.range 8).findSome? (fun q => (eventIf (s.fetchReady q) (fun _ => execStreamFetch (BitVec.ofNat 3 q) s)).orElse
    (fun _ => eventIf (s.writebackReady q) (fun _ => execStreamWriteback (BitVec.ofNat 3 q) s)))).orElse fun _ =>
  (eventAt s.core.loadParts s.loadReady (fun k => execFarLoadReturn k s)).orElse fun _ =>
  (eventAt s.core.fars (fun f => f.atom.isNone && s.farReady f) (fun k => execFarStorePerformed k s)).orElse fun _ =>
  (eventAt s.core.fars (fun f => f.atom.isSome && s.farReady f) (fun k => execAtomicPerformed k s)).orElse fun _ =>
  (eventAt s.core.engs s.engineGoes (fun k => execEngineTokenWrite k s)).orElse fun _ =>
  eventAt s.core.engs s.rickReady (fun k => execRickEngineApply k s)

/-- Recalls, window and retransmit timeouts, chute copies, the array and balers. -/
def State.unitEvent (s : State) : Option Out :=
  (s.dev.claims.findSome? (fun c =>
    if c.state != .retiring then none
    else if s.handled c.name then some (execClaimShootDown c.name s)
    else if c.holders.contains ownCache || (c.token.isNone && s.recallDone c) then some (execRecallAck c.name ownCache s)
    else none)).orElse fun _ =>
  ([0, 1].findSome? (fun die => eventIf (!(s.timedOut die).isEmpty) (fun _ => execWindowTimeout die s))).orElse fun _ =>
  (eventIf (!s.dev.owedCopies.isEmpty) (fun _ => execChuteCommitLands 0 s)).orElse fun _ =>
  (eventIf s.retiring.isSome (fun _ => execMmaRetire s)).orElse fun _ =>
  ((s.dev.links.unacked.find? (fun u => u.overdue s.core.now)).map (fun u => execRetransmitTimeout u.tenant u.route s)).orElse fun _ =>
  ((s.dev.rounds.find? (fun r => r.timedOut s.core.now)).map (fun r => execRoundTimeout ⟨r.tenant, r.record.key⟩ s)).orElse fun _ =>
  (eventIf s.toStage.isSome (fun _ => execColStagingDone s)).orElse fun _ =>
  (eventAt s.dev.balers.toList (fun b => b.running.any BaleRun.finished) (fun k => execBalerComplete k s)).orElse fun _ =>
  eventIf (s.dev.migrations.any (fun m => decide (256 * m.moved < m.len))) (fun _ => execLineCopy s)

/-- Strands, blocks and the scheduler. -/
def State.strandEvent (s : State) : Option Out :=
  (s.toKill.map (fun k => execKill k s)).orElse fun _ =>
  (eventIf s.endingStrand.isSome (fun _ => execStrandEnd s)).orElse fun _ =>
  (eventIf (s.core.running.isSome && s.core.iss.halted) (fun _ => execContextSave s)).orElse fun _ =>
  (eventIf s.ackIdle (fun _ => execShootDownAck s)).orElse fun _ =>
  (eventIf s.watchdogDue (fun _ => execQpwdogExpiry s)).orElse fun _ =>
  ((List.range s.dev.strands.length).find? s.wakes |>.map (fun k => execWaitEventOccurred k s)).orElse fun _ =>
  ((List.range 64).find? (fun t => (s.dev.page t).hasBlock) |>.map (fun k => execBlockRead k s)).orElse fun _ =>
  ((List.range s.dev.blocks.length).find? s.dev.mayPlace |>.map (fun k => execSheafRelease k s)).orElse fun _ =>
  ((List.range s.dev.blocks.length).find? s.blockDone |>.map (fun k => execBlockComplete k s)).orElse fun _ =>
  (eventIf s.classDue (fun _ => execClassPreemption s)).orElse fun _ =>
  (eventIf s.sliceEnds (fun _ => execSliceExpiry s)).orElse fun _ =>
  (eventIf s.descheduleEnds (fun _ => execDeschedule s)).orElse fun _ =>
  eventIf s.mayPick (fun _ => execPickup s)

/-- A line of code that the next bundle misses. -/
def State.missEvent (s : State) : Option Out :=
  if s.core.running.isSome && s.core.iss.mayDispatch then
    match s.fetch with
    | .miss _ => some (execIcacheFill s)
    | _ => none
  else none

/-- An enabled event of the machine itself, if there is one. -/
def State.internal (s : State) : Option Out :=
  s.memoryEvent.orElse fun _ => s.unitEvent.orElse fun _ => s.strandEvent.orElse fun _ => s.missEvent

/-- Some of the pieces of a host write are performed before this step's other accesses: at least the first of those left, how many
more a free value says (R260). -/
def State.landSome (s : State) : State :=
  if s.dev.pieces.isEmpty then s
  else
    let n := 1 + (Config.freeByte s.freeCtr 2).toNat
    (((s.dev.pieces.take n).foldl (fun (t : State) p => t.plainStore p) s).mapDev (fun d =>
      { d with pieces := s.dev.pieces.drop n })).bump

/-- Redirected messages that wait for room at another device: a free value says how many find it now (R427). -/
def State.sendSome (s : State) : State :=
  if s.dev.links.waiting.isEmpty then s
  else (s.mapDev (fun d => { d with links := d.links.goOn (Config.freeByte s.freeCtr 3).toNat })).bump

/-- Balers at work: each reads and writes as many blocks as a free value says (R467). -/
def State.baleSome (s : State) : State :=
  if s.dev.balers.toList.all (fun b => b.running.isNone) then s
  else (([0, 1].foldl (fun (t : State) die => State.baleSteps (Config.freeByte s.freeCtr (10 + die)).toNat die t) s)).bump

def State.arrive (s : State) : State := s.landSome.sendSome

/-- Ballast with no strand on the core is charged to the launch of the strand that issued the last MMA (R161, R461). -/
def State.chargeBallast (s : State) : State :=
  match s.core.mx.launch with
  | some b =>
    if decide (s.core.mx.feedUntil ≤ s.core.now) && decide (0 < s.duty) then
      s.mapDev (fun d => d.setBlock b (fun b => { b with
        energy := b.energy + Config.measuredEnergy s.freeCtr, ballast := b.ballast + Config.measuredEnergy s.freeCtr }))
    else s
  | none => s

/-- A cycle with no strand on the core. -/
def State.idle (s : State) : State := (s.chargeBallast.mapCore (fun c => { c with now := c.now + 1 })).bump

/-- Part of the outside's events that a quiesced module's owner runtime holds back: its baler commands, a GO in a baler's register among them
(R480), wait until the engine commands released before have written their tokens (R468). -/
def State.holdsGo (s : State) (i : Instr) : Bool :=
  s.dev.quiesced && (!s.core.engs.isEmpty || !s.dev.rounds.isEmpty) && (match i with
    | .baleCheckpoint _ | .baleRestore _ => true
    | .registerWrite p v => p.fn == 0 && (p.off == 0x8820 || p.off == 0x8860) && v.getLsbD 0
    | _ => false)

/-- The next event of the outside, and those left. -/
def State.nextEvent (s : State) : Option (Instr × List Instr) :=
  (s.agenda.find? (fun i => !s.holdsGo i)).map (fun i => (i, s.agenda.erase i))

/-- The core's turn: a cycle in which it dispatches the next bundle where it may, and each slot issues the op it has reached, by `ex`
(R22). A trap taken at dispatch ends the turn. -/
def coreCycle (ex : Instr → State → Out) (s : State) : Out :=
  if s.core.running.isNone then .next s.idle
  else if s.core.iss.absent then .next s.waitTurn
  else
    match (if s.core.iss.mayDispatch then ex .bundleDispatch s else .next s) with
    | .next t =>
      if t.core.running != s.core.running || t.core.iss.bundle != s.core.iss.bundle then .next t
      else runHeads ex t.core.iss.heads t
    | o => o

/-! ### The outside (log 5) -/

/-- The events that recovery answers (R471), power events apart. -/
def inRecovery (i : Instr) : Bool :=
  match i with
  | .getVersion | .getCapabilities | .negotiateAlgorithms _ _ | .getDigests | .getCertificate _ _ | .challenge _
  | .getMeasurements _ _ | .keyExchange | .recoveryImageAccept _ => true
  | _ => false

/-- Whether an event of the outside has an effect now: with no power only a cold start, in recovery those that recovery
answers. -/
def State.admits (s : State) (i : Instr) : Bool :=
  match i with
  | .coldStart _ => true
  | .powerDown | .overtempPowerOff _ => s.dev.ident.powered
  | i => s.dev.ident.powered && (!s.dev.ident.recovery || inRecovery i)

/-- Which of the module's threshers goes on: invocations of different bindings interleave freely (R425, R451). -/
def State.turnThr (s : State) : State :=
  if s.threshers.isEmpty then s
  else
    let all := s.thr.toList ++ s.threshers
    let k := Config.freePick s.freeCtr all.length % all.length
    { s with thr := all[k]?, threshers := all.eraseIdx k, freeCtr := s.freeCtr + 1 }

/-- A step of the threshers: the next word of the invocation that runs; an invocation that is to begin does so first. -/
def thrTurn (ex : Instr → State → Out) (v : Invocation) (s : State) : Out :=
  match s.agenda with
  | .thresherInvocation i :: t => ex (.thresherInvocation i) { s with agenda := t }
  | _ =>
    match v.fetch with
    | .ok i => ex i s
    | .error _ => .refused .illegalThresherWord

/-- One step: a thresher word of the invocation that runs, else the next event of the outside, else one of the machine's own,
else the core's turn. -/
def cycle (ex : Instr → State → Out) (s : State) : Out :=
  let s := s.turnThr
  match s.thr with
  | some v => thrTurn ex v s
  | none =>
    let s := s.baleSome
    match s.nextEvent with
    | some (i, t) =>
      let u := { s with agenda := t }
      if s.admits i then ex i u else .next u
    | none =>
      let s := s.arrive
      if !s.dev.ident.powered then .fault .poweredOff
      else if s.dev.ident.recovery then .next s.idle
      else
        match s.internal with
        | some o => o
        | none => coreCycle ex s

end Sys2Proof.Machine
end

