-- ==== Sys2Proof/Machine/Dispatch.lean ====
section
/-! DEFINITION. The dispatcher: one arm per constructor, one call of its meaning. -/

namespace Sys2Proof.Machine

/-- The meaning of an instruction at a state. -/
def exec (i : Instr) (s : State) : Host.Outcome State Fault Refusal :=
  match i with
  -- S slot (R96)
  | .add f => Sys2Proof.Machine.execAdd f s
  | .sub f => Sys2Proof.Machine.execSub f s
  | .mul f => Sys2Proof.Machine.execMul f s
  | .mulh f => Sys2Proof.Machine.execMulh f s
  | .mulhu f => Sys2Proof.Machine.execMulhu f s
  | .div f => Sys2Proof.Machine.execDiv f s
  | .divu f => Sys2Proof.Machine.execDivu f s
  | .rem f => Sys2Proof.Machine.execRem f s
  | .remu f => Sys2Proof.Machine.execRemu f s
  | .and f => Sys2Proof.Machine.execAnd f s
  | .or f => Sys2Proof.Machine.execOr f s
  | .xor f => Sys2Proof.Machine.execXor f s
  | .shl f => Sys2Proof.Machine.execShl f s
  | .shr f => Sys2Proof.Machine.execShr f s
  | .sra f => Sys2Proof.Machine.execSra f s
  | .rotr f => Sys2Proof.Machine.execRotr f s
  | .clz f => Sys2Proof.Machine.execClz f s
  | .popc f => Sys2Proof.Machine.execPopc f s
  | .min f => Sys2Proof.Machine.execMin f s
  | .max f => Sys2Proof.Machine.execMax f s
  | .minu f => Sys2Proof.Machine.execMinu f s
  | .maxu f => Sys2Proof.Machine.execMaxu f s
  | .cmp f => Sys2Proof.Machine.execCmp f s
  | .sel f => Sys2Proof.Machine.execSel f s
  | .extr f => Sys2Proof.Machine.execExtr f s
  | .insr f => Sys2Proof.Machine.execInsr f s
  | .addi f => Sys2Proof.Machine.execAddi f s
  | .andi f => Sys2Proof.Machine.execAndi f s
  | .ori f => Sys2Proof.Machine.execOri f s
  | .xori f => Sys2Proof.Machine.execXori f s
  | .shli f => Sys2Proof.Machine.execShli f s
  | .shri f => Sys2Proof.Machine.execShri f s
  | .srai f => Sys2Proof.Machine.execSrai f s
  | .movi f => Sys2Proof.Machine.execMovi f s
  | .movhi f => Sys2Proof.Machine.execMovhi f s
  | .fadd f => Sys2Proof.Machine.execFadd f s
  | .fsub f => Sys2Proof.Machine.execFsub f s
  | .fmul f => Sys2Proof.Machine.execFmul f s
  | .ffma f => Sys2Proof.Machine.execFfma f s
  | .fmin f => Sys2Proof.Machine.execFmin f s
  | .fmax f => Sys2Proof.Machine.execFmax f s
  | .fcmp f => Sys2Proof.Machine.execFcmp f s
  | .fcvt f => Sys2Proof.Machine.execFcvt f s
  | .br f => Sys2Proof.Machine.execBr f s
  | .bc f => Sys2Proof.Machine.execBc f s
  | .brl f => Sys2Proof.Machine.execBrl f s
  | .call f => Sys2Proof.Machine.execCall f s
  | .ret f => Sys2Proof.Machine.execRet f s
  | .jmpx f => Sys2Proof.Machine.execJmpx f s
  | .rep f => Sys2Proof.Machine.execRep f s
  | .loopb f => Sys2Proof.Machine.execLoopb f s
  -- VA and VB slots
  | .vadd f => Sys2Proof.Machine.execVadd f s
  | .vsub f => Sys2Proof.Machine.execVsub f s
  | .vadds f => Sys2Proof.Machine.execVadds f s
  | .vsubs f => Sys2Proof.Machine.execVsubs f s
  | .vmul f => Sys2Proof.Machine.execVmul f s
  | .vmulh f => Sys2Proof.Machine.execVmulh f s
  | .vmulw f => Sys2Proof.Machine.execVmulw f s
  | .vmacw f => Sys2Proof.Machine.execVmacw f s
  | .vfma f => Sys2Proof.Machine.execVfma f s
  | .vfms f => Sys2Proof.Machine.execVfms f s
  | .vneg f => Sys2Proof.Machine.execVneg f s
  | .vabs f => Sys2Proof.Machine.execVabs f s
  | .vmin f => Sys2Proof.Machine.execVmin f s
  | .vmax f => Sys2Proof.Machine.execVmax f s
  | .vand f => Sys2Proof.Machine.execVand f s
  | .vor f => Sys2Proof.Machine.execVor f s
  | .vxor f => Sys2Proof.Machine.execVxor f s
  | .vnot f => Sys2Proof.Machine.execVnot f s
  | .vshl f => Sys2Proof.Machine.execVshl f s
  | .vshr f => Sys2Proof.Machine.execVshr f s
  | .vsra f => Sys2Proof.Machine.execVsra f s
  | .vcmp f => Sys2Proof.Machine.execVcmp f s
  | .vsel f => Sys2Proof.Machine.execVsel f s
  | .vrcp f => Sys2Proof.Machine.execVrcp f s
  | .vrsq f => Sys2Proof.Machine.execVrsq f s
  | .vsqrt f => Sys2Proof.Machine.execVsqrt f s
  | .vexp2 f => Sys2Proof.Machine.execVexp2 f s
  | .vlog2 f => Sys2Proof.Machine.execVlog2 f s
  | .vcvt f => Sys2Proof.Machine.execVcvt f s
  | .vredadd f => Sys2Proof.Machine.execVredadd f s
  | .vredmax f => Sys2Proof.Machine.execVredmax f s
  | .vredmin f => Sys2Proof.Machine.execVredmin f s
  | .vbcast f => Sys2Proof.Machine.execVbcast f s
  | .vext f => Sys2Proof.Machine.execVext f s
  | .vins f => Sys2Proof.Machine.execVins f s
  | .vperm f => Sys2Proof.Machine.execVperm f s
  | .vslide f => Sys2Proof.Machine.execVslide f s
  | .viota f => Sys2Proof.Machine.execViota f s
  | .vmov f => Sys2Proof.Machine.execVmov f s
  | .vmovi f => Sys2Proof.Machine.execVmovi f s
  | .vpacksx f => Sys2Proof.Machine.execVpacksx f s
  | .vunpksx f => Sys2Proof.Machine.execVunpksx f s
  | .pand f => Sys2Proof.Machine.execPand f s
  | .por f => Sys2Proof.Machine.execPor f s
  | .pxor f => Sys2Proof.Machine.execPxor f s
  | .pnot f => Sys2Proof.Machine.execPnot f s
  | .plen f => Sys2Proof.Machine.execPlen f s
  | .pset f => Sys2Proof.Machine.execPset f s
  | .pcnt f => Sys2Proof.Machine.execPcnt f s
  | .pmov f => Sys2Proof.Machine.execPmov f s
  -- M slot
  | .mma f => Sys2Proof.Machine.execMma f s
  | .mzero f => Sys2Proof.Machine.execMzero f s
  | .mdrain f => Sys2Proof.Machine.execMdrain f s
  | .maccld f => Sys2Proof.Machine.execMaccld f s
  | .maccst f => Sys2Proof.Machine.execMaccst f s
  | .epld f => Sys2Proof.Machine.execEpld f s
  -- L and ST slots
  | .ld f => Sys2Proof.Machine.execLd f s
  | .fld f => Sys2Proof.Machine.execFld f s
  | .st f => Sys2Proof.Machine.execSt f s
  | .fst f => Sys2Proof.Machine.execFst f s
  | .vld f => Sys2Proof.Machine.execVld f s
  | .vfld f => Sys2Proof.Machine.execVfld f s
  | .vst f => Sys2Proof.Machine.execVst f s
  | .vfst f => Sys2Proof.Machine.execVfst f s
  | .vlds f => Sys2Proof.Machine.execVlds f s
  | .vldx f => Sys2Proof.Machine.execVldx f s
  | .vsts f => Sys2Proof.Machine.execVsts f s
  | .vstx f => Sys2Proof.Machine.execVstx f s
  | .lsfmt f => Sys2Proof.Machine.execLsfmt f s
  -- E slot
  | .copy f => Sys2Proof.Machine.execCopy f s
  | .strb f => Sys2Proof.Machine.execStrb f s
  | .pusht f => Sys2Proof.Machine.execPusht f s
  | .amo f => Sys2Proof.Machine.execAmo f s
  | .red f => Sys2Proof.Machine.execRed f s
  | .claim f => Sys2Proof.Machine.execClaim f s
  | .resolve f => Sys2Proof.Machine.execResolve f s
  | .casn f => Sys2Proof.Machine.execCasn f s
  | .copya f => Sys2Proof.Machine.execCopya f s
  | .stru f => Sys2Proof.Machine.execStru f s
  | .popt f => Sys2Proof.Machine.execPopt f s
  | .markr f => Sys2Proof.Machine.execMarkr f s
  | .splitr f => Sys2Proof.Machine.execSplitr f s
  | .joinr f => Sys2Proof.Machine.execJoinr f s
  | .rickq f => Sys2Proof.Machine.execRickq f s
  | .popq f => Sys2Proof.Machine.execPopq f s
  | .qclaim f => Sys2Proof.Machine.execQclaim f s
  | .retire f => Sys2Proof.Machine.execRetire f s
  | .chopen f => Sys2Proof.Machine.execChopen f s
  | .chcommit f => Sys2Proof.Machine.execChcommit f s
  | .send f => Sys2Proof.Machine.execSend f s
  | .recv f => Sys2Proof.Machine.execRecv f s
  | .coll f => Sys2Proof.Machine.execColl f s
  -- C slot
  | .ctl f => Sys2Proof.Machine.execCtl f s
  | .barg f => Sys2Proof.Machine.execBarg f s
  | .joing f => Sys2Proof.Machine.execJoing f s
  | .leaveg f => Sys2Proof.Machine.execLeaveg f s
  | .spawn f => Sys2Proof.Machine.execSpawn f s
  | .susp f => Sys2Proof.Machine.execSusp f s
  | .exit f => Sys2Proof.Machine.execExit f s
  | .yield f => Sys2Proof.Machine.execYield f s
  | .nextt f => Sys2Proof.Machine.execNextt f s
  | .rett f => Sys2Proof.Machine.execRett f s
  | .tstpsn f => Sys2Proof.Machine.execTstpsn f s
  | .rdeng f => Sys2Proof.Machine.execRdeng f s
  | .rdcyc f => Sys2Proof.Machine.execRdcyc f s
  | .lsstep f => Sys2Proof.Machine.execLsstep f s
  | .fence f => Sys2Proof.Machine.execFence f s
  | .trap f => Sys2Proof.Machine.execTrap f s
  | .svc f => Sys2Proof.Machine.execSvc f s
  | .rdsr f => Sys2Proof.Machine.execRdsr f s
  | .wrsr f => Sys2Proof.Machine.execWrsr f s
  | .bkpt f => Sys2Proof.Machine.execBkpt f s
  -- threshers (R431)
  | .thrAdd f => Sys2Proof.Machine.execThrAdd f s
  | .thrSub f => Sys2Proof.Machine.execThrSub f s
  | .thrMul f => Sys2Proof.Machine.execThrMul f s
  | .thrFma f => Sys2Proof.Machine.execThrFma f s
  | .thrMin f => Sys2Proof.Machine.execThrMin f s
  | .thrMax f => Sys2Proof.Machine.execThrMax f s
  | .thrAbs f => Sys2Proof.Machine.execThrAbs f s
  | .thrNeg f => Sys2Proof.Machine.execThrNeg f s
  | .thrAnd f => Sys2Proof.Machine.execThrAnd f s
  | .thrOr f => Sys2Proof.Machine.execThrOr f s
  | .thrXor f => Sys2Proof.Machine.execThrXor f s
  | .thrShl f => Sys2Proof.Machine.execThrShl f s
  | .thrShr f => Sys2Proof.Machine.execThrShr f s
  | .thrSra f => Sys2Proof.Machine.execThrSra f s
  | .thrAdds f => Sys2Proof.Machine.execThrAdds f s
  | .thrSel f => Sys2Proof.Machine.execThrSel f s
  | .thrEx2 f => Sys2Proof.Machine.execThrEx2 f s
  | .thrLg2 f => Sys2Proof.Machine.execThrLg2 f s
  | .thrCmp f => Sys2Proof.Machine.execThrCmp f s
  | .thrCvt f => Sys2Proof.Machine.execThrCvt f s
  | .thrMovi f => Sys2Proof.Machine.execThrMovi f s
  | .thrAddi f => Sys2Proof.Machine.execThrAddi f s
  | .thrVext f => Sys2Proof.Machine.execThrVext f s
  | .thrVbc f => Sys2Proof.Machine.execThrVbc f s
  | .thrHdr f => Sys2Proof.Machine.execThrHdr f s
  | .thrPld f => Sys2Proof.Machine.execThrPld f s
  | .thrPst f => Sys2Proof.Machine.execThrPst f s
  | .thrBld f => Sys2Proof.Machine.execThrBld f s
  | .thrBst f => Sys2Proof.Machine.execThrBst f s
  | .thrBamo f => Sys2Proof.Machine.execThrBamo f s
  | .thrBr f => Sys2Proof.Machine.execThrBr f s
  | .thrBc f => Sys2Proof.Machine.execThrBc f s
  | .thrLoopi f => Sys2Proof.Machine.execThrLoopi f s
  | .thrFwd f => Sys2Proof.Machine.execThrFwd f s
  | .thrDrop f => Sys2Proof.Machine.execThrDrop f s
  | .thrRedir f => Sys2Proof.Machine.execThrRedir f s
  | .thrTrap f => Sys2Proof.Machine.execThrTrap f s
  | .thrEnd f => Sys2Proof.Machine.execThrEnd f s
  -- events of the outside
  | .coldStart flashOk => Sys2Proof.Machine.execColdStart flashOk s
  | .recoveryImageAccept img => Sys2Proof.Machine.execRecoveryImageAccept img s
  | .overtempPowerOff temp => Sys2Proof.Machine.execOvertempPowerOff temp s
  | .pageMadePresent backed => Sys2Proof.Machine.execPageMadePresent backed s
  | .remoteAccess dev op => Sys2Proof.Machine.execRemoteAccess dev op s
  | .hostWrite tenant off bytes => Sys2Proof.Machine.execHostWrite tenant off bytes s
  | .hostRead tenant off len => Sys2Proof.Machine.execHostRead tenant off len s
  | .windowTimeout die => Sys2Proof.Machine.execWindowTimeout die s
  | .pendingTokenArrival k reg value => Sys2Proof.Machine.execPendingTokenArrival k reg value s
  | .park k => Sys2Proof.Machine.execPark k s
  | .unpark k => Sys2Proof.Machine.execUnpark k s
  | .kill k => Sys2Proof.Machine.execKill k s
  | .resume k => Sys2Proof.Machine.execResume k s
  | .changeAffinity k cluster cores => Sys2Proof.Machine.execChangeAffinity k cluster cores s
  | .tailWrite place value => Sys2Proof.Machine.execTailWrite place value s
  | .shootDownRequest tenant => Sys2Proof.Machine.execShootDownRequest tenant s
  | .migration src dst len => Sys2Proof.Machine.execMigration src dst len s
  | .forwardedAccess op => Sys2Proof.Machine.execForwardedAccess op s
  | .powerStep watts temp amps => Sys2Proof.Machine.execPowerStep watts temp amps s
  | .ownerRuntimeCreatesClaim c => Sys2Proof.Machine.execOwnerRuntimeCreatesClaim c s
  | .ownerRuntimeRetiresClaim name => Sys2Proof.Machine.execOwnerRuntimeRetiresClaim name s
  | .svcReply reply => Sys2Proof.Machine.execSvcReply reply s
  | .flitReceive port origin crcOk => Sys2Proof.Machine.execFlitReceive port origin crcOk s
  | .portDown port => Sys2Proof.Machine.execPortDown port s
  | .losttoExpiry dev => Sys2Proof.Machine.execLosttoExpiry dev s
  | .lossNotice dev => Sys2Proof.Machine.execLossNotice dev s
  | .messageArrival m => Sys2Proof.Machine.execMessageArrival m s
  | .creditReturn tenant peer k => Sys2Proof.Machine.execCreditReturn tenant peer k s
  | .dataFrame f => Sys2Proof.Machine.execDataFrame f s
  | .ackFrame head route seq => Sys2Proof.Machine.execAckFrame head route seq s
  | .retransmitTimeout tenant route => Sys2Proof.Machine.execRetransmitTimeout tenant route s
  | .collMessage m => Sys2Proof.Machine.execCollMessage m s
  | .slotRequest first more => Sys2Proof.Machine.execSlotRequest first more s
  | .algorithmDecision m answers => Sys2Proof.Machine.execAlgorithmDecision m answers s
  | .slotBeat tenant key round digest b => Sys2Proof.Machine.execSlotBeat tenant key round digest b s
  | .abortNotice c round status => Sys2Proof.Machine.execAbortNotice c round status s
  | .roundTimeout c => Sys2Proof.Machine.execRoundTimeout c s
  | .thresherInvocation spec => Sys2Proof.Machine.execThresherInvocation spec s
  | .kernelLoad l image => Sys2Proof.Machine.execKernelLoad l image s
  | .hookWrite h w value => Sys2Proof.Machine.execHookWrite h w value s
  | .binWindowAccess off len write => Sys2Proof.Machine.execBinWindowAccess off len write s
  | .registerWrite p value => Sys2Proof.Machine.execRegisterWrite p value s
  | .errCounterWrite e => Sys2Proof.Machine.execErrCounterWrite e s
  -- events without operands
  | .powerDown => Sys2Proof.Machine.execPowerDown s
  | .bundleDispatch => Sys2Proof.Machine.execBundleDispatch s
  | .icacheFill => Sys2Proof.Machine.execIcacheFill s
  | .fixedLatencyWrite => Sys2Proof.Machine.execFixedLatencyWrite s
  | .lookupFault => Sys2Proof.Machine.execLookupFault s
  | .restartPointCommit => Sys2Proof.Machine.execRestartPointCommit s
  | .pickup => Sys2Proof.Machine.execPickup s
  | .strandEnd => Sys2Proof.Machine.execStrandEnd s
  | .sliceExpiry => Sys2Proof.Machine.execSliceExpiry s
  | .deschedule => Sys2Proof.Machine.execDeschedule s
  | .classPreemption => Sys2Proof.Machine.execClassPreemption s
  | .preempt => Sys2Proof.Machine.execPreempt s
  | .contextSave => Sys2Proof.Machine.execContextSave s
  | .shootDownAck => Sys2Proof.Machine.execShootDownAck s
  | .qpwdogExpiry => Sys2Proof.Machine.execQpwdogExpiry s
  | .lineCopy => Sys2Proof.Machine.execLineCopy s
  | .colStagingDone => Sys2Proof.Machine.execColStagingDone s
  | .mmaRetire => Sys2Proof.Machine.execMmaRetire s
  | .drainComplete => Sys2Proof.Machine.execDrainComplete s
  | .rampDutyStep => Sys2Proof.Machine.execRampDutyStep s
  | .arrayFeedFree => Sys2Proof.Machine.execArrayFeedFree s
  | .pwrbrkAssert => Sys2Proof.Machine.execPwrbrkAssert s
  | .pwrbrkDeassert => Sys2Proof.Machine.execPwrbrkDeassert s
  | .pwrbrkHoldExpiry => Sys2Proof.Machine.execPwrbrkHoldExpiry s
  | .quiesce => Sys2Proof.Machine.execQuiesce s
  | .getVersion => Sys2Proof.Machine.execGetVersion s
  | .getCapabilities => Sys2Proof.Machine.execGetCapabilities s
  | .getDigests => Sys2Proof.Machine.execGetDigests s
  | .keyExchange => Sys2Proof.Machine.execKeyExchange s
  -- the other events
  | .farLoadReturn k => Sys2Proof.Machine.execFarLoadReturn k s
  | .farStorePerformed k => Sys2Proof.Machine.execFarStorePerformed k s
  | .waitEventOccurred k => Sys2Proof.Machine.execWaitEventOccurred k s
  | .blockRead tenant => Sys2Proof.Machine.execBlockRead tenant s
  | .sheafRelease k => Sys2Proof.Machine.execSheafRelease k s
  | .blockComplete k => Sys2Proof.Machine.execBlockComplete k s
  | .chuteCommitLands k => Sys2Proof.Machine.execChuteCommitLands k s
  | .claimShootDown name => Sys2Proof.Machine.execClaimShootDown name s
  | .recallAck name cache => Sys2Proof.Machine.execRecallAck name cache s
  | .claimLookup q => Sys2Proof.Machine.execClaimLookup q s
  | .engineTokenWrite k => Sys2Proof.Machine.execEngineTokenWrite k s
  | .streamFetch q => Sys2Proof.Machine.execStreamFetch q s
  | .streamWriteback q => Sys2Proof.Machine.execStreamWriteback q s
  | .atomicPerformed k => Sys2Proof.Machine.execAtomicPerformed k s
  | .rickEngineApply k => Sys2Proof.Machine.execRickEngineApply k s
  | .idleFlit port => Sys2Proof.Machine.execIdleFlit port s
  | .baleCheckpoint die => Sys2Proof.Machine.execBaleCheckpoint die s
  | .baleRestore die => Sys2Proof.Machine.execBaleRestore die s
  | .balerComplete die => Sys2Proof.Machine.execBalerComplete die s
  | .indomWrite value => Sys2Proof.Machine.execIndomWrite value s
  | .firmwareUpdate die img => Sys2Proof.Machine.execFirmwareUpdate die img s
  | .portRetrain port => Sys2Proof.Machine.execPortRetrain port s
  | .portRetrainDone port => Sys2Proof.Machine.execPortRetrainDone port s
  | .channelGroupRetrain g => Sys2Proof.Machine.execChannelGroupRetrain g s
  | .channelGroupRetrainDone g => Sys2Proof.Machine.execChannelGroupRetrainDone g s
  | .sensorRecalibration die => Sys2Proof.Machine.execSensorRecalibration die s
  | .sensorRecalibrationDone die => Sys2Proof.Machine.execSensorRecalibrationDone die s
  | .clusterFencing c => Sys2Proof.Machine.execClusterFencing c s
  | .fenceDeadline c => Sys2Proof.Machine.execFenceDeadline c s
  | .clusterUnfence c => Sys2Proof.Machine.execClusterUnfence c s
  | .tenantCreate t => Sys2Proof.Machine.execTenantCreate t s
  | .tenantRemove t => Sys2Proof.Machine.execTenantRemove t s
  | .negotiateAlgorithms asym hash => Sys2Proof.Machine.execNegotiateAlgorithms asym hash s
  | .getCertificate off len => Sys2Proof.Machine.execGetCertificate off len s
  | .challenge nonce => Sys2Proof.Machine.execChallenge nonce s
  | .getMeasurements index nonce => Sys2Proof.Machine.execGetMeasurements index nonce s
  | .chstWrite value => Sys2Proof.Machine.execChstWrite value s
  | .errinjRickStream value => Sys2Proof.Machine.execErrinjRickStream value s
  | .errinjPoisonLoad value => Sys2Proof.Machine.execErrinjPoisonLoad value s
  | .errinjCorrected value => Sys2Proof.Machine.execErrinjCorrected value s

end Sys2Proof.Machine
end

