-- ==== Sys2Proof/Machine/Step.lean ====
section
/-! DEFINITION. The step of the machine, and placing an instruction where the next step runs it. -/

namespace Sys2Proof.Machine

/-- One step of the machine. -/
def step (s : State) : Host.Outcome State Fault Refusal := cycle exec s

/-- The virtual address at which `withFetchWord` places an op word. -/
def fetchBase : Nat := 0x10000

/-- A page of code: virtual 0x10000 to 0x1FFFF onto the start of GDDR7. -/
def fetchEntry (index : Nat) : Entry :=
  { vbase := fetchBase, size := 16, dev := index, pbase := 0, fmt := .raw, geo := .packed, kind := .so, win := false,
    r := true, w := false, x := true, sync := false, migrating := false, absent := false }

/-- The strand that runs a placed op word where none runs: of tenant 0, with every register allocated. -/
def fetchStrand : Strand :=
  { recAddr := 0, pool := true, number := 0, tenant := 0, cls := 0, cluster := 0, cores := 1, nA := 4, nV := 64,
    state := .running, fresh := false, groupsAddr := 0, save := 0, xlive := 0, vlive := 0, plive := 0, alive := 0,
    full := false, pendMask := 0, arg := 0, pc := fetchBase, regs := Regs.cleared, pending := [], cycle := 0, energy := 0,
    block := none, persistent := false, groups := [], waits := none, waitReg := 0, since := 0, debugHold := false,
    wasWaiting := false, broken := 0, ending := false, rett := false, byFence := false, issuing := [], saved := 0 }

/-- A strand runs on the core: the one there, or a new one. -/
def State.withStrand (s : State) : State :=
  match s.core.running with
  | some _ => s
  | none => { s with
      core := { s.core with running := some s.dev.strands.length, number := 0, tenant := 0 },
      dev := { s.dev with strands := s.dev.strands ++ [fetchStrand] } }

/-- An op word as a bundle of its own at `fetchBase`, in memory and in the instruction cache, and the core about to
dispatch it. -/
def State.withOpWord (s : State) (w : Nat) : State :=
  let t := s.withStrand
  let m := (cellsAt 0 (bytesOfNat 8 (w % 2 ^ 63 + 2 ^ 63))).foldl (fun (m : Memory) c => m.setByte c.1 c.2) t.mem
  let iss := { t.core.iss with
    pc := fetchBase, bundle := max t.core.iss.bundle (max t.core.iss.cur.bundle t.core.iss.top.bundle) + 1, iq := [],
    lag := Vector.replicate 8 0, stall := 0, held := none, next := .seq, fault := none, waits := none, absent := false, halted := false }
  { t with
    mem := m,
    core := { t.core with
      iss := iss,
      table := fetchEntry t.dev.ident.index :: t.core.table.filter (fun e =>
        decide (e.last ≤ fetchBase) || decide (fetchBase + 65536 ≤ e.vbase)),
      icache := (0, m.bytes 0 128) :: t.core.icache.filter (fun l => l.1 != 0),
      shadow := { t.core.shadow with regs := t.core.regs, pc := fetchBase, bundle := iss.bundle } },
    agenda := [], thr := none, threshers := [] }

/-- A thresher word as the whole program of an invocation that is about to run it. -/
def State.withThrWord (s : State) (w : Nat) : State :=
  let k : Kernel := { name := 0, tenant := 0, words := [BitVec.ofNat 32 w], slot := false, forward := true, bins := none,
                      bound := 4096, traps := 0 }
  let i : InvSpec := { kernel := 0, slot := false, input := [], partialIn := [], poisoned := false, sender := 0, dest := 0,
                       tenant := 0, tag := 0, key := 0, beat := 0, count := 0, round := 0, pass := 0 }
  { s with thr := some (Invocation.start k i true), threshers := [], agenda := [] }

/-- The instruction whose bits are `w`, numbered as the opcode table numbers them, placed where the next step fetches: a
32-bit word is a thresher's, a longer one an op word, which ends its bundle. -/
def State.withFetchWord (s : State) (nbits w : Nat) : State :=
  if nbits ≤ 32 then s.withThrWord w else s.withOpWord w

end Sys2Proof.Machine
end

