-- ==== Sys2Proof/WellFormed.lean ====
section
/-! DEFINITION. Well-formed instructions, field by field of the typed formats: the fields the op does not use are zero
(R88) and each used field holds a value the op accepts (R90 to R97, R430, R431). T = RAW is well formed wherever T is a
field: it traps at issue (R45, R97). -/

namespace Sys2Proof

def floatTypes : List Fmt := [.fp32, .fp16, .bf16]
def elemTypes : List Fmt := [.fp32, .fp16, .bf16, .int8, .int16, .int32]
def intTypes : List Fmt := [.int8, .int16, .int32]
def narrowIntTypes : List Fmt := [.int8, .int16]
def sxTypes : List Fmt := [.sx3, .sx5, .sx8]
def convTypes : List Fmt := [.fp32, .fp16, .bf16, .int8, .int16, .int32, .sx3, .sx5, .sx8]
def mmaTypes : List Fmt := [.fp32, .fp16, .bf16, .int8, .sx3, .sx5, .sx8]

/-- The type is one the op accepts, or RAW (R97). -/
def isOrRaw (t : Fmt) (l : List Fmt) : Bool := decide (t ∈ l) || t == .raw

/-- RND is dynamic unless T is a float type; with RAW the op traps before it rounds (R97, R107). -/
def rndOk (t : Fmt) (r : Rnd) : Bool := t.isFloat || t == .raw || r == .dyn

/-- The field that QSEL names holds a stream register (R109). -/
def qRangeOk (f : RG) : Bool :=
  match f.qsel with
  | .none => true
  | .d => decide (f.d.toNat ≤ 7)
  | .a => decide (f.a.toNat ≤ 7)
  | .b => decide (f.b.toNat ≤ 7)
  | .c => decide (f.c.toNat ≤ 7)

/-- The modifiers of a vector store (R97, R234). -/
def storeOk (t : Fmt) (r : Rnd) (sat : Bool) (s : Scl) : Bool :=
  t.isFloat || (r == .dyn && s == .none && (t.isInt || !sat))

/-- The widths of a RED (R302). -/
def redOk (op : RedOp) (w : Width) : Bool :=
  match op with
  | .fadd32 => w == .w32
  | .bfpadd => w == .w64
  | _ => w == .w32 || w == .w64

/-- Whether an instruction is well formed: of a core op or a thresher instruction, that some word stands for it; of an
event, that what it brings lies in the ranges the manual numbers (tenants, devices, dies, ports, hooks, counters). -/
def wellFormed : Instr → Bool
  | .add f | .sub f | .mul f | .mulh f | .mulhu f | .div f | .divu f | .rem f | .remu f | .xor f | .shl f |
    .shr f | .sra f | .rotr f | .min f | .max f | .minu f | .maxu f | .and f | .or f =>
    f.c == 0 && f.g == 0 && f.t == .fp32 && f.t2 == .fp32 && f.rnd == .dyn && f.sat == false && f.scl == .none &&
      f.cond == .eq && f.qsel == .none
  | .addi _ | .andi _ | .ori _ | .xori _ | .movi _ | .bc _ | .fld _ | .spawn _ | .svc _ | .thrMovi _ |
    .thrAddi _ | .thrVext _ | .thrPld _ | .thrPst _ | .thrBld _ | .thrBst _ | .thrBamo _ | .thrLoopi _ =>
    true
  | .shli f | .shri f | .srai f =>
    decide (f.imm.toNat < 64)
  | .clz f | .popc f | .jmpx f =>
    f.b == 0 && f.c == 0 && f.g == 0 && f.t == .fp32 && f.t2 == .fp32 && f.rnd == .dyn && f.sat == false &&
      f.scl == .none && f.cond == .eq && f.qsel == .none
  | .cmp f =>
    f.c == 0 && f.g == 0 && f.t == .fp32 && f.t2 == .fp32 && f.rnd == .dyn && f.sat == false && f.scl == .none &&
      f.qsel == .none
  | .sel f =>
    f.g == 0 && f.t == .fp32 && f.t2 == .fp32 && f.rnd == .dyn && f.sat == false && f.scl == .none &&
      f.cond == .eq && f.qsel == .none
  | .extr f | .insr f =>
    f.g == 0 && f.t == .fp32 && f.t2 == .fp32 && f.rnd == .dyn && f.sat == false && f.scl == .none &&
      f.cond == .eq && f.qsel == .none && decide (f.b.toNat + f.c.toNat + 1 ≤ 64)
  | .movhi f => decide (f.imm.toNat < 2 ^ 18)
  | .fadd f | .fsub f | .fmul f | .fmin f | .fmax f =>
    f.c == 0 && f.g == 0 && f.t2 == .fp32 && f.scl == .none && f.cond == .eq && f.qsel == .none &&
      isOrRaw f.t floatTypes
  | .ffma f =>
    f.g == 0 && f.t2 == .fp32 && f.scl == .none && f.cond == .eq && f.qsel == .none && isOrRaw f.t floatTypes
  | .fcmp f =>
    f.c == 0 && f.g == 0 && f.t2 == .fp32 && f.rnd == .dyn && f.sat == false && f.scl == .none &&
      f.qsel == .none && decide (f.cond.code < 6) && isOrRaw f.t floatTypes
  | .fcvt f =>
    f.b == 0 && f.c == 0 && f.g == 0 && f.cond == .eq && f.qsel == .none && isOrRaw f.t2 elemTypes &&
      isOrRaw f.t elemTypes && rndOk f.t f.rnd && (!(f.t.isInt && f.t2.isInt) || f.scl == .none)
  | .br f => f.d == 0 && f.cond == .eq
  | .brl f | .call f =>
    f.cond == .eq
  | .ret f =>
    f.d == 0 && f.b == 0 && f.c == 0 && f.g == 0 && f.t == .fp32 && f.t2 == .fp32 && f.rnd == .dyn &&
      f.sat == false && f.scl == .none && f.cond == .eq && f.qsel == .none
  | .rep f => decide (1 ≤ f.n.toNat ∧ f.n.toNat ≤ 16) && decide (1 ≤ f.cnt.toNat ∧ f.cnt.toNat ≤ 4096)
  | .loopb f => f.cnt == 0 && decide (1 ≤ f.n.toNat ∧ f.n.toNat ≤ 64)
  | .vadd f | .vsub f | .vmul f | .vmin f | .vmax f =>
    f.c == 0 && f.t2 == .fp32 && f.sat == false && f.scl == .none && f.cond == .eq &&
      decide (f.qsel ∈ [QSel.none, QSel.d, QSel.a, QSel.b]) && isOrRaw f.t elemTypes && rndOk f.t f.rnd &&
      qRangeOk f
  | .vadds f | .vsubs f | .vmulh f | .vmulw f | .vand f | .vor f | .vxor f | .vshl f | .vshr f | .vsra f =>
    f.c == 0 && f.t2 == .fp32 && f.rnd == .dyn && f.sat == false && f.scl == .none && f.cond == .eq &&
      decide (f.qsel ∈ [QSel.none, QSel.d, QSel.a, QSel.b]) && isOrRaw f.t intTypes && qRangeOk f
  | .vmacw f =>
    f.c == 0 && f.t2 == .fp32 && f.rnd == .dyn && f.sat == false && f.scl == .none && f.cond == .eq &&
      decide (f.qsel ∈ [QSel.none, QSel.a, QSel.b]) && isOrRaw f.t narrowIntTypes && qRangeOk f
  | .vfma f | .vfms f =>
    f.t2 == .fp32 && f.sat == false && f.scl == .none && f.cond == .eq && isOrRaw f.t floatTypes && qRangeOk f
  | .vneg f | .vabs f =>
    f.b == 0 && f.c == 0 && f.t2 == .fp32 && f.sat == false && f.scl == .none && f.cond == .eq &&
      decide (f.qsel ∈ [QSel.none, QSel.d, QSel.a]) && isOrRaw f.t elemTypes && rndOk f.t f.rnd && qRangeOk f
  | .vnot f =>
    f.b == 0 && f.c == 0 && f.t2 == .fp32 && f.rnd == .dyn && f.sat == false && f.scl == .none &&
      f.cond == .eq && decide (f.qsel ∈ [QSel.none, QSel.d, QSel.a]) && isOrRaw f.t intTypes && qRangeOk f
  | .vcmp f =>
    f.c == 0 && f.t2 == .fp32 && f.rnd == .dyn && f.sat == false && f.scl == .none &&
      decide (f.qsel ∈ [QSel.none, QSel.a, QSel.b]) && isOrRaw f.t elemTypes && decide (f.d.toNat < 16) &&
      (!f.t.isFloat || decide (f.cond.code < 6)) && qRangeOk f
  | .vsel f =>
    f.t2 == .fp32 && f.rnd == .dyn && f.sat == false && f.scl == .none && f.cond == .eq &&
      decide (f.qsel ∈ [QSel.none, QSel.d, QSel.a, QSel.b]) && isOrRaw f.t elemTypes &&
      decide (f.c.toNat < 16) && qRangeOk f
  | .vrcp f | .vrsq f | .vsqrt f | .vexp2 f | .vlog2 f =>
    f.b == 0 && f.c == 0 && f.t2 == .fp32 && f.sat == false && f.scl == .none && f.cond == .eq &&
      decide (f.qsel ∈ [QSel.none, QSel.d, QSel.a]) && isOrRaw f.t floatTypes && qRangeOk f
  | .vcvt f =>
    f.b == 0 && f.c == 0 && f.cond == .eq && decide (f.qsel ∈ [QSel.none, QSel.d, QSel.a]) &&
      isOrRaw f.t2 convTypes && isOrRaw f.t convTypes && rndOk f.t f.rnd &&
      (!(f.t.isInt && f.t2.isInt) || f.scl == .none) &&
      (!f.t2.isSx && (!f.t.isSx || f.t2 == .fp32 || f.t2 == .raw)) && qRangeOk f
  | .vredadd f | .vredmax f | .vredmin f =>
    f.b == 0 && f.c == 0 && f.t2 == .fp32 && f.sat == false && f.scl == .none && f.cond == .eq &&
      f.qsel == .none && isOrRaw f.t elemTypes && rndOk f.t f.rnd
  | .vbcast f | .vslide f =>
    f.c == 0 && f.t2 == .fp32 && f.rnd == .dyn && f.sat == false && f.scl == .none && f.cond == .eq &&
      decide (f.qsel ∈ [QSel.none, QSel.d, QSel.a]) && isOrRaw f.t elemTypes && qRangeOk f
  | .vext f =>
    f.c == 0 && f.t2 == .fp32 && f.rnd == .dyn && f.sat == false && f.scl == .none && f.cond == .eq &&
      decide (f.qsel ∈ [QSel.none, QSel.a]) && isOrRaw f.t elemTypes && qRangeOk f
  | .vins f =>
    f.c == 0 && f.t2 == .fp32 && f.rnd == .dyn && f.sat == false && f.scl == .none && f.cond == .eq &&
      decide (f.qsel ∈ [QSel.none]) && isOrRaw f.t elemTypes && qRangeOk f
  | .vperm f =>
    f.c == 0 && f.t2 == .fp32 && f.rnd == .dyn && f.sat == false && f.scl == .none && f.cond == .eq &&
      decide (f.qsel ∈ [QSel.none, QSel.d, QSel.a, QSel.b]) && isOrRaw f.t elemTypes && qRangeOk f
  | .viota f =>
    f.a == 0 && f.b == 0 && f.c == 0 && f.t2 == .fp32 && f.rnd == .dyn && f.sat == false && f.scl == .none &&
      f.cond == .eq && f.qsel == .none && isOrRaw f.t intTypes
  | .vmov f =>
    f.b == 0 && f.c == 0 && f.t2 == .fp32 && f.rnd == .dyn && f.sat == false && f.scl == .none &&
      f.cond == .eq && decide (f.qsel ∈ [QSel.none, QSel.d, QSel.a]) && isOrRaw f.t elemTypes && qRangeOk f
  | .vmovi f => isOrRaw f.t elemTypes && decide (f.imm.toNat < 2 ^ (if f.t = .raw then 32 else f.t.width))
  | .vpacksx f =>
    f.b == 0 && f.c == 0 && f.t2 == .fp32 && f.scl == .none && f.cond == .eq && f.qsel == .none &&
      isOrRaw f.t sxTypes && rndOk f.t f.rnd
  | .vunpksx f =>
    f.b == 0 && f.c == 0 && f.t2 == .fp32 && f.rnd == .dyn && f.sat == false && f.scl == .none &&
      f.cond == .eq && f.qsel == .none && isOrRaw f.t sxTypes
  | .pand f | .por f | .pxor f =>
    f.c == 0 && f.g == 0 && f.t == .fp32 && f.t2 == .fp32 && f.rnd == .dyn && f.sat == false && f.scl == .none &&
      f.cond == .eq && f.qsel == .none && decide (f.b.toNat < 16) && decide (f.a.toNat < 16) &&
      decide (f.d.toNat < 16)
  | .pnot f | .pmov f =>
    f.b == 0 && f.c == 0 && f.g == 0 && f.t == .fp32 && f.t2 == .fp32 && f.rnd == .dyn && f.sat == false &&
      f.scl == .none && f.cond == .eq && f.qsel == .none && decide (f.a.toNat < 16) && decide (f.d.toNat < 16)
  | .plen f =>
    f.b == 0 && f.c == 0 && f.g == 0 && f.t2 == .fp32 && f.rnd == .dyn && f.sat == false && f.scl == .none &&
      f.cond == .eq && f.qsel == .none && isOrRaw f.t convTypes && decide (f.d.toNat < 16)
  | .pset f =>
    f.b == 0 && f.c == 0 && f.g == 0 && f.t == .fp32 && f.t2 == .fp32 && f.rnd == .dyn && f.sat == false &&
      f.scl == .none && f.cond == .eq && f.qsel == .none && decide (f.d.toNat < 16)
  | .pcnt f =>
    f.b == 0 && f.c == 0 && f.g == 0 && f.t == .fp32 && f.t2 == .fp32 && f.rnd == .dyn && f.sat == false &&
      f.scl == .none && f.cond == .eq && f.qsel == .none && decide (f.a.toNat < 16)
  | .mma f => decide (f.t ∈ mmaTypes)
  | .mzero f => f.a == 0 && f.t == .fp32 && f.rnd == .dyn && f.sat == false && f.scl == .none
  | .mdrain f => isOrRaw f.t convTypes && rndOk f.t f.rnd
  | .maccld f | .maccst f =>
    f.t == .fp32 && f.rnd == .dyn && f.sat == false && f.scl == .none
  | .epld f => decide (f.n ≠ 0 ∧ f.n.toNat ≤ 32)
  | .ld f => f.ord == false
  | .st f => f.u == false && f.ord == false
  | .fst f => f.u == false
  | .vld f =>
    f.rnd == .dyn && f.sat == false && f.scl == .none && f.ord == false && (!f.q || decide (f.d.toNat ≤ 7))
  | .vfld f | .vlds f | .vldx f =>
    f.rnd == .dyn && f.sat == false && f.scl == .none && (!f.q || decide (f.d.toNat ≤ 7))
  | .vst f => f.ord == false && (!f.q || decide (f.d.toNat ≤ 7)) && storeOk f.t f.rnd f.sat f.scl
  | .vfst f | .vsts f | .vstx f =>
    (!f.q || decide (f.d.toNat ≤ 7)) && storeOk f.t f.rnd f.sat f.scl
  | .lsfmt f => (f.geo == .packed || f.t.isSx)
  | .copy f => decide (f.t.isFloat ∨ f.rnd = .dyn) && decide (f.t ≠ .raw ∨ f.scl = .none)
  | .copya f => f.b == 0 && f.c == 0 && f.h == 0
  | .strb f | .claim f =>
    decide (f.h.toNat < 8)
  | .stru f | .retire f | .chcommit f =>
    f.a == 0 && f.b == 0 && f.c == 0 && decide (f.h.toNat < 8)
  | .pusht f => decide (f.len ≠ 0 ∧ f.len.toNat ≤ 256) && decide (f.h.toNat < 4)
  | .popt f | .splitr f | .joinr f =>
    f.c == 0 && decide (f.h.toNat < 4)
  | .markr f => f.b == 0 && f.c == 0 && decide (f.h.toNat < 4)
  | .rickq f => f.c == 0 && decide (f.h.toNat < 4) && decide (f.b.toNat < 8)
  | .amo f => decide (f.w ∈ [Width.w32, Width.w64]) && decide (f.op ∈ [AmoOp.cas, AmoOp.addb] ∨ f.c = 0)
  | .red f => redOk f.op f.w
  | .popq f => f.a == 0 && f.b == 0 && f.c == 0 && f.h == 0
  | .resolve f => f.a == 0 && f.b == 0 && decide (f.h.toNat < 8)
  | .qclaim f => f.b == 0 && f.c == 0 && decide (f.h.toNat < 8)
  | .casn f => decide (f.h.toNat < 8) && decide (f.b.toNat < 8)
  | .chopen f => f.b == 0 && f.c == 0 && decide (f.h.toNat < 8) && decide (f.a.toNat < 8)
  | .send f | .recv f | .coll f =>
    f.h == 0
  | .ctl f | .exit f | .yield f | .rett f | .lsstep f =>
    f.d == 0 && f.a == 0 && f.b == 0
  | .fence f => decide (f.kinds.code ≠ 0)
  | .barg f | .joing f | .leaveg f =>
    f.b == 0 && decide (f.a.toNat < 8)
  | .susp f | .bkpt f =>
    f.d == 0
  | .nextt f | .rdeng f | .rdcyc f =>
    f.a == 0 && f.b == 0
  | .trap f => f.d == 0 && f.a == 0
  | .tstpsn f => f.b == 0
  | .rdsr f => f.a == 0 && decide (f.srn.toNat ∈ srns)
  | .wrsr f => f.d == 0 && decide (f.srn.toNat ∈ srns)
  | .thrAdd f | .thrSub f | .thrMul f | .thrMin f | .thrMax f =>
    f.c == 0 && !(f.s && f.bz)
  | .thrFma f => f.t != .int32 && !(f.s && f.bz)
  | .thrAbs f | .thrNeg f =>
    f.b == 0 && f.c == 0 && f.bz == false
  | .thrAnd f | .thrOr f | .thrXor f | .thrShl f | .thrShr f | .thrSra f | .thrAdds f =>
    f.c == 0 && f.t == .int32 && !(f.s && f.bz)
  | .thrCmp f => !(f.s && f.bz) && (f.t == .int32 || decide (f.cond.code < 6))
  | .thrSel f => !(f.s && f.bz)
  | .thrCvt f => f.t != f.t2
  | .thrEx2 f | .thrLg2 f =>
    f.b == 0 && f.c == 0 && f.bz == false && f.t == .fp32
  | .thrVbc f => f.x == 0
  | .thrHdr f => f.a == 0 && decide (f.x.toNat < 11)
  | .thrBr f | .thrTrap f =>
    f.k == 0 && f.a == 0
  | .thrBc f => decide (f.k.toNat < 6)
  | .thrFwd f | .thrDrop f | .thrEnd f =>
    f.k == 0 && f.a == 0 && f.o == 0
  | .thrRedir f => f.k == 0 && f.o == 0
  | .coldStart _ | .recoveryImageAccept _ | .overtempPowerOff _ | .powerDown | .bundleDispatch | .icacheFill
    | .fixedLatencyWrite | .lookupFault | .pageMadePresent _ | .restartPointCommit | .farLoadReturn _
    | .farStorePerformed _ | .pickup | .strandEnd | .sliceExpiry | .deschedule | .classPreemption
    | .waitEventOccurred _ | .preempt | .contextSave | .pendingTokenArrival _ _ _ | .park _ | .unpark _ | .kill _
    | .resume _ | .sheafRelease _ | .blockComplete _ | .shootDownAck | .qpwdogExpiry | .migration _ _ _ | .lineCopy
    | .forwardedAccess _ | .chuteCommitLands _ | .colStagingDone | .mmaRetire | .drainComplete | .rampDutyStep
    | .arrayFeedFree | .powerStep _ _ _ | .pwrbrkAssert | .pwrbrkDeassert | .pwrbrkHoldExpiry
    | .claimShootDown _ | .recallAck _ _ | .claimLookup _ | .ownerRuntimeRetiresClaim _ | .engineTokenWrite _
    | .streamFetch _ | .streamWriteback _ | .atomicPerformed _ | .rickEngineApply _ | .svcReply _
    | .algorithmDecision _ _ | .slotBeat _ _ _ _ _ | .abortNotice _ _ _ | .roundTimeout _ | .slotRequest _ _ | .indomWrite _
    | .retransmitTimeout _ _ | .quiesce | .getVersion | .getCapabilities | .negotiateAlgorithms _ _ | .getDigests
    | .getCertificate _ _ | .challenge _ | .getMeasurements _ _ | .keyExchange | .chstWrite _ | .errinjRickStream _
    | .errinjPoisonLoad _ | .errinjCorrected _ | .kernelLoad _ _ | .ackFrame _ _ _ | .thresherInvocation _ | .changeAffinity _ _ _ =>
    true
  | .remoteAccess d _ | .losttoExpiry d | .lossNotice d => decide (d < 64)
  | .hostWrite t _ _ | .hostRead ⟨t, _⟩ _ _ | .tailWrite ⟨t, _⟩ _ | .blockRead t | .shootDownRequest t
    | .tenantCreate t | .tenantRemove t | .creditReturn t _ _ =>
    decide (t < 64)
  | .windowTimeout d | .baleCheckpoint d | .baleRestore d | .balerComplete d | .firmwareUpdate d _
    | .sensorRecalibration d | .sensorRecalibrationDone d => decide (d < 2)
  | .flitReceive p _ _ | .idleFlit p | .portDown p | .portRetrain p | .portRetrainDone p => decide (p < 8)
  | .ownerRuntimeCreatesClaim c => decide (c.owner < 64)
  | .messageArrival m => decide (m.tenant < 64 ∧ m.tag < 32 ∧ m.bytes.length = 256 * m.poisoned.length)
  | .registerWrite p _ => decide (p.fn < 64)
  | .dataFrame f => decide (f.tenant < 64 ∧ f.tag < 32)
  | .collMessage m => decide (m.tenant < 64)
  | .hookWrite h w _ => decide (h < 64 ∧ w < 4)
  | .binWindowAccess off len _ => decide (off + len ≤ 2 ^ 23)
  | .errCounterWrite e => decide (e < 6)
  | .channelGroupRetrain c | .channelGroupRetrainDone c => decide (c < 6)
  | .clusterFencing c | .fenceDeadline c | .clusterUnfence c => decide (c < 32)

end Sys2Proof
end

