-- ==== Sys2Proof/Claims.lean ====
section
/-! DEFINITION. The terms of the statements: what an instruction does where it runs, and what an answer leaves unchanged. -/

namespace Sys2Proof.Claims

open Sys2Proof.Machine

/-- The instruction runs: it answers a next state, of which `P` holds. -/
def Runs (i : Instr) (s : State) (P : State → Prop) : Prop := ∃ t, exec i s = .next t ∧ P t

/-- The instruction does nothing but send one result to its register, to land `lat` cycles after its bundle's scheduled cycle
(`WriteAfterFrame` says that nothing else changes, and `ResultLands` that it lands). -/
def Sends (i : Instr) (s : State) (lat : Nat) (d : Dest) : Prop := exec i s = .next (s.writeAfter lat d)

/-- Sends a scalar of which `P` holds to Xd, with its poison. -/
def SendsX (i : Instr) (s : State) (d : Reg) (lat : Nat) (po : Bool) (P : X64 → Prop) : Prop :=
  ∃ v, P v ∧ Sends i s lat (.x (s.px d) v po)

/-- The instruction traps before its bundle issues (R98, R352). -/
def Traps (i : Instr) (s : State) (cause : Nat) (val : X64) : Prop := exec i s = .next (s.issueTrap cause val)

/-- The mode that a float op of RND `r` rounds in (R107). -/
def modeOf (s : State) (r : Rnd) : RMode := (s.snap r).mode

/-- The draw of element `e` under SR (R56). -/
def drawOf (s : State) (r : Rnd) (e : Nat) : Nat := srDraw (s.snap r).draw e

/-- An integer condition of R95 on two 64-bit values: eq to ge compare signed, ltu to geu unsigned. -/
def CondHolds (c : Cond) (a b : X64) : Bool :=
  match c with
  | .eq => a == b
  | .ne => a != b
  | .lt => decide (a.toInt < b.toInt)
  | .le => decide (a.toInt ≤ b.toInt)
  | .gt => decide (b.toInt < a.toInt)
  | .ge => decide (b.toInt ≤ a.toInt)
  | .ltu => decide (a.toNat < b.toNat)
  | .leu => decide (a.toNat ≤ b.toNat)
  | .gtu => decide (b.toNat < a.toNat)
  | .geu => decide (b.toNat ≤ a.toNat)

/-- An X operand of a scalar float op: the exact value of its bits w−1:0 (R110). -/
def fx (s : State) (t : Fmt) (r : Reg) : Machine.Num := decodeFloat t ((s.rdX r).toNat % 2 ^ t.width)

/-! ### Vector registers -/

/-- Lane `e` of width `w` of a vector value (R10). -/
def lane (w : Nat) (q : VBits × BitVec 64) (e : Nat) : Nat := q.1.toNat / 2 ^ (w * e) % 2 ^ w

/-- Whether the 32-bit lane that holds element `e` is poisoned (R358), for widths up to 32. -/
def laneBad (w : Nat) (q : VBits × BitVec 64) (e : Nat) : Bool := q.2.getLsbD (e * w / 32)

/-- Whether the guard enables element `e` of width `w` (R11). -/
def enabled (s : State) (g : BitVec 4) (w e : Nat) : Bool := (s.rdP g.toNat).getLsbD (e * w / 8)

/-- A stream that an op may read now: bound for reading, not at its end, with an image fetched (R292, R295). -/
def ReadReady (s : State) (q : Nat) : Prop :=
  (∃ t, s.rdQ q = some t ∧ t.dir = .rd ∧ t.taken < t.pat.images) ∧
    (vget s.core.strm q StreamEngine.empty).images ≠ []

/-- A stream that an op may write now: bound for writing, not at its end, with a buffer and a gate entry free (R293, R295). -/
def WriteReady (s : State) (q : Nat) : Prop :=
  (∃ t, s.rdQ q = some t ∧ t.dir = .wr ∧ t.taken < t.pat.images) ∧ s.buffered q < 8 ∧ s.core.gate.length < 64

/-- The stream that QSEL names lets the op issue (R109). -/
def StreamReady (f : RG) (s : State) : Prop :=
  match f.qsel with
  | .none => True
  | .d => WriteReady s f.d.toNat
  | .a => ReadReady s f.a.toNat
  | .b => ReadReady s f.b.toNat
  | .c => ReadReady s f.c.toNat

/-- A vector op may issue: the V registers its fields name are allocated (R13), its types are not RAW (R45), and its stream is
ready. -/
def VecReady (f : RG) (v : VFields) (ts : List Fmt) (s : State) : Prop :=
  (v.d = true → f.qsel ≠ .d → f.d.toNat < s.core.nV) ∧ (v.a = true → f.qsel ≠ .a → f.a.toNat < s.core.nV) ∧
  (v.b = true → f.qsel ≠ .b → f.b.toNat < s.core.nV) ∧ (v.c = true → f.qsel ≠ .c → f.c.toNat < s.core.nV) ∧
  (∀ t ∈ ts, t ≠ .raw) ∧ StreamReady f s

/-- The elements of a result, from 0 up. -/
def elems (n : Nat) (val : Nat → Nat) (po : Nat → Bool) : List Elem := (List.range n).map (fun e => (val e, po e))

/-- The op sends a vector result of `n` elements of width `w` under its guard to its register or stream (`GuardedResult` says what
the register then holds), takes its source stream's image and, with `seq`, a SEQ; nothing else changes. -/
def SendsV (i : Instr) (f : RG) (s : State) (lat : Nat) (seq : Bool) (w n : Nat) (val : Nat → Nat) (po : Nat → Bool) : Prop :=
  exec i s = .next (let t := (s.putV f lat ⟨w, elems n val po⟩).useStream f; if seq then t.takeSeq else t)

/-! ### Memory -/

/-- Byte `a` of memory as the reads of the bundle after the op in issue see it: with the interval's own gated stores (R347). -/
def seenAfter (s : State) (a : Nat) : Byte := (s.viewAt (s.core.iss.cur.bundle + 1)).byte a

/-- Address of a scalar or vector access: the base register plus the signed offset, modulo 2^64 (R238). -/
def addrOf (s : State) (a : Reg) (off : Int) : Nat := (((s.rdX a).toInt + off) % 2 ^ 64).toNat

/-- The `n` local-store bytes at `a` are a plain range: in bounds and not the output of a gated MDRAIN or MACCST (R238, R347). -/
def LocalRange (s : State) (a n : Nat) : Prop :=
  a + n ≤ lsSize ∧ ∀ i, i < n → s.meetsOutput [ownLs (a + i)] = false

/-- The little-endian number of `n` local-store bytes at `a`, as the strand sees them. -/
def localNum (s : State) (a n : Nat) : Nat :=
  ((List.range n).map (fun i => (s.view.byte (ownLs (a + i))).toNat * 256 ^ i)).sum

/-- Whether one of `n` local-store bytes at `a` is poisoned. -/
def localBad (s : State) (a n : Nat) : Bool := (List.range n).any (fun i => s.view.poisoned (ownLs (a + i)))

/-- Every byte of an access under the table: mapped, present and with the permission (R230). -/
def Permitted (s : State) (p : Perm) (a n : Nat) : Prop :=
  ∀ i, i < n → ∃ e, entryAt s.core.table (a + i) = some e ∧ e.absent = false ∧ e.allows p = true

/-- The register side of a local or far vector load: its register is allocated or its stream is ready, and the base is clean. -/
def LoadRegs (s : State) (d : Reg) (q : Bool) (a : Reg) : Prop :=
  (if q then WriteReady s d.toNat else d.toNat < s.core.nV) ∧ s.poisonX a = false

/-- The register side of a vector store, and a gate entry. -/
def StoreRegs (s : State) (d : Reg) (q : Bool) (a : Reg) : Prop :=
  (if q then ReadReady s d.toNat else d.toNat < s.core.nV) ∧ s.poisonX a = false ∧ s.core.gate.length < 64

/-- The data of a vector store: its register's value, or its stream's image. -/
def storeData (s : State) (d : Reg) (q : Bool) : VBits × BitVec 64 :=
  if q then s.headImage d.toNat else (s.rdV d, s.poisonV d)

/-! ### Commands and system state -/

/-- The op's command waits in the gate, and its token register waits for it (`GatedCommand` says what that is). -/
def Commands (i : Instr) (s : State) (d : Reg) (c : Cmd) : Prop := exec i s = .next (s.gateCmd (s.px d) c)

/-- A rick op may issue: its handle was given, its segment number is in range, and gate and queue have room (R12, R324). -/
def RickReady (s : State) (h : BitVec 4) (seg : Reg) : Prop :=
  s.rdK h.toNat ≠ .invalid ∧ (s.rdX seg).toNat < 256 ∧ s.core.gate.length < 64 ∧ s.cmds Cmd.isRick < 8

/-- The rick a handle names; a dead handle names none (R215). -/
def rickOf (s : State) (h : BitVec 4) : ClaimName :=
  match s.rdK h.toNat with
  | .valid n => n
  | _ => 0

/-- A local-store address of a rick command: clean, in range and at 256 bytes (R324). -/
def RickAddr (s : State) (r : Reg) : Prop := s.poisonX r = false ∧ (s.rdX r).toNat < lsSize ∧ (s.rdX r).toNat % 256 = 0

/-- A range of virtual addresses under the table with the permissions, as an engine command's checks ask (R283). -/
def RangePermitted (s : State) (perms : List Perm) (a n : Nat) : Prop := rangeChk perms (s.stretch a n) = .ok

/-- No byte of a range is homed in host memory, where no atomic is performed (R396). -/
def NoHost (s : State) (a n : Nat) : Prop := ∀ p ∈ s.partsOf (s.stretch a n), homeOf (physOf p.addr) ≠ .host

/-- A far store, atomic or reduction of the op in issue waits in the gate, alone, with its home pieces. -/
def GatesAtomic (s t : State) (a n : Nat) (op : AtomOp) (tok : Nat) : Prop :=
  ∃ (e : GateEntry) (o : FarOp), t.core.gate = s.core.gate ++ [e] ∧ e.op = .far o ∧ e.bundle = s.core.iss.cur.bundle ∧
    o.parts = s.partsOf (s.stretch a n) ∧ o.atom = some op ∧ o.tok = tok ∧ o.id = s.core.opId ∧ o.bytes = n

/-- The little-endian number of `n` bytes of memory at the places `at'`. -/
def numAt (m : Memory) (at' : Nat → Nat) (n : Nat) : Nat := ((List.range n).map (fun i => (m.byte (at' i)).toNat * 256 ^ i)).sum

/-- A copy's run of which every byte can be moved: the homes of the source's bytes answer and are clean, the homes of the `n` destination
bytes answer, and no destination byte is another's or a source byte. -/
def CopyClean (s : State) (r : CopyRun) (n : Nat) : Prop :=
  (∀ o, o < r.len → (s.byteHome r.src o).2 = 0 ∧ s.mem.poisoned (s.byteHome r.src o).1 = false) ∧
  (∀ o, o < n → (s.byteHome r.dst o).2 = 0 ∧ (∀ q, q < r.len → (s.byteHome r.src q).1 ≠ (s.byteHome r.dst o).1) ∧
    (∀ q, q < n → q ≠ o → (s.byteHome r.dst q).1 ≠ (s.byteHome r.dst o).1))

/-- Every byte of memory but those at the places `at'` of `n` bytes is unchanged. -/
def OnlyAt (m m' : Memory) (at' : Nat → Nat) (n : Nat) : Prop := ∀ q, (∀ i, i < n → q ≠ at' i) → m'.byte q = m.byte q

/-- The rick engine's answer to a command on a rick: the rick after it, and the token's status and count. -/
def RickEnds (s : State) (k : Nat) (c : RickCmd) (r' : Rick) (st cnt : Nat) : Prop :=
  (s.performRick k c).1.rick? c.rick = some r' ∧ (s.performRick k c).2 = token st cnt

/-- Operation `id` delivers `d` to the register `r` that waits for it: on the core the wait ends and the value is a result that has
landed, ahead of every later bundle's; in the saved context of a strand that has left the core, the register holds it and waits no more. -/
def Lands (s t : State) (id : Nat) (r : RegName) (d : Dest) : Prop :=
  (∀ i, s.core.inter.find? (fun i => i.id == id && i.reg == r) = some i → i.later = [] →
    (∀ j ∈ t.core.inter, ¬ (j.id = id ∧ j.reg = r)) ∧ ∃ w ∈ t.core.iss.pend, w.dest = d ∧ w.due = 0 ∧ w.dead = false ∧ w.bundle = i.bundle) ∧
  (s.core.inter.find? (fun i => i.id == id && i.reg == r) = none → ∀ (k : Nat) (u : Strand), s.dev.strands[k]? = some u →
    (∃ i ∈ u.pending, i.id = id ∧ i.reg = r) → ∃ w g, t.dev.strands[k]? = some w ∧ w.regs = d.apply g ∧
      ∀ j ∈ w.pending, ¬ (j.id = id ∧ j.reg = r))

/-- A token lands in its register; X0 takes none. -/
def TokenLands (s t : State) (tok id : Nat) (v : X64) : Prop := tok ≠ 0 → Lands s t id (.x tok) (.x tok v false)

/-- What every op that only asks something of another unit keeps: memory, the device, the strand's X, V, P and A registers and its
system registers. -/
def KeepsData (s t : State) : Prop :=
  t.mem = s.mem ∧ t.dev = s.dev ∧ t.core.regs.x = s.core.regs.x ∧ t.core.regs.v = s.core.regs.v ∧
    t.core.regs.p = s.core.regs.p ∧ t.core.regs.a = s.core.regs.a ∧ t.core.regs.sys = s.core.regs.sys

/-! ### The thresher -/

/-- The instruction of the invocation `v` changes the invocation by `g`, and the invocation goes on at the next word. -/
def ThrStep (i : Instr) (s : State) (v : Invocation) (g : Invocation → Invocation) : Prop :=
  exec i s = .next (s.thrGoto (g { v with last := v.pc, left := v.left - 1 }) (v.pc + 1))

/-- The instruction of the invocation `v` traps (R447). -/
def ThrTraps (i : Instr) (s : State) (v : Invocation) (cause value : Nat) : Prop :=
  exec i s = .next (s.thrFinish { v with last := v.pc, left := v.left - 1 } (.trap cause value v.pc))

/-- Element `e` of width `w` of a source: of a W register, or, in the scalar form, of a Z register. -/
def tsrc (v : Invocation) (scalar : Bool) (w : Nat) (n : BitVec 4) (e : Nat) : Nat :=
  if scalar then (v.rdZ n).toNat % 2 ^ w else (v.rdW n).toNat / 2 ^ (w * e) % 2 ^ w

/-- Element `e` of source B: of a Z register for every element where BZ is set. -/
def tsrcB (v : Invocation) (scalar bz : Bool) (w : Nat) (n : BitVec 4) (e : Nat) : Nat :=
  if bz then (v.rdZ n).toNat % 2 ^ w else tsrc v scalar w n e

/-- The instruction writes the elements `val` of width `w` to its destination, one of them in the scalar form. -/
def ThrSends (i : Instr) (s : State) (v : Invocation) (scalar : Bool) (w : Nat) (d : BitVec 4) (val : Nat → Nat) : Prop :=
  ThrStep i s v (fun u => u.put scalar w d ((List.range (if scalar then 1 else 512 / w)).map val))

/-! ### A step of the core -/

/-- The core's turn: no invocation, no event of the outside and none of the machine's own comes first, no piece of a host write, redirected
message or baler is on its way, and a strand runs. -/
def CoreTurn (s : State) : Prop :=
  s.thr = none ∧ s.threshers = [] ∧ s.agenda = [] ∧ s.dev.pieces = [] ∧ s.dev.links.waiting = [] ∧
    s.dev.balers.toList.all (fun b => b.running.isNone) = true ∧ s.dev.ident.powered = true ∧ s.dev.ident.recovery = false ∧ s.internal = none ∧
    s.core.running.isSome = true ∧ s.core.iss.absent = false

/-- A decoded bundle, its place in `cur`, enters the queues: it is no MARK, QP or HWIN bundle, no REP or LOOPB is open, it does not wait
at dispatch, no comparator is enabled, every op's checks pass, and no read is undersized, or such reads are not checked. -/
def BundleReady (s : State) (ops : List (Nat × Instr)) : Prop :=
  (s.core.iss.cur.ctl.mark = false ∧ s.core.iss.cur.ctl.qp = false ∧ s.core.iss.cur.ctl.hwin = false) ∧
  (s.core.regs.rep = none ∧ s.core.regs.loopb = none) ∧ s.waitsAtDispatch ops = false ∧
  (∀ n, n < 4 → (vget s.core.regs.sys.bka n 0).getLsbD 0 = false) ∧ checkOps ops s.foreseen = .ok ∧
  (s.firstLate ops = none ∨ s.core.regs.sys.chkctl.getLsbD 0 = false ∧ s.core.iss.cur.ctl.chk = false)

/-- The ops of the bundle at `c` stand in their queues, each with its SEQ, behind those already there; REALIGN of every slot and a serialising op leave no
slot trailing (R25, R344). -/
def Queued (s : State) (c : Ctx) (ops : List (Nat × Instr)) : State :=
  let drift := if c.ctl.realign = 255 ∨ ops.any (fun o => serialising o.2) = true then 0 else s.core.iss.drift
  s.mapIss (fun i => { i with
    cur := c, top := c, rett := false, drift := drift, slip := !level i.lag || drift != 0,
    iq := i.iq ++ c.slotted ops })

end Sys2Proof.Claims
end

