-- ==== Sys2Proof/Certificates/Slice0/Obligations.lean ====
section
/-! DEFINITION. The statements for the provers, in the terms of Sys2Proof/Claims.lean. -/

open Sys2Proof Sys2Proof.Machine Sys2Proof.Claims

/-- R42, R100, R202, R390, R396, R421, R458, R460, R474, R477 to R482: what reset leaves. Registers are cleared, P0 reads as
ones, COLLTO is 500; the settings have their reset values; GEN is 1 after the first cold start and names count from 1; only
tenant 0 exists; no strand, block, claim or kernel; memory lists nothing and is in its canonical form. The cleared registers of
a core with no strand, SERIAL, and memory that reads as 0 are the model's choices (log 1, 7). -/
def Obligations.ResetState : Prop :=
  let s := State.reset
  s.mem = { cells := [], poison := [], tags := [] } ∧ s.mem.wf = true ∧
  (∀ n : Reg, s.rdX n = 0) ∧ s.rdP 0 = BitVec.allOnes 256 ∧ s.core.regs.sys.collto = 500 ∧ s.core.regs.sys.rmode = 0 ∧
  s.core.regs.sys.trapv = 0 ∧ s.core.regs.rrb = 0 ∧ s.core.regs.seq = 0 ∧ s.core.running = none ∧ s.core.gate = [] ∧
  s.dev.ident.gen = 1 ∧ s.dev.ident.count = 1 ∧ s.dev.ident.indom = false ∧ s.dev.set.limit = 1600 ∧ s.dev.set.rampt = 1050 ∧
  s.dev.set.pblvl = 6 ∧ s.dev.set.qpwdog = 52500 ∧ s.dev.set.lostto = 1000 ∧ s.dev.set.waitq = 4096 ∧ s.dev.set.winto = 100 ∧
  (∀ c, c < 4 → vget s.dev.set.slice c 0 = 2 ^ 20 ∧ vget s.dev.set.quant c 0 = 2 ^ 16) ∧
  (∀ t, t < 64 → (s.dev.page t).active = decide (t = 0)) ∧ s.dev.strands = [] ∧ s.dev.blocks = [] ∧ s.dev.claims = [] ∧
  s.dev.kernels = [] ∧ (∀ p, (s.dev.links.queue 0 p).credits = 64)

/-- A step runs the instruction that the words decode to. Of a thresher, it is `exec` of the word at its pc. Of the core:
dispatch queues the ops of a bundle whose words decode, whose sources are ready and whose checks pass, and the step issues the op that
each slot has reached, each by `exec`; an op that must wait stays in its queue, and the cycle ends when every slot has had its turn.
That the core's turn comes once no event is enabled is the model's choice (log 5). -/
def Obligations.StepRunsDecoded : Prop :=
  (∀ s v i, s.thr = some v → s.threshers = [] → (∀ j, s.agenda.head? ≠ some (.thresherInvocation j)) → v.fetch = .ok i → step s = exec i s) ∧
  (∀ s ws ops, CoreTurn s → s.core.iss.mayDispatch = true →
    s.core.iss.pc % 8 = 0 → s.land.fetch = .words ws → decodeBundle ws = .ok ops →
    let c := s.land.place (s.core.iss.pc + 8 * ws.length) (((ops.find? (fun o => o.1 == 7)).map (fun o => ctlOf o.2)).getD Ctl.none)
    BundleReady (s.land.mapIss (fun i => { i with cur := c })) ops →
    exec .bundleDispatch s = .next (Queued s.land c ops) ∧
    step s = runHeads exec (Queued s.land c ops).core.iss.heads (Queued s.land c ops)) ∧
  (∀ s, CoreTurn s → s.core.iss.mayDispatch = false → step s = runHeads exec s.core.iss.heads s) ∧
  (∀ s q rest, s.core.iss.iq.contains q = true → (s.issuing q).mustWait q = false →
    runHeads exec (q :: rest) s =
      match exec q.op (s.issuing q) with
      | .next v => if v.core.running ≠ s.core.running then .next (v.heldTrap s.core.running)
          else runHeads exec rest (s.tried q v)
      | .fault f => .fault f
      | .refused r => .refused r) ∧
  (∀ s q rest, s.core.iss.iq.contains q = true → (s.issuing q).mustWait q = true →
    runHeads exec (q :: rest) s = runHeads exec rest (s.keptWaiting q)) ∧
  (∀ s, runHeads exec [] s = .next s.closeTurn)

/-- R101, R126, R97, R281, R297, R474 and R431's examples: words that spec/ writes out, one or more of each slot and of the
threshers. Each decodes to the instruction it stands for. -/
def Obligations.WordsDecode : Prop :=
  ([(0x8211400000010000, .movi ⟨5, 0x10000⟩),
    (0x0011450000000100, .addi ⟨5, 5, 256⟩),
    (0x0421C3FFFFFFFFFC, .brl ⟨7, .eq, 0x3FFFFFFFFFC⟩),
    (0x108A230830000000, .vfma ⟨40, 35, 2, 3, 0, .fp32, .fp32, .dyn, false, .none, .eq, .none⟩),
    (0x9073041403200000, .vmacw ⟨12, 4, 5, 0, 3, .int16, .fp32, .dyn, false, .none, .eq, .none⟩),
    (0xB004174F00000000, .mma ⟨1, 0, 1, .sx5, false, true, 15, 0⟩),
    (0x4018050000000000, .vld ⟨32, 5, 0, .fp32, .dyn, false, .none, false, false, 0⟩),
    (0xD01AC5000000FA00, .vst ⟨43, 5, 0, .fp32, .dyn, false, .none, false, false, 0xFA00⟩),
    (0xE005155970080000, .copy ⟨20, 21, 22, 23, .fp16, .dyn, .none⟩),
    (0xE105951460000BC0, .amo ⟨22, 21, 5, 6, .addb, .w64⟩),
    (0xE193000003000100, .resolve ⟨12, 0, 0, 3, .tensor⟩),
    (0xF105020000000000, .barg ⟨20, 2, 0, ⟨0, false, false, false, false, 0⟩⟩),
    (0xF301400000010000, .rdsr ⟨5, 0, 1, ⟨0, false, false, false, false, 0⟩⟩),
    (0xF000000000000010, .ctl ⟨0, 0, 0, ⟨0, true, false, false, false, 0⟩⟩)] : List (Nat × Instr)).all
      (fun p => decodeTableWord 64 p.1 == some p.2) = true ∧
  ([(0x80C00005, .thrLoopi ⟨3, 0, 5⟩), (0x60840100, .thrPld ⟨2, 1, false, 0x100⟩),
    (0x38848000, .thrAdds ⟨2, 1, 2, 0, .int32, false, false⟩), (0x54440040, .thrAddi ⟨1, 1, 64⟩),
    (0x94000000, .thrEnd ⟨0, 0, 0⟩)] : List (Nat × Instr)).all
      (fun p => decodeTableWord 32 p.1 == some p.2) = true

/-- R87 to R97, R429 to R431: decode of encode is the instruction, for every well-formed core op and thresher instruction with
every operand at every value its encoding admits: each is exactly one word, of 64 bits or of 32. An event, which has no fields of
either encoding, is no word. -/
def Obligations.DecodeEncode : Prop :=
  ∀ i : Instr, wellFormed i = true →
    let bits := if (thrFields i).isSome then 32 else 64
    ((thrFields i).isSome = true ∨ (opFields i).isSome = true →
      ∃ w, encode i = [w] ∧ w < 2 ^ bits ∧ decodeTableWord bits w = some i) ∧
    ((thrFields i).isSome = false → (opFields i).isSome = false → encode i = [])

/-- R88, R97: a word that decodes holds a well-formed instruction and no bit that the instruction does not have: encoding gives
the word back, but for STOP and for slot VB, whose words are VA's. -/
def Obligations.EncodeDecode : Prop :=
  ∀ (w : Nat) (i : Instr),
    (w < 2 ^ 64 → decodeTableWord 64 w = some i → wellFormed i = true ∧
      encode i = [if wordSlot w = 2 then w % 2 ^ 60 + 2 ^ 60 + 2 ^ 63 else w % 2 ^ 63 + 2 ^ 63]) ∧
    (w < 2 ^ 32 → decodeTableWord 32 w = some i → wellFormed i = true ∧ encode i = [w])

/-- Memory keeps its canonical form: whatever state a step starts from, if its memory is canonical, so is the next. The
canonical form is the model's own (log 1). -/
def Obligations.StepKeepsMemory : Prop :=
  ∀ s t : State, s.mem.wf = true → step s = .next t → t.mem.wf = true

/-- Memory's laws: a byte written reads back, every other byte is kept, and the canonical form stays. Equal memories are equal
data: two memories in canonical form that read alike are one. -/
def Obligations.MemoryLaws : Prop :=
  (
    ∀ (m : Memory) (a : Nat) (b : Byte), m.wf = true →
      (m.setByte a b).wf = true ∧ (m.setByte a b).byte a = b ∧ (∀ c, c ≠ a → (m.setByte a b).byte c = m.byte c) ∧
      (m.mark a).wf = true ∧ (m.unmark a).wf = true ∧ (∀ c, (m.mark a).byte c = m.byte c) ∧
      (homeOf (physOf a) ≠ .host → (m.mark a).poisoned a = true) ∧ (m.unmark a).poisoned a = false ∧
      (∀ r f g, (m.setTag r f g).wf = true ∧ (m.setTag r f g).tag r = (f, g) ∧
        (∀ q, q ≠ r → (m.setTag r f g).tag q = m.tag q) ∧ ∀ c, (m.setTag r f g).byte c = m.byte c)) ∧
  (
    ∀ m n : Memory, m.wf = true → n.wf = true → (∀ a, m.byte a = n.byte a) →
      (∀ w, setHas m.poison w = setHas n.poison w) → (∀ r, m.tag r = n.tag r) → m = n)

/-- R28, R30, R32, R9, R29: a result. `writeAfter` adds one result in flight and changes nothing else; it lands in its register
at its time and not before; X0 and P0 discard; a later bundle's landed write discards an earlier one still in flight, which then writes
nothing and is waited for to its time. -/
def Obligations.ResultLands : Prop :=
  (∀ (s : State) (lat : Nat) (d : Dest),
    let t := s.writeAfter lat d
    let c := s.core.iss.cur
    (∃ w : PWrite, w.dest = d ∧ w.due = c.sched + lat ∧ w.bundle = c.bundle ∧ w.slot = c.slot ∧ w.dead = false ∧
      ∀ x, x ∈ t.core.iss.pend ↔ x = w ∨ x ∈ s.core.iss.pend) ∧
    t.core.iss = { s.core.iss with pend := t.core.iss.pend } ∧ t.core.regs = s.core.regs ∧ t.core.gate = s.core.gate ∧
    t.core.loads = s.core.loads ∧ t.core.fars = s.core.fars ∧ t.core.engs = s.core.engs ∧ t.core.meter = s.core.meter ∧
    t.core.shadow.regs = s.core.shadow.regs ∧ t.core.shadow.pc = s.core.shadow.pc ∧ t.mem = s.mem ∧ t.dev = s.dev ∧ t.thr = s.thr) ∧
  (∀ (s : State) (w : PWrite), s.core.iss.pend = [w] → s.core.iss.iq = [] →
    (w.dead = false → w.due ≤ s.core.iss.sched → s.land.core.regs = w.dest.apply s.core.regs ∧ s.land.core.iss.pend = []) ∧
    (w.dead = true → w.due ≤ s.core.iss.sched → s.land.core.regs = s.core.regs ∧ s.land.core.iss.pend = []) ∧
    (s.core.iss.sched < w.due → s.land.core.regs = s.core.regs ∧ s.land.core.iss.pend = [w])) ∧
  (∀ (s : State) (v w : PWrite), s.core.iss.pend = [v, w] → s.core.iss.iq = [] → w.due ≤ s.core.iss.sched → s.core.iss.sched < v.due → v.bundle < w.bundle →
    v.dest.key.isSome = true → v.dest.key = w.dest.key → w.dead = false →
    s.land.core.regs = w.dest.apply s.core.regs ∧ s.land.core.iss.pend = [{ v with dead := true }]) ∧
  (∀ (r : Regs) (v : X64) (po : Bool), (Dest.x 0 v po).apply r = r) ∧
  (∀ (r : Regs) (v m : PBits) (po : Bool), (Dest.p 0 v m po).apply r = r) ∧
  (∀ (r : Regs) (i : Nat) (v : X64) (po : Bool), 0 < i → i < 64 →
    let u := (Dest.x i v po).apply r
    vget u.x i 0 = v ∧ vget u.xPoison i false = po ∧ (∀ j, j ≠ i → vget u.x j 0 = vget r.x j 0 ∧
      vget u.xPoison j false = vget r.xPoison j false) ∧ u.v = r.v ∧ u.p = r.p ∧ u.a = r.a ∧ u.n = r.n ∧ u.ch = r.ch ∧ u.k = r.k ∧
      u.q = r.q ∧ u.rrb = r.rrb ∧ u.seq = r.seq ∧ u.arq = r.arq ∧ u.sys = r.sys)

/-- R111, addition, logic and shifts: `op xd, xa, xb`. R111, the immediate forms: b is IMM sign-extended from 40 bits. R115:
MOVI and MOVHI. -/
def Obligations.ScalarIntegers : Prop :=
  (
    ∀ (f : RG) (s : State),
      let a := s.rdX f.a
      let b := s.rdX f.b
      let po := s.poisonX f.a || s.poisonX f.b
      SendsX (.add f) s f.d 1 po (fun v => v.toNat = (a.toNat + b.toNat) % 2 ^ 64) ∧
      SendsX (.sub f) s f.d 1 po (fun v => v.toInt = (a.toInt - b.toInt).bmod (2 ^ 64)) ∧
      SendsX (.and f) s f.d 1 po (fun v => ∀ k, v.getLsbD k = (a.getLsbD k && b.getLsbD k)) ∧
      SendsX (.or f) s f.d 1 po (fun v => ∀ k, v.getLsbD k = (a.getLsbD k || b.getLsbD k)) ∧
      SendsX (.xor f) s f.d 1 po (fun v => ∀ k, v.getLsbD k = (a.getLsbD k != b.getLsbD k)) ∧
      SendsX (.shl f) s f.d 1 po (fun v => v.toNat = a.toNat * 2 ^ (b.toNat % 64) % 2 ^ 64) ∧
      SendsX (.shr f) s f.d 1 po (fun v => v.toNat = a.toNat / 2 ^ (b.toNat % 64)) ∧
      SendsX (.sra f) s f.d 1 po (fun v => v.toInt = a.toInt / 2 ^ (b.toNat % 64)) ∧
      SendsX (.rotr f) s f.d 1 po (fun v => ∀ k, k < 64 → v.getLsbD k = a.getLsbD ((k + b.toNat % 64) % 64)) ∧
      SendsX (.min f) s f.d 1 po (fun v => v.toInt = min a.toInt b.toInt) ∧
      SendsX (.max f) s f.d 1 po (fun v => v.toInt = max a.toInt b.toInt) ∧
      SendsX (.minu f) s f.d 1 po (fun v => v.toNat = min a.toNat b.toNat) ∧
      SendsX (.maxu f) s f.d 1 po (fun v => v.toNat = max a.toNat b.toNat)) ∧
  (
    ∀ (f : IM) (s : State),
      let a := s.rdX f.a
      let po := s.poisonX f.a
      SendsX (.addi f) s f.d 1 po (fun v => v.toInt = (a.toInt + f.imm.toInt).bmod (2 ^ 64)) ∧
      SendsX (.andi f) s f.d 1 po (fun v => ∀ k, k < 64 → v.getLsbD k = (a.getLsbD k && f.imm.getLsbD (min k 39))) ∧
      SendsX (.ori f) s f.d 1 po (fun v => ∀ k, k < 64 → v.getLsbD k = (a.getLsbD k || f.imm.getLsbD (min k 39))) ∧
      SendsX (.xori f) s f.d 1 po (fun v => ∀ k, k < 64 → v.getLsbD k = (a.getLsbD k != f.imm.getLsbD (min k 39))) ∧
      (f.imm.toNat < 64 →
        SendsX (.shli f) s f.d 1 po (fun v => v.toNat = a.toNat * 2 ^ f.imm.toNat % 2 ^ 64) ∧
        SendsX (.shri f) s f.d 1 po (fun v => v.toNat = a.toNat / 2 ^ f.imm.toNat) ∧
        SendsX (.srai f) s f.d 1 po (fun v => v.toInt = a.toInt / 2 ^ f.imm.toNat))) ∧
  (
    ∀ (f : MW) (s : State),
      SendsX (.movi f) s f.d 1 false (fun v => v.toInt = f.imm.toInt) ∧
      SendsX (.movhi f) s f.d 1 (s.poisonX f.d)
        (fun v => ∀ k, k < 64 → v.getLsbD k = if 46 ≤ k then f.imm.getLsbD (k - 46) else (s.rdX f.d).getLsbD k))

/-- R111 and R112: products, quotients and remainders. The conditions of R95 between two 64-bit values. -/
def Obligations.MultiplyDivideCompare : Prop :=
  (
    ∀ (f : RG) (s : State),
      let a := s.rdX f.a
      let b := s.rdX f.b
      let po := s.poisonX f.a || s.poisonX f.b
      SendsX (.mul f) s f.d 3 po (fun v => v.toNat = a.toNat * b.toNat % 2 ^ 64) ∧
      SendsX (.mulh f) s f.d 3 po (fun v => v.toInt = a.toInt * b.toInt / 2 ^ 64) ∧
      SendsX (.mulhu f) s f.d 3 po (fun v => v.toNat = a.toNat * b.toNat / 2 ^ 64) ∧
      SendsX (.div f) s f.d 20 po (fun v => if b = 0 then v = 0xFFFFFFFFFFFFFFFF
        else if a.toInt = -2 ^ 63 ∧ b.toInt = -1 then v.toInt = -2 ^ 63 else v.toInt = a.toInt.tdiv b.toInt) ∧
      SendsX (.rem f) s f.d 20 po (fun v => if b = 0 then v = a
        else v.toInt = a.toInt - a.toInt.tdiv b.toInt * b.toInt) ∧
      SendsX (.divu f) s f.d 20 po (fun v => if b = 0 then v = 0xFFFFFFFFFFFFFFFF else v.toNat = a.toNat / b.toNat) ∧
      SendsX (.remu f) s f.d 20 po (fun v => if b = 0 then v = a else v.toNat = a.toNat % b.toNat)) ∧
  (
    ∀ (f : RG) (s : State),
      let a := s.rdX f.a
      let b := s.rdX f.b
      SendsX (.cmp f) s f.d 1 (s.poisonX f.a || s.poisonX f.b)
        (fun v => v = if CondHolds f.cond a b then 1 else 0) ∧
      SendsX (.sel f) s f.d 1 (s.poisonX f.a || s.poisonX f.b || s.poisonX f.c)
        (fun v => v = if s.rdX f.c ≠ 0 then a else b) ∧
      SendsX (.clz f) s f.d 1 (s.poisonX f.a)
        (fun v => v.toNat ≤ 64 ∧ a.toNat < 2 ^ (64 - v.toNat) ∧ (a ≠ 0 → 2 ^ (63 - v.toNat) ≤ a.toNat)) ∧
      SendsX (.popc f) s f.d 1 (s.poisonX f.a)
        (fun v => v.toNat = ((List.range 64).filter (fun k => a.getLsbD k)).length) ∧
      (f.b.toNat + f.c.toNat + 1 ≤ 64 →
        SendsX (.extr f) s f.d 1 (s.poisonX f.a)
          (fun v => ∀ k, v.getLsbD k = (decide (k ≤ f.c.toNat) && a.getLsbD (f.b.toNat + k))) ∧
        SendsX (.insr f) s f.d 1 (s.poisonX f.a || s.poisonX f.d)
          (fun v => ∀ k, k < 64 → v.getLsbD k =
            if f.b.toNat ≤ k ∧ k ≤ f.b.toNat + f.c.toNat then a.getLsbD (k - f.b.toNat) else (s.rdX f.d).getLsbD k)))

/-- R116 and R117: the scalar float ops of FP32, FP16 and BF16, rounded once; with T = RAW they trap (R45). FADD to FFMA
receive a SEQ (R56). R117: a condition eq to ge on a NaN, and on zeros of either sign. R118: FCVT between the types of codes 0
to 5: the element conversion of T2 to T with draw `sr_draw(0)`; a float result is zero-extended and an integer result
sign-extended (R110), and OVFS follows R68. -/
def Obligations.ScalarFloats : Prop :=
  (
    ∀ (f : RG) (s : State),
      let m := modeOf s f.rnd
      let a := fx s f.t f.a
      let b := fx s f.t f.b
      let c := fx s f.t f.c
      let po := s.poisonX f.a || s.poisonX f.b
      let res := fun (lat : Nat) (x : Machine.Num) (po : Bool) (s : State) (r : Nat) =>
        s.writeAfter lat (.x (s.px f.d) (BitVec.ofNat 64 (roundFloat f.t m f.sat r x).bits) po)
      let r := drawOf s f.rnd 0
      (f.t ≠ .raw →
        exec (.fadd f) s = .next (res 5 (addNum m a b) po s.takeSeq r) ∧
        exec (.fsub f) s = .next (res 5 (subNum m a b) po s.takeSeq r) ∧
        exec (.fmul f) s = .next (res 5 (mulNum a b) po s.takeSeq r) ∧
        exec (.ffma f) s = .next (res 5 (fmaNum m a b c) (po || s.poisonX f.c) s.takeSeq r) ∧
        exec (.fmin f) s = .next (res 2 (minNum a b) po s r) ∧
        exec (.fmax f) s = .next (res 2 (maxNum a b) po s r) ∧
        exec (.fcmp f) s = .next (s.writeAfter 2 (.x (s.px f.d) (if condElem f.cond f.t ((s.rdX f.a).toNat % 2 ^ f.t.width)
          ((s.rdX f.b).toNat % 2 ^ f.t.width) then 1 else 0) po))) ∧
      (f.t = .raw → Traps (.fadd f) s 0x08 0 ∧ Traps (.fsub f) s 0x08 0 ∧ Traps (.fmul f) s 0x08 0 ∧
        Traps (.ffma f) s 0x08 0 ∧ Traps (.fmin f) s 0x08 0 ∧ Traps (.fmax f) s 0x08 0 ∧ Traps (.fcmp f) s 0x08 0)) ∧
  (
    ∀ c : Cond, c.code < 6 →
      (∀ x y : Machine.Num, (x = .nan ∨ y = .nan) → floatCond c x y = decide (c = .ne)) ∧
      (∀ p q : Bool, floatCond c (Machine.Num.zero p) (Machine.Num.zero q) = decide (c = .eq ∨ c = .le ∨ c = .ge))) ∧
  (
    ∀ (f : RG) (s : State), f.t ≠ .raw → f.t2 ≠ .raw →
      let n := s.snap f.rnd
      let w := (s.rdX f.a).toNat % 2 ^ f.t2.width
      let r := (convSpec f.t f.t2 f.sat f.scl n).elem w (drawOf s f.rnd 0) (decodeElem f.t2 w)
      ∃ v : X64, (f.t.isInt = false → v.toNat = r.bits % 2 ^ 64) ∧ (f.t.isInt = true → v.toInt = signedOf f.t.width r.bits) ∧
        exec (.fcvt f) s =
          .next ((s.takeSeq.writeAfter 3 (.x (s.px f.d) v (s.poisonX f.a))).putOvfs 3 f.scl r.ovf))

/-- R120: the branches. `br`, `call`, `bc` and `brl` go to the bundle's address plus 8 × OFF, `ret` and `jmpx` to a register; a
poisoned condition, target or counter traps (R359), and a rotating counter of BRL traps (R15). R35 and R36: REP records its body of N
bundles and CNT passes, LOOPB its range. -/
def Obligations.ControlFlow : Prop :=
  (
    ∀ (f : BRF) (g : RG) (s : State),
      let target := (BitVec.ofInt 64 (s.core.iss.cur.addr + 8 * f.off.toInt)).toNat
      let goes := fun (t : State) (a : Nat) => t.mapIss (fun i => { i with next := .taken a })
      let link := fun (d : Reg) => s.writeAfter 1 (.x (s.px d) (BitVec.ofNat 64 s.core.iss.cur.after) false)
      exec (.br f) s = .next (goes s target) ∧
      exec (.call f) s = .next (goes (link f.d) target) ∧
      (s.poisonX f.d = false →
        exec (.bc f) s = .next (if CondHolds f.cond (s.rdX f.d) 0 then goes s target else s)) ∧
      (s.poisonX f.d = true → Traps (.bc f) s 0x0B (BitVec.ofNat 64 (s.core.iss.cur.slot * 2 ^ 16 + f.d.toNat))) ∧
      (f.d.toNat < 48 → s.poisonX f.d = false →
        exec (.brl f) s = .next
          (let t := (s.writeAfter 1 (.x (s.px f.d) (s.rdX f.d - 1) false)).mapRegs (fun r =>
            { r with rrb := rrbStep s.core.nV r.rrb })
           if s.rdX f.d = 1 then t else goes t target)) ∧
      (f.d.toNat < 48 → s.poisonX f.d = true →
        Traps (.brl f) s 0x0B (BitVec.ofNat 64 (s.core.iss.cur.slot * 2 ^ 16 + f.d.toNat))) ∧
      (48 ≤ f.d.toNat → Traps (.brl f) s 0x10 0) ∧
      (s.poisonX g.a = false → exec (.ret g) s = .next (goes s (s.rdX g.a).toNat) ∧
        exec (.jmpx g) s = .next (goes (link g.d) (s.rdX g.a).toNat)) ∧
      (s.poisonX g.a = true → Traps (.ret g) s 0x0B (BitVec.ofNat 64 (s.core.iss.cur.slot * 2 ^ 16 + g.a.toNat)) ∧
        Traps (.jmpx g) s 0x0B (BitVec.ofNat 64 (s.core.iss.cur.slot * 2 ^ 16 + g.a.toNat)))) ∧
  (
    ∀ (f : RP) (s : State),
      let at' := s.core.iss.cur.after
      let body : RepState := { start := at', cursor := at', len := f.n.toNat, left := f.n.toNat, passes := f.cnt.toNat - 1 }
      let range : LoopBuf := { start := at', left := f.n.toNat, addrs := [], words := [] }
      exec (.rep f) s = .next (s.mapRegs (fun r => { r with rep := some body })) ∧
      exec (.loopb f) s = .next (s.mapRegs (fun r => { r with loopb := some range })))

/-- R14, R15: the rotation. The static registers keep their numbers, each rotating region is permuted within itself, and after
BRL's step the register that was Xn is X(n+1). With fewer than 64 V registers VB becomes 0, and the V registers keep their numbers. -/
def Obligations.Rotation : Prop :=
  ∀ (rrb : X64) (nV : Nat),
    (∀ n, n < 48 → physX rrb n = n) ∧ (∀ n, n < 32 → physV rrb n = n) ∧ (∀ n, n < 8 → physP rrb n = n) ∧
    (∀ n, 48 ≤ n → n < 64 → 48 ≤ physX rrb n ∧ physX rrb n < 64) ∧
    (∀ n, 32 ≤ n → n < 64 → 32 ≤ physV rrb n ∧ physV rrb n < 64) ∧
    (∀ n, 8 ≤ n → n < 16 → 8 ≤ physP rrb n ∧ physP rrb n < 16) ∧
    (∀ m n, m < 64 → n < 64 → physX rrb m = physX rrb n → m = n) ∧
    (∀ m n, m < 64 → n < 64 → physV rrb m = physV rrb n → m = n) ∧
    (∀ m n, m < 16 → n < 16 → physP rrb m = physP rrb n → m = n) ∧
    (∀ n, 48 ≤ n → n < 63 → physX (rrbStep nV rrb) (n + 1) = physX rrb n) ∧
    (nV = 64 → ∀ n, 32 ≤ n → n < 63 → physV (rrbStep nV rrb) (n + 1) = physV rrb n) ∧
    (nV < 64 → rrbVB (rrbStep nV rrb) = 0 ∧ ∀ n, n < 64 → physV (rrbStep nV rrb) n = n) ∧
    (∀ n, 8 ≤ n → n < 15 → physP (rrbStep nV rrb) (n + 1) = physP rrb n)

/-- R108: an element of a vector destination takes the result where the guard enables it and keeps its value elsewhere. -/
def Obligations.GuardedResult : Prop :=
  ∀ (r : Regs) (i w n : Nat) (val : Nat → Nat) (po : Nat → Bool) (g : PBits × Bool),
    i < 64 → (w = 8 ∨ w = 16 ∨ w = 32 ∨ w = 64) → w * n = 2048 → (∀ e, val e < 2 ^ w) →
    let m := (VRes.mk w (elems n val po)).image g
    let r' := (Dest.v i m.1 m.2.1 m.2.2).apply r
    (∀ e, e < n → lane w (vget r'.v i 0, 0) e = if g.1.getLsbD (e * w / 8) then val e else lane w (vget r.v i 0, 0) e) ∧
    (∀ j, j ≠ i → vget r'.v j 0 = vget r.v j 0 ∧ vget r'.vPoison j 0 = vget r.vPoison j 0) ∧
    r'.x = r.x ∧ r'.p = r.p ∧ r'.a = r.a ∧ r'.sys = r.sys

/-- R122: vector arithmetic on two sources, float and integer. R122: vector logic and shifts. R13, R45, R109, R295, R98: where
a vector op traps: a V register beyond the allocation, RAW, or a stream that QSEL names unbound. The TRAPVAL of a register that
is not allocated is the model's reading (log 15). -/
def Obligations.VectorBinary : Prop :=
  (
    ∀ (f : RG) (s : State), isElem f.t = true → VecReady f vf2 [f.t] s →
      let w := f.t.width
      let n := 2048 / w
      let qa := s.vecSrc f .a f.a
      let qb := s.vecSrc f .b f.b
      let a := fun e => lane w qa e
      let b := fun e => lane w qb e
      let x := fun e => decodeFloat f.t (a e)
      let y := fun e => decodeFloat f.t (b e)
      let i := fun e => signedOf w (a e)
      let j := fun e => signedOf w (b e)
      let m := modeOf s f.rnd
      let rnd := fun e (z : Machine.Num) => (roundFloat f.t m false (drawOf s f.rnd e) z).bits
      let po := fun e => laneBad w qa e || laneBad w qb e
      SendsV (.vadd f) f s 2 true w n (fun e => if f.t.isFloat then rnd e (addNum m (x e) (y e)) else wrapInt w (i e + j e)) po ∧
      SendsV (.vsub f) f s 2 true w n (fun e => if f.t.isFloat then rnd e (subNum m (x e) (y e)) else wrapInt w (i e - j e)) po ∧
      SendsV (.vmul f) f s 5 true w n (fun e => if f.t.isFloat then rnd e (mulNum (x e) (y e)) else wrapInt w (i e * j e)) po ∧
      SendsV (.vmin f) f s 2 false w n (fun e => if f.t.isFloat then (roundFloat f.t .rne false 0 (minNum (x e) (y e))).bits
        else wrapInt w (min (i e) (j e))) po ∧
      SendsV (.vmax f) f s 2 false w n (fun e => if f.t.isFloat then (roundFloat f.t .rne false 0 (maxNum (x e) (y e))).bits
        else wrapInt w (max (i e) (j e))) po ∧
      SendsV (.vadds f) f s 2 false w n (fun e =>
        wrapInt w (max (-2 ^ (w - 1) : Int) (min (i e + j e) (2 ^ (w - 1) - 1)))) po ∧
      SendsV (.vsubs f) f s 2 false w n (fun e =>
        wrapInt w (max (-2 ^ (w - 1) : Int) (min (i e - j e) (2 ^ (w - 1) - 1)))) po ∧
      SendsV (.vmulh f) f s 5 false w n (fun e => wrapInt w (i e * j e / 2 ^ w)) po) ∧
  (
    ∀ (f : RG) (s : State), isElem f.t = true → VecReady f vf2 [f.t] s →
      let w := f.t.width
      let n := 2048 / w
      let qa := s.vecSrc f .a f.a
      let qb := s.vecSrc f .b f.b
      let a := fun e => lane w qa e
      let b := fun e => lane w qb e
      let po := fun e => laneBad w qa e || laneBad w qb e
      SendsV (.vand f) f s 2 false w n (fun e => a e &&& b e) po ∧
      SendsV (.vor f) f s 2 false w n (fun e => a e ||| b e) po ∧
      SendsV (.vxor f) f s 2 false w n (fun e => a e ^^^ b e) po ∧
      SendsV (.vshl f) f s 2 false w n (fun e => a e * 2 ^ (b e % w) % 2 ^ w) po ∧
      SendsV (.vshr f) f s 2 false w n (fun e => a e / 2 ^ (b e % w)) po ∧
      SendsV (.vsra f) f s 2 false w n (fun e => wrapInt w (signedOf w (a e) / 2 ^ (b e % w))) po) ∧
  (
    ∀ (f : RG) (s : State),
      let all := f.d.toNat < s.core.nV ∧ f.a.toNat < s.core.nV ∧ f.b.toNat < s.core.nV
      (f.qsel = .none → all → f.t = .raw → Traps (.vadd f) s 0x08 0 ∧ Traps (.vand f) s 0x08 0 ∧ Traps (.vperm f) s 0x08 0) ∧
      (f.qsel = .none → ¬ (f.d.toNat < s.core.nV) → f.a.toNat < s.core.nV → f.b.toNat < s.core.nV →
        Traps (.vadd f) s 0x03 (BitVec.ofNat 64 (s.core.iss.cur.slot * 2 ^ 16 + 46 * 2 ^ 8))) ∧
      (f.qsel = .a → f.d.toNat < s.core.nV → f.b.toNat < s.core.nV → f.t ≠ .raw → s.rdQ f.a.toNat = none →
        Traps (.vadd f) s 0x0E 0))

/-- R122 and R126: the ops of one source. That VRCP to VLOG2 are R66's functions correctly rounded as the model's `rcpNum`, `rsqNum`,
`sqrtNum`, `exp2Num` and `log2Fn` evaluate them is presumed (log 14). R122 and R123: fused multiply-add, and the widening products of the
low elements. -/
def Obligations.VectorUnaryFused : Prop :=
  (
    ∀ (f : RG) (s : State), isElem f.t = true → VecReady f vf1 [f.t] s →
      let w := f.t.width
      let n := 2048 / w
      let qa := s.vecSrc f .a f.a
      let a := fun e => lane w qa e
      let x := fun e => decodeFloat f.t (a e)
      let rnd := fun e (z : Machine.Num) => (roundFloat f.t (modeOf s f.rnd) false (drawOf s f.rnd e) z).bits
      let exact := fun (z : Machine.Num) => (roundFloat f.t .rne false 0 z).bits
      let po := fun e => laneBad w qa e
      SendsV (.vneg f) f s 2 false w n (fun e => if f.t.isFloat then exact (x e).neg else wrapInt w (-signedOf w (a e))) po ∧
      SendsV (.vabs f) f s 2 false w n (fun e => if f.t.isFloat then exact (x e).abs else wrapInt w |signedOf w (a e)|) po ∧
      SendsV (.vnot f) f s 2 false w n (fun e => 2 ^ w - 1 - a e) po ∧
      SendsV (.vmov f) f s 2 false w n a po ∧
      SendsV (.vrcp f) f s 8 true w n (fun e => rnd e (rcpNum (x e))) po ∧
      SendsV (.vrsq f) f s 8 true w n (fun e => rnd e (rsqNum (x e))) po ∧
      SendsV (.vsqrt f) f s 8 true w n (fun e => rnd e (sqrtNum (x e))) po ∧
      SendsV (.vexp2 f) f s 8 true w n (fun e => rnd e (exp2Num (x e))) po ∧
      SendsV (.vlog2 f) f s 8 true w n (fun e => rnd e (log2Fn (x e))) po) ∧
  (
    ∀ (f : RG) (s : State),
      let w := f.t.width
      let qa := s.vecSrc f .a f.a
      let qb := s.vecSrc f .b f.b
      let qc := s.vecSrc f .c f.c
      let qd := (s.rdV f.d, s.poisonV f.d)
      let m := modeOf s f.rnd
      let x := fun q e => decodeFloat f.t (lane w q e)
      let rnd := fun e (z : Machine.Num) => (roundFloat f.t m false (drawOf s f.rnd e) z).bits
      let prod := fun e => signedOf w (lane w qa e) * signedOf w (lane w qb e)
      let po := fun e => laneBad w qa e || laneBad w qb e
      (isElem f.t = true → VecReady f vf3 [f.t] s →
        SendsV (.vfma f) f s 5 true w (2048 / w) (fun e => rnd e (fmaNum m (x qa e) (x qb e) (x qc e)))
          (fun e => po e || laneBad w qc e) ∧
        SendsV (.vfms f) f s 5 true w (2048 / w) (fun e => rnd e (fmaNum m (x qa e) (x qb e) (x qc e).neg))
          (fun e => po e || laneBad w qc e)) ∧
      (isElem f.t = true → VecReady f vf2 [f.t] s →
        SendsV (.vmulw f) f s 5 false (2 * w) (2048 / (2 * w)) (fun e => wrapInt (2 * w) (prod e)) po ∧
        SendsV (.vmacw f) f s 5 false (2 * w) (2048 / (2 * w))
          (fun e => wrapInt (2 * w) (signedOf (2 * w) (lane (2 * w) qd e) + prod e)) (fun e => po e || laneBad (2 * w) qd e)))

/-- R127: VCVT between element types: the elements that both types have room for, each converted by R118 with its draw, and
OVFS for those the guard enables (log 17). R127 and R128, the SX types: VCVT quantises each group of sixteen FP32 elements,
VPACKSX writes the four blocks' bytes and zeros above them, VUNPKSX decodes four blocks; an element the guard disables enters
an encoding as +0. That a guard hides the saturation of its disabled elements from OVFS is the model's reading (log 17). -/
def Obligations.VectorConversions : Prop :=
  (
    ∀ (f : RG) (s : State), isElem f.t = true → isElem f.t2 = true → VecReady f vf1 [f.t, f.t2] s →
      let w := f.t.width
      let n := 2048 / max w f.t2.width
      let q := s.vecSrc f .a f.a
      let r := fun e => (convSpec f.t f.t2 f.sat f.scl (s.snap f.rnd)).elem (lane f.t2.width q e) (drawOf s f.rnd e)
        (decodeElem f.t2 (lane f.t2.width q e))
      ∃ ovf : Bool, (ovf = true ↔ ∃ e, e < n ∧ (r e).ovf = true ∧ enabled s f.g w e = true) ∧
        exec (.vcvt f) s = .next ((((s.putV f 3 ⟨w, elems n (fun e => (r e).bits) (laneBad f.t2.width q)⟩).useStream f).putOvfs 3
          f.scl ovf).takeSeq)) ∧
  (
    ∀ (f : RG) (s : State), f.t.isSx = true →
      let q := s.vecSrc f .a f.a
      let k := sxMag f.t
      let bs := blockBytes f.t
      let x := fun e => if enabled s f.g 32 e then decodeFloat .fp32 (lane 32 q e) else Machine.Num.zero false
      let group := fun (h : Nat) => (List.range 16).map (fun j => x (16 * h + j))
      let block := fun (r : Rnd) (c : Scl) (h : Nat) =>
        (convSpec f.t .fp32 f.sat c (s.snap r)).block (group h) (fun j => drawOf s r (16 * h + j))
      let value := fun (b : SxBlock) (j : Nat) => (roundFloat .fp32 .rne false 0 (sxDecode k b j)).bits
      (f.t2 = .fp32 → VecReady f vf1 [f.t, f.t2] s →
        ∃ (po : Nat → Bool) (ovf : Bool), (ovf = true ↔ ∃ h, h < 4 ∧ (block f.rnd f.scl h).2 = true) ∧
          exec (.vcvt f) s = .next ((((s.putV f 3 ⟨32, elems 64 (fun e => value (block f.rnd f.scl (e / 16)).1 (e % 16)) po⟩).useStream
            f).putOvfs 3 f.scl ovf).takeSeq)) ∧
      (VecReady f vf1 [f.t] s →
        (∃ po : Nat → Bool, exec (.vpacksx f) s = .next (((s.putVWith f 3 (BitVec.allOnes 256, false) ⟨8, elems 256 (fun i =>
            if i < 4 * bs then sxPack k (block .dyn .none (i / bs)).1 / 2 ^ (8 * (i % bs)) % 256 else 0) po⟩).useStream f).takeSeq)) ∧
        (∃ po : Nat → Bool, exec (.vunpksx f) s = .next ((s.putV f 3 ⟨32, elems 64 (fun e =>
            value (sxUnpack k (q.1.toNat / 2 ^ (8 * bs * (e / 16)) % 2 ^ (8 * bs))) (e % 16)) po⟩).useStream f))))

/-- R129: a reduction folds the enabled elements from lane 0 up and writes lane 0 and zeros. -/
def Obligations.VectorReductions : Prop :=
  ∀ (f : RG) (s : State), isElem f.t = true → f.qsel = .none → VecReady f vf1 [f.t] s →
    let w := f.t.width
    let q := s.vecSrc f .a f.a
    let on := (List.range (2048 / w)).filter (fun e => enabled s f.g w e)
    let x := fun e => decodeFloat f.t (lane w q e)
    let i := fun e => signedOf w (lane w q e)
    let fp := fun (z : Machine.Num) => (roundFloat .fp32 .rne false 0 z).bits
    let foldF := fun (op : Nat → Machine.Num → Machine.Num → Machine.Num) (z : Machine.Num) =>
      match on with
      | [] => fp z
      | e :: l => fp (l.foldl (fun acc e => op e acc (x e)) (x e))
    let foldI := fun (op : Int → Int → Int) (z : Int) =>
      match on with
      | [] => wrapInt 32 z
      | e :: l => wrapInt 32 (l.foldl (fun acc e => op acc (i e)) (i e))
    let step := fun e acc v =>
      decodeFloat .fp32 (roundFloat .fp32 (modeOf s f.rnd) false (drawOf s f.rnd e) (addNum (modeOf s f.rnd) acc v)).bits
    let po := decide (∃ e ∈ on, (laneBad w q e || s.poisonP f.g.toNat) = true)
    let res := fun (v : Nat) => s.writeAfter 12 (.v (s.pv f.d) (BitVec.ofNat 2048 (v % 2 ^ 32)) (BitVec.allOnes 256)
      (if po then 1 else 0))
    exec (.vredadd f) s = .next (res (if f.t.isFloat then foldF step (Machine.Num.zero false)
      else foldI (fun a b => signedOf 32 (wrapInt 32 (a + b))) 0)).takeSeq ∧
    exec (.vredmax f) s = .next (res (if f.t.isFloat then foldF (fun _ a b => maxNum a b) (.inf true)
      else foldI max (-2 ^ (w - 1)))) ∧
    exec (.vredmin f) s = .next (res (if f.t.isFloat then foldF (fun _ a b => minNum a b) (.inf false)
      else foldI min (2 ^ (w - 1) - 1)))

/-- R124 and R125: VCMP writes the predicate bits of the elements its guard enables; VSEL copies bits. R130: the moves of
elements. The poison of a selection and of a predicate result is the model's reading (log 40). -/
def Obligations.VectorMoves : Prop :=
  (
    ∀ (f : RG) (s : State), isElem f.t = true →
      let w := f.t.width
      let n := 2048 / w
      let qa := s.vecSrc f .a f.a
      let qb := s.vecSrc f .b f.b
      (VecReady f { d := false, a := true, b := true, c := false } [f.t] s →
        ∃ (v m : PBits) (po : Bool),
          (∀ e k, e < n → k < w / 8 → v.getLsbD (e * w / 8 + k) = condElem f.cond f.t (lane w qa e) (lane w qb e)) ∧
          (∀ e k, e < n → k < w / 8 → m.getLsbD (e * w / 8 + k) = enabled s f.g w e) ∧
          (po = true ↔ s.poisonP f.g.toNat = true ∨ ∃ e, e < n ∧ (laneBad w qa e || laneBad w qb e) = true) ∧
          exec (.vcmp f) s = .next ((s.writeAfter 2 (.p (s.pp f.d.toNat) v m po)).useStream f)) ∧
      (VecReady f vf2 [f.t] s →
        SendsV (.vsel f) f s 2 false w n
          (fun e => if (s.rdP f.c.toNat).getLsbD (e * w / 8) then lane w qa e else lane w qb e)
          (fun e => (if (s.rdP f.c.toNat).getLsbD (e * w / 8) then laneBad w qa e else laneBad w qb e) ||
            s.poisonP f.c.toNat))) ∧
  (
    ∀ (f : RG) (g : VI) (s : State), isElem f.t = true →
      let w := f.t.width
      let n := 2048 / w
      let qa := s.vecSrc f .a f.a
      let qb := s.vecSrc f .b f.b
      let b := s.rdX f.b
      let pb := s.poisonX f.b
      let k := b.toNat % n
      let one := fun (d : Bool) => VFields.mk d false false false
      (VecReady f vf1 [f.t] s →
        SendsV (.vbcast f) f s 2 false w n (fun _ => lane w qa k) (fun _ => laneBad w qa k || pb) ∧
        SendsV (.vslide f) f s 2 false w n
          (fun e => if 0 ≤ (e : Int) + b.toInt ∧ (e : Int) + b.toInt < n then lane w qa ((e : Int) + b.toInt).toNat else 0)
          (fun e => (decide (0 ≤ (e : Int) + b.toInt ∧ (e : Int) + b.toInt < n) && laneBad w qa ((e : Int) + b.toInt).toNat) || pb)) ∧
      (VecReady f vf2 [f.t] s →
        SendsV (.vperm f) f s 2 false w n (fun e => lane w qa (lane w qb e % n))
          (fun e => laneBad w qa (lane w qb e % n) || laneBad w qb e)) ∧
      (VecReady f (one true) [f.t] s → SendsV (.viota f) f s 2 false w n (fun e => e % 2 ^ w) (fun _ => false)) ∧
      (VecReady f { d := false, a := true, b := false, c := false } [f.t] s →
        ∃ v : X64, (f.t.isInt = true → v.toInt = signedOf w (lane w qa k)) ∧ (f.t.isInt = false → v.toNat = lane w qa k) ∧
          exec (.vext f) s = .next ((if enabled s f.g w k then
            s.writeAfter 2 (.x (s.px f.d) v (laneBad w qa k || pb || s.poisonP f.g.toNat)) else s).useStream f)) ∧
      (f.qsel = .none → VecReady f (one true) [f.t] s →
        ∃ m : PBits, (∀ i, i < 256 → m.getLsbD i = (decide (i / (w / 8) = k) && (s.rdP f.g.toNat).getLsbD i)) ∧
          exec (.vins f) s = .next (s.putVWith f 2 (m, s.poisonP f.g.toNat)
            ⟨w, elems n (fun _ => (s.rdX f.a).toNat % 2 ^ w) (fun _ => s.poisonX f.a || pb)⟩)) ∧
      (isElem g.t = true → g.d.toNat < s.core.nV →
        let m := (VRes.mk g.t.width (elems (2048 / g.t.width) (fun _ => g.imm.toNat % 2 ^ g.t.width) (fun _ => false))).image
          (s.guard g.g)
        Sends (.vmovi g) s 2 (.v (s.pv g.d) m.1 m.2.1 m.2.2)))

/-- R132: the predicate ops. -/
def Obligations.PredicateOps : Prop :=
  ∀ (f : RG) (s : State),
    let a := s.rdP f.a.toNat
    let b := s.rdP f.b.toNat
    let x := s.rdX f.a
    let pa := s.poisonP f.a.toNat
    let pb := s.poisonP f.b.toNat
    let puts := fun (i : Instr) (po : Bool) (bit : Nat → Bool) =>
      ∃ v : PBits, (∀ k, k < 256 → v.getLsbD k = bit k) ∧ Sends i s 2 (.p (s.pp f.d.toNat) v (BitVec.allOnes 256) po)
    puts (.pand f) (pa || pb) (fun k => a.getLsbD k && b.getLsbD k) ∧
    puts (.por f) (pa || pb) (fun k => a.getLsbD k || b.getLsbD k) ∧
    puts (.pxor f) (pa || pb) (fun k => a.getLsbD k != b.getLsbD k) ∧
    puts (.pnot f) pa (fun k => !a.getLsbD k) ∧
    puts (.pmov f) pa (fun k => a.getLsbD k) ∧
    puts (.pset f) (s.poisonX f.a) (fun k => x.getLsbD (k % 64)) ∧
    (f.t ≠ .raw → puts (.plen f) (s.poisonX f.a)
      (fun k => decide (k < min x.toNat (2048 / f.t.width) * (f.t.width / 8)))) ∧
    SendsX (.pcnt f) s f.d 2 pa (fun v => v.toNat = ((List.range 256).filter (fun k => a.getLsbD k)).length)

/-- R239, R238, R244: LD and ST of the own local store. LD gives the bytes little-endian, zero- or sign-extended, and a
poisoned zero where a byte is poisoned; ST takes a gate entry with its bytes, at the address that the base and offset give. The
frame of ST (R347): the strand's next bundle reads Xd's bytes at the computed address, and every other byte as before; memory
itself, the registers and the device change only when the gate releases the entry. -/
def Obligations.LocalScalars : Prop :=
  (
    ∀ (f : MS) (s : State),
      let a := addrOf s f.a f.off.toInt
      let n := widthBytes f.w
      let trap := fun (c : Nat) (v : Nat) => Traps (.ld f) s c (BitVec.ofNat 64 v) ∧ Traps (.st f) s c (BitVec.ofNat 64 v)
      (s.poisonX f.a = false → LocalRange s a n →
        (∃ v : X64,
          (localBad s a n = true → v = 0) ∧
          (localBad s a n = false → f.u = true → v.toNat = localNum s a n) ∧
          (localBad s a n = false → f.u = false → v.toInt = signedOf (8 * n) (localNum s a n)) ∧
          exec (.ld f) s = .next (let t := s.writeAfter 6 (.x (s.px f.d) v (localBad s a n))
            if localBad s a n then t.writeAfter 6 .loaded else t)) ∧
        (s.core.gate.length < 64 →
          exec (.st f) s = .next (s.gatePush (.store {
            cells := (List.range n).map (fun i => (ownLs (a + i), BitVec.ofNat 8 ((s.rdX f.d).toNat / 256 ^ i))),
            poisoned := if s.poisonX f.d then (List.range n).map (fun i => ownLs (a + i)) else [], ovfs := false })))) ∧
      (s.poisonX f.a = true → trap 0x0B (s.core.iss.cur.slot * 2 ^ 16 + f.a.toNat)) ∧
      (s.poisonX f.a = false → lsSize ≤ a → trap 0x08 a) ∧
      (s.poisonX f.a = false → a < lsSize → lsSize < a + n → trap 0x06 lsSize)) ∧
  (
    ∀ (f : MS) (s t : State), s.mem.wf = true → s.poisonX f.a = false →
      let a := addrOf s f.a f.off.toInt
      let n := widthBytes f.w
      LocalRange s a n → s.core.gate.length < 64 → exec (.st f) s = .next t →
      (∀ i, i < n → seenAfter t (ownLs (a + i)) = BitVec.ofNat 8 ((s.rdX f.d).toNat / 256 ^ i)) ∧
      (∀ c, (∀ i, i < n → c ≠ ownLs (a + i)) → seenAfter t c = seenAfter s c) ∧
      t.mem = s.mem ∧ t.dev = s.dev ∧ t.core.regs = s.core.regs ∧ t.core.iss = s.core.iss ∧ t.core.shadow = s.core.shadow)

/-- R346, R360: a released store writes its bytes in order and no other byte; a poisoned byte at a host home is written as 0.
R345, R346: the gate. Committing the point before bundle `b` performs the local stores of earlier bundles, in bundle order and
ascending slot order within a bundle, and keeps the entries of later ones. -/
def Obligations.StoreGate : Prop :=
  (
    ∀ (d : StoreData) (s : State), s.mem.wf = true →
      (s.performStore d).mem.wf = true ∧
      (∀ c, (∀ q ∈ d.cells, q.1 ≠ c) → (s.performStore d).mem.byte c = s.mem.byte c) ∧
      (∀ pre q post, d.cells = pre ++ q :: post → (∀ r ∈ post, r.1 ≠ q.1) →
        (s.performStore d).mem.byte q.1 = if homeOf (physOf q.1) = .host ∧ q.1 ∈ d.poisoned then 0 else q.2) ∧
      (s.performStore d).mem.tags = s.mem.tags) ∧
  (
    ∀ (s : State) (b pc : Nat), (∀ e ∈ s.core.gate, ∃ d, e.op = .store d) →
      (s.core.releasing b).Perm (s.core.gate.filter (fun e => decide (e.bundle < b))) ∧
      (s.core.releasing b).Pairwise (fun d e => d.bundle < e.bundle ∨ d.bundle = e.bundle ∧ d.slot ≤ e.slot) ∧
      (s.commitAt b pc).core.gate = s.core.gate.filter (fun e => decide (b ≤ e.bundle)) ∧
      (s.commitAt b pc).mem = (s.core.releasing b).foldl (fun m e =>
        match e.op with
        | .store d => m.store d.cells d.poisoned
        | _ => m) s.mem ∧
      (s.commitAt b pc).core.shadow.pc = pc ∧ (s.commitAt b pc).core.shadow.bundle = b ∧
      (s.commitAt b pc).core.shadow.regs = (s.commitAt b pc).core.regs ∧ (s.commitAt b pc).core.accs = [])

/-- R233, R236, R240: VLD, VLDS and VLDX of the own local store, where the access's checks pass: the image of the enabled
pieces goes to the register under the guard after 6 cycles, or to the stream. R233, R236: the elements that a contiguous local
load of a region in its own format gives: element e is the number at the address plus e times its bytes, a poisoned zero where
a byte of it is poisoned, for the elements the guard enables. R234, R236, R240: VST, VSTS and VSTX take one gate entry whose
cells lie at the bytes of the enabled pieces, in ascending element, and a SEQ; a stream's image is used. -/
def Obligations.LocalVectors : Prop :=
  (
    ∀ (f : MV) (g : MVX) (s : State),
      (LoadRegs s f.d f.q f.a → s.chkLocal (addrOf s f.a f.off.toInt) f.t false .contiguous (s.guard f.g) = .ok →
        exec (.vld f) s = .next (s.putLoad f.d f.q
          (s.localImage (addrOf s f.a f.off.toInt) f.t .contiguous (s.guard f.g)))) ∧
      (LoadRegs s g.d g.q g.a → s.poisonX g.b = false →
        s.chkLocal (addrOf s g.a g.off.toInt) g.t false (.strided (s.rdX g.b).toInt) (s.guard g.g) = .ok →
        exec (.vlds g) s = .next (s.putLoad g.d g.q
          (s.localImage (addrOf s g.a g.off.toInt) g.t (.strided (s.rdX g.b).toInt) (s.guard g.g)))) ∧
      (LoadRegs s g.d g.q g.a → g.b.toNat < s.core.nV → s.chkIndex g.b g.t g.g = .ok →
        s.chkLocal (addrOf s g.a g.off.toInt) g.t false (s.index g.b g.t) (s.guard g.g) = .ok →
        exec (.vldx g) s = .next (s.putLoad g.d g.q
          (s.localImage (addrOf s g.a g.off.toInt) g.t (s.index g.b g.t) (s.guard g.g))))) ∧
  (
    ∀ (s : State) (a : Nat) (t : Fmt) (g : BitVec 4), isElem t = true →
      ((s.view.tag (regionOf (ownLs a))).1 = .raw ∨ (s.view.tag (regionOf (ownLs a))).1 = t) →
      let w := t.width
      let k := w / 8
      s.localImage a t .contiguous (s.guard g) = (VRes.mk w (elems (2048 / w)
        (fun e => if enabled s g w e && !localBad s (a + e * k) k then localNum s (a + e * k) k else 0)
        (fun e => enabled s g w e && localBad s (a + e * k) k))).image (s.guard g)) ∧
  (
    ∀ (f : MV) (g : MVX) (s : State),
      let stored := fun (i : Instr) (d : Reg) (q : Bool) (t : Fmt) (rnd : Rnd) (sat : Bool) (scl : Scl) (addr : Nat) (sp : Spread)
          (gd : BitVec 4) =>
        ∃ v, localAccess s.view addr t true sp (s.guard gd) = some v ∧
          exec i s = .next (((s.gatePush (.store ((StoreSpec.mk v.sh t v.f v.g (s.snap rnd) sat scl).data
            (elemsOf v.sh.rw (storeData s d q)) v.guard v.pieces ((rangesAddrs v.ranges).map ownLs)))).useImage d q).takeSeq)
      (StoreRegs s f.d f.q f.a → s.chkLocal (addrOf s f.a f.off.toInt) f.t true .contiguous (s.guard f.g) = .ok →
        stored (.vst f) f.d f.q f.t f.rnd f.sat f.scl (addrOf s f.a f.off.toInt) .contiguous f.g) ∧
      (StoreRegs s g.d g.q g.a → s.poisonX g.b = false →
        s.chkLocal (addrOf s g.a g.off.toInt) g.t true (.strided (s.rdX g.b).toInt) (s.guard g.g) = .ok →
        stored (.vsts g) g.d g.q g.t g.rnd g.sat g.scl (addrOf s g.a g.off.toInt) (.strided (s.rdX g.b).toInt) g.g) ∧
      (StoreRegs s g.d g.q g.a → g.b.toNat < s.core.nV → s.chkIndex g.b g.t g.g = .ok →
        s.chkLocal (addrOf s g.a g.off.toInt) g.t true (s.index g.b g.t) (s.guard g.g) = .ok →
        stored (.vstx g) g.d g.q g.t g.rnd g.sat g.scl (addrOf s g.a g.off.toInt) (s.index g.b g.t) g.g))

/-- R239, R242, R230: FLD leaves the core as a far load whose register waits for it; FST takes a gate entry with its bytes at
the homes of its addresses. Neither waits while the queues have room. R230, R352: a far access whose first byte no entry maps
does not trap before its bundle: the lookup fault is noted, with cause 0x06 and the byte's address. R233, R234, R242: VFLD and
VFST where the access's checks pass: the load leaves the core with its register waiting, or for its stream; the store
takes a gate entry and a SEQ. R293, R345: a load for a stream takes one gate entry and its image's place in the stream at issue, and the
image, the one that the loaded bytes give a register, comes with the load's return: into that entry, or, released, behind the images
of the stream. That it counts as an image at issue, its place being kept by the gate entry, is the model's choice (log 4). -/
def Obligations.FarAccesses : Prop :=
  (
    ∀ (f : MS) (s : State),
      let a := addrOf s f.a f.off.toInt
      let n := widthBytes f.w
      let st := stretches s.core.table 300 a n
      (s.poisonX f.a = false → Permitted s .load a n → s.meetsAtomic (s.partsOf st) = false → s.core.loads.length < 16 →
        Runs (.fld f) s (fun t =>
          (∃ l : FarLoad, t.core.loads = s.core.loads ++ [l] ∧ l.parts = s.partsOf st ∧ l.acq = f.ord ∧ l.reg = s.px f.d ∧
            l.form = .scalar f.u ∧ l.bundle = s.core.iss.cur.bundle ∧ l.stream = none ∧
            (l.inject = true ↔ s.core.regs.sys.errinj.toNat % 16 = 2) ∧
            (f.d ≠ 0 → ∃ i ∈ t.core.inter, i.reg = .x (s.px f.d) ∧ i.id = l.id)) ∧
          (s.core.regs.sys.errinj.toNat % 16 ≠ 2 → s.core.regs.sys.errinj.toNat % 16 ≠ 3 → t.core.iss = s.core.iss) ∧
          t.mem = s.mem ∧ t.core.gate = s.core.gate ∧ t.core.iss.iq = s.core.iss.iq ∧ t.core.regs = s.core.regs)) ∧
      (s.poisonX f.a = false → Permitted s .store a n → s.core.gate.length < 64 → s.core.queued < 32 →
        Runs (.fst f) s (fun t =>
          (∃ (e : GateEntry) (o : FarOp), t.core.gate = s.core.gate ++ [e] ∧ e.op = .far o ∧ o.rel = f.ord ∧ o.atom = none ∧
            o.parts = s.partsOf st ∧ e.bundle = s.core.iss.cur.bundle ∧
            o.data.cells = (s.homesOf st).zip ((List.range n).map (fun i => BitVec.ofNat 8 ((s.rdX f.d).toNat / 256 ^ i))) ∧
            o.data.poisoned = if s.poisonX f.d then s.homesOf st else []) ∧
          t.mem = s.mem ∧ t.dev = s.dev ∧ t.core.regs = s.core.regs ∧ t.core.iss = s.core.iss))) ∧
  (
    ∀ (f : MS) (s : State), s.poisonX f.a = false → s.core.iss.fault = none →
      let a := addrOf s f.a f.off.toInt
      let n := widthBytes f.w
      (∀ i, i < n → entryAt s.core.table (a + i) = none) →
      exec (.fld f) s = .next (s.mapIss (fun i => { i with fault := some { cause := 0x06, addr := BitVec.ofNat 64 a } })) ∧
      (s.core.gate.length < 64 →
        exec (.fst f) s = .next (s.mapIss (fun i => { i with fault := some { cause := 0x06, addr := BitVec.ofNat 64 a } })))) ∧
  (
    ∀ (f : MV) (s : State),
      let a := addrOf s f.a f.off.toInt
      (LoadRegs s f.d f.q f.a → s.chkFar a f.t false (s.guard f.g) = .ok →
        (f.q = false → s.core.loads.length < 16 →
          ∃ v, farAccess s a f.t false (s.guard f.g) = some v ∧ exec (.vfld f) s = .next
            (s.sendLoad (some (.v (s.pv f.d))) f.ord (stretchesOf s.core.table v.ranges) (v.form f.t) (s.pv f.d))) ∧
        (f.q = true → s.core.loads.length < 16 →
          ∃ v, farAccess s a f.t false (s.guard f.g) = some v ∧ exec (.vfld f) s = .next
            (s.streamLoad f.d.toNat f.ord (stretchesOf s.core.table v.ranges) (v.form f.t)))) ∧
      (StoreRegs s f.d f.q f.a → s.chkFar a f.t true (s.guard f.g) = .ok → s.core.queued < 32 →
        Runs (.vfst f) s (fun t =>
          (∃ (v : VAccess) (e : GateEntry) (o : FarOp), farAccess s a f.t true (s.guard f.g) = some v ∧
            t.core.gate = s.core.gate ++ [e] ∧ e.op = .far o ∧ o.rel = f.ord ∧ o.atom = none ∧
            o.parts = s.partsOf (stretchesOf s.core.table v.ranges) ∧
            o.data = (StoreSpec.mk v.sh f.t v.f v.g (s.snap f.rnd) f.sat f.scl).data (elemsOf v.sh.rw (storeData s f.d f.q))
              v.guard v.pieces (s.homesOf (stretchesOf s.core.table v.ranges))) ∧
          t.mem = s.mem ∧ t.dev = s.dev ∧ t.core.regs.seq = s.core.regs.seq + 1 ∧ t.core.regs.x = s.core.regs.x ∧
          t.core.regs.v = s.core.regs.v))) ∧
  (
    ∀ (s : State) (q : Nat) (acq : Bool) (st : List Stretch) (form : LoadForm),
      let t := s.streamLoad q acq st form
      (∃ l : FarLoad, t.core.loads = s.core.loads ++ [l] ∧ l.id = s.core.opId ∧ l.stream = some q ∧ l.parts = s.partsOf st ∧
        l.form = form ∧ l.acq = acq ∧ l.strand = s.strandIdx ∧ l.bundle = s.core.iss.cur.bundle) ∧
      t.core.gate = s.core.gate ++ [{ bundle := s.core.iss.cur.bundle, slot := s.core.iss.cur.slot, op := .imageOf q s.core.opId }] ∧
      vget t.core.regs.q q none = (vget s.core.regs.q q none).map (fun b => { b with taken := b.taken + 1 }) ∧
      t.core.inter = s.core.inter ∧ t.core.regs.x = s.core.regs.x ∧ t.core.regs.v = s.core.regs.v ∧ t.mem = s.mem) ∧
  (
    ∀ (s : State) (l : FarLoad) (q : Nat) (bytes : List (Byte × Bool)) (sh : Shape) (t f : Fmt) (g : Geo) (units : List (List Nat × Nat))
      (guard : PBits) (po : Bool), l.stream = some q → l.form = .vector sh t f g units guard po →
      let m := loadImage sh t f g units (guard, po) l.inject bytes
      let u := s.returnLoad l (l.result bytes)
      (∀ b e, s.core.gate = [{ bundle := b, slot := e, op := .imageOf q l.id }] →
        u = s.mapCore (fun c => { c with gate := [{ bundle := b, slot := e, op := .image q s.core.now m.1 m.2.2 }] })) ∧
      (s.core.gate = [] → s.core.running = some l.strand → u = s.landImage q s.core.now m.1 m.2.2))

/-- R243, R345, R359: LSFMT takes a gate entry that sets the tags of its regions; a base or size that is not a multiple of 4 KiB traps with
cause 0x08, a range past 0x1FFFFF with 0x06 and the first address outside, a poisoned base with 0x0B. -/
def Obligations.FormatTags : Prop :=
  ∀ (f : LF) (s : State),
    let a := (s.rdX f.a).toNat
    let n := (s.rdX f.b).toNat
    (s.poisonX f.a = false → a % 4096 = 0 → n % 4096 = 0 → (n = 0 ∨ a + n ≤ lsSize) → s.core.gate.length < 64 →
      exec (.lsfmt f) s = .next (s.gatePush (.tag (regionOf (ownLs a)) (n / 4096) f.t f.geo))) ∧
    (s.poisonX f.a = false → (a % 4096 ≠ 0 ∨ n % 4096 ≠ 0) → Traps (.lsfmt f) s 0x08 (s.rdX f.a)) ∧
    (s.poisonX f.a = false → a % 4096 = 0 → n % 4096 = 0 → n ≠ 0 → lsSize < a + n →
      Traps (.lsfmt f) s 0x06 (BitVec.ofNat 64 (max a lsSize))) ∧
    (s.poisonX f.a = true → Traps (.lsfmt f) s 0x0B (BitVec.ofNat 64 (s.core.iss.cur.slot * 2 ^ 16 + f.a.toNat))) ∧
    (∀ (m : Memory) (first count : Nat), m.wf = true →
      ∀ r, (m.setTags first count f.t f.geo).tag r =
        if first ≤ r ∧ r < first + count then (f.t, f.geo) else m.tag r)

/-- R142, R149: an MMA with its slots and its feed free. Every cell takes its K steps over the two operands' lines; the
accumulator is written F + 140 cycles after issue; the slots are reserved, the pop waits in the gate, and the op takes a SEQ.
R142: one step of a cell. -/
def Obligations.MmaResult : Prop :=
  (
    ∀ (f : MM) (s : State) (ca cb : Chute), chkMma f s = .ok → readyMma f s = .go → MM.void f s = false →
      s.chuteOf f.cha.toNat = some ca → s.chuteOf f.chb.toNat = some cb →
      let k := 16 * (f.kq.toNat + 1)
      let lat := feedCycles f.t k + 140
      let qa : Operand := { chute := ca, first := ca.firstFree, col := f.oa, t := f.t, k := k }
      let qb : Operand := { chute := cb, first := if MM.same f s then ca.firstFree + ca.need f.t k else cb.firstFree, col := f.ob,
                            t := f.t, k := k }
      let ea := qa.elems (s.operandMem s.core.iss.cur.bundle)
      let eb := qb.elems (s.operandMem s.core.iss.cur.bundle)
      let old := s.rdA f.acc.toNat
      Runs (.mma f) s (fun t =>
        (∃ w ∈ t.core.iss.pend, w.due = s.core.iss.cur.sched + lat ∧ w.bundle = s.core.iss.cur.bundle ∧
          ∃ (v : ABits) (po : Bool), w.dest = .a f.acc.toNat v po ∧
            (∀ i j, i < 128 → j < 128 → v.toNat / 2 ^ (32 * (128 * i + j)) % 2 ^ 32 =
              cellRun f.t (s.snap .dyn) f.pat i j (old.toNat / 2 ^ (32 * (128 * i + j)) % 2 ^ 32) (qa.line ea i) (qb.line eb j)) ∧
            (po = true ↔ s.poisonA f.acc.toNat = true ∨ ∃ e ∈ ea ++ eb, e.poison = true)) ∧
        (∃ e ∈ t.core.gate, e.op = .pop s.core.opId) ∧ f.acc.toNat ∈ t.core.accs ∧
        t.core.regs.seq = s.core.regs.seq + 1 ∧ t.core.regs.a = s.core.regs.a ∧ t.core.regs.x = s.core.regs.x ∧ t.mem = s.mem)) ∧
  (
    (∀ c a b : Int, cellInt 0 c a b = signedOf 32 (wrapInt 32 (c + a * b)) ∧ cellInt 1 c a b = signedOf 32 (wrapInt 32 (c + |a - b|)) ∧
      cellInt 2 c a b = signedOf 32 (wrapInt 32 (max c (a + b))) ∧ cellInt 3 c a b = signedOf 32 (wrapInt 32 (min c (a + b)))) ∧
    (∀ (m : RMode) (r : Nat) (c a b : Machine.Num),
      let rnd := fun x => decodeFloat .fp32 (roundFloat .fp32 m false r x).bits
      cellFloat m 0 r c a b = rnd (fmaNum m a b c) ∧ cellFloat m 1 r c a b = rnd (addNum m c (subNum m a b).abs) ∧
      cellFloat m 2 r c a b = maxNum c (rnd (addNum m a b)) ∧ cellFloat m 3 r c a b = minNum c (rnd (addNum m a b))) ∧
    (∀ (pat : BitVec 32) (k : Nat), patStep pat k = pat.toNat / 2 ^ (2 * (k % 16)) % 4))

/-- R150: MZERO, MACCLD and MACCST on an allocated accumulator, and where they trap. R156: EPLD replaces the epilogue program
with the words it checks; a failing word traps with its index and leaves the program. The TRAPVAL of MACCLD and MACCST is the model's
reading (log 29), and that a misaligned or too long EPLD range gives word index 0 is its choice (log 63). -/
def Obligations.AccumulatorMoves : Prop :=
  (
    ∀ (f : MX) (s : State), f.acc.toNat < s.core.nA →
      let a := (s.rdX f.a).toNat
      let word := fun i => if s.viewM.poisoned (ownLs (a + 4 * i)) then 0 else s.viewM.num (ownLs (a + 4 * i)) 4
      let bad := (List.range 16384).any (fun i => s.viewM.poisoned (ownLs (a + 4 * i)))
      Sends (.mzero f) s 1 (.a f.acc.toNat 0 false) ∧
      (s.poisonX f.a = false → a % 4 = 0 → a + 65536 ≤ lsSize →
        (∃ v : ABits, (∀ i, i < 16384 → v.toNat / 2 ^ (32 * i) % 2 ^ 32 = word i) ∧
          exec (.maccld f) s = .next (let t := s.writeAfter 72 (.a f.acc.toNat v bad)
            if bad then t.writeAfter 72 .loaded else t)) ∧
        (s.core.gate.length < 64 →
          Runs (.maccst f) s (fun t => ∃ d : StoreData, t = s.gatePush (.output d) ∧
            d.cells = (List.range 65536).map (fun i => (ownLs a + i, BitVec.ofNat 8 ((s.rdA f.acc.toNat).toNat / 256 ^ i))) ∧
            (s.poisonA f.acc.toNat = false → d.poisoned = [])))) ∧
      (s.poisonX f.a = false → (a % 4 ≠ 0 ∨ lsSize ≤ a) →
        Traps (.maccld f) s 0x08 (s.rdX f.a) ∧ Traps (.maccst f) s 0x08 (s.rdX f.a)) ∧
      (s.poisonX f.a = false → a % 4 = 0 → a < lsSize → lsSize < a + 65536 →
        Traps (.maccld f) s 0x06 (BitVec.ofNat 64 lsSize) ∧ Traps (.maccst f) s 0x06 (BitVec.ofNat 64 lsSize))) ∧
  (
    ∀ (f : MXE) (s : State), s.poisonX f.a = false →
      let a := (s.rdX f.a).toNat
      let ws := (List.range f.n.toNat).map (fun i => s.viewM.num (ownLs (a + 4 * i)) 4)
      (a % 4 = 0 → a + 4 * f.n.toNat ≤ lsSize → epiCheck f.n.toNat ws [] 0 = none →
        exec (.epld f) s = .next (s.mapRegs (fun r => { r with epi := ws.map (fun w => BitVec.ofNat 32 w) }))) ∧
      (a % 4 = 0 → a + 4 * f.n.toNat ≤ lsSize → ∀ c i, epiCheck f.n.toNat ws [] 0 = some (c, i) →
        Traps (.epld f) s c (BitVec.ofNat 64 (3 * 2 ^ 16 + i))) ∧
      ((a % 4 ≠ 0 ∨ lsSize < a + 4 * f.n.toNat) → Traps (.epld f) s 0x08 (BitVec.ofNat 64 (3 * 2 ^ 16))))

/-- R152, R154: MDRAIN to the local store. Where its checks pass and the drain engine is free, one gate entry takes the rows'
bytes at base plus row times pitch; with no program and T = FP32 or INT32 they are the accumulator's words. The engine is busy
for 128 cycles. -/
def Obligations.DrainOutput : Prop :=
  ∀ (f : MX) (s : State), chkMdrain f s = .ok → readyMdrain f s = .go → s.core.regs.epi = [] → (f.t = .fp32 ∨ f.t = .int32) →
    let base := (s.rdX f.a).toNat % 2 ^ 21
    let pitch := if (s.rdX f.a).toNat / 2 ^ 24 % 2 ^ 18 = 0 then 512 else (s.rdX f.a).toNat / 2 ^ 24 % 2 ^ 18
    Runs (.mdrain f) s (fun t =>
      (∃ (e : GateEntry) (d : StoreData), t.core.gate = s.core.gate ++ [e] ∧ e.op = .output d ∧
        d.cells = ((List.range 128).map (fun r => (List.range 512).map (fun i =>
          (ownLs (base + r * pitch + i), BitVec.ofNat 8 ((s.rdA f.acc.toNat).toNat / 256 ^ (512 * r + i)))))).flatten ∧
        d.ovfs = false) ∧
      t.core.mx.drainUntil = s.core.now + 128 ∧ t.core.regs.seq = s.core.regs.seq + 1 ∧ t.mem = s.mem ∧
      t.core.regs.a = s.core.regs.a ∧ t.core.regs.x = s.core.regs.x ∧ t.dev = s.dev)

/-- R282, R345: COPY and COPYA where their checks pass and the engine's queue has room: the command waits in the gate with the
captured runs, conversion and scale, its token register waits for it, and the op takes a SEQ. R280, R29, R345: what a gated
engine command leaves: one gate entry, one operation number, and, unless D is X0, the token register waiting. R278, R284, R286: what
the copy engine does with a run whose bytes all answer. A raw move leaves the source's bytes at the destination, in order; a
conversion leaves each element converted by R68, with the draw of its number; either changes no other byte, and the token is OK with
the count of bytes written. -/
def Obligations.EngineCommands : Prop :=
  (
    ∀ (f : EACopy) (g : EA) (s : State),
      (chkCopyOp f s = .ok → s.cmds Cmd.isCopy < 16 →
        ∃ c : CopyCmd, c.t = f.t ∧ c.scaled = decide (f.scl ≠ .none) ∧ c.snap.mode = modeOf s f.rnd ∧
          c.snap.k = f.scl.exp (scaleK s.core.regs.sys.lscale) ∧
          ((s.rdX f.c = 0 → c.runs = []) ∧ (s.rdX f.c ≠ 0 → ∃ r, c.runs = [r] ∧ r.len = (s.rdX f.c).toNat ∧
            r.src = s.partsOf (s.stretch (s.rdX f.b).toNat (s.rdX f.c).toNat) ∧ r.first = 0)) ∧
          exec (.copy f) s = .next (s.gateCmd (s.px f.d) (.copy c)).takeSeq) ∧
      (chkCopya g s = .ok → s.cmds Cmd.isCopy < 16 →
        ∃ c a, recordAsk (copyaRec g s) = some a ∧ c = s.copyCmd a (copyaRec g s).pat.runs ∧
          exec (.copya g) s = .next (s.gateCmd (s.px g.d) (.copy c)).takeSeq)) ∧
  (
    ∀ (s : State) (tok : Nat) (c : Cmd),
      (∃ e : Engine, (s.gateCmd tok c).core.gate =
          s.core.gate ++ [{ bundle := s.core.iss.cur.bundle, slot := s.core.iss.cur.slot, op := .cmd e }] ∧
        e.cmd = c ∧ e.tok = tok ∧ e.id = s.core.opId ∧ e.done = none ∧ e.strand = s.strandIdx) ∧
      (s.gateCmd tok c).core.opId = s.core.opId + 1 ∧
      (tok ≠ 0 → ∃ i ∈ (s.gateCmd tok c).core.inter, i.reg = .x tok ∧ i.id = s.core.opId ∧ i.gated = true) ∧
      (tok = 0 → (s.gateCmd tok c).core.inter = s.core.inter) ∧
      (s.gateCmd tok c).mem = s.mem ∧ (s.gateCmd tok c).dev = s.dev ∧ (s.gateCmd tok c).core.regs = s.core.regs ∧
      (s.gateCmd tok c).core.iss = s.core.iss) ∧
  (
    ∀ (s : State) (k n : Nat) (c : CopyCmd) (r : CopyRun), s.mem.wf = true → c.runs = [r] →
      let t := s.performCopy k c
      let src := fun o => (s.byteHome r.src o).1
      let dst := fun o => (s.byteHome r.dst o).1
      (isRaw c.t r.fs = true → CopyClean s r r.len →
        (∀ o, o < r.len → t.1.mem.byte (dst o) = s.mem.byte (src o)) ∧ OnlyAt s.mem t.1.mem dst r.len ∧ t.2 = token 0 r.len) ∧
      (isRaw c.t r.fs = false → isElem c.t = true → isElem r.fs = true → r.len = n * elemBytes r.fs → CopyClean s r (n * elemBytes c.t) →
        (∀ e, e < n →
          let x := numAt s.mem (fun i => src (e * elemBytes r.fs + i)) (elemBytes r.fs)
          numAt t.1.mem (fun i => dst (e * elemBytes c.t + i)) (elemBytes c.t) =
            ((copySpec c.t r.fs c.scaled c.snap).elem x (srDraw c.snap.draw ((r.first + e) % 2 ^ 32)) (decodeElem r.fs x)).bits %
              2 ^ (8 * elemBytes c.t)) ∧
        OnlyAt s.mem t.1.mem dst (n * elemBytes c.t) ∧ t.2 = token 0 (n * elemBytes c.t)))

/-- R291, R294: STRB binds an unbound stream to its record's pattern; STRU unbinds it and its token counts the bytes of the
pattern left. -/
def Obligations.StreamBinding : Prop :=
  (∀ (f : EAStrb) (s : State), chkStrb f s = .ok →
    Runs (.strb f) s (fun t =>
      (∃ q : Stream, vget t.core.regs.q f.h.toNat none = (if f.h.toNat < 8 then some q else none) ∧ q.dir = f.dir ∧
        q.pat = (recordOf (s.recordWords (s.rdX f.a).toNat)).pat ∧ q.taken = 0 ∧ q.bundle = s.core.iss.cur.bundle ∧ q.code = 0) ∧
      (∀ k, k ≠ f.h.toNat → vget t.core.regs.q k none = vget s.core.regs.q k none) ∧
      t.core.regs.x = s.core.regs.x ∧ t.core.regs.v = s.core.regs.v ∧ t.mem = s.mem ∧ t.dev = s.dev)) ∧
  (∀ (f : EA) (s : State) (q : Stream), s.rdQ f.h.toNat = some q → chkStru f s = .ok → readyStru f s = .go →
    Runs (.stru f) s (fun t =>
      vget t.core.regs.q f.h.toNat none = none ∧
      (∃ e : Engine, t.core.engs = s.core.engs ++ [e] ∧ e.cmd = .stru f.h.toNat ∧ e.tok = s.px f.d ∧
        e.done = some (token (vget s.core.strm f.h.toNat StreamEngine.empty).code (q.pat.total - 256 * q.taken))) ∧
      t.core.regs.x = s.core.regs.x ∧ t.core.regs.v = s.core.regs.v ∧ t.mem = s.mem ∧ t.dev = s.dev)) ∧
  (∀ (f : EA) (s : State), s.rdQ f.h.toNat = none → Traps (.stru f) s 0x0E 0) ∧
  (∀ (f : EAStrb) (s : State) (q : Stream), s.poisonX f.a = false → s.rdQ f.h.toNat = some q → Traps (.strb f) s 0x0E 0)

/-- R297, R300, R345: AMO reserves a return-queue entry and waits in the gate; its operands are the low bits of xb and xc. POPQ
takes the oldest entry's value, and with none reserved it traps (R301). R302, R217, R345: RED and CASN wait in the gate with
their operands; CASN's token and its name register wait for it. R396: an atomic whose home is host memory traps with 0x08. R298, R299, R302: what an AMO leaves at its home, and its
status. -/
def Obligations.Atomics : Prop :=
  (
    ∀ (f : EAAmo) (s : State),
      let m := widthBytes f.w
      let a := (s.rdX f.a).toNat
      (s.poisonX f.a = false → a % m = 0 → RangePermitted s [.load, .store] a m → NoHost s a m → s.core.gate.length < 64 →
        s.core.regs.arq.length < 16 →
        Runs (.amo f) s (fun t =>
          GatesAtomic s t a m (.amo f.op (BitVec.ofNat 64 ((s.rdX f.b).toNat % 2 ^ (8 * m)))
            (BitVec.ofNat 64 ((s.rdX f.c).toNat % 2 ^ (8 * m))) (s.poisonX f.b || s.poisonX f.c)) (s.px f.d) ∧
          t.core.regs.arq = s.core.regs.arq ++ [{ id := s.core.opId, value := none }] ∧ KeepsData s t)) ∧
      (s.poisonX f.a = false → (a % m ≠ 0 ∨ RangePermitted s [.load, .store] a m ∧ ¬ NoHost s a m) →
        Traps (.amo f) s 0x08 (s.rdX f.a)) ∧
      (∀ (g : EA) (e : ArqEntry) (es : List ArqEntry) (v : X64) (po : Bool), s.core.regs.arq = e :: es → e.value = some (v, po) →
        exec (.popq g) s = .next ((s.mapRegs (fun r => { r with arq := es })).writeAfter 1 (.x (s.px g.d) v po))) ∧
      (∀ g : EA, s.core.regs.arq = [] → Traps (.popq g) s 0x0E 0)) ∧
  (
    (∀ (f : EARed) (s : State), f.op ≠ .bfpadd →
      let n := widthBytes f.w
      let a := (s.rdX f.a).toNat
      s.poisonX f.a = false → a % n = 0 → RangePermitted s [.store] a n →
      (¬ NoHost s a n → Traps (.red f) s 0x08 (s.rdX f.a)) ∧
      (NoHost s a n → s.core.gate.length < 64 → s.core.queued < 32 →
      Runs (.red f) s (fun t => GatesAtomic s t a n (.red f.op (BitVec.ofNat 64 ((s.rdX f.b).toNat % 2 ^ (8 * n))) (s.poisonX f.b)) 0 ∧
        KeepsData s t))) ∧
    (∀ (f : EARed) (s : State), f.op = .bfpadd → f.b.toNat < s.core.nV → s.poisonX f.a = false → (s.rdX f.a).toNat % redLen f = 0 →
      RangePermitted s [.store] (s.rdX f.a).toNat (redLen f) → NoHost s (s.rdX f.a).toNat (redLen f) →
      s.chkBfpPage (s.rdX f.a).toNat = .ok → s.core.gate.length < 64 → s.core.queued < 32 →
      Runs (.red f) s (fun t => GatesAtomic s t (s.rdX f.a).toNat (redLen f) (.bfp (s.rdV f.b) (s.poisonV f.b != 0)) 0 ∧
        KeepsData s t)) ∧
    (∀ (f : EACasn) (s : State),
      let a := (s.rdX f.a).toNat
      s.poisonX f.a = false → a % 16 = 0 → RangePermitted s [.load, .store] a 16 →
      (¬ NoHost s a 16 → Traps (.casn f) s 0x08 (s.rdX f.a)) ∧
      (NoHost s a 16 → s.core.gate.length < 64 → Runs (.casn f) s (fun t =>
        GatesAtomic s t a 16 (.casn (s.rdN f.b.toNat) (s.rdN f.h.toNat) f.live f.b.toNat (s.rdN f.b.toNat)) (s.px f.d) ∧
        (∃ i ∈ t.core.inter, i.reg = .n f.b.toNat ∧ i.id = s.core.opId ∧ i.gated = true) ∧ KeepsData s t)))) ∧
  (
    ∀ (w old b c : Nat), (w = 8 ∨ w = 16 ∨ w = 32 ∨ w = 64) → old < 2 ^ w → b < 2 ^ w → c < 2 ^ w →
      amoApply .add w old b c = ((old + b) % 2 ^ w, 0) ∧ amoApply .swap w old b c = (b, 0) ∧
      amoApply .cas w old b c = (if old = b then c else old, 0) ∧
      amoApply .and w old b c = (old &&& b, 0) ∧ amoApply .or w old b c = (old ||| b, 0) ∧
      amoApply .xor w old b c = (old ^^^ b, 0) ∧
      signedOf w (amoApply .min w old b c).1 = min (signedOf w old) (signedOf w b) ∧
      signedOf w (amoApply .max w old b c).1 = max (signedOf w old) (signedOf w b) ∧
      amoApply .minu w old b c = (min old b, 0) ∧ amoApply .maxu w old b c = (max old b, 0) ∧
      amoApply .incw w old b c = (if b ≤ old then 0 else old + 1, 0) ∧
      amoApply .addb w old b c = (if c < old then (old, 13) else if old + b ≤ c then (old + b, 0) else (c, 12)))

/-- R206 to R213: the claim ops. CLAIM's command and its name register wait in the gate; RESOLVE answers at once from the claim
table, with the type's value or GONE; RETIRE waits in the gate. R212: QCLAIM's engine writes the 64-byte record, whose fields are the
entry's where it is LIVE or RETIRING and visible, else 0 beyond the name, and its token is OK or GONE; no other byte changes. -/
def Obligations.ClaimOps : Prop :=
  (∀ (f : EAClaim) (s : State), chkClaim f s = .ok →
    exec (.claim f) s = .next ((s.gateCmd (s.px f.d) (.claim f.h.toNat f.ty (s.rdX f.a) (s.rdX f.b) (s.claimHome f))).interlock
      (.n f.h.toNat) s.core.opId true)) ∧
  (∀ (f : EAClaim) (s : State) (c : Claim), s.resolve s.core.tenant (s.rdN f.h.toNat) = some c → c.ty = f.ty →
    exec (.resolve f) s = .next ((s.fillCache (s.rdN f.h.toNat)).sendCmd (s.px f.d) (.resolve (s.rdN f.h.toNat) f.ty)
      (some (c.value &&& 0x00FFFFFFFFFFFFFF))).bump) ∧
  (∀ (f : EAClaim) (s : State) (c : Claim), s.resolve s.core.tenant (s.rdN f.h.toNat) = some c → c.ty ≠ f.ty →
    Traps (.resolve f) s 0x0F 0) ∧
  (∀ (f : EAClaim) (s : State), s.resolve s.core.tenant (s.rdN f.h.toNat) = none →
    exec (.resolve f) s = .next ((s.learn (s.rdN f.h.toNat)).sendCmd (s.px f.d) (.resolve (s.rdN f.h.toNat) f.ty)
      (some (token 1 0))).bump) ∧
  (∀ (f : EA) (s : State), s.poisonX f.a = false → (s.rdX f.a).toNat % 64 = 0 → (s.rdX f.a).toNat + 64 ≤ lsSize →
    exec (.qclaim f) s = .next (s.sendCmd (s.px f.d) (.qclaim (s.rdN f.h.toNat) (s.rdX f.a).toNat) none)) ∧
  (∀ (f : EA) (s : State), s.poisonX f.a = false → ((s.rdX f.a).toNat % 64 ≠ 0 ∨ lsSize < (s.rdX f.a).toNat + 64) →
    Traps (.qclaim f) s 0x08 (s.rdX f.a)) ∧
  (∀ (f : EA) (s : State), s.core.gate.length < 64 → Commands (.retire f) s f.d (.retire (s.rdN f.h.toNat))) ∧
  (∀ (s : State) (k : Nat) (e : Engine) (nm : ClaimName) (dst : Nat), s.core.engs[k]? = some e → e.done = none → e.cmd = .qclaim nm dst →
    s.mem.wf = true → dst + 64 ≤ lsSize →
    let u := s.shieldGate e (span (ownLs dst) 64)
    let found := u.queried (u.tenantOf e.strand) nm
    ∃ v : State, exec (.engineTokenWrite k) s = .next (v.finishEngine e (token (if found.isSome then 0 else 1) 0)) ∧
      v.core.regs = s.core.regs ∧ OnlyAt s.mem v.mem (fun i => ownLs (dst + i)) 64 ∧
      (let word := fun (i : Nat) => numAt v.mem (fun j => ownLs (dst + 8 * i + j)) 8
       word 0 + 2 ^ 64 * word 1 = nm.toNat ∧ word 7 = 0 ∧
       (found = none → ∀ i, 2 ≤ i → i < 8 → word i = 0) ∧
       (∀ c, found = some c → c.owner < 64 → c.home < 2 ^ 64 →
         word 2 / 2 ^ 32 = min (u.countsOf c).1 (2 ^ 32 - 1) ∧ word 2 / 2 ^ 16 % 2 ^ 16 = min (u.countsOf c).2 65535 ∧
         word 2 / 2 ^ 8 % 2 ^ 8 = c.owner ∧ word 2 / 2 ^ 4 % 2 ^ 4 = (if c.state = .live then 0 else 1) ∧ word 2 % 2 ^ 4 = c.ty.code ∧
         word 3 = c.home ∧ word 4 = (if c.ty = .tensor ∨ c.ty = .strand ∨ c.ty = .coll ∨ c.ty = .cword then c.base.toNat else 0) ∧
         word 5 = c.size.toNat ∧ word 6 = (u.attrOf c).toNat)))

/-- R145, R146, R199: CHOPEN of a chute that is not full opens the handle and answers the tail slot's address, BROKEN where no
commit comes, or GONE; CHCOMMIT's command waits in the gate, and a value with a reserved bit traps. -/
def Obligations.ChuteOps : Prop :=
  (∀ (f : EA) (s : State) (c : Claim) (k : Chute), s.chuteNamed (s.rdN f.a.toNat) = some (c, some k) → c.ty = .chute →
    k.ownMember ≠ none → (k.final = true ∨ k.room = true) →
    exec (.chopen f) s = .next (((s.fillCache (s.rdN f.a.toNat)).writeAfter 1 (.ch f.h.toNat (.valid (s.rdN f.a.toNat)))).sendCmd
      (s.px f.d) (.chopen (s.rdN f.a.toNat))
      (some (if k.final then token 6 0 else BitVec.ofNat 64 (k.slotOff k.tail)))).bump) ∧
  (∀ (f : EA) (s : State), s.chuteNamed (s.rdN f.a.toNat) = none →
    exec (.chopen f) s = .next (((s.learn (s.rdN f.a.toNat)).writeAfter 1 (.ch f.h.toNat .invalid)).sendCmd (s.px f.d)
      (.chopen (s.rdN f.a.toNat)) (some (token 1 0))).bump) ∧
  (∀ (f : EA) (s : State), s.needChute f.h.toNat = .ok → s.core.gate.length < 64 →
    (commitOk (s.rdX f.d) = true →
      Commands (.chcommit f) s f.d (.chcommit (match s.rdCh f.h.toNat with
        | .valid n => n
        | _ => 0) (s.rdX f.d))) ∧
    (commitOk (s.rdX f.d) = false → Traps (.chcommit f) s 0x08 (s.rdX f.d))) ∧
  (∀ (f : EA) (s : State), s.rdCh f.h.toNat = .invalid → Traps (.chcommit f) s 0x0F 0)

/-- R323 to R331: the rick ops where their checks pass: each command waits in the gate with its rick, segment and operands;
PUSHT takes a SEQ; an invalid handle traps. R316, R325 to R330: what the rick engine does with each. MARKR notes the current run's depth,
position and lanes; SPLITR closes the run and opens the new segments, JOINR closes the children's runs, seals them and reopens their
parent; PUSHT codes its tile on the current run, and its count is the bytes stored; POPT of a tile gives its bytes to the local store, a
SKIP tile its length, a damaged one LOST and the tiles then owed. A segment that its state shuts answers ABORT, one without a tile EMPTY,
and without room a command answers FULL; each leaves the rick as it was. -/
def Obligations.RickOps : Prop :=
  (∀ (f : EA) (s : State), RickReady s f.h f.a →
    let cmd := fun (op : RickOp) => Cmd.rick { rick := rickOf s f.h, seg := (s.rdX f.a).toNat, op := op }
    Commands (.markr f) s f.d (cmd .mark) ∧
    Commands (.joinr f) s f.d (cmd (.join (s.rdX f.b).toNat)) ∧
    (2 ≤ (s.rdX f.b).toNat → (s.rdX f.b).toNat ≤ 8 → Commands (.splitr f) s f.d (cmd (.split (s.rdX f.b).toNat))) ∧
    (¬ (2 ≤ (s.rdX f.b).toNat ∧ (s.rdX f.b).toNat ≤ 8) → Traps (.splitr f) s 0x08 (s.rdX f.b)) ∧
    (RickAddr s f.b → Commands (.popt f) s f.d (cmd (.pop (s.rdX f.b).toNat)))) ∧
  (∀ (f : EAPush) (s : State), RickReady s f.h f.a → (if f.skip then chkPushSkip f s = .ok else s.poisonX f.b = false ∧ chkPushSource f s = .ok) →
    let q := s.view.tag (regionOf (ownLs (s.rdX f.b).toNat))
    let n := s.snap .dyn
    let n' : Snap := { n with k := f.scl.exp n.k }
    let op : RickOp := .push f.skip (f.len.toNat * 256) f.t (s.rdX f.b).toNat q.1 q.2 (decide (f.scl ≠ .none)) n'
    exec (.pusht f) s = .next (s.gateCmd (s.px f.d) (.rick { rick := rickOf s f.h, seg := (s.rdX f.a).toNat, op := op })).takeSeq) ∧
  (∀ (f : EA) (s : State), s.rdK f.h.toNat = .invalid →
    Traps (.popt f) s 0x0F 0 ∧ Traps (.markr f) s 0x0F 0 ∧ Traps (.splitr f) s 0x0F 0 ∧ Traps (.joinr f) s 0x0F 0) ∧
  (∀ (f : EA) (s : State), RickAddr s f.a → (s.rdX f.a).toNat + 2112 ≤ lsSize → s.cmds Cmd.isRick < 8 →
    let nm := s.rdN f.b.toNat
    (∀ c, s.resolve s.core.tenant nm = some c → c.ty = .rick →
      exec (.rickq f) s = .next (((s.fillCache nm).writeAfter 1 (.k f.h.toNat (.valid nm))).sendCmd (s.px f.d)
        (.rick { rick := nm, seg := 0, op := .query (s.rdX f.a).toNat }) none).bump) ∧
    (s.resolve s.core.tenant nm = none →
      exec (.rickq f) s = .next (((s.learn nm).writeAfter 1 (.k f.h.toNat .invalid)).sendCmd (s.px f.d) (.resolve nm .rick)
        (some (token 1 0))).bump)) ∧
  (∀ (s : State) (k : Nat) (c : RickCmd), s.rick? c.rick = none → s.performRick k c = (s, token 1 0)) ∧
  (∀ (s : State) (k n : Nat) (c : RickCmd) (r : Rick), s.rick? c.rick = some r →
    let seg := fun (o : Rick) (i : Nat) => o.seg? i
    let cost := fun (q : Run) => if q.closed = false ∧ q.depth ≠ 0 then 256 else 0
    (r.opens c.seg = false → (c.op = .mark ∨ c.op = .split n) → RickEnds s k c r 11 0) ∧
    (r.opens c.seg = true → c.op = .mark → 256 ≤ r.marks.length → RickEnds s k c r 9 0) ∧
    (∀ g, r.opens c.seg = true → seg r c.seg = some g → c.op = .mark → r.marks.length < 256 →
      RickEnds s k c { r with marks := r.marks ++
        [{ seg := c.seg, run := g.top.id, depth := g.top.depth, pos := g.top.words.length, lanes := g.top.lanes }] } 0 g.top.depth) ∧
    (∀ g, r.opens c.seg = true → seg r c.seg = some g → c.op = .split n →
      (256 < r.segs.length + n ∨ r.capacity < r.used + cost g.top → RickEnds s k c r 9 0) ∧
      (r.segs.length + n ≤ 256 → r.used + cost g.top ≤ r.capacity →
        ∃ r', RickEnds s k c r' 0 r.segs.length ∧ r'.segs.length = r.segs.length + n ∧ r'.used = r.used + cost g.top ∧
          (seg r' c.seg).map (·.state) = some .split ∧
          ∀ i, i < n → ∃ q, seg r' (r.segs.length + i) =
            some { state := .open, parent := c.seg, owed := 0, layers := [{ run := Run.fresh q, children := [] }] })) ∧
    (∀ g, seg r c.seg = some g → c.op = .join n →
      let kids := ((g.layers.head?).map (·.children)).getD []
      let shut := g.state ≠ .split ∨ kids.length ≠ n ∨ ∃ i ∈ kids, (seg r i).map (·.state) = some .split
      let total := r.used + ((kids.filterMap (seg r)).map (fun q => cost q.top)).sum
      (shut → RickEnds s k c r 11 0) ∧ (¬ shut → r.capacity < total → RickEnds s k c r 9 0) ∧
      (¬ shut → total ≤ r.capacity → ∃ r', RickEnds s k c r' 0 0 ∧ (seg r' c.seg).map (·.state) = some .open ∧
        (∀ i ∈ kids, i ≠ c.seg → (seg r' i).map (·.state) = (seg r i).map (fun _ => .sealed)) ∧
        (∀ i, i ≠ c.seg → i ∉ kids → seg r' i = seg r i)))) ∧
  (∀ (s : State) (k : Nat) (c : RickCmd) (r : Rick) (skip sc : Bool) (len src : Nat) (t fs : Fmt) (gs : Geo) (n : Snap),
    s.rick? c.rick = some r → c.op = .push skip len t src fs gs sc n →
    let x := s.pushedTile len t src fs gs sc n
    (r.opens c.seg = false → RickEnds s k c r 11 0) ∧
    (r.opens c.seg = true → skip = false → x.2.1 = true → RickEnds s k c r 3 0) ∧
    (∀ g, r.opens c.seg = true → r.seg? c.seg = some g → (skip = true ∨ x.2.1 = false) →
      let d := if skip then g.top.coder.pushSkip { t := t, g := .packed, len := len, bytes := [] } else g.top.coder.pushTile r.tables x.1
      let stored := 4 * (d.words.length - g.top.words.length)
      (r.capacity < r.used + stored → RickEnds s k c r 9 0) ∧
      (r.used + stored ≤ r.capacity →
        RickEnds s k c { (r.setSeg c.seg (fun g => g.setTop (fun q => { q with lanes := d.lanes, words := d.words, depth := q.depth + 1 }))) with
          pushed := r.pushed + 1 } 0 stored)) ∧
    (isRaw t fs = true → x.1 = { t := fs, g := gs, len := len, bytes := (List.range len).map (fun o => s.mem.byte (ownLs (src + o))) } ∧
      (x.2.1 = true ↔ ∃ o, o < len ∧ s.mem.poisoned (ownLs (src + o)) = true)) ∧
    (∀ m, isRaw t fs = false → isElem t = true → isElem fs = true → len = m * elemBytes t →
      x.1.t = t ∧ x.1.g = .packed ∧ x.1.len = len ∧
      (x.2.1 = true ↔ ∃ o, o < m * elemBytes fs ∧ s.mem.poisoned (ownLs (src + o)) = true) ∧
      ∀ e i, e < m → i < elemBytes t →
        let w := numAt s.mem (fun j => ownLs (src + e * elemBytes fs + j)) (elemBytes fs)
        (x.1.bytes.getD (e * elemBytes t + i) 0).toNat =
          ((copySpec t fs sc n).elem w (srDraw n.draw (e % 2 ^ 32)) (decodeElem fs w)).bits / 256 ^ i % 256)) ∧
  (∀ (s : State) (k dst : Nat) (c : RickCmd) (r : Rick) (g : Segment), s.rick? c.rick = some r → c.op = .pop dst → s.mem.wf = true →
    r.seg? c.seg = some g →
    let t := (s.performRick k c).1
    let owed := fun (o : Rick) => (o.seg? c.seg).map (·.owed)
    let depth := fun (o : Rick) => (o.seg? c.seg).map (fun q => q.top.depth)
    (g.state = .split → RickEnds s k c r 11 0) ∧
    (g.state ≠ .split → g.owed ≠ 0 →
      ∃ r', RickEnds s k c r' 4 (g.owed - 1) ∧ owed r' = some (g.owed - 1) ∧ r'.popped = r.popped + 1) ∧
    (g.state ≠ .split → g.owed = 0 → ∀ l ls, g.layers = l :: ls →
      let e := Config.streamErrors s.freeCtr
      let h := l.run.coder.popHeader
      let b := h.1.popBody r.tables h.2
      (l.run.depth = 0 → l.children = [] → RickEnds s k c r 10 0) ∧
      (l.run.depth ≠ 0 → l.run.damaged.contains (l.run.depth - 1) = true →
        ∃ r' m d, RickEnds s k c r' 4 m ∧ owed r' = some m ∧ depth r' = some d ∧ d + m + 1 = l.run.depth ∧ r'.popped = r.popped + 1) ∧
      (l.run.depth ≠ 0 → r.meetsDamage e false l.run = false →
        (h.2.flag = 2 → ∃ r', RickEnds s k c r' 5 h.2.len ∧ depth r' = some (l.run.depth - 1) ∧ r'.popped = r.popped + 1) ∧
        (h.2.flag ≠ 2 → lsSize < dst + h.2.len → RickEnds s k c r 2 0) ∧
        (h.2.flag ≠ 2 → dst + h.2.len ≤ lsSize →
          (∃ r', RickEnds s k c r' 0 b.2.length ∧ depth r' = some (l.run.depth - 1) ∧ r'.popped = r.popped + 1) ∧
          (∀ i, i < b.2.length → t.mem.byte (ownLs (dst + i)) = b.2.getD i 0) ∧
          OnlyAt s.mem t.mem (fun i => ownLs (dst + i)) b.2.length))))

/-- R391 to R393: SEND takes its credits and waits in the gate; RECV takes the head message of its queue, which must match its
tag and count; a value of xa or a count outside R391 traps with cause 0x12. That a route takes no credits is the model's
reading (log 25). -/
def Obligations.LinkOps : Prop :=
  ∀ (f : EA) (s : State),
    let peer := linkPeer (s.rdX f.a)
    let tag := linkTag (s.rdX f.a)
    let n := (s.rdX f.c).toNat
    let k := n / 256
    let src := (s.rdX f.b).toNat
    let ok := linkOk s.dev.ident.index (s.rdX f.a) n = true ∧ src % 256 = 0 ∧ src + n ≤ lsSize ∧ s.poisonX f.b = false ∧
      s.core.gate.length < 64
    (ok → s.dev.unreachable peer = false → peer < 256 → k ≤ (s.queue peer).credits →
      exec (.send f) s = .next ((s.mapDev (fun d => d.mapQueue s.core.tenant peer (fun q =>
        { q with credits := q.credits - k }))).gateCmd (s.px f.d) (.send peer tag src k false))) ∧
    (ok → s.dev.unreachable peer = true → Commands (.send f) s f.d (.send peer tag src k true)) ∧
    (ok → s.dev.unreachable peer = false → 256 ≤ peer → Commands (.send f) s f.d (.send peer tag src k false)) ∧
    (∀ m ms, ok → (s.queue peer).msgs = m :: ms → m.tag = tag → msgEntries m = k →
      exec (.recv f) s = .next ((s.mapDev (fun d => d.mapQueue s.core.tenant peer (fun q =>
        { q with msgs := q.msgs.drop 1, taken := q.taken + (q.msgs.head?.map msgEntries).getD 0 }))).gateCmd (s.px f.d)
          (.recv peer tag src k (some m)))) ∧
    (∀ m ms, ok → (s.queue peer).msgs = m :: ms → (m.tag ≠ tag ∨ msgEntries m ≠ k) →
      Traps (.recv f) s 0x12 (BitVec.ofNat 64 (0x60000 + m.tag % 32 * 2 ^ 8 + msgEntries m % 128))) ∧
    (ok → (s.queue peer).msgs = [] → s.dev.silent peer = false → exec (.recv f) s = .next (s.hold (some (.recv peer)))) ∧
    (ok → (s.queue peer).msgs = [] → s.dev.silent peer = true →
      exec (.recv f) s = .next ((s.mapDev (fun d => d.mapQueue s.core.tenant peer (fun q =>
        { q with msgs := q.msgs.drop 1, taken := q.taken + (q.msgs.head?.map msgEntries).getD 0 }))).gateCmd (s.px f.d)
          (.recv peer tag src k none))) ∧
    (s.poisonX f.b = false → linkOk s.dev.ident.index (s.rdX f.a) n = false →
      Traps (.send f) s 0x12 0x60000 ∧ Traps (.recv f) s 0x12 0x60000)

/-- R474, R361, R20: RDSR, RDENG, RDCYC and TSTPSN. A register number that R474 does not list traps with cause 0x03.
The TRAPVAL of TSTPSN on a V register beyond the allocation is the model's reading (log 15). -/
def Obligations.ReadSystem : Prop :=
  ∀ (f : CGSr) (g : CG) (s : State),
    let y := s.core.regs.sys
    let reads := fun (n : Nat) (v : X64) => f.srn.toNat = n → SendsX (.rdsr f) s f.d 1 false (fun w => w = v)
    reads 0x000 s.rrb ∧ reads 0x001 y.rmode ∧ reads 0x002 y.srseed ∧ reads 0x003 y.lscale ∧ reads 0x004 y.lsmin ∧
    reads 0x005 y.lsmax ∧ reads 0x006 y.lsgrow ∧ reads 0x007 y.lsstat ∧ reads 0x008 y.lssat ∧ reads 0x009 y.chkctl ∧
    reads 0x00A s.thrtst ∧ reads 0x00B (BitVec.ofNat 64 s.dev.set.rampt) ∧ reads 0x015 (BitVec.ofNat 64 s.dev.set.qpwdog) ∧
    reads 0x00C (BitVec.ofNat 64 s.core.meter.energy) ∧ reads 0x00D (BitVec.ofNat 64 s.core.meter.cycle) ∧
    reads 0x00E (BitVec.ofNat 64 (s.core.number % 2 ^ 24)) ∧ reads 0x00F (BitVec.ofNat 64 (s.core.tenant % 64)) ∧
    reads 0x010 y.trapv ∧ reads 0x011 y.trapc ∧ reads 0x012 y.trappc ∧ reads 0x013 y.trapval ∧ reads 0x014 y.poison ∧
    reads 0x016 y.collto ∧ reads 0x017 y.errinj ∧ reads 0x018 y.chst ∧
    (∀ k, k < 8 → reads (0x020 + k) (vget y.lswz k 0)) ∧
    (∀ k, k < 4 → reads (0x030 + k) (vget y.bka k 0) ∧ reads (0x034 + k) (vget y.bkm k 0) ∧ reads (0x038 + k) (vget y.bkc k 0)) ∧
    ((0x019 ≤ f.srn.toNat ∧ f.srn.toNat < 0x020 ∨ 0x028 ≤ f.srn.toNat ∧ f.srn.toNat < 0x030 ∨ 0x03C ≤ f.srn.toNat) →
      Traps (.rdsr f) s 0x03 (BitVec.ofNat 64 (s.core.iss.cur.slot * 2 ^ 16 + 16 * 2 ^ 8))) ∧
    SendsX (.rdeng g) s g.d 1 false (fun v => v = BitVec.ofNat 64 s.core.meter.energy) ∧
    SendsX (.rdcyc g) s g.d 1 false (fun v => v = BitVec.ofNat 64 s.core.meter.cycle) ∧
    (g.a.toNat < s.core.nV → SendsX (.tstpsn g) s g.d 1 false (fun v => v = s.poisonV g.a)) ∧
    (s.core.nV ≤ g.a.toNat → Traps (.tstpsn g) s 0x03 (BitVec.ofNat 64 (s.core.iss.cur.slot * 2 ^ 16 + 40 * 2 ^ 8)))

/-- R474, R355: WRSR of a writable register sets its defined bits and nothing else; CHST clears the bits written as 1 (R200); a
read-only number traps with cause 0x07, and a rejected value with its own. The TRAPVAL of a rejected value is the model's reading (log 29). -/
def Obligations.WriteSystem : Prop :=
  ∀ (f : CGSr) (s : State), s.poisonX f.a = false →
    let n := f.srn.toNat
    let v := s.rdX f.a
    let slot := BitVec.ofNat 64 (s.core.iss.cur.slot * 2 ^ 16)
    let kh := v.toNat / 2 ^ 16 % 4
    let writes := fun (g : SysRegs → SysRegs) => exec (.wrsr f) s = .next (s.mapSys g)
    (n = 0x000 → s.core.iss.cur.loop = false → (s.core.nV = 64 ∨ rrbVB v = 0) →
      exec (.wrsr f) s = .next (s.mapRegs (fun r => { r with rrb := rrbOf (rrbXB v) (rrbVB v) (rrbPB v) }))) ∧
    (n = 0x000 → (s.core.iss.cur.loop = true ∨ s.core.nV ≠ 64 ∧ rrbVB v ≠ 0) → Traps (.wrsr f) s 0x10 0) ∧
    (n = 0x001 → v.toNat % 8 < 6 → writes (fun y => { y with rmode := v &&& 7 })) ∧
    (n = 0x001 → 6 ≤ v.toNat % 8 → Traps (.wrsr f) s 0x03 slot) ∧
    (n = 0x002 → writes (fun y => { y with srseed := v })) ∧
    (n = 0x003 → writes (fun y => { y with lscale := v &&& 0xFF })) ∧
    (n = 0x004 → writes (fun y => { y with lsmin := v &&& 0xFF })) ∧
    (n = 0x005 → writes (fun y => { y with lsmax := v &&& 0xFF })) ∧
    (n = 0x006 → writes (fun y => { y with lsgrow := v &&& 0xFFFF })) ∧
    (n = 0x009 → writes (fun y => { y with chkctl := v &&& 0xFFFF00000003 })) ∧
    (n = 0x017 → (v.toNat % 16 = 0 ∨ v.toNat % 16 = 2 ∨ v.toNat % 16 = 3) →
      exec (.wrsr f) s = .next (s.dropUninject.mapSys (fun y => { y with errinj := v &&& 0x0000FFFFFF03000F }))) ∧
    (n = 0x017 → v.toNat % 16 = 1 → s.core.gate.length < 64 → s.rdK kh ≠ .invalid →
      let t := s.dropUninject.mapSys (fun y => { y with errinj := v &&& 0x0000FFFFFF030000 })
      exec (.wrsr f) s = .next (match s.rdK kh with
        | .valid nm => t.gateCmd 0 (.rick { rick := nm, seg := v.toNat / 2 ^ 24 % 256, op := .inject (v.toNat / 2 ^ 32 % 65536) })
        | _ => t)) ∧
    (n = 0x017 → v.toNat % 16 = 1 → s.rdK kh = .invalid → Traps (.wrsr f) s 0x0F 0) ∧
    (n = 0x017 → 3 < v.toNat % 16 → Traps (.wrsr f) s 0x03 slot) ∧
    (n = 0x010 → writes (fun y => { y with trapv := v &&& 0x00FFFFFFFFFFFFF9 })) ∧
    (n = 0x016 → writes (fun y => { y with collto := v &&& 0xFFFFFFFF })) ∧
    (n = 0x018 → writes (fun y => { y with chst := y.chst &&& ~~~(v &&& 0xFF) })) ∧
    (0x020 ≤ n → n < 0x028 → (v.toNat % 32 = 0 ∨ 7 ≤ v.toNat % 32 ∧ v.toNat % 32 ≤ 17) →
      writes (fun y => { y with lswz := vset y.lswz (n - 0x020) (v &&& 0x1F) })) ∧
    (0x020 ≤ n → n < 0x028 → (0 < v.toNat % 32 ∧ v.toNat % 32 < 7 ∨ 17 < v.toNat % 32) → Traps (.wrsr f) s 0x03 slot) ∧
    ((0x019 ≤ n ∧ n < 0x020 ∨ 0x028 ≤ n ∧ n < 0x030 ∨ 0x03C ≤ n) →
      Traps (.wrsr f) s 0x03 (BitVec.ofNat 64 (s.core.iss.cur.slot * 2 ^ 16 + 16 * 2 ^ 8))) ∧
    (0x030 ≤ n → n < 0x034 → writes (fun y => { y with bka := vset y.bka (n - 0x030) (v &&& 0x00FFFFFFFFFFFFF9) })) ∧
    (0x034 ≤ n → n < 0x038 → writes (fun y => { y with bkm := vset y.bkm (n - 0x034) (v &&& 0xFF) })) ∧
    (0x038 ≤ n → n < 0x03C → writes (fun y => { y with bkc := vset y.bkc (n - 0x038) v })) ∧
    ((n = 0x007 ∨ n = 0x008 ∨ 0x00A ≤ n ∧ n ≤ 0x00F ∨ 0x011 ≤ n ∧ n ≤ 0x015) → Traps (.wrsr f) s 0x07 0)

/-- R353, R354: delivery of a trap. With a handler armed and none running, TRAPC takes the cause with IN set, TRAPPC and
TRAPVAL their values, and the strand goes on at TRAPV.ADDR with nothing dispatched; no memory, device or other register changes
but what the restart point releases. Otherwise the strand leaves the core in STATE 4. R18, R352: a trap of the bundle in issue
removes the bundle's own results, gate entries and interlocked results, and delivers with the bundle's address. -/
def Obligations.TrapDelivery : Prop :=
  (
    ∀ (s : State) (cause : Nat) (val : X64) (pc : Nat), cause < 256 → s.core.gate = [] →
      let y := s.core.regs.sys
      let t := s.takeTrap cause val pc
      (y.trapv.getLsbD 0 = true → y.trapc.getLsbD 8 = false →
        t.core.regs.sys = { y with trapc := BitVec.ofNat 64 (cause + 256), trappc := BitVec.ofNat 64 (pc % 2 ^ 56 / 8 * 8), trapval := val } ∧
        t.core.iss.pc = y.trapv.toNat % 2 ^ 56 / 8 * 8 ∧ t.core.iss.next = .taken (y.trapv.toNat % 2 ^ 56 / 8 * 8) ∧
        t.core.iss.iq = [] ∧ t.core.running = s.core.running ∧ t.mem = s.mem ∧ t.dev = s.dev ∧
        t.core.regs.x = s.core.regs.x ∧ t.core.regs.v = s.core.regs.v ∧ t.core.regs.p = s.core.regs.p ∧
        t.core.regs.a = s.core.regs.a ∧ t.core.shadow.pc = t.core.iss.pc) ∧
      (∀ k u, s.core.running = some k → s.dev.strands[k]? = some u → (y.trapv.getLsbD 0 = false ∨ y.trapc.getLsbD 8 = true) →
        t.core.running = none ∧ t.core.iss.iq = [] ∧ t.mem = s.mem ∧
        ∃ w, t.dev.strands[k]? = some w ∧ w.state = .trapped ∧ w.pc = pc ∧
          w.regs.sys.trapc.toNat % 256 = cause ∧ w.regs.sys.trappc = BitVec.ofNat 64 (pc % 2 ^ 56 / 8 * 8) ∧
          w.regs.sys.trapval = val)) ∧
  (
    ∀ (s : State) (cause : Nat) (val : X64), s.core.gate = [] → s.core.inter = [] →
      s.core.regs.sys.trapv.getLsbD 0 = true → s.core.regs.sys.trapc.getLsbD 8 = false → cause < 256 →
      let t := s.issueTrap cause val
      t.core.iss.pend = s.core.iss.pend.filter (fun w => decide (w.bundle < s.core.iss.cur.bundle)) ∧
      t.core.gate = [] ∧ t.core.inter = [] ∧
      t.core.regs.sys.trapc = BitVec.ofNat 64 (cause + 256) ∧
      t.core.regs.sys.trappc = BitVec.ofNat 64 (s.core.iss.cur.addr % 2 ^ 56 / 8 * 8) ∧ t.core.regs.sys.trapval = val ∧
      t.core.iss.pc = s.core.regs.sys.trapv.toNat % 2 ^ 56 / 8 * 8 ∧ t.mem = s.mem ∧ t.dev = s.dev ∧
      t.core.regs.x = s.core.regs.x ∧ t.core.regs.v = s.core.regs.v)

/-- R356, R374, R26: TRAP commits its restart point and takes cause 0x0D with its code, TRAPPC the bundle that would follow;
RETT clears TRAPC.IN and goes on at TRAPPC, or traps outside a handler; BKPT with xa = 0 and CTL do nothing more; SVC queues
its request and waits. R256, R257: a fence whose scope and kinds meet no access in flight changes nothing but the restart point
it commits; one that meets an access waits at the head of the queue. -/
def Obligations.TrapOpsAndFences : Prop :=
  (
    (∀ (f : CGCode) (s : State), exec (.trap f) s =
      .next (s.serialPoint.takeTrap 0x0D (f.code.zeroExtend 64) s.serialPoint.core.iss.nextPc)) ∧
    (∀ (f : CG) (s : State), s.core.regs.sys.trapc.getLsbD 8 = true →
      Runs (.rett f) s (fun t => t.core.iss.next = .taken s.core.regs.sys.trappc.toNat ∧ t.core.iss.rett = true ∧
        t.core.regs.sys.trapc.getLsbD 8 = false ∧ t.core.regs.sys.trappc = s.core.regs.sys.trappc ∧
        t.core.regs.x = s.core.regs.x ∧ t.core.regs.v = s.core.regs.v)) ∧
    (∀ (f : CG) (s : State), s.core.regs.sys.trapc.getLsbD 8 = false → Traps (.rett f) s 0x0D 0xFFFF) ∧
    (∀ (f : CGSr) (s : State),
      (s.poisonX f.a = false → s.rdX f.a = 0 → exec (.bkpt f) s = .next s) ∧
      (s.poisonX f.a = false → s.rdX f.a ≠ 0 → Traps (.bkpt f) s 0x0C (BitVec.ofNat 64 (f.srn.toNat * 2 ^ 16 + 4))) ∧
      (s.poisonX f.a = true → Traps (.bkpt f) s 0x0B (BitVec.ofNat 64 (s.core.iss.cur.slot * 2 ^ 16 + f.a.toNat)))) ∧
    (∀ (f : CG) (s : State), exec (.ctl f) s = .next s) ∧
    (∀ (f : CGCode) (s : State), s.poisonX f.a = false →
      let u := s.serialPoint
      Runs (.svc f) s (fun t => t.dev.svc = u.dev.svc ++ [(u.core.tenant, u.core.number, f.code, u.rdX f.a)] ∧
        t.core.iss.waits = some .svc ∧ t.core.iss.waitReg = u.px f.d ∧ t.mem = u.mem ∧ t.core.regs = u.core.regs))) ∧
  (
    ∀ (f : CGFence) (s : State),
      let u := s.serialPoint
      let meets := fun (p : Part) => Kinds.has f.kinds p.kind && u.inScope f.scope p.addr
      ((∀ l ∈ u.core.loads, ∀ p ∈ l.left, meets p = false) → (∀ o ∈ u.core.fars, ∀ p ∈ o.parts, meets p = false) →
        exec (.fence f) s = .next u) ∧
      ((∃ l ∈ u.core.loads, ∃ p ∈ l.left, meets p = true) ∨ (∃ o ∈ u.core.fars, ∃ p ∈ o.parts, meets p = true) →
        exec (.fence f) s = .next (u.hold (some .other))))

/-- R71: LSSTEP by the cases of its table, once the scaled work of earlier bundles is done. The TRAPVAL of its trap is the model's reading
(log 29). -/
def Obligations.LossScale : Prop :=
  (∀ (f : CG) (s : State), scaleK s.core.regs.sys.lsmin ≤ scaleK s.core.regs.sys.lsmax → readyLsstep s.serialPoint = .go →
    Runs (.lsstep f) s (fun t => t.core.regs.sys = s.serialPoint.landOvfs.core.regs.sys.lsstep ∧ t.mem = s.serialPoint.mem ∧
      t.core.regs.x = s.serialPoint.core.regs.x)) ∧
  (∀ (f : CG) (s : State), scaleK s.core.regs.sys.lsmax < scaleK s.core.regs.sys.lsmin → Traps (.lsstep f) s 0x03 (BitVec.ofNat 64 (s.core.iss.cur.slot * 2 ^ 16))) ∧
  (∀ y : SysRegs, scaleK y.lsmin ≤ scaleK y.lsmax →
    let k := scaleK y.lscale
    let c := min (y.lsstat.toNat / 2 ^ 16 % 2 ^ 16 + 1) 65535
    let g := y.lsgrow.toNat % 65536
    let z := y.lsstep
    (y.lsstat.getLsbD 0 = true → scaleK y.lsmin < k → scaleK z.lscale = k - 1 ∧ z.lsstat = 2) ∧
    (y.lsstat.getLsbD 0 = true → k ≤ scaleK y.lsmin → scaleK z.lscale = k ∧ z.lsstat = 6 ∧
      z.lssat.toNat = min (y.lssat.toNat + 1) (2 ^ 32 - 1)) ∧
    (y.lsstat.getLsbD 0 = false → g ≠ 0 → g ≤ c → k < scaleK y.lsmax → scaleK z.lscale = k + 1 ∧ z.lsstat = 0) ∧
    (y.lsstat.getLsbD 0 = false → g ≠ 0 → g ≤ c → scaleK y.lsmax ≤ k → scaleK z.lscale = k ∧ z.lsstat = 8) ∧
    (y.lsstat.getLsbD 0 = false → (g = 0 ∨ c < g) → scaleK z.lscale = k ∧ z.lsstat = BitVec.ofNat 64 (c * 2 ^ 16)))

/-- R180: the group ops on a group that lives. JOING joins the next phase and answers it; LEAVEG answers the phase and leaves;
BARG arrives and waits; a name that resolves to none answers GONE; an op of a strand outside the group, and a second JOING,
trap with 0x11. R180: `check`. A phase whose members have all arrived completes: the phase steps, the arrivals of the next
phase become its own, and exactly the strands that waited for the old phase are released. -/
def Obligations.GroupOps : Prop :=
  (
    ∀ (f : CG) (s : State),
      let nm := s.rdN f.a.toNat
      let u := s.serialPoint
      (∀ g, chkJoing f s = .ok → u.liveGroup (u.rdN f.a.toNat) = some g →
        Runs (.joing f) s (fun t => t = ((u.mapDev (fun d => (d.setGroup { g with members := g.members + 1 }).setStrand u.strandIdx (fun t =>
          { t with groups := t.groups ++ [(g.name, (g.phase + 1) % 2 ^ 56)] }))).writeAfter 1
            (.x (u.px f.d) (BitVec.ofNat 64 ((g.phase + 1) % 2 ^ 56)) false)))) ∧
      (∀ g, chkMember f s = .ok → u.liveGroup (u.rdN f.a.toNat) = some g →
        exec (.leaveg f) s = .next ((u.writeAfter 1 (.x (u.px f.d) (BitVec.ofNat 64 g.phase) false)).leaveGroup u.strandIdx g.name) ∧
        (u.core.loads = [] → u.core.fars = [] →
          let a := g.arrive u.strandIdx ((u.joinedPhase g.name).getD 0)
          exec (.barg f) s = .next ((u.mapIss (fun i => { i with waits := some (.barg g.name a.2), waitReg := u.px f.d })).checkGroup
            a.1))) ∧
      (u.liveGroup (u.rdN f.a.toNat) = none →
        let gone := (u.learn (u.rdN f.a.toNat)).writeAfter 1 (.x (u.px f.d) (token 1 0) false)
        (chkJoing f s = .ok → exec (.joing f) s = .next gone) ∧
        (chkMember f s = .ok → exec (.leaveg f) s = .next gone ∧
          (u.core.loads = [] → u.core.fars = [] → exec (.barg f) s = .next gone))) ∧
      (s.resolve s.core.tenant nm = none → chkJoing f s = .ok ∧ chkMember f s = .ok) ∧
      (∀ c g, s.resolve s.core.tenant nm = some c → c.ty = .group → s.dev.group? nm = some g → s.joinedPhase g.name = none →
        Traps (.leaveg f) s 0x11 0 ∧ Traps (.barg f) s 0x11 0) ∧
      (∀ c g j, s.resolve s.core.tenant nm = some c → c.ty = .group → s.dev.group? nm = some g → s.joinedPhase g.name = some j →
        Traps (.joing f) s 0x11 0)) ∧
  (
    ∀ g : Group, g.expected = g.arrived → 0 < g.arrived → g.arrnext < g.members →
      let r := Group.check 4 g
      r.1.phase = (g.phase + 1) % 2 ^ 56 ∧ r.1.members = g.members ∧ r.1.expected = g.members ∧ r.1.arrived = g.arrnext ∧
      r.1.arrnext = 0 ∧ r.2 = g.waiters.filter (fun w => w.2 == g.phase) ∧
      r.1.waiters = g.waiters.filter (fun w => w.2 != g.phase))

/-- R173 to R176, R188: the strand ops. SPAWN of a well-formed record adds the strand it describes and answers its number, ABORT for a
record that breaks the rules, and FULL where the die's table has no room; SUSP and EXIT take the
strand off the core, to the state runnable or done; YIELD with no strand of its class or a higher one waiting goes on; NEXTT
draws the next sheaf. -/
def Obligations.StrandOps : Prop :=
  (∀ (f : CG) (s : State), chkSpawn f s = .ok → readySpawn f s.serialPoint = .go →
    let u := s.serialPoint
    let v := (u.rdX f.a).toNat
    let w := u.spawnWords v
    spawnBad w ((u.self.map (·.cls)).getD 0) = false → u.dev.liveStrands (w.getD 1 0 / 2 ^ 31 % 2) < 65536 →
    Runs (.spawn f) s (fun t => ∃ n : Strand, n.state = .runnable ∧ n.fresh = true ∧ n.pc = w.getD 0 0 ∧
      n.tenant = u.core.tenant ∧ n.arg = u.rdX f.b ∧ n.number = w.getD 1 0 / 2 ^ 40 % 2 ^ 24 ∧ n.cls = w.getD 1 0 / 2 ^ 4 % 4 ∧
      vget n.regs.x 1 0 = u.rdX f.b ∧ n.regs.sys = u.core.regs.sys ∧ t.dev.strands = u.dev.strands ++ [n] ∧
      ∃ q : State, t = q.writeAfter 1 (.x (u.px f.d) (BitVec.ofNat 64 n.number) false) ∧ q.core.iss.cur = u.core.iss.cur)) ∧
  (∀ (f : CG) (s : State), chkSpawn f s = .ok → readySpawn f s.serialPoint = .go →
    let u := s.serialPoint
    let w := u.spawnWords (u.rdX f.a).toNat
    spawnBad w ((u.self.map (·.cls)).getD 0) = false → 65536 ≤ u.dev.liveStrands (w.getD 1 0 / 2 ^ 31 % 2) →
    exec (.spawn f) s = .next (u.writeAfter 1 (.x (u.px f.d) (token 9 0) false))) ∧
  (∀ (f : CG) (s : State), chkSpawn f s = .ok → spawnBad (s.serialPoint.spawnWords (s.serialPoint.rdX f.a).toNat)
      ((s.serialPoint.self.map (·.cls)).getD 0) = true →
    exec (.spawn f) s = .next (s.serialPoint.writeAfter 1 (.x (s.serialPoint.px f.d) (token 11 0) false))) ∧
  (∀ (f : CG) (s : State) (k : Nat) (u : Strand), s.serialPoint.core.running = some k → s.serialPoint.dev.strands[k]? = some u →
    (chkSusp f s = .ok → readySusp s.serialPoint = .go →
      Runs (.susp f) s (fun t => t.core.running = none ∧ t.core.iss.iq = [] ∧
        ∃ w, t.dev.strands[k]? = some w ∧ w.state = .runnable ∧ w.pc = s.serialPoint.core.iss.nextPc)) ∧
    (readyExit s.serialPoint = .go →
      Runs (.exit f) s (fun t => t.core.running = none ∧ t.core.iss.iq = [] ∧
        ∃ w, t.dev.strands[k]? = some w ∧ w.state = .done ∧ w.ending = true)) ∧
    (s.serialPoint.dev.waiter (fun c => decide (c ≤ u.cls)) = false → exec (.yield f) s = .next s.serialPoint) ∧
    (s.serialPoint.dev.waiter (fun c => decide (c ≤ u.cls)) = true →
      Runs (.yield f) s (fun t => t.core.running = none ∧
        ∃ w, t.dev.strands[k]? = some w ∧ w.state = .runnable ∧ w.pc = s.serialPoint.core.iss.nextPc))) ∧
  (∀ (f : CG) (s : State), 48 ≤ f.d.toNat → readyNextt s = .go →
    let u := s.serialPoint
    (∀ i b, u.drawFrom = some (i, b) → b.drawn < b.sheafCount →
      exec (.nextt f) s = .next ((u.mapDev (fun d => d.setBlock i (fun b => { b with drawn := b.drawn + 1 }))).writeAfter 40
        (.x (u.px f.d) (BitVec.ofNat 64 (packIdx b.levels (sheafIdx b.levels b.drawn))) false))) ∧
    ((u.drawFrom = none ∨ ∃ i b, u.drawFrom = some (i, b) ∧ b.sheafCount ≤ b.drawn) →
      exec (.nextt f) s = .next (u.writeAfter 40 (.x (u.px f.d) 0x8000000000000000 false)))) ∧
  (∀ (f : CG) (s : State), f.d.toNat < 48 → Traps (.nextt f) s 0x10 0)

/-- R433 to R436: thresher arithmetic, vector and scalar, with source B from a Z register where BZ is set. That EX2 and LG2 are R436's functions
correctly rounded as the model's `exp2Num` and `log2Fn` evaluate them is presumed (log 14). -/
def Obligations.ThresherArithmetic : Prop :=
  ∀ (f : TR) (c : TRCmp) (k : TRCvt) (s : State) (v : Invocation), s.thr = some v →
    let w := f.t.fmt.width
    let a := fun e => tsrc v f.s w f.a e
    let b := fun e => tsrcB v f.s f.bz w f.b e
    let x := fun e => decodeFloat f.t.fmt (a e)
    let y := fun e => decodeFloat f.t.fmt (b e)
    let z := fun e => decodeFloat f.t.fmt (tsrc v f.s w f.c e)
    let i := fun e => signedOf 32 (a e)
    let j := fun e => signedOf 32 (b e)
    let rnd := fun (q : Machine.Num) => (roundFloat f.t.fmt .rne false 0 q).bits
    let both := fun (ins : Instr) (fl : Nat → Machine.Num) (it : Nat → Int) =>
      ThrSends ins s v f.s w f.d (fun e => if f.t = .int32 then wrapInt 32 (it e) else rnd (fl e))
    both (.thrAdd f) (fun e => addNum .rne (x e) (y e)) (fun e => i e + j e) ∧
    both (.thrSub f) (fun e => subNum .rne (x e) (y e)) (fun e => i e - j e) ∧
    both (.thrMul f) (fun e => mulNum (x e) (y e)) (fun e => i e * j e) ∧
    both (.thrMin f) (fun e => minNum (x e) (y e)) (fun e => min (i e) (j e)) ∧
    both (.thrMax f) (fun e => maxNum (x e) (y e)) (fun e => max (i e) (j e)) ∧
    both (.thrAbs f) (fun e => (x e).abs) (fun e => |i e|) ∧
    both (.thrNeg f) (fun e => (x e).neg) (fun e => -i e) ∧
    ThrSends (.thrFma f) s v f.s w f.d (fun e => rnd (fmaNum .rne (x e) (y e) (z e))) ∧
    ThrSends (.thrAnd f) s v f.s w f.d (fun e => a e &&& b e) ∧
    ThrSends (.thrOr f) s v f.s w f.d (fun e => a e ||| b e) ∧
    ThrSends (.thrXor f) s v f.s w f.d (fun e => a e ^^^ b e) ∧
    ThrSends (.thrShl f) s v f.s w f.d (fun e => a e * 2 ^ (b e % 32) % 2 ^ 32) ∧
    ThrSends (.thrShr f) s v f.s w f.d (fun e => a e / 2 ^ (b e % 32)) ∧
    ThrSends (.thrSra f) s v f.s w f.d (fun e => wrapInt 32 (i e / 2 ^ (b e % 32))) ∧
    ThrSends (.thrAdds f) s v f.s w f.d (fun e => wrapInt 32 (max (-2 ^ 31 : Int) (min (i e + j e) (2 ^ 31 - 1)))) ∧
    ThrSends (.thrSel f) s v f.s w f.d (fun e => if tsrc v f.s w f.c e ≠ 0 then a e else b e) ∧
    ThrSends (.thrEx2 f) s v f.s w f.d (fun e => rnd (exp2Num (x e))) ∧
    ThrSends (.thrLg2 f) s v f.s w f.d (fun e => rnd (log2Fn (x e))) ∧
    ThrSends (.thrCmp c) s v c.s c.t.fmt.width c.d (fun e => if condElem c.cond c.t.fmt (tsrc v c.s c.t.fmt.width c.a e)
      (tsrcB v c.s c.bz c.t.fmt.width c.b e) then 1 else 0) ∧
    (k.t ≠ k.t2 → ThrStep (.thrCvt k) s v (fun u => u.put k.s k.t.fmt.width k.d ((List.range (if k.s then 1 else 16)).map (fun e =>
      (convertTo k.t.fmt .rne (decide (k.t = .int32)) 0 (decodeElem k.t2.fmt (tsrc v k.s k.t2.fmt.width k.a e))).bits))))

/-- R437 to R439: the moves, the header and the window. A window access that is misaligned or beyond the window traps with
cause 0x02. R440: bin loads, stores and atomics at an aligned offset inside the kernel's bin set; other offsets trap with cause
0x01, and a bin set that is gone with cause 0x05. -/
def Obligations.ThresherMoves : Prop :=
  (
    ∀ (a : TIMov) (b : TIAdd) (c : TRLane) (f : TM) (s : State) (v : Invocation), s.thr = some v →
      let addr := (v.rdZ f.a).toNat + f.off.toNat
      let m := addr % 2 ^ 32
      let n := if f.s then 4 else 64
      let bound := if v.spec.slot then 512 else 256
      ThrStep (.thrMovi a) s v (fun u => u.wrZ a.d (if a.h then BitVec.ofNat 32 (a.imm.toNat * 2 ^ 11)
        else BitVec.ofInt 32 a.imm.toInt)) ∧
      ThrStep (.thrAddi b) s v (fun u => u.wrZ b.d (BitVec.ofInt 32 ((v.rdZ b.a).toInt + b.imm.toInt))) ∧
      ThrStep (.thrVext c) s v (fun u => u.wrZ c.d (BitVec.ofNat 32 ((v.rdW c.a).toNat / 2 ^ (32 * c.x.toNat)))) ∧
      ThrStep (.thrVbc c) s v (fun u => u.put false 32 c.d (List.replicate 16 (v.rdZ c.a).toNat)) ∧
      ThrStep (.thrHdr c) s v (fun u => u.wrZ c.d (BitVec.ofNat 32 (headerField v.spec c.x.toNat))) ∧
      (m % 4 = 0 → m + n ≤ bound →
        ThrStep (.thrPld f) s v (fun u => u.putBytes f ((v.window.drop m).take n)) ∧
        ThrStep (.thrPst f) s v (fun u => { u with window := v.window.take m ++ v.regBytes f ++ v.window.drop (m + n) })) ∧
      (¬ (m % 4 = 0 ∧ m + n ≤ bound) → ThrTraps (.thrPld f) s v 0x02 m ∧ ThrTraps (.thrPst f) s v 0x02 m)) ∧
  (
    ∀ (f : TM) (g : TRBamo) (s : State) (v : Invocation), s.thr = some v →
      let m := ((v.rdZ f.a).toNat + f.off.toNat) % 2 ^ 32
      let n := if f.s then 4 else 64
      let p := (v.rdZ g.a).toNat
      let base := (s.dev.binSet v.kernel).1
      let size := (s.dev.binSet v.kernel).2
      let at' := fun (u : Invocation) => { u with last := v.pc, left := v.left - 1 }
      (v.binGone = false → m % 4 = 0 → m + n ≤ size →
        ThrStep (.thrBld f) s v (fun u => u.putBytes f (s.dev.binBytes (base + m) n)) ∧
        exec (.thrBst f) s = .next ((s.mapDev (fun d => d.putBins (base + m) (v.regBytes f))).thrGoto (at' v) (v.pc + 1))) ∧
      (v.binGone = false → p % 4 = 0 → p + 4 ≤ size →
        let old := natOfBytes (s.dev.binBytes (base + p) 4)
        exec (.thrBamo g) s = .next ((s.mapDev (fun d => d.putBins (base + p)
          (bytesOfNat 4 (bamoApply g.op old (v.rdZ g.b).toNat)))).thrGoto ((at' v).wrZ g.d (BitVec.ofNat 32 old)) (v.pc + 1))) ∧
      (v.binGone = true → ThrTraps (.thrBld f) s v 0x05 0 ∧ ThrTraps (.thrBst f) s v 0x05 0 ∧ ThrTraps (.thrBamo g) s v 0x05 0) ∧
      (v.binGone = false → ¬ (m % 4 = 0 ∧ m + n ≤ size) → ThrTraps (.thrBld f) s v 0x01 m ∧ ThrTraps (.thrBst f) s v 0x01 m) ∧
      (v.binGone = false → ¬ (p % 4 = 0 ∧ p + 4 ≤ size) → ThrTraps (.thrBamo g) s v 0x01 p))

/-- R441 to R443: control and disposition. A jump goes to its word, LOOPI enters its body or passes it, and END delivers the
disposition. -/
def Obligations.ThresherControl : Prop :=
  ∀ (f : TC) (s : State) (v : Invocation), s.thr = some v →
    let u : Invocation := { v with last := v.pc, left := v.left - 1 }
    let trips := if f.a = 0 then f.k.toNat + 1 else (min (v.rdZ f.a).toInt (f.k.toNat + 1 : Nat)).toNat
    exec (.thrBr f) s = .next (s.thrGoto u (v.pc + f.o.toNat)) ∧
    exec (.thrBc f) s = .next (s.thrGoto u (if intCond (Cond.ofCode f.k.toNat) 32 (v.rdZ f.a).toNat 0 then v.pc + f.o.toNat
      else v.pc + 1)) ∧
    (trips = 0 → exec (.thrLoopi f) s = .next (s.thrGoto u (v.pc + 1 + f.o.toNat))) ∧
    (0 < trips → exec (.thrLoopi f) s = .next (s.thrGoto
      { u with trip := some { start := v.pc + 1, stop := v.pc + 1 + f.o.toNat, left := trips - 1 } } (v.pc + 1))) ∧
    ThrStep (.thrFwd f) s v (fun u => { u with disp := .fwd }) ∧
    ThrStep (.thrDrop f) s v (fun u => { u with disp := .drop }) ∧
    ThrStep (.thrRedir f) s v (fun u => { u with disp := .redir (v.rdZ f.a) }) ∧
    ThrTraps (.thrTrap f) s v 0x03 f.o.toNat ∧
    exec (.thrEnd f) s = .next (s.thrStop u) ∧
    (v.disp = .fwd ∨ v.disp = .drop → (s.thrStop u).thr = none ∧
      (s.thrStop u).results = s.results ++ [(v.spec, .disp v.disp, v.window)] ∧ (s.thrStop u).mem = s.mem)

/-- R28, R37, R343, R352: the core's own events. A fill brings the missing line, with a copy of the next one (log 10); results due land; a restart point commits
where the next bundle carries MARK or QP and nothing is queued; a failed lookup rolls back and traps, one of cause 0x05 waits;
PAGE_MADE_PRESENT lets the strand run on, or traps where the range has no backing. R349: the rollback. The registers come back
as they stood at the last committed restart point, with the results that have landed since, the gate's entries and outstanding
results of later bundles go, and dispatch resumes at the point with nothing queued but an op that has issued and waits; memory is as it was. R351: a result of a
bundle before the point that is still in flight stays in flight, and a read returns it already. -/
def Obligations.CoreEvents : Prop :=
  (
    ∀ s : State,
      (∀ line, s.core.running ≠ none → s.fetch = .miss line →
        Runs .icacheFill s (fun t => (∃ rest, t.core.icache = (line, s.mem.bytes (64 * line) 128) :: rest) ∧
          t.core.icache.length ≤ 1024 ∧ t.mem = s.mem ∧ t.core.regs = s.core.regs ∧ t.core.iss = s.core.iss)) ∧
      exec .fixedLatencyWrite s = .next s.land ∧
      (∀ c, s.core.running ≠ none → s.core.iss.mayDispatch = true → s.core.iss.iq = [] → s.nextCtl = some c → (c.mark || c.qp) = true →
        exec .restartPointCommit s = .next (s.commitAt s.core.iss.bundle s.core.iss.pc)) ∧
      (∀ f, s.core.iss.fault = some f → s.core.iss.absent = false → f.cause ≠ 0x05 →
        exec .lookupFault s = .next ((s.rollback.takeTrap f.cause f.addr s.core.shadow.pc).afterTrap s.core.running)) ∧
      (∀ f, s.core.iss.fault = some f → s.core.iss.absent = false → f.cause = 0x05 → s.core.running ≠ none →
        Runs .lookupFault s (fun t => t.core.iss.absent = true ∧ t.core.iss.fault = some f ∧ t.core.iss.iq = s.core.committed ∧
          t.core.iss.pc = s.core.shadow.pc ∧ t.mem = s.mem)) ∧
      (∀ f, s.core.iss.fault = some f → s.core.iss.absent = true →
        Runs (.pageMadePresent true) s (fun t => t.core.iss.absent = false ∧ t.core.iss.fault = none ∧
          (∀ e ∈ t.core.table, e.maps f.addr.toNat = true → e.absent = false) ∧ t.core.regs = s.core.regs ∧ t.mem = s.mem)) ∧
      (∀ f, s.core.iss.fault = some f → s.core.iss.absent = true → exec (.pageMadePresent false) s =
        .next (((s.mapIss (fun i => { i with absent := false, fault := none })).takeTrap 0x06 f.addr s.core.shadow.pc).afterTrap
          s.core.running))) ∧
  (
    (∀ (s : State) (w : PWrite), s.core.shadow.pend = [w] → w.dead = false → s.core.iss.sched < w.due → w.dest.key.isSome = true →
      s.rollback.core.iss.pend = [w] ∧ s.rollback.core.regs.x = (w.dest.apply s.core.shadow.regs).x ∧
      s.rollback.core.regs.v = (w.dest.apply s.core.shadow.regs).v ∧ s.rollback.core.regs.p = (w.dest.apply s.core.shadow.regs).p ∧
      s.rollback.core.regs.a = (w.dest.apply s.core.shadow.regs).a) ∧
    (∀ s : State, s.core.shadow.pend = [] →
      let t := s.rollback
      let b := s.core.shadow.bundle
      t.core.regs.x = s.core.shadow.regs.x ∧ t.core.regs.v = s.core.shadow.regs.v ∧ t.core.regs.p = s.core.shadow.regs.p ∧
      t.core.regs.a = s.core.shadow.regs.a ∧ t.core.regs.n = s.core.shadow.regs.n ∧ t.core.regs.rrb = s.core.shadow.regs.rrb ∧
      t.core.regs.seq = s.core.shadow.regs.seq ∧ t.core.regs.arq = s.core.shadow.regs.arq ∧
      t.core.regs.sys.trapv = s.core.shadow.regs.sys.trapv ∧ t.core.regs.sys.lscale = s.core.shadow.regs.sys.lscale ∧
      t.core.iss.pc = s.core.shadow.pc ∧ t.core.iss.iq = s.core.committed ∧ t.core.iss.pend = [] ∧ t.core.iss.fault = none ∧
      (∀ e ∈ t.core.gate, e.bundle < b) ∧ (∀ i ∈ t.core.inter, i.bundle < b) ∧ (∀ l ∈ t.core.loads, l.bundle < b) ∧
      (∀ m ∈ t.core.mx.mmas, m.bundle < b) ∧ t.core.accs = [] ∧ t.mem = s.mem ∧ t.core.fars = s.core.fars ∧
      t.core.meter = s.core.meter))

/-- R242, R249 to R254, R297 to R302, R217, R292, R293, R386, R387, R371: far accesses at their homes. Each is performed where the ordering
rules let it be: a load delivers and leaves the list with its last part, a store writes the bytes of its part at their homes, but for those
of a lost device. AMO leaves the operation's result at its home, fills its return-queue entry with the old value, and its token takes the
operation's status, GONE or POISON; RED leaves its result, or counts an error at counter 3; CASN leaves the new name where the old one was
expected and, with `.live`, the new one is live, and N[B] takes the name that it found. A stream's image is fetched or written. That an access
of another device's own agents to its memory is a store there is the model's reading (log 59), and so is the name that a CASN of a poisoned
home finds (log 24). -/
def Obligations.AccessEvents : Prop :=
  ∀ s : State,
    (∀ k q, s.core.loadParts[k]? = some q → s.loadReady q = true →
      let l := { q.1 with got := q.1.got ++ [(q.2, s.readParts (s.viewAt q.1.bundle) (q.1.part q.2))] }
      Runs (.farLoadReturn k) s (fun t => t.mem = s.mem ∧
        (l.left ≠ [] → t.core.loads = s.core.loads.map (fun o => if o.id = l.id then l else o) ∧ t.core.inter = s.core.inter ∧
          t.core.regs = s.core.regs) ∧
        (l.left = [] → t.core.loads = s.core.loads.filter (fun o => o.id != l.id) ∧
          (l.stream = none →
            let r := l.result (((List.range l.got.length).map (fun i => ((l.got.find? (fun g => g.1 == i)).map (·.2)).getD [])).flatten)
            Lands s t l.id r.1 r.2.1)))) ∧
    (∀ k f, s.core.fars[k]? = some f → f.atom = none → s.farReady f = true →
      let good := f.parts.filter (fun p => !s.lostNow p)
      Runs (.farStorePerformed k) s (fun t =>
        t.core.fars.map (fun o => (o.id, o.parts)) = (s.core.fars.erase f).map (fun o => (o.id, o.parts)) ∧
        t.mem = s.mem.store ((f.data.cells.filter (fun c => inParts good c.1)).map (fun c => (s.route c.1, c.2)))
          ((f.data.poisoned.filter (inParts good)).map s.route))) ∧
    (∀ k f op, s.core.fars[k]? = some f → f.atom = some op → s.farReady f = true →
      exec (.atomicPerformed k) s = .next (((s.dropFar f).chargeParts f.strand f.parts).performAtom f op)) ∧
    (∀ k f op p ps, s.core.fars[k]? = some f → f.atom = some op → s.farReady f = true → f.parts = p :: ps → s.mem.wf = true →
      let u := (s.dropFar f).chargeParts f.strand f.parts
      let a := s.route p.addr
      let n := f.bytes
      let gone := s.lostNow p
      let bad := s.poisonedAt a n
      let old := s.mem.num a n
      let stored := fun (t : State) (len w : Nat) => (∀ i, i < len → homeOf (physOf (a + i)) ≠ .host) →
        t.mem.num a len = w % 2 ^ (8 * len) ∧ OnlyAt s.mem t.mem (fun i => a + i) len
      let counted := fun (t : State) => t.mem = s.mem ∧
        (vget t.dev.errors 3 0).toNat = min ((vget s.dev.errors 3 0).toNat + 1) (2 ^ 64 - 1)
      Runs (.atomicPerformed k) s (fun t => t.core.fars = s.core.fars.erase f ∧
        (∀ o b c po, op = .amo o b c po →
          let r := amoApply o (8 * n) old b.toNat c.toNat
          let v : X64 × Bool := if gone then (0, false) else if bad then (0, true) else (BitVec.ofNat 64 old, false)
          (gone = true ∨ bad = true → t.mem = s.mem) ∧ (gone = false → bad = false → stored t n r.1) ∧
          TokenLands s t f.tok f.id (token (if gone then 1 else if bad then 3 else r.2) 0) ∧
          (s.core.running = some f.strand →
            t.core.regs.arq = s.core.regs.arq.map (fun e => if e.id = f.id then { e with value := some v } else e)) ∧
          (s.core.running ≠ some f.strand → (t.dev.strands[f.strand]?).map (fun q => q.regs.arq) =
            (s.dev.strands[f.strand]?).map (fun q => q.regs.arq.map (fun e => if e.id = f.id then { e with value := some v } else e)))) ∧
        (∀ o b po, op = .red o b po →
          (gone = true ∨ bad = true → counted t) ∧ (gone = false → bad = false → stored t n (redApply o (8 * n) old b.toNat))) ∧
        (∀ lanes po, op = .bfp lanes po →
          let blk := bfpAdd (bfpOfWords ((List.range 64).map (fun i => s.mem.num (a + 4 * i) 4)))
            ((lanesOf 32 64 lanes.toNat).map (decodeFloat .fp32)) po
          (gone = true ∨ bad = true → counted t) ∧
          (gone = false → bad = false → (∀ i, i < 64 → t.mem.num (a + 4 * i) 4 = (bfpWords blk).getD i 0 % 2 ^ 32) ∧
            OnlyAt s.mem t.mem (fun i => a + i) 256)) ∧
        (∀ ex new live nb bVal, op = .casn ex new live nb bVal →
          let was : ClaimName := if bad then 0 else BitVec.ofNat 128 old
          let dead := live && !u.pins (u.tenantOf f.strand) new
          let ends := fun (st : Nat) (v : ClaimName) => TokenLands s t f.tok f.id (token st 0) ∧ Lands s t f.id (.n nb) (.name nb v)
          (gone = true → t.mem = s.mem ∧ ends 1 bVal) ∧
          (gone = false → dead = true → t.mem = s.mem ∧ ends 1 was) ∧
          (gone = false → dead = false → was = ex → stored t 16 new.toNat ∧ ends 0 was) ∧
          (gone = false → dead = false → was ≠ ex → t.mem = s.mem ∧ ends 11 was)))) ∧
    (∀ (q : BitVec 3) t, s.rdQ q.toNat = some t → s.fetchReady q.toNat = true →
      Runs (.streamFetch q) s (fun u => u.mem = s.mem ∧ u.core.regs = s.core.regs ∧
        (vget u.core.strm q.toNat StreamEngine.empty).moved = (vget s.core.strm q.toNat StreamEngine.empty).moved + 1 ∧
        (vget u.core.strm q.toNat StreamEngine.empty).images = (vget s.core.strm q.toNat StreamEngine.empty).images ++
          [(s.fetchImage t (vget s.core.strm q.toNat StreamEngine.empty).moved).1])) ∧
    (∀ (q : BitVec 3) t, s.rdQ q.toNat = some t → s.writebackReady q.toNat = true →
      Runs (.streamWriteback q) s (fun u => u.core.regs = s.core.regs ∧
        (vget u.core.strm q.toNat StreamEngine.empty).moved = (vget s.core.strm q.toNat StreamEngine.empty).moved + 1 ∧
        (vget u.core.strm q.toNat StreamEngine.empty).coming = (vget s.core.strm q.toNat StreamEngine.empty).coming.drop 1)) ∧
    (∀ dev op, s.dev.ident.lost.contains dev = false → (∀ a bs po, op ≠ .ownStore a bs po) →
      exec (.remoteAccess dev op) s = .next ((s.hear dev).performRemote op)) ∧
    (∀ dev a bs po, s.dev.ident.lost.contains dev = false →
      exec (.remoteAccess dev (.ownStore a bs po)) s = .next ((s.hear dev).storeElsewhere dev a bs po)) ∧
    (∀ dev op, s.dev.ident.lost.contains dev = true → exec (.remoteAccess dev op) s = .next s) ∧
    (∀ op, s.route (remoteAddr op) ≠ remoteAddr op → exec (.forwardedAccess op) s = .next (s.performRemote op)) ∧
    (∀ a bs po, remoteHome a bs.length = true → po.length = bs.length →
      (s.performRemote (.store a bs po)).mem = s.mem.store ((cellsAt a bs).map (fun c => (s.route c.1, c.2)))
        ((po.zipIdx.filter (·.1)).map (fun q => s.route (a + q.2)))) ∧
    (∀ a n, remoteHome a n = true → (s.performRemote (.load a n)).mem = s.mem ∧
      (s.performRemote (.load a n)).dev.answer = some ((List.range n).map (fun i =>
        if s.mem.poisoned (s.route (a + i)) then none else some (s.mem.byte (s.route (a + i))))))

/-- R168, R170, R193 to R195, R364 to R367: the scheduler's events. A free core with an eligible strand takes one; a running
strand's halt rolls it back and its save makes it runnable; a slice, a class and a qualifying wait take it off the core; PARK,
UNPARK, KILL, RESUME and CHANGE_AFFINITY act on the strands whose state allows it. What the model fixes of pre-emption is in
log 41. -/
def Obligations.StrandEvents : Prop :=
  ∀ (s : State) (k : Nat) (u : Strand), s.dev.strands[k]? = some u →
    let at' := fun (t : State) => t.dev.strands[k]?
    (∀ table, s.mayPick = true → s.dev.pick.1 = some k → s.dev.pick.2.strands[k]? = some u →
      State.saveLost { s with dev := s.dev.pick.2 } u = false →
      State.loadTable { s with dev := s.dev.pick.2 } u = some table →
      Runs .pickup s (fun t => t.core.running = some k ∧ t.core.iss.pc = u.pc ∧
        t.core.regs = { State.resumedRegs { s with dev := s.dev.pick.2 } u with q := t.core.regs.q } ∧ t.core.nV = u.nV ∧
        t.core.nA = u.nA ∧ t.core.table = table ∧ t.core.tableOf = some u.tenant ∧ t.core.tenant = u.tenant ∧ t.core.number = u.number ∧ t.core.gate = [] ∧
        (u.issuing = [] → t.core.iss.iq = []) ∧ t.core.shadow.pc = u.pc ∧ t.core.now = s.core.now + (2 + u.nV / 8 + 64 * u.nA) ∧
        ∃ w, at' t = some w ∧ w.state = .running)) ∧
    (s.core.running = some k → s.core.iss.halted = false → exec .preempt s = .next s.halt.requeue) ∧
    (s.core.running = some k → s.core.iss.halted = true →
      Runs .contextSave s (fun t => t.core.running = none ∧
        ∃ w, at' t = some w ∧ w.state = .runnable ∧ w.pc = s.core.shadow.pc ∧ w.full = true)) ∧
    (s.sliceDue = true → exec .sliceExpiry s = .next s.halt.requeue) ∧
    (s.classDue = true → exec .classPreemption s = .next s.halt) ∧
    (s.descheduleDue = true → exec .deschedule s = .next (s.halt.saveHalted .waiting s.longWait)) ∧
    (u.state = .waiting → s.eventHolds u = true →
      Runs (.waitEventOccurred k) s (fun t => at' t = some { u with state := .runnable, waits := none, since := s.core.now } ∧
        t.mem = s.mem ∧ t.core = s.core)) ∧
    (∀ (r : Reg) (v : X64) (i : Inter), s.core.running ≠ some k → u.pending.find? (fun i => i.reg == .x r.toNat) = some i →
      (∀ l ∈ s.core.loads, l.id ≠ i.id) → (∀ f ∈ s.core.fars, f.id ≠ i.id) → (∀ e ∈ s.core.engs, e.id ≠ i.id) →
      exec (.pendingTokenArrival k r v) s = .next (s.deliverTok r.toNat i.id v false)) ∧
    (s.core.running ≠ some k → (u.state = .runnable ∨ u.state = .waiting) →
      Runs (.park k) s (fun t => at' t = some { u with state := .parked, wasWaiting := decide (u.state = .waiting) } ∧ t.core = s.core)) ∧
    (u.state = .parked → Runs (.unpark k) s (fun t => t.core = s.core ∧ at' t =
      some { u with state := if u.wasWaiting && u.waits.isSome then .waiting else .runnable, since := s.core.now, byFence := false })) ∧
    (s.core.running ≠ some k → (u.state = .parked ∨ u.state = .waiting ∨ u.state = .trapped) →
      Runs (.kill k) s (fun t => t.core = s.core ∧ ∃ w, at' t = some w ∧ w.state = .killed ∧ w.ending = true)) ∧
    (u.state = .trapped → u.debugHold = true →
      Runs (.resume k) s (fun t => t.core = s.core ∧ ∃ w, at' t = some w ∧ w.state = .runnable ∧ w.pc = u.regs.sys.trappc.toNat ∧
        w.rett = true ∧ w.regs.sys.trapc.getLsbD 8 = false ∧ w.regs.x = u.regs.x)) ∧
    (∀ (c : Nat) (cores : BitVec 8), u.state = .parked → cores ≠ 0 → c < 32 → (u.fresh = true ∨ c = u.cluster) →
      Runs (.changeAffinity k c cores) s (fun t => t.core = s.core ∧ at' t = some { u with cluster := c, cores := cores })) ∧
    (s.endingStrand = some k → exec .strandEnd s = .next (s.endStrand k u.state))

/-- R397, R185 to R192: the tenant queue and its blocks. TAIL_WRITE sets TAIL where the queue holds the blocks it names, else
counts it; BLOCK_READ takes the block at HEAD, rejected where a check of R185 fails; SHEAF_RELEASE places the next strand: with PERSIST = 0 its
X1 up hold START + index · STRIDE of each level, zeros to X6, and with PERSIST = 1 zeros, its X7 to X14 the arguments, and its cluster is
the next set bit of CLUSTERS in turn; BLOCK_COMPLETE writes the record and its sequence number. Host writes sent before a TAIL write or
a block's reading are performed first (R260). By an invalid list the reaper reads as far as its entries go, the model's choice (log 78), and the
TAIL write that begins a launch is its choice (log 77). -/
def Obligations.BlockEvents : Prop :=
  ∀ (t k : Nat) (s : State), t < 64 →
    let p := s.dev.page t
    let z := s.landPieces
    (∀ v l, p.active = true → (v - p.head).toNat ≤ 2 ^ p.qsize →
      Runs (.tailWrite { tenant := t, launch := l } v) s (fun u => u.dev.page t = { (if l then p.newLaunch else p) with tail := v } ∧
        (∀ o, o ≠ t → u.dev.page o = s.dev.page o) ∧ u.dev.msix = s.dev.msix ∧ u.core = z.core ∧ u.mem = z.mem)) ∧
    (∀ v l, p.active = true → 2 ^ p.qsize < (v - p.head).toNat →
      Runs (.tailWrite { tenant := t, launch := l } v) s (fun u => u.dev.page t = { p with badtail := min (p.badtail + 1) (2 ^ 32 - 1) } ∧
        u.dev.msix = s.dev.msix ++ (if p.errint then [(t, 1)] else []) ∧ u.core = z.core ∧ u.mem = z.mem)) ∧
    (∀ data home, p.hasBlock = true → z.loadBy (z.listEntries t) (p.qbase.toNat + 256 * (p.head.toNat % 2 ^ p.qsize)) 256 = some data →
      z.partsBy (z.listEntries t) [.store] (wordAt (data.map (·.1)) 16) 64 = some home → (∀ q ∈ data, q.2 = false) →
      wordAt (data.map (·.1)) 16 % 64 = 0 →
      Runs (.blockRead t) s (fun u => (u.dev.page t).head = p.head + 1 ∧ (u.dev.page t).dropped = p.dropped ∧ u.mem = z.mem ∧
        u.core = z.core ∧ ∃ b, u.dev.blocks = s.dev.blocks ++ [b] ∧ b.tenant = t ∧ b.placed = 0 ∧ b.complete = false ∧
          b.seq.toNat = wordAt (data.map (·.1)) 24 ∧ b.sheaves = b.sheafCount ∧
          b.cls = wordAt (data.map (·.1)) 8 / 2 ^ 4 % 4 ∧
          (p.launchBad = true ∨ blockGood (data.map (·.1)) b = false → b.rejected = some 0x03))) ∧
    (p.hasBlock = true → z.loadBy (z.listEntries t) (p.qbase.toNat + 256 * (p.head.toNat % 2 ^ p.qsize)) 256 = none →
      Runs (.blockRead t) s (fun u => u.dev.page t = { p with head := p.head + 1, dropped := min (p.dropped + 1) 65535 } ∧
        u.dev.blocks = s.dev.blocks)) ∧
    (∀ b, s.dev.blocks[k]? = some b → s.dev.mayPlace k = true →
      Runs (.sheafRelease k) s (fun u => u.core = s.core ∧ u.mem = s.mem ∧ u.dev.blocks[k]? = some { b with placed := b.placed + 1 } ∧
        ∃ n, u.dev.strands = s.dev.strands ++ [n] ∧ n.state = .runnable ∧ n.fresh = true ∧ n.block = some k ∧ n.tenant = b.tenant ∧
          n.cls = b.cls ∧ n.pc = b.template.pc.toNat ∧ n.number = (b.strandBase + b.placed) % 2 ^ 24 ∧
          n.regs.sys.srseed = b.template.srseed ∧ n.persistent = b.persist ∧ n.cores = b.cores ∧ n.nV = b.template.nV ∧ n.nA = b.template.nA ∧
          (b.persist = false → b.levels.length ≤ 6 →
            (∀ l lv, b.levels[l]? = some lv → vget n.regs.x (l + 1) 0 = lv.start + BitVec.ofInt 64
              (((b.placed / ((b.levels.drop (l + 1)).map (·.bound)).prod % lv.bound : Nat) : Int) * lv.stride)) ∧
            (∀ i, b.levels.length < i → i ≤ 6 → vget n.regs.x i 0 = 0)) ∧
          (b.persist = true → ∀ i, i ≤ 6 → vget n.regs.x i 0 = 0) ∧
          (b.args.length = 8 → (b.persist = true ∨ b.levels.length ≤ 6) → ∀ i, i < 8 → vget n.regs.x (7 + i) 0 = b.args.getD i 0) ∧
          (s.dev.links.fenced = [] → s.dev.links.fencing = [] →
            let cs := (List.range 16).filter (fun i => b.clusters.getLsbD i)
            n.cluster = 16 * b.die + cs.getD (b.placed % cs.length) 0))) ∧
    (∀ b, s.dev.blocks[k]? = some b → s.blockDone k = true →
      Runs (.blockComplete k) s (fun u => u.dev.blocks[k]?.map (·.complete) = some true ∧
        u.mem = ((s.recordStore b 8 (wordsBytes (b.completionWords.drop 1))).recordStore b 0 (wordsBytes (b.completionWords.take 1))).mem ∧
        u.dev.msix.length = s.dev.msix.length + (if b.scope = 5 ∧ (s.dev.page b.tenant).inten = true then 1 else 0)))

/-- R259 to R261: the host's window. A write that its tenant's list does not translate is counted; one to bytes that the core's
table maps with WIN = 1 waits in the die's buffer, another is on its way in pieces of 64 bytes, and a full buffer takes none; a read
answers the bytes, or Unsupported Request, after the pieces before it; a write that has waited the WINTO it arrived under is performed and
counted. That a read gets no byte of a poisoned word is the model's choice (log 51), and so are the pieces' order and the window write that
waits outside a full buffer (log 58). R476, R477: a read of BAR0 answers an aligned word of the register block or of a tenant page, or
Unsupported Request. R368 to R371: shoot-downs and migration. A request is noted at
a core that runs the tenant; a quiet core with no strand acknowledges it, and a core that runs one acknowledges at a QP bundle;
the watchdog pre-empts the core; MIGRATION marks the entries that map its range, and each LINE_COPY moves 256 bytes. -/
def Obligations.TranslationAndWindow : Prop :=
  (
    ∀ (t off n die : Nat) (bytes : List Byte) (s : State), t < 64 →
      (s.barParts t .store off bytes.length = none →
        Runs (.hostWrite t off bytes) s (fun u => (u.dev.page t).badwr = min ((s.dev.page t).badwr + 1) 65535 ∧ u.mem = s.mem ∧
          u.dev.ingress = s.dev.ingress ∧ u.core = s.core)) ∧
      (∀ ps, s.barParts t .store off bytes.length = some ps → (∀ p ∈ ps, s.lostNow p = false) →
        let addrs := (ps.map (fun p => (List.range p.len).map (fun i => p.addr + i))).flatten
        let w : WinWrite :=
          { tenant := t, die := dieOf (physOf (addrs.headD 0)), cells := addrs.zip bytes, since := s.core.now, winto := s.dev.set.winto }
        let held := s.dev.ingressBytes w.die
        (s.mapsWindow w = true → held + w.cells.length ≤ 2 ^ 18 →
          exec (.hostWrite t off bytes) s = .next (s.mapDev (fun d => { d with ingress := d.ingress ++ [w] }))) ∧
        (s.mapsWindow w = false → held < 2 ^ 18 →
          exec (.hostWrite t off bytes) s = .next (s.mapDev (fun d => { d with pieces := d.pieces ++ hostPieces w.cells }))) ∧
        ((s.mapsWindow w = true ∧ 2 ^ 18 < held + w.cells.length ∨ s.mapsWindow w = false ∧ 2 ^ 18 ≤ held) →
          exec (.hostWrite t off bytes) s = .next s)) ∧
      (∀ cs : List Host.Cell, (hostPieces cs).flatten = cs ∧
        ∀ g ∈ hostPieces cs, g ≠ [] ∧ ∀ c ∈ g, ∀ d ∈ g, c.1 / 64 = d.1 / 64) ∧
      (s.landPieces.barParts t .load off n = none →
        exec (.hostRead ⟨t, false⟩ off n) s = .next (s.landPieces.mapDev (fun d => { d with answer := none }))) ∧
      (∀ ps, s.landPieces.barParts t .load off n = some ps →
        exec (.hostRead ⟨t, false⟩ off n) s = .next (s.landPieces.mapDev (fun d => { d with
          answer := some ((s.landPieces.readParts s.landPieces.mem ps).map (fun b => if b.2 then none else some b.1)) }))) ∧
      (let block := fun (o m : Nat) (ans : Option Nat) => exec (.hostRead ⟨0, true⟩ o m) s =
         .next (s.landPieces.mapDev (fun d => { d with answer := ans.map (fun v => (bytesOfNat 8 v).map some) }))
       let page := 0x1000000 + 0x10000 * t
       let q := s.dev.page t
       block 0x0 8 (some (s.dev.ident.gen % 2 ^ 24 * 2 ^ 40 + s.dev.ident.serial % 2 ^ 40)) ∧
       block 0x8 8 (some ((if s.dev.ident.indom then 2 ^ 8 else 0) + s.dev.ident.indexReg)) ∧
       block 0x18 8 (some s.dev.set.rampt) ∧ block 0x20 8 (some s.dev.set.qpwdog) ∧ block 0x30 8 (some s.dev.set.waitq) ∧
       block page 8 (some (q.qbase.toNat + q.qsize)) ∧ block (page + 0x10) 8 (some q.tail.toNat) ∧ block (page + 0x18) 8 (some q.head.toNat) ∧
       block (page + 0x48) 8 (some q.mapbase.toNat) ∧ block (page + 0x60) 8 none ∧ block 0x60 8 none ∧
       (∀ o, o < 0x800000 → (n ≠ 8 ∨ o % 8 ≠ 0) → block o n none)) ∧
      (∀ w, s.dev.ingress.find? (fun w => w.die == die) = some w → w.since + 1050 * w.winto ≤ s.core.now →
        (∀ o ∈ s.dev.ingress.takeWhile (fun o => o != w), o.tenant ≠ w.tenant) →
        Runs (.windowTimeout die) s (fun u => u.mem = s.landPieces.mem.store (w.cells.map (fun c => (s.route c.1, c.2))) [] ∧
          u.dev.ingress = s.dev.ingress.erase w ∧ u.core.regs = s.core.regs ∧
          (w.tenant < 64 → (u.dev.page w.tenant).winlate = min ((s.dev.page w.tenant).winlate + 1) (2 ^ 32 - 1)))) ∧
      (∀ w, s.dev.ingress.find? (fun w => w.die == die) = some w → s.core.now < w.since + 1050 * w.winto →
        exec (.windowTimeout die) s = .next s.landPieces)) ∧
  (
    ∀ (t : Nat) (s : State),
      (s.core.running.isSome = true → s.core.tenant = t →
        exec (.shootDownRequest t) s = .next ((s.mapCore (fun c => { c with shootDown := true, tableOf := none })).mapDev (fun d =>
          { d with shootDowns := d.shootDowns ++ [{ tenant := t, since := s.core.now, limit := s.dev.set.qpwdog }] }))) ∧
      (s.core.shootDown = true → s.core.running = none → s.core.performed = true →
        Runs .shootDownAck s (fun u => u.core.shootDown = false ∧ u.dev.shootDowns = [] ∧ u.mem = s.mem)) ∧
      (∀ c, s.core.shootDown = true → s.core.running.isSome = true → s.core.tableOf = none → s.core.iss.iq = [] →
        s.core.iss.mayDispatch = true → s.nextCtl = some c → c.qp = true → s.core.gate = [] → s.core.performed = true →
        Runs .shootDownAck s (fun u => u.core.shootDown = false ∧ u.core.tableOf = some s.core.tenant ∧ u.dev.shootDowns = [] ∧
          (∀ table, s.tenantTable? s.core.tenant = some table → u.core.table = table))) ∧
      (s.watchdogDue = true → exec .qpwdogExpiry s = .next s.halt.requeue) ∧
      (∀ src dst len, s.mayMigrate src dst len = true →
        Runs (.migration src dst len) s (fun u =>
          u.dev.migrations = s.dev.migrations ++ [{ src := src, dst := dst, len := len, moved := 0 }] ∧
          (∀ e ∈ u.core.table, e.meets s.dev.ident.index src len = true → e.migrating = true) ∧ u.core.regs = s.core.regs)) ∧
      (∀ m, s.mem.wf = true → s.dev.migrations = [m] → 256 * (m.moved + 1) < m.len →
        Runs .lineCopy s (fun u => u.core = s.core ∧ u.dev.migrations = [{ m with moved := m.moved + 1 }] ∧
          (∀ i, i < 256 → homeOf (physOf (m.dst + 256 * m.moved + i)) ≠ .host →
            u.mem.byte (m.dst + 256 * m.moved + i) = s.mem.byte (m.src + 256 * m.moved + i)) ∧
          ∀ a, ¬ (m.dst + 256 * m.moved ≤ a ∧ a < m.dst + 256 * m.moved + 256) → u.mem.byte a = s.mem.byte a)))

/-- R146, R149, R152, R160, R161, R198: chute copies and the matrix array. A commit's copy lands in a member, a COL operand is
staged, an MMA pops its slots at the later of its retirement and its release, the drain engine falls idle, the feed falls free,
and the duty steps. -/
def Obligations.ArrayEvents : Prop :=
  ∀ s : State,
    (∀ k q, s.dev.owedCopies[k]? = some q →
      exec (.chuteCommitLands k) s = .next (s.landCopy q.1 q.2)) ∧
    (∀ (nm : ClaimName) (core : Nat) (c : Chute) (m : ChuteMember), s.chute? nm = some c → c.members.find? (fun m => m.core == core) = some m →
      s.mem.wf = true → (∀ i, i < c.slotBytes → s.mem.poisoned (ownLs (c.slotOff m.landed + i)) = false) →
      let t := s.landCopy nm core
      (∀ i, i < c.slotBytes → t.mem.byte (lsBase + core * lsSize + c.slotOff m.landed + i) = s.mem.byte (ownLs (c.slotOff m.landed + i))) ∧
      (∀ a, ¬ (lsBase + core * lsSize + c.slotOff m.landed ≤ a ∧ a < lsBase + core * lsSize + c.slotOff m.landed + c.slotBytes) →
        t.mem.byte a = s.mem.byte a) ∧ t.core = s.core) ∧
    (∀ nm, s.toStage = some nm →
      exec .colStagingDone s = .next (s.mapCore (fun c => { c with mx := { c.mx with staged := nm :: c.mx.staged } }))) ∧
    (∀ m ms, s.core.mx.mmas = m :: ms → m.released = true → m.due ≤ s.core.now →
      Runs .mmaRetire s (fun t => t.core.mx.mmas = ms ∧ t.core.regs = s.core.regs ∧ t.mem = s.mem ∧
        (∀ nm first k, m.chutes = [(nm, first, k)] → ∀ c, s.chute? nm = some c →
          t.chute? nm = some { c with members := c.members.map (fun x => if x.core = ownCore then
            { x with head := x.head + k, reserved := x.reserved - k } else x) }))) ∧
    (s.core.mx.drainUntil ≤ s.core.now →
      exec .drainComplete s = .next (s.mapCore (fun c => { c with mx := { c.mx with drainUntil := 0 } }))) ∧
    (s.core.mx.feeding = true → s.core.mx.feedUntil ≤ s.core.now → s.mmaWaits = false →
      Runs .arrayFeedFree s (fun t => t.core.mx.feeding = false ∧ t.core.mx.duty ≤ 8 ∧ t.core.mx.dutyAt = s.core.mx.feedUntil ∧
        t.core.regs = s.core.regs ∧ t.mem = s.mem ∧ t.dev = s.dev)) ∧
    (s.core.mx.dutyAt + s.core.mx.ramp ≤ s.core.now → s.core.mx.feeding = false →
      Runs .rampDutyStep s (fun t => t.core.mx.duty = s.core.mx.duty - 1 ∧ t.core.mx.dutyAt = s.core.mx.dutyAt + s.core.mx.ramp ∧
        t.core.mx.ramp = s.dev.set.rampt ∧ t.core.regs = s.core.regs ∧ t.mem = s.mem)) ∧
    (s.core.mx.dutyAt + s.core.mx.ramp ≤ s.core.now → s.core.mx.feeding = true → s.core.mx.dutyAt + s.core.mx.ramp ≤ s.core.mx.feedUntil →
      Runs .rampDutyStep s (fun t => t.core.mx.duty = min 8 (max 1 s.core.mx.duty + 1) ∧ t.core.regs = s.core.regs ∧ t.mem = s.mem))

/-- R458, R459, R202, R471: the power manager and boot. The levels step against their limits, PWRBRK is noted and its level
held on, power-off loses what the module holds but GEN, and a cold start raises GEN, starts the names' counter at 1 and leaves
no strand; a foreman image that passes ends recovery. PWRLIM's levels take effect at the step (R482). That power-off and a cold start leave
memory reading 0 and the core cleared is the model's choice (logs 1, 7, 52). -/
def Obligations.PowerEvents : Prop :=
  ∀ s : State,
    (∀ watts temp amps0 amps1,
      let cur := fun (l amps : Nat) => if 800 < amps then min 7 (l + 1) else if amps < 760 then l - 1 else l
      Runs (.powerStep watts temp (amps0, amps1)) s (fun t => t.core = s.core ∧ t.mem = s.mem ∧
        t.dev.power.ownlvl = s.dev.set.ownlvl ∧ t.dev.power.pblvl = s.dev.set.pblvl ∧
        t.dev.power.power = (if s.dev.set.limit < watts then min 7 (s.dev.power.power + 1)
          else if 100 * watts < 95 * s.dev.set.limit then s.dev.power.power - 1 else s.dev.power.power) ∧
        (s.dev.power.sensorHeld = [] →
          t.dev.power.thermal = (if 110 ≤ temp then 7 else if 100 < temp then min 7 (s.dev.power.thermal + 1)
            else if temp < 95 then s.dev.power.thermal - 1 else s.dev.power.thermal) ∧
          t.dev.power.current = (cur s.dev.power.current.1 amps0, cur s.dev.power.current.2 amps1)) ∧
        (s.dev.power.sensorHeld ≠ [] → t.dev.power.thermal = s.dev.power.thermal ∧ t.dev.power.current = s.dev.power.current))) ∧
    Runs .pwrbrkAssert s (fun t => t.dev.power = { s.dev.power with pwrbrk := true, pwrbrkHold := false } ∧ t.core = s.core ∧ t.mem = s.mem) ∧
    (s.dev.power.pwrbrk = true →
      Runs .pwrbrkDeassert s (fun t => t.dev.power = { s.dev.power with pwrbrk := false, pwrbrkHold := true } ∧ t.core = s.core ∧ t.mem = s.mem)) ∧
    Runs .pwrbrkHoldExpiry s (fun t => t.dev.power = { s.dev.power with pwrbrkHold := false } ∧ t.core = s.core ∧ t.mem = s.mem) ∧
    (∀ (e : Instr) (temp : Int), (e = .powerDown ∨ e = .overtempPowerOff temp ∧ 115 ≤ temp) →
      Runs e s (fun t => t.dev.ident.powered = false ∧ t.dev.ident.gen = s.dev.ident.gen ∧ t.core = Core.reset ∧ t.dev.strands = [] ∧
        t.dev.claims = [] ∧ (∀ a, a < physSpace → homeOf a ≠ .host → t.mem.byte a = 0))) ∧
    (s.dev.ident.gen < 2 ^ 24 - 1 →
      Runs (.coldStart true) s (fun t => t.dev.ident.powered = true ∧ t.dev.ident.gen = s.dev.ident.gen + 1 ∧ t.dev.ident.count = 1 ∧
        t.dev.ident.issuing = true ∧ t.core = Core.reset ∧ t.dev.strands = [] ∧ t.dev.claims = [])) ∧
    (Runs (.coldStart false) s (fun t => t.dev.ident.powered = true ∧ t.dev.ident.gen = s.dev.ident.gen ∧ t.dev.ident.issuing = false)) ∧
    (∀ img, s.dev.ident.recovery = true → img.kind = .foreman →
      Runs (.recoveryImageAccept img) s (fun t => t.core = s.core ∧ t.mem = s.mem ∧
        if s.dev.fw.accepts img = true then t.dev.ident.recovery = false ∧ t.dev.fw.image .foreman 0 = img ∧
          t.dev.fw.image .foreman 1 = img else t = s))

/-- R202 to R216: claims of the owner runtime, and recalls. A claim is entered under the next name; a recall makes its entry
RETIRING, its shoot-down drops the core's copy and kills the handles that name it, and the last acknowledgement ends it GONE
where no use is held. An answered lookup fills the core's cache; one of another core or device makes it a holder, or holds a use. -/
def Obligations.ClaimEvents : Prop :=
  ∀ (s : State) (nm : ClaimName),
    (∀ c : NewClaim, (s.dev.page c.owner).active = true → (c.ty = .tensor ∨ c.ty = .group) → c.launch = false →
      s.homeOk c = true → s.mayEnter c.home = true →
      Runs (.ownerRuntimeCreatesClaim c) s (fun t => t.dev.ident.count = s.dev.ident.count + 1 ∧ t.mem = s.mem ∧ t.core = s.core ∧
        ∃ k : Claim, t.dev.claims = s.dev.claims ++ [k] ∧ k.name = mkName s.dev.ident.serial s.dev.ident.gen s.dev.ident.count ∧
          k.ty = c.ty ∧ k.owner = c.owner ∧ k.state = .live ∧ k.base = BitVec.ofNat 64 c.base ∧ k.size = BitVec.ofNat 64 c.size ∧ k.uses = [] ∧ k.holders = [])) ∧
    (∀ c, s.dev.claim? nm = some c → c.state = .live → c.holders ≠ [] → s.dev.groups.find? (fun g => g.name == nm) = none →
      Runs (.ownerRuntimeRetiresClaim nm) s (fun t => t.dev.claim? nm =
          some { c with state := .retiring, token := none, holders := (if s.handled nm then [ownCache] else []) ++ c.holders } ∧
        t.core = s.core ∧ t.mem = s.mem)) ∧
    (∀ c, s.dev.claim? nm = some c → c.state = .retiring →
      Runs (.claimShootDown nm) s (fun t => nm ∉ t.core.cache ∧ (∀ i, i < 8 → vget t.core.regs.ch i .invalid ≠ .valid nm) ∧
        (∀ i, i < 4 → vget t.core.regs.k i .invalid ≠ .valid nm) ∧ t.core.regs.x = s.core.regs.x ∧ t.mem = s.mem)) ∧
    (∀ c, s.dev.claim? nm = some c → c.state = .retiring → s.handled nm = false → c.holders = [ownCache] → c.uses = [] → s.usesOf nm = 0 →
      c.ty ≠ .coll → c.ty ≠ .lease →
      Runs (.recallAck nm ownCache) s (fun t => (t.dev.claim? nm).map (·.state) = some .gone ∧ t.dev.groups.all (fun g => g.name != nm) = true ∧
        t.dev.chutes.all (fun g => g.name != nm) = true ∧ t.mem = s.mem)) ∧
    (∀ e c, e ∈ s.core.engs → e.cmd.looked = some nm → nm ∉ s.core.cache → s.resolve s.core.tenant nm = some c →
      Runs (.claimLookup ⟨nm, .own⟩) s (fun t => nm ∈ t.core.cache ∧ t.core.cache.length ≤ 64 ∧ t.core.regs = s.core.regs ∧ t.mem = s.mem)) ∧
    (∀ dev core tenant c, s.lookup tenant nm = some c →
      let h := if dev = s.dev.ident.index then core else 1024 * (dev + 1) + core
      h ≠ ownCache → h ∉ c.holders →
      Runs (.claimLookup ⟨nm, .cache dev core tenant⟩) s (fun t =>
        t.dev.claim? nm = some { c with holders := c.holders ++ [h] } ∧ t.core = s.core ∧ t.mem = s.mem)) ∧
    (∀ dev tenant c, s.lookup tenant nm = some c →
      Runs (.claimLookup ⟨nm, .use dev tenant⟩) s (fun t => t.dev.claim? nm = some { c with uses := c.uses ++ [dev] } ∧
        t.core = s.core ∧ t.mem = s.mem))

/-- R387 to R390, R394, R398: ports, loss and queues. A good flit shows its port up; a loss that silence of LOSTTO or a notice declares marks
the device, shoots its names down and raises vector 1; that a flit with a failed CRC counts one at error counter 0 and an idle flit changes
nothing is the model's reading of the link (log 13); a message with no hook loaded is placed, and credits come back up to 64.
R399: frames between domains. A port that is down brings none. A frame that R399 does not describe is counted and discarded; one of a number already placed is
acknowledged again; a new fragment is held until its message is whole; an acknowledgement completes its SEND, and a
retransmission timeout resends it, up to eight times. -/
def Obligations.LinkEvents : Prop :=
  (
    ∀ s : State,
      (∀ port origin, port < 8 → s.dev.ident.lost.contains origin = false →
        Runs (.flitReceive port origin true) s (fun t => t.dev.links.down = s.dev.links.down.filter (fun p => p ≠ port) ∧
          t.dev.links.heardAt origin = s.core.now ∧ (∀ o, o ≠ origin → t.dev.links.heardAt o = s.dev.links.heardAt o) ∧
          t.dev.errors = s.dev.errors ∧ t.core = s.core ∧ t.mem = s.mem) ∧
        Runs (.flitReceive port origin false) s (fun t => t.dev.links = s.dev.links ∧ t.core = s.core ∧ t.mem = s.mem ∧
          (vget t.dev.errors 0 0).toNat = min ((vget s.dev.errors 0 0).toNat + 1) (2 ^ 64 - 1))) ∧
      (∀ port, exec (.idleFlit port) s = .next s) ∧
      (∀ port, port < 8 → port ∉ s.dev.links.down →
        Runs (.portDown port) s (fun t => t.dev.links.down = s.dev.links.down ++ [port] ∧ t.core = s.core ∧ t.mem = s.mem)) ∧
      (∀ e dev, (e = .losttoExpiry dev ∧ s.silentFor dev = true ∨ e = .lossNotice dev) → s.dev.losable dev = true → s.dev.rounds = [] →
        (∀ c ∈ s.dev.claims, c.token = none) →
        Runs e s (fun t => t.dev.ident.lost = s.dev.ident.lost ++ [dev] ∧ t.dev.rounds = [] ∧ t.dev.links.notices = s.dev.links.notices ++ [dev] ∧
          t.dev.msix = s.dev.msix ++ [(0, 1)] ∧ t.core.regs.x = s.core.regs.x ∧ t.mem = s.mem ∧
          ∀ n, (s.dev.ident.members.find? (fun q => q.1 == dev)) = some (dev, n) → (∀ m ∈ t.core.cache, serialOf m ≠ n) ∧
            (∀ c ∈ t.dev.claims, serialOf c.name = n → c.state = .gone))) ∧
      (∀ m : LinkMsg, (s.dev.page m.tenant).active = true → s.dev.losable m.peer = true → m.tag < 32 → 1 ≤ msgEntries m → msgEntries m ≤ 64 →
        m.bytes.length % 256 = 0 → s.hasRoom m.tenant m.peer (msgEntries m) = true → s.dev.hook m.tenant m.tag = none →
        Runs (.messageArrival m) s (fun t => (t.dev.links.queue m.tenant m.peer).msgs =
            (s.dev.links.queue m.tenant m.peer).msgs ++ [{ m with seq := 0 }] ∧
          (t.dev.links.queue m.tenant m.peer).credits = (s.dev.links.queue m.tenant m.peer).credits ∧
          (∀ tn p, (tn, p) ≠ (m.tenant, m.peer) → t.dev.links.queue tn p = s.dev.links.queue tn p) ∧ t.core = s.core ∧ t.mem = s.mem)) ∧
      (∀ tn p k, Runs (.creditReturn tn p k) s (fun t =>
        (t.dev.links.queue tn p).credits = min 64 ((s.dev.links.queue tn p).credits + k) ∧
        (t.dev.links.queue tn p).msgs = (s.dev.links.queue tn p).msgs ∧ t.core = s.core ∧ t.mem = s.mem))) ∧
  (
    ∀ (f : Frame) (s : State),
      let route := f.srcRoute
      let r := s.dev.links.routeState route
      let at' := route < 768 ∧ s.dev.routeLive route = true
      let msg : LinkMsg := { tenant := f.tenant, peer := 256 + route, tag := f.tag, seq := f.seq, bytes := f.payload,
                             poisoned := f.payload.map (fun _ => false) }
      (∀ dev, s.silentFor dev = true ↔ s.dev.links.heardAt dev + 1050 * s.dev.set.lostto ≤ s.core.now ∧
        s.dev.links.losttoAt + 1050 * s.dev.set.lostto ≤ s.core.now) ∧
      (∀ dev, s.silentFor dev = false → exec (.losttoExpiry dev) s = .next s) ∧
      (route < 768 → s.dev.routeLive route = false → exec (.dataFrame f) s = .next s ∧ exec (.ackFrame f.head route f.seq) s = .next s) ∧
      (768 ≤ route → exec (.dataFrame f) s = .next (if frameGood f.head 0 = true then s else s.mapDev (fun d => d.countErr 5))) ∧
      (at' → frameGood f.head 0 = false → exec (.dataFrame f) s = .next (s.mapDev (fun d => d.countErr 5))) ∧
      (at' → frameGood f.head 1 = false → exec (.ackFrame f.head route f.seq) s = .next (s.mapDev (fun d => d.countErr 5))) ∧
      (at' → frameGood f.head 0 = true → f.seq < r.recvSeq → exec (.dataFrame f) s = .next (s.acknowledge route f.seq)) ∧
      (at' → frameGood f.head 0 = true → r.recvSeq < f.seq → r.frags = [] →
        Runs (.dataFrame f) s (fun t => (t.dev.links.routeState route).frags = [f] ∧
          (t.dev.links.routeState route).recvSeq = r.recvSeq ∧ t.dev.links.acksOut = s.dev.links.acksOut ∧
          t.core = s.core ∧ t.mem = s.mem)) ∧
      (at' → frameGood f.head 0 = true → r.recvSeq = f.seq → r.frags = [] → f.nfrag = 1 → f.frag = 0 → f.payload.length = 256 * f.entries →
        s.hasRoom f.tenant (256 + route) f.entries = true → s.dev.hook f.tenant f.tag = none →
        Runs (.dataFrame f) s (fun t => (t.dev.links.queue f.tenant (256 + route)).msgs =
            (s.dev.links.queue f.tenant (256 + route)).msgs ++ [msg] ∧
          (t.dev.links.routeState route).recvSeq = r.recvSeq + 1 ∧ (t.dev.links.routeState route).frags = [] ∧
          t.dev.links.acksOut = s.dev.links.acksOut ++ [(etherOf (s.dev.routeEntry route), ridxOf (s.dev.routeEntry route), f.seq)] ∧
          t.core = s.core ∧ t.mem = s.mem)) ∧
      (∀ u, at' → frameGood f.head 1 = true → s.dev.links.unacked.find? (fun u => u.route == route && u.seq == f.seq) = some u →
        Runs (.ackFrame f.head route f.seq) s (fun t => (∀ o ∈ t.dev.links.unacked, o.id ≠ u.id) ∧ t.core.regs = s.core.regs ∧ t.mem = s.mem ∧
          ∀ e ∈ t.core.engs, e.id = u.id → e.done = some (token 0 (256 * ((s.sendOf u.id).map (·.2.2)).getD 0)))) ∧
      (∀ tn rt, s.unansweredOn tn rt = none → exec (.retransmitTimeout tn rt) s = .next s) ∧
      (∀ tn rt u, s.unansweredOn tn rt = some u → u ∈ s.dev.links.unacked ∧ u.tenant = tn ∧ u.route = rt ∧
        u.since + 1050 * (u.entry.2 % 2 ^ 24) ≤ s.core.now) ∧
      (∀ tn rt u, s.unansweredOn tn rt = some u → 8 ≤ u.tries →
        Runs (.retransmitTimeout tn rt) s (fun t => (∀ o ∈ t.dev.links.unacked, o.id ≠ u.id) ∧ t.mem = s.mem ∧
          ∀ e ∈ t.core.engs, e.id = u.id → e.done = some (token 7 0))) ∧
      (∀ tn rt u q, s.unansweredOn tn rt = some u → u.tries < 8 → s.sendOf u.id = some q →
        let v := (s.chargeEngine u.id (256 * q.2.2) 1).mapDev (fun d => { d with links := { d.links with
          unacked := d.links.unacked.map (fun o => if o.id == u.id then { o with tries := o.tries + 1, since := s.core.now } else o) } })
        exec (.retransmitTimeout tn rt) s = .next (v.sendFrames u.tenant u.entry u.seq q.1 q.2.1 q.2.2) ∧
        (s.dev.links.carries (etherOf u.entry).iface = true →
          (v.sendFrames u.tenant u.entry u.seq q.1 q.2.1 q.2.2).dev.links.framesOut = s.dev.links.framesOut ++
            (framesOf u.tenant (ridxOf u.entry) u.seq q.1 (v.messageBytes q.2.1 (256 * q.2.2)).1).map (fun f => (etherOf u.entry, f)))))

/-- R406 to R409, R417 to R420: collectives. COLL's command waits in the gate with its record and buffers; a message of no round
is held, one whose digest or tuple does not agree ends the round, one for another rank is discarded, and another is applied in its turn; a free slot is granted as a claim; the root
decides once every answer has come, and a member takes its decision; a beat waits for its round or lets it go on; an abort notice or a
timeout ends the round with its status. The ring of the exponents and the forms of the messages are the model's reading (log 42). -/
def Obligations.CollRounds : Prop :=
  (
    ∀ (f : EA) (s : State), chkColl f s = .ok → s.cmds Cmd.isCopy < 16 →
      let r := (s.collRecord (s.rdX f.a)).2
      exec (.coll f) s = .next ((s.chargeParts s.strandIdx r.home).gateCmd (s.px f.d)
        (.coll r (s.partsOf (s.stretch (s.rdX f.b).toNat r.bytes)) (s.partsOf (s.stretch (s.rdX f.c).toNat r.bytes))))) ∧
  (
    ∀ (m : CollMsg) (s : State),
      (s.dev.aborted.contains (m.tenant, m.key, m.round) = true → exec (.collMessage m) s = .next s) ∧
      (s.dev.aborted.contains (m.tenant, m.key, m.round) = false →
        (s.dev.roundOf m.tenant m.key m.round = none →
          exec (.collMessage m) s = .next (s.mapDev (fun d => { d with early := d.early ++ [m] }))) ∧
        (∀ r, s.dev.roundOf m.tenant m.key m.round = some r →
          (m.digest ≠ r.record.digest → exec (.collMessage m) s = .next (s.abortRound r 11)) ∧
          (m.digest = r.record.digest → m.toRank ≠ r.record.rank → exec (.collMessage m) s = .next s) ∧
          (m.digest = r.record.digest → m.toRank = r.record.rank → r.agrees m = true →
            exec (.collMessage m) s = .next (State.settleRound (s.pumpRound { r with early := r.early ++ [m] }))) ∧
          (m.digest = r.record.digest → m.toRank = r.record.rank → r.agrees m = false →
            exec (.collMessage m) s = .next (s.abortRound r 11))))) ∧
  (
    ∀ (q : SlotReq) (s : State), q.release = false →
      (∀ i, i < 64 → vget s.dev.slots i none = none → (∀ j, j < i → vget s.dev.slots j none ≠ none) →
        s.mayEnter (homeField s.dev.ident.index 0 0 0) = true →
        Runs (.slotRequest q []) s (fun t => ∃ c : Claim, t.dev.claims = s.dev.claims ++ [c] ∧ c.ty = .lease ∧ c.owner = q.tenant ∧
          c.state = .live ∧ vget t.dev.slots i none = some (q.tenant, c.name) ∧
          (∀ j, j ≠ i → vget t.dev.slots j none = vget s.dev.slots j none) ∧ t.core = s.core ∧ t.mem = s.mem)) ∧
      ((∀ i, i < 64 → vget s.dev.slots i none ≠ none) →
        Runs (.slotRequest q []) s (fun t => t.dev.claims = s.dev.claims ∧ t.dev.slots = s.dev.slots ∧ t.core = s.core ∧ t.mem = s.mem))) ∧
  (
    ∀ (m : DecisionMsg) (came : List (Nat × Bool)) (s : State),
      let atRoot := s.dev.rounds.find? (fun r => r.tenant == m.tenant && r.record.key == m.key && r.record.rank == 0 && r.stage == .deciding)
      (∀ r, atRoot = some r →
        let answers := r.answers ++ came.filter (fun a => a.1 != s.dev.ident.index)
        let u := { r with answers := answers }
        ((∃ w ∈ r.record.tree r.net, ∀ a ∈ answers, a.1 ≠ w) → exec (.algorithmDecision m came) s = .next s) ∧
        ((∀ w ∈ r.record.tree r.net, ∃ a ∈ answers, a.1 = w) → s.kernelOk r = true → (∀ a ∈ answers, a.2 = true) →
          exec (.algorithmDecision m came) s = .next (((s.learnKernel r).chooseAlg r .slots).takeDecision u .slots)) ∧
        ((∀ w ∈ r.record.tree r.net, ∃ a ∈ answers, a.1 = w) → s.kernelOk r = true → (∃ a ∈ answers, a.2 = false) →
          let d : Decision := if r.record.alg = 1 then .walk else .noslot
          exec (.algorithmDecision m came) s = .next ((((s.giveBack r answers).learnKernel r).chooseAlg r d).takeDecision u d)) ∧
        ((∀ w ∈ r.record.tree r.net, ∃ a ∈ answers, a.1 = w) → s.kernelOk r = false →
          exec (.algorithmDecision m came) s = .next ((((s.giveBack r answers).learnKernel r).chooseAlg r .gone).takeDecision u .gone))) ∧
      (∀ r, atRoot = none → s.dev.roundOf m.tenant m.key m.round = some r → r.record.rank ≠ 0 → r.stage = .deciding →
        (m.digest ≠ r.record.digest → exec (.algorithmDecision m came) s = .next (s.abortRound r 11)) ∧
        (m.digest = r.record.digest → m.decision = .slots ∨ m.decision = .gone ∨ m.decision = .walk ∧ r.record.alg = 1 ∨
            m.decision = .noslot ∧ r.record.alg = 2 →
          exec (.algorithmDecision m came) s = .next (s.takeDecision r m.decision))) ∧
      (atRoot = none → s.dev.roundOf m.tenant m.key m.round = none →
        exec (.algorithmDecision m came) s = .next (s.mapDev (fun d => { d with earlyDecisions := d.earlyDecisions ++ [m] })))) ∧
  (
    ∀ (b : Beat) (s : State), s.dev.aborted.contains (b.tenant, b.key, b.round) = false →
      let beat := Instr.slotBeat b.tenant b.key b.round b.digest b.toBeatIn
      let kept := s.mapDev (fun d => { d with earlyBeats := d.earlyBeats ++ [b] })
      (∀ g, s.dev.relaying b = some g → exec beat s = .next (s.relayBeat g b)) ∧
      (s.dev.relaying b = none → s.dev.roundOf b.tenant b.key b.round = none → exec beat s = .next kept) ∧
      (∀ r, s.dev.relaying b = none → s.dev.roundOf b.tenant b.key b.round = some r →
        (b.digest ≠ r.record.digest → exec beat s = .next (s.abortRound r 11)) ∧
        (b.digest = r.record.digest → exec beat s = .next (kept.runSlots r)))) ∧
  (
    ∀ (tenant : Nat) (key : X64) (q st : Nat) (r : Round) (s : State),
      let ends := fun (t : State) (status : Nat) => (∀ o ∈ t.dev.rounds, o.id ≠ r.id) ∧ t.core.regs.x = s.core.regs.x ∧
        ∀ e ∈ t.core.engs, e.id = r.id → e.done = some (token status 0)
      (s.dev.roundOf tenant key q = some r → (st = 7 ∨ st = 11) →
        Runs (.abortNotice ⟨tenant, key⟩ q st) s (fun t => ends t st ∧ (tenant, key, q) ∈ t.dev.aborted ∧
          t.dev.abortsOut = s.dev.abortsOut)) ∧
      (s.dev.roundOf tenant key q = none → (st = 7 ∨ st = 11) → exec (.abortNotice ⟨tenant, key⟩ q st) s =
        .next (s.mapDev (fun d => { d with earlyAborts := d.earlyAborts ++ [(tenant, key, q, st)] }))) ∧
      (s.dev.rounds.find? (fun r => r.tenant == tenant && r.record.key == key && r.timedOut s.core.now) = some r → r.stage ≠ .queued →
        Runs (.roundTimeout ⟨tenant, key⟩) s (fun t => ends t 7 ∧
          t.dev.abortsOut = s.dev.abortsOut ++ [(tenant, key, r.q, 7)])))

/-- R278 to R281, R324, R356: engines. A command that has its token writes it and is over: the register that waits for it takes the value and
waits no more, on the core or in the saved context of a strand that has left it, and X0 takes none. An ungated command with its token, as
RESOLVE sends it, stands at its engine with the register waiting, so its token lands the same way. A copy that has forked is performed, and a
raw one leaves its source's bytes at its destination; a rick command is applied whole once it has forked, and on a rick that is gone its token is GONE;
a reply to SVC is what the register of the strand that waits for it holds, the strand waits no more, and a refusal is ABORT. -/
def Obligations.EngineEvents : Prop :=
  (
    ∀ (u : State) (e : Engine) (v : X64),
      let t := u.finishEngine e v
      TokenLands u t e.tok e.id v ∧ t.core.engs = u.core.engs.filter (fun o => o.id != e.id) ∧ t.mem = u.mem ∧
      t.core.regs = u.core.regs ∧ (e.tok = 0 → t.core.inter = u.core.inter ∧ t.core.iss = u.core.iss ∧ t.dev = u.dev)) ∧
  (
    ∀ (u : State) (tok : Nat) (m : Cmd) (v : X64),
      let t := u.sendCmd tok m (some v)
      (∃ e, t.core.engs = u.core.engs ++ [e] ∧ e.cmd = m ∧ e.tok = tok ∧ e.id = u.core.opId ∧ e.done = some v) ∧
      (tok ≠ 0 → ∃ i ∈ t.core.inter, i.id = u.core.opId ∧ i.reg = .x tok ∧ i.later = []) ∧
      (tok = 0 → t.core.inter = u.core.inter) ∧ t.core.opId = u.core.opId + 1 ∧ t.mem = u.mem ∧ t.dev = u.dev ∧ t.core.regs = u.core.regs) ∧
  ∀ (s : State) (k : Nat) (e : Engine),
    (∀ v, s.core.engs[k]? = some e → e.done = some v →
      Runs (.engineTokenWrite k) s (fun t => t = s.finishEngine e v ∧ TokenLands s t e.tok e.id v)) ∧
    (∀ c r, s.core.engs[k]? = some e → e.done = none → e.cmd = .copy c → s.engineReady e = true → s.mem.wf = true → c.runs = [r] →
      isRaw c.t r.fs = true → CopyClean s r r.len →
      Runs (.engineTokenWrite k) s (fun t => TokenLands (s.performCopy e.strand c).1 t e.tok e.id (token 0 r.len) ∧
        (∀ o, o < r.len → t.mem.byte (s.byteHome r.dst o).1 = s.mem.byte (s.byteHome r.src o).1) ∧
        OnlyAt s.mem t.mem (fun o => (s.byteHome r.dst o).1) r.len)) ∧
    (∀ c, s.core.engs[k]? = some e → e.cmd = .rick c → s.rickReady e = true → s.rick? c.rick = none → (∀ a, c.op ≠ .query a) →
      Runs (.rickEngineApply k) s (fun t => TokenLands s t e.tok e.id (token 1 0) ∧ t.mem = s.mem ∧ t.dev.ricks = s.dev.ricks)) ∧
    (∀ c, s.core.engs[k]? = some e → e.done = none → e.cmd = .copy c → s.engineReady e = true →
      exec (.engineTokenWrite k) s = .next ((s.performCopy e.strand c).1.finishEngine e (s.performCopy e.strand c).2)) ∧
    (∀ c, s.core.engs[k]? = some e → e.cmd = .rick c → s.rickReady e = true →
      let q := (s.shieldGate e ((reportSpan c).take (8 * s.reportWords c))).performRick e.strand c
      exec (.rickEngineApply k) s = .next (q.1.finishEngine e q.2)) ∧
    (∀ tn n code v rest j r, s.dev.svc = (tn, n, code, v) :: rest → s.svcWaiter tn n = some j →
      let answered := fun (t : State) (w : X64) => t.dev.svc = rest ∧ t.mem = s.mem ∧
        (s.core.running = some j → t.core.iss.waits = none ∧ t.core.regs = Dest.apply (.x s.core.iss.waitReg w false) s.core.regs ∧
          t.dev.strands = s.dev.strands) ∧
        (s.core.running ≠ some j → t.core = s.core ∧ (∀ i, i ≠ j → t.dev.strands[i]? = s.dev.strands[i]?) ∧
          ∀ u, s.dev.strands[j]? = some u → ∃ q, t.dev.strands[j]? = some q ∧ q.waits = none ∧
            q.regs = Dest.apply (.x u.waitReg w false) u.regs ∧ q.state = (if u.state = .waiting then .runnable else u.state))
      Runs (.svcReply (some r)) s (fun t => answered t r) ∧ Runs (.svcReply none) s (fun t => answered t (token 11 0)))

/-- R424, R444 to R447, R476, R479: the threshers' surroundings. An invocation starts with every register 0, FWD and its
kernel's bound; a poisoned input traps without a run; a load that passes R445 makes a claim and a kernel, another makes none; a
hook's word is written in its defined bits, and the entry is in force as it stands from the write of its word 0; a bin window access of 4 or 8 aligned bytes reads or writes the bins. -/
def Obligations.ThresherEvents : Prop :=
  ∀ s : State,
    (∀ i k, s.thr = none → s.thrFree i = true → s.dev.kernel? i.kernel = some k → k.tenant = i.tenant → k.slot = i.slot → i.poisoned = false →
      Runs (.thresherInvocation i) s (fun t => ∃ v, t.thr = some v ∧ v.pc = 0 ∧ v.left = k.bound ∧ v.disp = .fwd ∧ v.trip = none ∧
        (∀ n, v.rdZ n = 0 ∧ v.rdW n = 0) ∧ v.window.length = 512 ∧ t.core = s.core ∧ t.dev = s.dev ∧ t.mem = s.mem)) ∧
    (∀ i k, s.thr = none → s.thrFree i = true → s.dev.kernel? i.kernel = some k → k.tenant = i.tenant → k.slot = i.slot → i.poisoned = true →
      (s.dev.page i.tenant).trq = 0 →
      Runs (.thresherInvocation i) s (fun t => t.thr = none ∧ t.results = s.results ++ [(i, .trap 0x04 0 0, i.input ++ i.partialIn)] ∧
        (t.dev.kernel? i.kernel).map (·.traps) = some (min (k.traps + 1) (2 ^ 32 - 1)) ∧ t.mem = s.mem)) ∧
    (∀ (l : KernelLoad) (image : List Byte), l.launch = false → l.bins = none → l.elsewhere = none → l.knames = [] → (s.dev.page l.tenant).active = true →
      (∀ k, s.kernelOf l.tenant image 0 = some k → s.mayEnter (homeField s.dev.ident.index 0 0 0) = true →
        Runs (.kernelLoad l image) s (fun t => ∃ c : Claim, t.dev.claims = s.dev.claims ++ [c] ∧ c.ty = .kernel ∧ c.owner = l.tenant ∧
          c.state = .live ∧ t.dev.kernels = s.dev.kernels ++ [{ k with name := c.name }] ∧ t.core = s.core ∧ t.mem = s.mem)) ∧
      (s.kernelOf l.tenant image 0 = none → exec (.kernelLoad l image) s = .next s)) ∧
    (∀ (l : KernelLoad) (image : List Byte), l.launch = true → l.bins = none → l.elsewhere = none → (s.dev.page l.tenant).active = true → l.tenant < 64 →
      (s.dev.page l.tenant).launched = false → s.kernelOf l.tenant image 0 = none →
      Runs (.kernelLoad l image) s (fun t => t.dev.page l.tenant = { s.dev.page l.tenant with launchBad := true } ∧
        t.dev.claims = s.dev.claims ∧ t.core = s.core ∧ t.mem = s.mem)) ∧
    (∀ h w v, h < 64 → w < 4 →
      Runs (.hookWrite h w v) s (fun t => t.dev.blockWord (0x8000 + 32 * h + 8 * w) =
          (v &&& (if w = 0 then 0x8000000000003F1F else if w = 3 then 0 else 0xFFFFFFFFFFFFFFFF)).toNat ∧
        (∀ o, o ≠ 0x8000 + 32 * h + 8 * w → t.dev.blockWord o = s.dev.blockWord o) ∧
        (w ≠ 0 → ∀ o, t.dev.entryWord o = s.dev.entryWord o) ∧
        (w = 0 → ∀ j, j < 4 → t.dev.entryWord (0x8000 + 32 * h + 8 * j) = t.dev.blockWord (0x8000 + 32 * h + 8 * j)) ∧
        t.core = s.core ∧ t.mem = s.mem)) ∧
    (∀ (l : KernelLoad) (image : List Byte), l.elsewhere = some none → (s.dev.page l.tenant).active = true → l.tenant < 64 → l.launch = true →
      (s.dev.page l.tenant).launched = false →
      Runs (.kernelLoad l image) s (fun t => t.dev.page l.tenant = { s.dev.page l.tenant with launchBad := true } ∧
        t.dev.claims = s.dev.claims ∧ t.core = s.core ∧ t.mem = s.mem)) ∧
    (∀ off len, (len = 4 ∨ len = 8) → off % len = 0 → off + len ≤ 2 ^ 23 → cellsWf 0 s.dev.bins = true →
      Runs (.binWindowAccess off len none) s (fun t => t.dev.answer = some ((s.dev.binBytes off len).map some) ∧
        t.dev.bins = s.dev.bins ∧ t.mem = s.mem) ∧
      ∀ v, Runs (.binWindowAccess off len (some v)) s (fun t => t.dev.binBytes off len = bytesOfNat len v.toNat ∧
        (∀ a, ¬ (off ≤ a ∧ a < off + len) → cellsGet t.dev.bins a = cellsGet s.dev.bins a) ∧ t.mem = s.mem))

/-- R463 to R467, R480: balers. A checkpoint whose registers are in order writes its bale's header and runs; its blocks follow, each of the
words it has read; a restore takes a bale whose header agrees; bad registers are answered ABORT at once; the completion of a finished
command writes its token at CPL and frees the baler; lines that have moved are met at their new homes (R370). R469 to R473, R204, R390: live service, fencing, tenants and SPDM. How many blocks a
baler does in a step is free (log 37). That the SPDM answers have these forms, with the nonce signed after the measurement, is presumed (log 53),
and that TENANT_REMOVE leaves the strands is the model's choice (log 54). -/
def Obligations.ServiceEvents : Prop :=
  (
    ∀ (s : State) (die : Nat), die < 2 →
      let b := s.dev.baler die
      let base := b.rbase.toNat
      let len := b.rlen.toNat
      let bale := b.bale.toNat
      let good := balerGood base len bale b.cpl.toNat
      let via := fun (cs : List Host.Cell) => s.mem.store (cs.map (fun c => (s.route c.1, c.2))) []
      let run := fun (dir : Bool) (base : Nat) (failed : Bool) => (BaleRun.mk b.cpl dir base len bale 0 64 none failed)
      (b.running = none → good = true → s.baleFits base len bale = true →
        Runs (.baleCheckpoint die) s (fun t => (t.dev.baler die).running = some (run false base false) ∧ t.core.regs.x = s.core.regs.x ∧
          t.mem = via (cellsAt bale (baleHeader s.dev.ident.gen s.dev.ident.serial base (len / 4096))))) ∧
      (b.running = none → good = true → s.baleFits base len bale = false →
        Runs (.baleCheckpoint die) s (fun t => (t.dev.baler die).running = some (run false base true) ∧ t.core = s.core ∧ t.mem = s.mem)) ∧
      (b.running = none → good = true →
        Runs (.baleRestore die) s (fun t => (t.dev.baler die).running = some (run true (s.viaNum (bale + 16) 8) (!s.headAgrees len bale)) ∧
          t.core = s.core ∧ t.mem = s.mem)) ∧
      (b.running = none → good = false → b.cpl.toNat % 8 = 0 → inSpace b.cpl.toNat 8 = true →
        Runs (.baleCheckpoint die) s (fun t => (t.dev.baler die).running = none ∧
          t.mem = via (cellsAt b.cpl.toNat (bytesOfNat 8 (token 11 0).toNat)))) ∧
      (∀ r, r.dir = false → (r.old = none → s.coverBlock r = (s, { r with old := some (s.baleWords (r.base + 4096 * r.block)) })) ∧
        (r.old = some (s.baleWords (r.base + 4096 * r.block)) →
          let out := blockFrom r.block (s.baleWords (r.base + 4096 * r.block))
          inSpace (r.bale + r.off) out.length = true → homeOf (r.bale + r.off + out.length - 1) = homeOf r.bale →
          (s.coverBlock r).1.mem = via (cellsAt (r.bale + r.off) out) ∧
          (s.coverBlock r).2 = { r with block := r.block + 1, off := r.off + out.length, old := none })) ∧
      (∀ r, b.running = some r → exec (.baleCheckpoint die) s = .next s ∧ exec (.baleRestore die) s = .next s ∧
        (r.finished = false → exec (.balerComplete die) s = .next s) ∧
        (r.finished = true → r.cpl.toNat % 8 = 0 → inSpace r.cpl.toNat 8 = true →
          Runs (.balerComplete die) s (fun t => (t.dev.baler die).running = none ∧
            t.mem = via (cellsAt r.cpl.toNat (bytesOfNat 8 r.token.toNat)))))) ∧
  (
    ∀ s : State,
      (∀ die img, die < 2 → img.kind = .foreman →
        Runs (.firmwareUpdate die img) s (fun t => t.core = s.core ∧ t.mem = s.mem ∧
          if s.dev.fw.accepts img = true then t.dev.fw.image .foreman die = img ∧
            (∀ o, o ≠ die → t.dev.fw.image .foreman o = s.dev.fw.image .foreman o) else t = s)) ∧
      (∀ p, p < 8 → p ∉ s.dev.links.retraining →
        Runs (.portRetrain p) s (fun t => t.dev.links = { s.dev.links with retraining := s.dev.links.retraining ++ [p] } ∧ t.core = s.core)) ∧
      (∀ p, p ∈ s.dev.links.retraining →
        Runs (.portRetrainDone p) s (fun t => p ∉ t.dev.links.retraining ∧ p ∉ t.dev.links.down ∧ t.core = s.core ∧ t.mem = s.mem)) ∧
      (∀ g, g < 6 → g ∉ s.dev.links.groupsOut →
        Runs (.channelGroupRetrain g) s (fun t => t.dev.links = { s.dev.links with groupsOut := s.dev.links.groupsOut ++ [g] } ∧ t.core = s.core)) ∧
      (∀ g, Runs (.channelGroupRetrainDone g) s (fun t => g ∉ t.dev.links.groupsOut ∧ t.core = s.core ∧ t.mem = s.mem)) ∧
      (∀ d, d < 2 → d ∉ s.dev.power.sensorHeld →
        Runs (.sensorRecalibration d) s (fun t => t.dev.power = { s.dev.power with sensorHeld := s.dev.power.sensorHeld ++ [d] } ∧ t.core = s.core)) ∧
      (∀ d, Runs (.sensorRecalibrationDone d) s (fun t => d ∉ t.dev.power.sensorHeld ∧ t.core = s.core ∧ t.mem = s.mem)) ∧
      (∀ c, c < 32 → c ∉ s.dev.links.fencing → c ∉ s.dev.links.fenced →
        Runs (.clusterFencing c) s (fun t => t.dev.links = { s.dev.links with fencing := s.dev.links.fencing ++ [c] } ∧ t.core = s.core)) ∧
      (∀ c, c ∈ s.dev.links.fencing → s.core.running = none → s.dev.homedOn c = [] →
        Runs (.fenceDeadline c) s (fun t => t.dev.links.fenced = s.dev.links.fenced ++ [c] ∧ c ∉ t.dev.links.fencing ∧ t.mem = s.mem ∧
          ∀ u ∈ t.dev.strands, u.cluster = c → u.state ≠ .runnable ∧ u.state ≠ .waiting)) ∧
      (∀ c, Runs (.clusterUnfence c) s (fun t => c ∉ t.dev.links.fenced ∧ c ∉ t.dev.links.fencing ∧ t.core = s.core ∧ t.mem = s.mem ∧
        ∀ (k : Nat) (u : Strand), s.dev.strands[k]? = some u → u.cluster = c → u.byFence = true → u.state = .parked →
          ∃ w, t.dev.strands[k]? = some w ∧ (w.state = .runnable ∨ w.state = .waiting))) ∧
      (∀ tn, tn < 64 → (s.dev.page tn).active = false →
        Runs (.tenantCreate tn) s (fun t => t.dev.page tn = { Page.reset with active := true } ∧ (∀ o, o ≠ tn → t.dev.page o = s.dev.page o) ∧
          (∀ p, t.dev.links.queue tn p = { tenant := tn, peer := p, msgs := [], taken := 0, credits := 64 }) ∧ t.core = s.core ∧ t.mem = s.mem)) ∧
      (∀ tn, 0 < tn → (s.dev.page tn).active = true → (∀ c ∈ s.dev.claims, c.owner = tn → c.state ≠ .live) →
        Runs (.tenantRemove tn) s (fun t => t.dev.page tn = Page.reset ∧ t.dev.claims = s.dev.claims ∧ t.core = s.core ∧ t.mem = s.mem)) ∧
      (∀ (off len asym hash i : Nat) (nonce : List Byte),
        let ans := fun (e : Instr) (r : Spdm) => exec e s = .next (s.mapDev (fun d => { d with fw := { d.fw with response := r } }))
        ans .getVersion .version ∧ ans .getCapabilities .capabilities ∧ ans (.negotiateAlgorithms asym hash) .algorithms ∧
        ans .getDigests (.digests (Config.sm3 Config.certChain)) ∧
        ans (.getCertificate off len) (.certificate ((Config.certChain.drop off).take len)) ∧
        ans (.challenge nonce) (.challengeAuth (Config.sm2Sign nonce)) ∧ ans .keyExchange .unsupported ∧
        (1 ≤ i → i ≤ 6 → ans (.getMeasurements i nonce) (.measurements [(i, s.dev.measurement i)]
          (Config.sm2Sign (s.dev.measurement i ++ nonce))))) ∧
      (∀ v : X64, s.core.running.isSome = true →
        exec (.chstWrite v) s = .next (s.mapSys (fun y => { y with chst := y.chst &&& ~~~(v &&& 0xFF) })) ∧
        (v.toNat % 16 = 2 → exec (.errinjPoisonLoad v) s = .next (s.mapSys (fun y => { y with errinj := v &&& 0x0000FFFFFF03000F }))) ∧
        (v.toNat % 16 = 3 → exec (.errinjCorrected v) s = .next (s.mapSys (fun y => { y with errinj := v &&& 0x0000FFFFFF03000F }))) ∧
        (∀ nm, v.toNat % 16 = 1 → s.rdK (v.toNat / 2 ^ 16 % 4) = .valid nm → s.core.gate.length < 64 →
          exec (.errinjRickStream v) s = .next ((s.mapSys (fun y => { y with errinj := v &&& 0x0000FFFFFF030000 })).gateCmd 0
            (.rick { rick := nm, seg := v.toNat / 2 ^ 24 % 256, op := .inject (v.toNat / 2 ^ 32 % 65536) })))))

/-- R477 to R482, R397, R458, R460: the owner runtime's registers. INDOM and INDEX, the settings within their ranges, the serial-to-index map, a
tenant page's control and its base registers, and the error counters; an aligned write of the bin memory window writes the bins (R476); an unaligned
or reserved place keeps what it holds, and through a virtual function the fields marked PF do. QUIESCE parks every strand; the flag that keeps them
from being placed until an UNPARK is the model's own (log 72). -/
def Obligations.OwnerRegisters : Prop :=
  ∀ (s : State) (v : X64),
    let n := v.toNat
    let setTo := fun (off : Nat) (q : Settings) => Runs (.registerWrite ⟨0, off⟩ v) s (fun t => t.dev.set = q ∧ t.core = s.core ∧ t.mem = s.mem)
    let pageAt := fun (tn off : Nat) (p : Page) => Runs (.registerWrite ⟨0, 0x1000000 + 0x10000 * tn + off⟩ v) s (fun t =>
      t.dev.page tn = p ∧ (∀ o, o ≠ tn → t.dev.page o = s.dev.page o) ∧ t.core = s.core ∧ t.mem = s.mem)
    (setTo 0x10 (if 900 ≤ n % 2 ^ 11 ∧ n % 2 ^ 11 ≤ 1600 ∧ 1 ≤ n / 2 ^ 16 % 8 then
        { s.dev.set with limit := n % 2 ^ 11, pblvl := n / 2 ^ 16 % 8, ownlvl := n / 2 ^ 24 % 8 } else s.dev.set) ∧
      setTo 0x20 (if 1050 ≤ n % 2 ^ 32 then { s.dev.set with qpwdog := n % 2 ^ 32 } else s.dev.set) ∧
      setTo 0x28 (if 100 ≤ n % 2 ^ 17 ∧ n % 2 ^ 17 ≤ 100000 then { s.dev.set with lostto := n % 2 ^ 17 } else s.dev.set) ∧
      setTo 0x38 (if 10 ≤ n % 2 ^ 14 ∧ n % 2 ^ 14 ≤ 10000 then { s.dev.set with winto := n % 2 ^ 14 } else s.dev.set) ∧
      ∀ c, c < 4 → setTo (0x40 + 8 * c)
        (if 4096 ≤ n / 2 ^ 32 % 2 ^ 27 ∧ n / 2 ^ 32 % 2 ^ 27 ≤ 2 ^ 26 ∧ 1024 ≤ n % 2 ^ 25 ∧ n % 2 ^ 25 ≤ 2 ^ 24 then
          { s.dev.set with slice := vset s.dev.set.slice c (n / 2 ^ 32 % 2 ^ 27), quant := vset s.dev.set.quant c (n % 2 ^ 25) } else s.dev.set)) ∧
    (∀ tn, tn < 64 → pageAt tn 0x20 { s.dev.page tn with wbase := v } ∧
      pageAt tn 0x50 { s.dev.page tn with weight := BitVec.ofNat 32 (n % 2 ^ 32) } ∧
      pageAt tn 0x30 { s.dev.page tn with trbase := v &&& 0x00FFFFFFFFFFFFC0, trq := n % 16 }) ∧
    (∀ k, k < 64 →
      (s.dev.ident.indom = true → Runs (.registerWrite ⟨0, 0x1000 + 8 * k⟩ v) s (fun t => t.dev.ident = s.dev.ident ∧ t.dev.block = s.dev.block)) ∧
      (s.dev.ident.indom = false → Runs (.registerWrite ⟨0, 0x1000 + 8 * k⟩ v) s (fun t =>
        t.dev.ident.map = (if v.getLsbD 63 then [(k, n % 2 ^ 40)] else []) ++ s.dev.ident.map.filter (fun m => m.1 != k) ∧
        k ∉ t.dev.ident.lost ∧ (∀ j, j ≠ k → (j ∈ t.dev.ident.lost ↔ j ∈ s.dev.ident.lost)) ∧
        t.dev.blockWord (0x1000 + 8 * k) = (v &&& 0x800000FFFFFFFFFF).toNat ∧ t.core = s.core ∧ t.mem = s.mem))) ∧
    (∀ off, 0x800000 ≤ off → off < 0x1000000 → off % 8 = 0 →
      exec (.registerWrite ⟨0, off⟩ v) s = exec (.binWindowAccess (off - 0x800000) 8 (some v)) s) ∧
    (∀ e, exec (.errCounterWrite e) s = .next (s.mapDev (fun d => { d with errors := vset d.errors e 0 }))) ∧
    (Runs (.indomWrite v) s (fun t => t.dev.ident.indom = v.getLsbD 8 ∧
      t.dev.ident.indexReg = (if s.dev.ident.indom then s.dev.ident.indexReg else v.toNat % 64) ∧
      t.dev.ident.index = (if v.getLsbD 8 then t.dev.ident.indexReg else 0) ∧ t.core.regs = s.core.regs ∧ t.mem = s.mem)) ∧
    (Runs (.registerWrite ⟨0, 0x18⟩ v) s (fun t =>
      t.dev.set = { s.dev.set with rampt := min (max (v.toNat % 2 ^ 15) 525) 21000 } ∧ t.core.regs = s.core.regs ∧
      t.core.iss = s.core.iss ∧ t.mem = s.mem)) ∧
    (Runs (.registerWrite ⟨0, 0x30⟩ v) s (fun t =>
      t.dev.set = (if 256 ≤ v.toNat % 2 ^ 21 ∧ v.toNat % 2 ^ 21 ≤ 2 ^ 20 then { s.dev.set with waitq := v.toNat % 2 ^ 21 } else s.dev.set) ∧
      t.core = s.core ∧ t.mem = s.mem)) ∧
    (∀ tn, tn < 64 → Runs (.registerWrite ⟨0, (0x1000000 + 0x10000 * tn + 0x08)⟩ v) s (fun t =>
      t.dev.page tn = { s.dev.page tn with errint := v.getLsbD 2, inten := v.getLsbD 1, en := v.getLsbD 0 } ∧
      (∀ o, o ≠ tn → t.dev.page o = s.dev.page o) ∧ t.core = s.core ∧ t.mem = s.mem)) ∧
    (∀ tn, tn < 64 → Runs (.registerWrite ⟨0, (0x1000000 + 0x10000 * tn + 0x48)⟩ v) s (fun t =>
      t.dev.page tn = { s.dev.page tn with mapbase := v &&& 0x00FFFFFFFFFFF800 } ∧ (∀ o, o ≠ tn → t.dev.page o = s.dev.page o) ∧
      (s.core.tableOf = some tn → t.core.tableLaunch = none) ∧ t.core.regs = s.core.regs ∧ t.core.iss = s.core.iss ∧ t.mem = s.mem)) ∧
    (∀ tn, tn < 64 → (s.dev.page tn).en = true → Runs (.registerWrite ⟨0, (0x1000000 + 0x10000 * tn)⟩ v) s (fun t =>
      t.dev.page tn = { s.dev.page tn with qbase := v &&& 0x00FFFFFFFFFFFF00 } ∧ t.core = s.core ∧ t.mem = s.mem)) ∧
    (∀ off, (off % 8 ≠ 0 ∨ 0x1400000 ≤ off ∨ (0x9030 ≤ off ∧ off < 0x800000)) → exec (.registerWrite ⟨0, off⟩ v) s = .next s) ∧
    (∀ fn off, fn ≠ 0 → (off % 8 ≠ 0 ∨ off ≠ 0x08 ∧ off ≠ 0x10) → exec (.registerWrite ⟨fn, off⟩ v) s = .next s) ∧
    (∀ fn, fn ≠ 0 → fn < 64 → Runs (.registerWrite ⟨fn, 0x08⟩ v) s (fun t =>
      t.dev.page fn = { s.dev.page fn with errint := v.getLsbD 2, inten := v.getLsbD 1 } ∧
      (∀ o, o ≠ fn → t.dev.page o = s.dev.page o) ∧ t.core = s.core ∧ t.mem = s.mem)) ∧
    (s.core.running = none → Runs .quiesce s (fun t => t.core = s.core ∧ t.mem = s.mem ∧ t.dev.quiesced = true ∧
      t.dev.strands = s.dev.strands.map (fun u => if u.state = .runnable ∨ u.state = .waiting then
        { u with state := .parked, wasWaiting := decide (u.state = .waiting) } else u)))

/-- R20, R26, R256, R257, R356, R361, R374, R474: where the ops that only read, wait or trap complete. R397, R185, R187, R189, R408,
R418 to R420, R278, R324, R424, R445, R476, R479: the same of the events of queues, blocks, rounds, engines and threshers. R477, R481, R468:
writes of registers, of the error counters and of INDOM, and QUIESCE, always. -/
def Obligations.FormsComplete : Prop :=
  (
    ∀ (f : CG) (g : CGSr) (c : CGCode) (h : CGFence) (s : State),
      let y := s.core.regs.sys
      let quiet := s.core.gate = [] ∧ s.core.loads = [] ∧ s.core.fars = []
      exec (.ctl f) s = .next s ∧
      Sends (.rdeng f) s 1 (.x (s.px f.d) (BitVec.ofNat 64 s.core.meter.energy) false) ∧
      Sends (.rdcyc f) s 1 (.x (s.px f.d) (BitVec.ofNat 64 s.core.meter.cycle) false) ∧
      (f.a.toNat < s.core.nV → Sends (.tstpsn f) s 1 (.x (s.px f.d) (s.poisonV f.a) false)) ∧
      (∀ v, s.sysReg g.srn.toNat = some v → Sends (.rdsr g) s 1 (.x (s.px g.d) v false)) ∧
      (s.poisonX g.a = false → s.rdX g.a = 0 → exec (.bkpt g) s = .next s) ∧
      (quiet → Runs (.fence h) s (fun t => t.mem = s.mem ∧ t.dev = s.dev ∧ t.core.regs = s.core.regs ∧ t.core.iss = s.core.iss)) ∧
      (quiet → y.trapv.getLsbD 0 = true → y.trapc.getLsbD 8 = false →
        Runs (.trap c) s (fun t => t.core.regs.sys.trapc = 0x10D ∧ t.core.regs.sys.trapval = c.code.zeroExtend 64 ∧
          t.core.iss.pc = y.trapv.toNat % 2 ^ 56 / 8 * 8 ∧ t.mem = s.mem ∧ t.core.regs.x = s.core.regs.x)) ∧
      (quiet → y.trapc.getLsbD 8 = true →
        Runs (.rett f) s (fun t => t.core.iss.next = .taken y.trappc.toNat ∧ t.core.regs.sys.trapc.getLsbD 8 = false ∧
          t.mem = s.mem ∧ t.core.regs.x = s.core.regs.x)) ∧
      (quiet → s.poisonX c.a = false →
        Runs (.svc c) s (fun t => t.dev.svc = s.dev.svc ++ [(s.core.tenant, s.core.number, c.code, s.rdX c.a)] ∧
          t.core.iss.waits = some .svc ∧ t.mem = s.mem ∧ t.core.regs = s.core.regs))) ∧
  (
    ∀ (f : EA) (s : State), chkColl f s = .ok → s.cmds Cmd.isCopy < 16 →
      Runs (.coll f) s (fun t => t.core.gate.length = s.core.gate.length + 1 ∧ t.mem = s.mem ∧ (s.core.running ≠ none → t.dev = s.dev) ∧
        t.core.regs = s.core.regs)) ∧
  (
    ∀ (t k : Nat) (l : Bool) (v : BitVec 32) (s : State), t < 64 →
      let p := s.dev.page t
      (p.active = true → (v - p.head).toNat ≤ 2 ^ p.qsize → Runs (.tailWrite ⟨t, l⟩ v) s (fun u => (u.dev.page t).tail = v)) ∧
      (p.hasBlock = true → Runs (.blockRead t) s (fun u => (u.dev.page t).head = p.head + 1 ∧ u.mem = s.landPieces.mem)) ∧
      (s.dev.mayPlace k = true → Runs (.sheafRelease k) s (fun u => u.dev.strands.length = s.dev.strands.length + 1 ∧ u.mem = s.mem)) ∧
      (s.blockDone k = true → Runs (.blockComplete k) s (fun u => u.dev.blocks[k]?.map (·.complete) = some true))) ∧
  (
    ∀ (m : CollMsg) (d : DecisionMsg) (came : List (Nat × Bool)) (b : Beat) (q : SlotReq) (tenant : Nat) (key : X64) (round st : Nat) (s : State),
      s.dev.aborted = [] → s.dev.rounds = [] → s.dev.grants = [] →
      Runs (.collMessage m) s (fun t => t.dev.early = s.dev.early ++ [m]) ∧
      Runs (.algorithmDecision d came) s (fun t => t.dev.earlyDecisions = s.dev.earlyDecisions ++ [d]) ∧
      Runs (.slotBeat b.tenant b.key b.round b.digest b.toBeatIn) s (fun t => t.dev.earlyBeats = s.dev.earlyBeats ++ [b]) ∧
      ((st = 7 ∨ st = 11) → Runs (.abortNotice ⟨tenant, key⟩ round st) s (fun t =>
        t.dev.earlyAborts = s.dev.earlyAborts ++ [(tenant, key, round, st)])) ∧
      (q.release = false → s.mayEnter (homeField s.dev.ident.index 0 0 0) = true → vget s.dev.slots 0 none = none →
        Runs (.slotRequest q []) s (fun t => ∃ n, vget t.dev.slots 0 none = some (q.tenant, n)))) ∧
  (
    ∀ (r : Round) (s : State), s.dev.rounds = [r] → r.timedOut s.core.now = true →
      Runs (.roundTimeout ⟨r.tenant, r.record.key⟩) s (fun t => t.dev.rounds = [] ∧
        ∀ e ∈ t.core.engs, e.id = r.id → e.done = some (token 7 0))) ∧
  (
    ∀ (e : Engine) (k : Nat) (v : X64) (s : State), s.core.engs[k]? = some e →
      (e.done = some v → Runs (.engineTokenWrite k) s (fun t => ∀ o ∈ t.core.engs, o.id ≠ e.id)) ∧
      (s.rickReady e = true → Runs (.rickEngineApply k) s (fun t => ∀ o ∈ t.core.engs, o.id ≠ e.id)) ∧
      (∀ q rest, s.dev.svc = q :: rest → Runs (.svcReply (some v)) s (fun t => t.dev.svc = rest))) ∧
  (
    ∀ (e : Nat) (p : RegPlace) (v : X64) (s : State),
      exec (.errCounterWrite e) s = .next (s.mapDev (fun d => { d with errors := vset d.errors e 0 })) ∧
      Runs (.indomWrite v) s (fun t => t.dev.ident.indom = v.getLsbD 8 ∧ t.core.regs = s.core.regs ∧ t.mem = s.mem) ∧
      (∃ t, exec (.registerWrite p v) s = .next t) ∧
      Runs .quiesce s (fun t => t.dev.quiesced = true))
end

