-- ==== Sys2Proof/Laws/Memory.lean ====
section
/-! SUPPORT. Every operation over memory keeps its canonical form (`Memory.wf`), and the reset memory has it. -/

namespace Sys2Proof.Machine

/-! ### Canonical lists -/

theorem cellsWf_mono {l : List Host.Cell} {lo lo' : Nat} (h : lo' ≤ lo) (hw : cellsWf lo l = true) : cellsWf lo' l = true := by
  cases l with
  | nil => rfl
  | cons c t => simp only [cellsWf, Bool.and_eq_true, decide_eq_true_eq] at hw ⊢; exact ⟨⟨by omega, hw.1.2⟩, hw.2⟩

theorem cellsPut_wf (b : Byte) : ∀ (l : List Host.Cell) (lo a : Nat), lo ≤ a → cellsWf lo l = true → cellsWf lo (cellsPut l a b) = true
  | [], lo, a, h, _ => by
    simp only [cellsPut]
    split
    · rfl
    · rename_i hb; simp only [cellsWf, Bool.and_eq_true, decide_eq_true_eq]; exact ⟨⟨h, hb⟩, trivial⟩
  | (k, v) :: t, lo, a, h, hw => by
    simp only [cellsWf, Bool.and_eq_true, decide_eq_true_eq] at hw
    simp only [cellsPut]
    split
    · split
      · simp only [cellsWf, Bool.and_eq_true, decide_eq_true_eq]; exact hw
      · rename_i hb
        simp only [cellsWf, Bool.and_eq_true, decide_eq_true_eq]; exact ⟨⟨h, hb⟩, ⟨⟨by omega, hw.1.2⟩, hw.2⟩⟩
    · split
      · split
        · exact cellsWf_mono (by omega) hw.2
        · rename_i hb
          simp only [cellsWf, Bool.and_eq_true, decide_eq_true_eq]; exact ⟨⟨hw.1.1, hb⟩, hw.2⟩
      · simp only [cellsWf, Bool.and_eq_true, decide_eq_true_eq]
        exact ⟨hw.1, cellsPut_wf b t (k + 1) a (by omega) hw.2⟩

theorem setWf_mono {l : List Nat} {lo lo' : Nat} (h : lo' ≤ lo) (hw : setWf lo l = true) : setWf lo' l = true := by
  cases l with
  | nil => rfl
  | cons c t => simp only [setWf, Bool.and_eq_true, decide_eq_true_eq] at hw ⊢; exact ⟨by omega, hw.2⟩

theorem setAdd_wf : ∀ (l : List Nat) (lo a : Nat), lo ≤ a → setWf lo l = true → setWf lo (setAdd l a) = true
  | [], lo, a, h, _ => by simp [setAdd, setWf, h]
  | k :: t, lo, a, h, hw => by
    simp only [setWf, Bool.and_eq_true, decide_eq_true_eq] at hw
    simp only [setAdd]
    split
    · simp only [setWf, Bool.and_eq_true, decide_eq_true_eq]; exact ⟨h, by omega, hw.2⟩
    · split
      · simp [setWf, hw]
      · simp only [setWf, Bool.and_eq_true, decide_eq_true_eq]; exact ⟨hw.1, setAdd_wf t (k + 1) a (by omega) hw.2⟩

theorem setDel_wf : ∀ (l : List Nat) (lo a : Nat), setWf lo l = true → setWf lo (setDel l a) = true
  | [], _, _, _ => rfl
  | k :: t, lo, a, hw => by
    simp only [setWf, Bool.and_eq_true, decide_eq_true_eq] at hw
    simp only [setDel]
    split
    · simp [setWf, hw]
    · split
      · exact setWf_mono (by omega) hw.2
      · simp only [setWf, Bool.and_eq_true, decide_eq_true_eq]; exact ⟨hw.1, setDel_wf t (k + 1) a hw.2⟩

theorem setAdds_wf (ws : List Nat) : ∀ l : List Nat, setWf 0 l = true → setWf 0 (ws.foldl setAdd l) = true := by
  induction ws with
  | nil => exact fun _ h => h
  | cons w ws ih => exact fun l h => ih _ (setAdd_wf l 0 w (by omega) h)

theorem setDels_wf (ws : List Nat) : ∀ l : List Nat, setWf 0 l = true → setWf 0 (ws.foldl setDel l) = true := by
  induction ws with
  | nil => exact fun _ h => h
  | cons w ws ih => exact fun l h => ih _ (setDel_wf l 0 w h)

theorem tagsWf_mono {l : List (Nat × (Fmt × Geo))} {lo lo' : Nat} (h : lo' ≤ lo) (hw : tagsWf lo l = true) : tagsWf lo' l = true := by
  cases l with
  | nil => rfl
  | cons c t => simp only [tagsWf, Bool.and_eq_true, decide_eq_true_eq] at hw ⊢; exact ⟨⟨by omega, hw.1.2⟩, hw.2⟩

theorem tagsPut_wf (b : Fmt × Geo) : ∀ (l : List (Nat × (Fmt × Geo))) (lo a : Nat), lo ≤ a → tagsWf lo l = true →
    tagsWf lo (tagsPut l a b) = true
  | [], lo, a, h, _ => by
    simp only [tagsPut]
    split
    · rfl
    · rename_i hb; simp only [tagsWf, Bool.and_eq_true, decide_eq_true_eq]; exact ⟨⟨h, hb⟩, trivial⟩
  | (k, v) :: t, lo, a, h, hw => by
    simp only [tagsWf, Bool.and_eq_true, decide_eq_true_eq] at hw
    simp only [tagsPut]
    split
    · split
      · simp only [tagsWf, Bool.and_eq_true, decide_eq_true_eq]; exact hw
      · rename_i hb
        simp only [tagsWf, Bool.and_eq_true, decide_eq_true_eq]; exact ⟨⟨h, hb⟩, ⟨⟨by omega, hw.1.2⟩, hw.2⟩⟩
    · split
      · split
        · exact tagsWf_mono (by omega) hw.2
        · rename_i hb
          simp only [tagsWf, Bool.and_eq_true, decide_eq_true_eq]; exact ⟨⟨hw.1.1, hb⟩, hw.2⟩
      · simp only [tagsWf, Bool.and_eq_true, decide_eq_true_eq]
        exact ⟨hw.1, tagsPut_wf b t (k + 1) a (by omega) hw.2⟩

/-! ### Memory -/

theorem Memory.wf_iff (m : Memory) :
    m.wf = true ↔ cellsWf 0 m.cells = true ∧ setWf 0 m.poison = true ∧ tagsWf 0 m.tags = true := by
  simp [Memory.wf, and_assoc]

theorem Memory.setByte_wf {m : Memory} (a : Nat) (b : Byte) (h : m.wf = true) : (m.setByte a b).wf = true := by
  rw [Memory.wf_iff] at h ⊢; exact ⟨cellsPut_wf b _ 0 a (by omega) h.1, h.2⟩

theorem Memory.mark_wf {m : Memory} (a : Nat) (h : m.wf = true) : (m.mark a).wf = true := by
  unfold Memory.mark
  split
  · exact h
  · rw [Memory.wf_iff] at h ⊢; exact ⟨h.1, setAdds_wf _ _ h.2.1, h.2.2⟩

theorem Memory.unmark_wf {m : Memory} (a : Nat) (h : m.wf = true) : (m.unmark a).wf = true := by
  rw [Memory.wf_iff] at h ⊢; exact ⟨h.1, setDels_wf _ _ h.2.1, h.2.2⟩

theorem Memory.setTag_wf {m : Memory} (r : Nat) (f : Fmt) (g : Geo) (h : m.wf = true) : (m.setTag r f g).wf = true := by
  rw [Memory.wf_iff] at h ⊢; exact ⟨h.1, h.2.1, tagsPut_wf _ _ 0 r (by omega) h.2.2⟩

/-- A fold of steps that each keep the canonical form keeps it. -/
theorem Memory.foldl_wf {α : Type} (f : Memory → α → Memory) (hf : ∀ m x, m.wf = true → (f m x).wf = true) (l : List α) :
    ∀ m : Memory, m.wf = true → (l.foldl f m).wf = true := by
  induction l with
  | nil => exact fun _ h => h
  | cons x l ih => exact fun m h => ih _ (hf m x h)

theorem Memory.setTags_wf {m : Memory} (first count : Nat) (f : Fmt) (g : Geo) (h : m.wf = true) :
    (m.setTags first count f g).wf = true :=
  Memory.foldl_wf _ (fun _ _ h => Memory.setTag_wf _ f g h) _ m h

theorem Memory.store_wf {m : Memory} (cells : List Host.Cell) (pois : List Nat) (h : m.wf = true) :
    (m.store cells pois).wf = true := by
  refine Memory.foldl_wf _ (fun m g hm => ?_) _ _ (Memory.foldl_wf _ (fun m c hm => Memory.setByte_wf _ _ hm) _ m h)
  dsimp only
  split
  · exact Memory.mark_wf g hm
  · split
    · exact Memory.unmark_wf g hm
    · exact hm

theorem cellsWf_filter (p : Host.Cell → Bool) : ∀ (l : List Host.Cell) (lo : Nat), cellsWf lo l = true → cellsWf lo (l.filter p) = true
  | [], _, _ => rfl
  | (k, v) :: t, lo, hw => by
    simp only [cellsWf, Bool.and_eq_true, decide_eq_true_eq] at hw
    simp only [List.filter_cons]
    have ih := cellsWf_filter p t (k + 1) hw.2
    split
    · simp only [cellsWf, Bool.and_eq_true, decide_eq_true_eq]; exact ⟨hw.1, ih⟩
    · exact cellsWf_mono (by omega) ih

theorem setWf_filter (p : Nat → Bool) : ∀ (l : List Nat) (lo : Nat), setWf lo l = true → setWf lo (l.filter p) = true
  | [], _, _ => rfl
  | k :: t, lo, hw => by
    simp only [setWf, Bool.and_eq_true, decide_eq_true_eq] at hw
    simp only [List.filter_cons]
    have ih := setWf_filter p t (k + 1) hw.2
    split
    · simp only [setWf, Bool.and_eq_true, decide_eq_true_eq]; exact ⟨hw.1, ih⟩
    · exact setWf_mono (by omega) ih

theorem tagsWf_filter (p : Nat × (Fmt × Geo) → Bool) : ∀ (l : List (Nat × (Fmt × Geo))) (lo : Nat), tagsWf lo l = true →
    tagsWf lo (l.filter p) = true
  | [], _, _ => rfl
  | (k, v) :: t, lo, hw => by
    simp only [tagsWf, Bool.and_eq_true, decide_eq_true_eq] at hw
    simp only [List.filter_cons]
    have ih := tagsWf_filter p t (k + 1) hw.2
    split
    · simp only [tagsWf, Bool.and_eq_true, decide_eq_true_eq]; exact ⟨hw.1, ih⟩
    · exact tagsWf_mono (by omega) ih

theorem Memory.outside_wf {m : Memory} (h : m.wf = true) : m.outside.wf = true := by
  rw [Memory.wf_iff] at h ⊢
  exact ⟨cellsWf_filter _ _ _ h.1, setWf_filter _ _ _ h.2.1, tagsWf_filter _ _ _ h.2.2⟩

theorem State.reset_mem_wf : State.reset.mem.wf = true := by decide

end Sys2Proof.Machine
end

