-- ==== Sys2Proof/Laws/State.lean ====
section
/-! SUPPORT. One lemma per field per update of the state: no proof unfolds a record update. -/

namespace Sys2Proof.Machine

@[simp] theorem State.mapCore_core (s : State) (f : Core → Core) : (s.mapCore f).core = f s.core := rfl
@[simp] theorem State.mapCore_dev (s : State) (f : Core → Core) : (s.mapCore f).dev = s.dev := rfl
@[simp] theorem State.mapCore_mem (s : State) (f : Core → Core) : (s.mapCore f).mem = s.mem := rfl
@[simp] theorem State.mapCore_thr (s : State) (f : Core → Core) : (s.mapCore f).thr = s.thr := rfl
@[simp] theorem State.mapCore_threshers (s : State) (f : Core → Core) : (s.mapCore f).threshers = s.threshers := rfl
@[simp] theorem State.mapCore_results (s : State) (f : Core → Core) : (s.mapCore f).results = s.results := rfl
@[simp] theorem State.mapCore_agenda (s : State) (f : Core → Core) : (s.mapCore f).agenda = s.agenda := rfl
@[simp] theorem State.mapCore_freeCtr (s : State) (f : Core → Core) : (s.mapCore f).freeCtr = s.freeCtr := rfl

@[simp] theorem State.mapDev_core (s : State) (f : Dev → Dev) : (s.mapDev f).core = s.core := rfl
@[simp] theorem State.mapDev_dev (s : State) (f : Dev → Dev) : (s.mapDev f).dev = f s.dev := rfl
@[simp] theorem State.mapDev_mem (s : State) (f : Dev → Dev) : (s.mapDev f).mem = s.mem := rfl
@[simp] theorem State.mapDev_thr (s : State) (f : Dev → Dev) : (s.mapDev f).thr = s.thr := rfl
@[simp] theorem State.mapDev_threshers (s : State) (f : Dev → Dev) : (s.mapDev f).threshers = s.threshers := rfl
@[simp] theorem State.mapDev_results (s : State) (f : Dev → Dev) : (s.mapDev f).results = s.results := rfl
@[simp] theorem State.mapDev_agenda (s : State) (f : Dev → Dev) : (s.mapDev f).agenda = s.agenda := rfl
@[simp] theorem State.mapDev_freeCtr (s : State) (f : Dev → Dev) : (s.mapDev f).freeCtr = s.freeCtr := rfl

@[simp] theorem State.mapMem_core (s : State) (f : Memory → Memory) : (s.mapMem f).core = s.core := rfl
@[simp] theorem State.mapMem_dev (s : State) (f : Memory → Memory) : (s.mapMem f).dev = s.dev := rfl
@[simp] theorem State.mapMem_mem (s : State) (f : Memory → Memory) : (s.mapMem f).mem = f s.mem := rfl
@[simp] theorem State.mapMem_thr (s : State) (f : Memory → Memory) : (s.mapMem f).thr = s.thr := rfl
@[simp] theorem State.mapMem_threshers (s : State) (f : Memory → Memory) : (s.mapMem f).threshers = s.threshers := rfl
@[simp] theorem State.mapMem_results (s : State) (f : Memory → Memory) : (s.mapMem f).results = s.results := rfl
@[simp] theorem State.mapMem_agenda (s : State) (f : Memory → Memory) : (s.mapMem f).agenda = s.agenda := rfl
@[simp] theorem State.mapMem_freeCtr (s : State) (f : Memory → Memory) : (s.mapMem f).freeCtr = s.freeCtr := rfl

@[simp] theorem State.bump_core (s : State) : (s.bump).core = s.core := rfl
@[simp] theorem State.bump_dev (s : State) : (s.bump).dev = s.dev := rfl
@[simp] theorem State.bump_mem (s : State) : (s.bump).mem = s.mem := rfl
@[simp] theorem State.bump_thr (s : State) : (s.bump).thr = s.thr := rfl
@[simp] theorem State.bump_threshers (s : State) : (s.bump).threshers = s.threshers := rfl
@[simp] theorem State.bump_results (s : State) : (s.bump).results = s.results := rfl
@[simp] theorem State.bump_agenda (s : State) : (s.bump).agenda = s.agenda := rfl
@[simp] theorem State.bump_freeCtr (s : State) : (s.bump).freeCtr = s.freeCtr + 1 := rfl

@[simp] theorem State.mapRegs_dev (s : State) (f : Regs → Regs) : (s.mapRegs f).dev = s.dev := rfl
@[simp] theorem State.mapRegs_mem (s : State) (f : Regs → Regs) : (s.mapRegs f).mem = s.mem := rfl
@[simp] theorem State.mapRegs_thr (s : State) (f : Regs → Regs) : (s.mapRegs f).thr = s.thr := rfl
@[simp] theorem State.mapRegs_threshers (s : State) (f : Regs → Regs) : (s.mapRegs f).threshers = s.threshers := rfl
@[simp] theorem State.mapRegs_results (s : State) (f : Regs → Regs) : (s.mapRegs f).results = s.results := rfl
@[simp] theorem State.mapRegs_agenda (s : State) (f : Regs → Regs) : (s.mapRegs f).agenda = s.agenda := rfl
@[simp] theorem State.mapRegs_freeCtr (s : State) (f : Regs → Regs) : (s.mapRegs f).freeCtr = s.freeCtr := rfl
@[simp] theorem State.mapRegs_core_regs (s : State) (f : Regs → Regs) : (s.mapRegs f).core.regs = f s.core.regs := rfl
@[simp] theorem State.mapRegs_core_nV (s : State) (f : Regs → Regs) : (s.mapRegs f).core.nV = s.core.nV := rfl
@[simp] theorem State.mapRegs_core_nA (s : State) (f : Regs → Regs) : (s.mapRegs f).core.nA = s.core.nA := rfl
@[simp] theorem State.mapRegs_core_iss (s : State) (f : Regs → Regs) : (s.mapRegs f).core.iss = s.core.iss := rfl
@[simp] theorem State.mapRegs_core_shadow (s : State) (f : Regs → Regs) : (s.mapRegs f).core.shadow = s.core.shadow := rfl
@[simp] theorem State.mapRegs_core_gate (s : State) (f : Regs → Regs) : (s.mapRegs f).core.gate = s.core.gate := rfl
@[simp] theorem State.mapRegs_core_inter (s : State) (f : Regs → Regs) : (s.mapRegs f).core.inter = s.core.inter := rfl
@[simp] theorem State.mapRegs_core_loads (s : State) (f : Regs → Regs) : (s.mapRegs f).core.loads = s.core.loads := rfl
@[simp] theorem State.mapRegs_core_fars (s : State) (f : Regs → Regs) : (s.mapRegs f).core.fars = s.core.fars := rfl
@[simp] theorem State.mapRegs_core_engs (s : State) (f : Regs → Regs) : (s.mapRegs f).core.engs = s.core.engs := rfl
@[simp] theorem State.mapRegs_core_strm (s : State) (f : Regs → Regs) : (s.mapRegs f).core.strm = s.core.strm := rfl
@[simp] theorem State.mapRegs_core_mx (s : State) (f : Regs → Regs) : (s.mapRegs f).core.mx = s.core.mx := rfl
@[simp] theorem State.mapRegs_core_accs (s : State) (f : Regs → Regs) : (s.mapRegs f).core.accs = s.core.accs := rfl
@[simp] theorem State.mapRegs_core_table (s : State) (f : Regs → Regs) : (s.mapRegs f).core.table = s.core.table := rfl
@[simp] theorem State.mapRegs_core_tableOf (s : State) (f : Regs → Regs) : (s.mapRegs f).core.tableOf = s.core.tableOf := rfl
@[simp] theorem State.mapRegs_core_cache (s : State) (f : Regs → Regs) : (s.mapRegs f).core.cache = s.core.cache := rfl
@[simp] theorem State.mapRegs_core_icache (s : State) (f : Regs → Regs) : (s.mapRegs f).core.icache = s.core.icache := rfl
@[simp] theorem State.mapRegs_core_running (s : State) (f : Regs → Regs) : (s.mapRegs f).core.running = s.core.running := rfl
@[simp] theorem State.mapRegs_core_number (s : State) (f : Regs → Regs) : (s.mapRegs f).core.number = s.core.number := rfl
@[simp] theorem State.mapRegs_core_tenant (s : State) (f : Regs → Regs) : (s.mapRegs f).core.tenant = s.core.tenant := rfl
@[simp] theorem State.mapRegs_core_now (s : State) (f : Regs → Regs) : (s.mapRegs f).core.now = s.core.now := rfl
@[simp] theorem State.mapRegs_core_meter (s : State) (f : Regs → Regs) : (s.mapRegs f).core.meter = s.core.meter := rfl
@[simp] theorem State.mapRegs_core_tableLaunch (s : State) (f : Regs → Regs) : (s.mapRegs f).core.tableLaunch = s.core.tableLaunch := rfl
@[simp] theorem State.mapRegs_core_shootDown (s : State) (f : Regs → Regs) : (s.mapRegs f).core.shootDown = s.core.shootDown := rfl
@[simp] theorem State.mapRegs_core_opId (s : State) (f : Regs → Regs) : (s.mapRegs f).core.opId = s.core.opId := rfl
@[simp] theorem State.mapRegs_core_slice (s : State) (f : Regs → Regs) : (s.mapRegs f).core.slice = s.core.slice := rfl
@[simp] theorem State.mapRegs_core_waitq (s : State) (f : Regs → Regs) : (s.mapRegs f).core.waitq = s.core.waitq := rfl

@[simp] theorem State.mapIss_dev (s : State) (f : Issue → Issue) : (s.mapIss f).dev = s.dev := rfl
@[simp] theorem State.mapIss_mem (s : State) (f : Issue → Issue) : (s.mapIss f).mem = s.mem := rfl
@[simp] theorem State.mapIss_thr (s : State) (f : Issue → Issue) : (s.mapIss f).thr = s.thr := rfl
@[simp] theorem State.mapIss_threshers (s : State) (f : Issue → Issue) : (s.mapIss f).threshers = s.threshers := rfl
@[simp] theorem State.mapIss_results (s : State) (f : Issue → Issue) : (s.mapIss f).results = s.results := rfl
@[simp] theorem State.mapIss_agenda (s : State) (f : Issue → Issue) : (s.mapIss f).agenda = s.agenda := rfl
@[simp] theorem State.mapIss_freeCtr (s : State) (f : Issue → Issue) : (s.mapIss f).freeCtr = s.freeCtr := rfl
@[simp] theorem State.mapIss_core_regs (s : State) (f : Issue → Issue) : (s.mapIss f).core.regs = s.core.regs := rfl
@[simp] theorem State.mapIss_core_nV (s : State) (f : Issue → Issue) : (s.mapIss f).core.nV = s.core.nV := rfl
@[simp] theorem State.mapIss_core_nA (s : State) (f : Issue → Issue) : (s.mapIss f).core.nA = s.core.nA := rfl
@[simp] theorem State.mapIss_core_iss (s : State) (f : Issue → Issue) : (s.mapIss f).core.iss = f s.core.iss := rfl
@[simp] theorem State.mapIss_core_shadow (s : State) (f : Issue → Issue) : (s.mapIss f).core.shadow = s.core.shadow := rfl
@[simp] theorem State.mapIss_core_gate (s : State) (f : Issue → Issue) : (s.mapIss f).core.gate = s.core.gate := rfl
@[simp] theorem State.mapIss_core_inter (s : State) (f : Issue → Issue) : (s.mapIss f).core.inter = s.core.inter := rfl
@[simp] theorem State.mapIss_core_loads (s : State) (f : Issue → Issue) : (s.mapIss f).core.loads = s.core.loads := rfl
@[simp] theorem State.mapIss_core_fars (s : State) (f : Issue → Issue) : (s.mapIss f).core.fars = s.core.fars := rfl
@[simp] theorem State.mapIss_core_engs (s : State) (f : Issue → Issue) : (s.mapIss f).core.engs = s.core.engs := rfl
@[simp] theorem State.mapIss_core_strm (s : State) (f : Issue → Issue) : (s.mapIss f).core.strm = s.core.strm := rfl
@[simp] theorem State.mapIss_core_mx (s : State) (f : Issue → Issue) : (s.mapIss f).core.mx = s.core.mx := rfl
@[simp] theorem State.mapIss_core_accs (s : State) (f : Issue → Issue) : (s.mapIss f).core.accs = s.core.accs := rfl
@[simp] theorem State.mapIss_core_table (s : State) (f : Issue → Issue) : (s.mapIss f).core.table = s.core.table := rfl
@[simp] theorem State.mapIss_core_tableOf (s : State) (f : Issue → Issue) : (s.mapIss f).core.tableOf = s.core.tableOf := rfl
@[simp] theorem State.mapIss_core_cache (s : State) (f : Issue → Issue) : (s.mapIss f).core.cache = s.core.cache := rfl
@[simp] theorem State.mapIss_core_icache (s : State) (f : Issue → Issue) : (s.mapIss f).core.icache = s.core.icache := rfl
@[simp] theorem State.mapIss_core_running (s : State) (f : Issue → Issue) : (s.mapIss f).core.running = s.core.running := rfl
@[simp] theorem State.mapIss_core_number (s : State) (f : Issue → Issue) : (s.mapIss f).core.number = s.core.number := rfl
@[simp] theorem State.mapIss_core_tenant (s : State) (f : Issue → Issue) : (s.mapIss f).core.tenant = s.core.tenant := rfl
@[simp] theorem State.mapIss_core_now (s : State) (f : Issue → Issue) : (s.mapIss f).core.now = s.core.now := rfl
@[simp] theorem State.mapIss_core_meter (s : State) (f : Issue → Issue) : (s.mapIss f).core.meter = s.core.meter := rfl
@[simp] theorem State.mapIss_core_tableLaunch (s : State) (f : Issue → Issue) : (s.mapIss f).core.tableLaunch = s.core.tableLaunch := rfl
@[simp] theorem State.mapIss_core_shootDown (s : State) (f : Issue → Issue) : (s.mapIss f).core.shootDown = s.core.shootDown := rfl
@[simp] theorem State.mapIss_core_opId (s : State) (f : Issue → Issue) : (s.mapIss f).core.opId = s.core.opId := rfl
@[simp] theorem State.mapIss_core_slice (s : State) (f : Issue → Issue) : (s.mapIss f).core.slice = s.core.slice := rfl
@[simp] theorem State.mapIss_core_waitq (s : State) (f : Issue → Issue) : (s.mapIss f).core.waitq = s.core.waitq := rfl

@[simp] theorem State.gatePush_dev (s : State) (o : GateOp) : (s.gatePush o).dev = s.dev := rfl
@[simp] theorem State.gatePush_mem (s : State) (o : GateOp) : (s.gatePush o).mem = s.mem := rfl
@[simp] theorem State.gatePush_thr (s : State) (o : GateOp) : (s.gatePush o).thr = s.thr := rfl
@[simp] theorem State.gatePush_threshers (s : State) (o : GateOp) : (s.gatePush o).threshers = s.threshers := rfl
@[simp] theorem State.gatePush_results (s : State) (o : GateOp) : (s.gatePush o).results = s.results := rfl
@[simp] theorem State.gatePush_agenda (s : State) (o : GateOp) : (s.gatePush o).agenda = s.agenda := rfl
@[simp] theorem State.gatePush_freeCtr (s : State) (o : GateOp) : (s.gatePush o).freeCtr = s.freeCtr := rfl
@[simp] theorem State.gatePush_core_regs (s : State) (o : GateOp) : (s.gatePush o).core.regs = s.core.regs := rfl
@[simp] theorem State.gatePush_core_nV (s : State) (o : GateOp) : (s.gatePush o).core.nV = s.core.nV := rfl
@[simp] theorem State.gatePush_core_nA (s : State) (o : GateOp) : (s.gatePush o).core.nA = s.core.nA := rfl
@[simp] theorem State.gatePush_core_iss (s : State) (o : GateOp) : (s.gatePush o).core.iss = s.core.iss := rfl
@[simp] theorem State.gatePush_core_shadow (s : State) (o : GateOp) : (s.gatePush o).core.shadow = s.core.shadow := rfl
@[simp] theorem State.gatePush_core_gate (s : State) (o : GateOp) : (s.gatePush o).core.gate = s.core.gate ++ [{ bundle := s.core.iss.cur.bundle, slot := s.core.iss.cur.slot, op := o }] := rfl
@[simp] theorem State.gatePush_core_inter (s : State) (o : GateOp) : (s.gatePush o).core.inter = s.core.inter := rfl
@[simp] theorem State.gatePush_core_loads (s : State) (o : GateOp) : (s.gatePush o).core.loads = s.core.loads := rfl
@[simp] theorem State.gatePush_core_fars (s : State) (o : GateOp) : (s.gatePush o).core.fars = s.core.fars := rfl
@[simp] theorem State.gatePush_core_engs (s : State) (o : GateOp) : (s.gatePush o).core.engs = s.core.engs := rfl
@[simp] theorem State.gatePush_core_strm (s : State) (o : GateOp) : (s.gatePush o).core.strm = s.core.strm := rfl
@[simp] theorem State.gatePush_core_mx (s : State) (o : GateOp) : (s.gatePush o).core.mx = s.core.mx := rfl
@[simp] theorem State.gatePush_core_accs (s : State) (o : GateOp) : (s.gatePush o).core.accs = s.core.accs := rfl
@[simp] theorem State.gatePush_core_table (s : State) (o : GateOp) : (s.gatePush o).core.table = s.core.table := rfl
@[simp] theorem State.gatePush_core_tableOf (s : State) (o : GateOp) : (s.gatePush o).core.tableOf = s.core.tableOf := rfl
@[simp] theorem State.gatePush_core_cache (s : State) (o : GateOp) : (s.gatePush o).core.cache = s.core.cache := rfl
@[simp] theorem State.gatePush_core_icache (s : State) (o : GateOp) : (s.gatePush o).core.icache = s.core.icache := rfl
@[simp] theorem State.gatePush_core_running (s : State) (o : GateOp) : (s.gatePush o).core.running = s.core.running := rfl
@[simp] theorem State.gatePush_core_number (s : State) (o : GateOp) : (s.gatePush o).core.number = s.core.number := rfl
@[simp] theorem State.gatePush_core_tenant (s : State) (o : GateOp) : (s.gatePush o).core.tenant = s.core.tenant := rfl
@[simp] theorem State.gatePush_core_now (s : State) (o : GateOp) : (s.gatePush o).core.now = s.core.now := rfl
@[simp] theorem State.gatePush_core_meter (s : State) (o : GateOp) : (s.gatePush o).core.meter = s.core.meter := rfl
@[simp] theorem State.gatePush_core_tableLaunch (s : State) (o : GateOp) : (s.gatePush o).core.tableLaunch = s.core.tableLaunch := rfl
@[simp] theorem State.gatePush_core_shootDown (s : State) (o : GateOp) : (s.gatePush o).core.shootDown = s.core.shootDown := rfl
@[simp] theorem State.gatePush_core_opId (s : State) (o : GateOp) : (s.gatePush o).core.opId = s.core.opId := rfl
@[simp] theorem State.gatePush_core_slice (s : State) (o : GateOp) : (s.gatePush o).core.slice = s.core.slice := rfl
@[simp] theorem State.gatePush_core_waitq (s : State) (o : GateOp) : (s.gatePush o).core.waitq = s.core.waitq := rfl

@[simp] theorem State.mapSys_dev (s : State) (f : SysRegs → SysRegs) : (s.mapSys f).dev = s.dev := rfl
@[simp] theorem State.mapSys_mem (s : State) (f : SysRegs → SysRegs) : (s.mapSys f).mem = s.mem := rfl
@[simp] theorem State.mapSys_thr (s : State) (f : SysRegs → SysRegs) : (s.mapSys f).thr = s.thr := rfl
@[simp] theorem State.mapSys_threshers (s : State) (f : SysRegs → SysRegs) : (s.mapSys f).threshers = s.threshers := rfl
@[simp] theorem State.mapSys_results (s : State) (f : SysRegs → SysRegs) : (s.mapSys f).results = s.results := rfl
@[simp] theorem State.mapSys_agenda (s : State) (f : SysRegs → SysRegs) : (s.mapSys f).agenda = s.agenda := rfl
@[simp] theorem State.mapSys_freeCtr (s : State) (f : SysRegs → SysRegs) : (s.mapSys f).freeCtr = s.freeCtr := rfl
@[simp] theorem State.mapSys_core_regs (s : State) (f : SysRegs → SysRegs) : (s.mapSys f).core.regs = { s.core.regs with sys := f s.core.regs.sys } := rfl
@[simp] theorem State.mapSys_core_nV (s : State) (f : SysRegs → SysRegs) : (s.mapSys f).core.nV = s.core.nV := rfl
@[simp] theorem State.mapSys_core_nA (s : State) (f : SysRegs → SysRegs) : (s.mapSys f).core.nA = s.core.nA := rfl
@[simp] theorem State.mapSys_core_iss (s : State) (f : SysRegs → SysRegs) : (s.mapSys f).core.iss = s.core.iss := rfl
@[simp] theorem State.mapSys_core_shadow (s : State) (f : SysRegs → SysRegs) : (s.mapSys f).core.shadow = s.core.shadow := rfl
@[simp] theorem State.mapSys_core_gate (s : State) (f : SysRegs → SysRegs) : (s.mapSys f).core.gate = s.core.gate := rfl
@[simp] theorem State.mapSys_core_inter (s : State) (f : SysRegs → SysRegs) : (s.mapSys f).core.inter = s.core.inter := rfl
@[simp] theorem State.mapSys_core_loads (s : State) (f : SysRegs → SysRegs) : (s.mapSys f).core.loads = s.core.loads := rfl
@[simp] theorem State.mapSys_core_fars (s : State) (f : SysRegs → SysRegs) : (s.mapSys f).core.fars = s.core.fars := rfl
@[simp] theorem State.mapSys_core_engs (s : State) (f : SysRegs → SysRegs) : (s.mapSys f).core.engs = s.core.engs := rfl
@[simp] theorem State.mapSys_core_strm (s : State) (f : SysRegs → SysRegs) : (s.mapSys f).core.strm = s.core.strm := rfl
@[simp] theorem State.mapSys_core_mx (s : State) (f : SysRegs → SysRegs) : (s.mapSys f).core.mx = s.core.mx := rfl
@[simp] theorem State.mapSys_core_accs (s : State) (f : SysRegs → SysRegs) : (s.mapSys f).core.accs = s.core.accs := rfl
@[simp] theorem State.mapSys_core_table (s : State) (f : SysRegs → SysRegs) : (s.mapSys f).core.table = s.core.table := rfl
@[simp] theorem State.mapSys_core_tableOf (s : State) (f : SysRegs → SysRegs) : (s.mapSys f).core.tableOf = s.core.tableOf := rfl
@[simp] theorem State.mapSys_core_cache (s : State) (f : SysRegs → SysRegs) : (s.mapSys f).core.cache = s.core.cache := rfl
@[simp] theorem State.mapSys_core_icache (s : State) (f : SysRegs → SysRegs) : (s.mapSys f).core.icache = s.core.icache := rfl
@[simp] theorem State.mapSys_core_running (s : State) (f : SysRegs → SysRegs) : (s.mapSys f).core.running = s.core.running := rfl
@[simp] theorem State.mapSys_core_number (s : State) (f : SysRegs → SysRegs) : (s.mapSys f).core.number = s.core.number := rfl
@[simp] theorem State.mapSys_core_tenant (s : State) (f : SysRegs → SysRegs) : (s.mapSys f).core.tenant = s.core.tenant := rfl
@[simp] theorem State.mapSys_core_now (s : State) (f : SysRegs → SysRegs) : (s.mapSys f).core.now = s.core.now := rfl
@[simp] theorem State.mapSys_core_meter (s : State) (f : SysRegs → SysRegs) : (s.mapSys f).core.meter = s.core.meter := rfl
@[simp] theorem State.mapSys_core_tableLaunch (s : State) (f : SysRegs → SysRegs) : (s.mapSys f).core.tableLaunch = s.core.tableLaunch := rfl
@[simp] theorem State.mapSys_core_shootDown (s : State) (f : SysRegs → SysRegs) : (s.mapSys f).core.shootDown = s.core.shootDown := rfl
@[simp] theorem State.mapSys_core_opId (s : State) (f : SysRegs → SysRegs) : (s.mapSys f).core.opId = s.core.opId := rfl
@[simp] theorem State.mapSys_core_slice (s : State) (f : SysRegs → SysRegs) : (s.mapSys f).core.slice = s.core.slice := rfl
@[simp] theorem State.mapSys_core_waitq (s : State) (f : SysRegs → SysRegs) : (s.mapSys f).core.waitq = s.core.waitq := rfl

@[simp] theorem State.mapSys_regs_x (s : State) (f : SysRegs → SysRegs) : (s.mapSys f).core.regs.x = s.core.regs.x := rfl
@[simp] theorem State.mapSys_regs_v (s : State) (f : SysRegs → SysRegs) : (s.mapSys f).core.regs.v = s.core.regs.v := rfl
@[simp] theorem State.mapSys_regs_p (s : State) (f : SysRegs → SysRegs) : (s.mapSys f).core.regs.p = s.core.regs.p := rfl
@[simp] theorem State.mapSys_regs_a (s : State) (f : SysRegs → SysRegs) : (s.mapSys f).core.regs.a = s.core.regs.a := rfl
@[simp] theorem State.mapSys_regs_xPoison (s : State) (f : SysRegs → SysRegs) : (s.mapSys f).core.regs.xPoison = s.core.regs.xPoison := rfl
@[simp] theorem State.mapSys_regs_vPoison (s : State) (f : SysRegs → SysRegs) : (s.mapSys f).core.regs.vPoison = s.core.regs.vPoison := rfl
@[simp] theorem State.mapSys_regs_pPoison (s : State) (f : SysRegs → SysRegs) : (s.mapSys f).core.regs.pPoison = s.core.regs.pPoison := rfl
@[simp] theorem State.mapSys_regs_aPoison (s : State) (f : SysRegs → SysRegs) : (s.mapSys f).core.regs.aPoison = s.core.regs.aPoison := rfl
@[simp] theorem State.mapSys_regs_ch (s : State) (f : SysRegs → SysRegs) : (s.mapSys f).core.regs.ch = s.core.regs.ch := rfl
@[simp] theorem State.mapSys_regs_k (s : State) (f : SysRegs → SysRegs) : (s.mapSys f).core.regs.k = s.core.regs.k := rfl
@[simp] theorem State.mapSys_regs_n (s : State) (f : SysRegs → SysRegs) : (s.mapSys f).core.regs.n = s.core.regs.n := rfl
@[simp] theorem State.mapSys_regs_q (s : State) (f : SysRegs → SysRegs) : (s.mapSys f).core.regs.q = s.core.regs.q := rfl
@[simp] theorem State.mapSys_regs_rrb (s : State) (f : SysRegs → SysRegs) : (s.mapSys f).core.regs.rrb = s.core.regs.rrb := rfl
@[simp] theorem State.mapSys_regs_seq (s : State) (f : SysRegs → SysRegs) : (s.mapSys f).core.regs.seq = s.core.regs.seq := rfl
@[simp] theorem State.mapSys_regs_arq (s : State) (f : SysRegs → SysRegs) : (s.mapSys f).core.regs.arq = s.core.regs.arq := rfl
@[simp] theorem State.mapSys_regs_rep (s : State) (f : SysRegs → SysRegs) : (s.mapSys f).core.regs.rep = s.core.regs.rep := rfl
@[simp] theorem State.mapSys_regs_loopb (s : State) (f : SysRegs → SysRegs) : (s.mapSys f).core.regs.loopb = s.core.regs.loopb := rfl
@[simp] theorem State.mapSys_regs_epi (s : State) (f : SysRegs → SysRegs) : (s.mapSys f).core.regs.epi = s.core.regs.epi := rfl
@[simp] theorem State.mapSys_regs_sys (s : State) (f : SysRegs → SysRegs) : (s.mapSys f).core.regs.sys = f s.core.regs.sys := rfl

@[simp] theorem State.writeAfter_dev (s : State) (lat : Nat) (d : Dest) : (s.writeAfter lat d).dev = s.dev := rfl
@[simp] theorem State.writeAfter_mem (s : State) (lat : Nat) (d : Dest) : (s.writeAfter lat d).mem = s.mem := rfl
@[simp] theorem State.writeAfter_thr (s : State) (lat : Nat) (d : Dest) : (s.writeAfter lat d).thr = s.thr := rfl
@[simp] theorem State.writeAfter_threshers (s : State) (lat : Nat) (d : Dest) : (s.writeAfter lat d).threshers = s.threshers := rfl
@[simp] theorem State.writeAfter_results (s : State) (lat : Nat) (d : Dest) : (s.writeAfter lat d).results = s.results := rfl
@[simp] theorem State.writeAfter_agenda (s : State) (lat : Nat) (d : Dest) : (s.writeAfter lat d).agenda = s.agenda := rfl
@[simp] theorem State.writeAfter_freeCtr (s : State) (lat : Nat) (d : Dest) : (s.writeAfter lat d).freeCtr = s.freeCtr := rfl
@[simp] theorem State.writeAfter_core_regs (s : State) (lat : Nat) (d : Dest) : (s.writeAfter lat d).core.regs = s.core.regs := rfl
@[simp] theorem State.writeAfter_core_nV (s : State) (lat : Nat) (d : Dest) : (s.writeAfter lat d).core.nV = s.core.nV := rfl
@[simp] theorem State.writeAfter_core_nA (s : State) (lat : Nat) (d : Dest) : (s.writeAfter lat d).core.nA = s.core.nA := rfl
@[simp] theorem State.writeAfter_core_gate (s : State) (lat : Nat) (d : Dest) : (s.writeAfter lat d).core.gate = s.core.gate := rfl
@[simp] theorem State.writeAfter_core_loads (s : State) (lat : Nat) (d : Dest) : (s.writeAfter lat d).core.loads = s.core.loads := rfl
@[simp] theorem State.writeAfter_core_fars (s : State) (lat : Nat) (d : Dest) : (s.writeAfter lat d).core.fars = s.core.fars := rfl
@[simp] theorem State.writeAfter_core_engs (s : State) (lat : Nat) (d : Dest) : (s.writeAfter lat d).core.engs = s.core.engs := rfl
@[simp] theorem State.writeAfter_core_strm (s : State) (lat : Nat) (d : Dest) : (s.writeAfter lat d).core.strm = s.core.strm := rfl
@[simp] theorem State.writeAfter_core_mx (s : State) (lat : Nat) (d : Dest) : (s.writeAfter lat d).core.mx = s.core.mx := rfl
@[simp] theorem State.writeAfter_core_accs (s : State) (lat : Nat) (d : Dest) : (s.writeAfter lat d).core.accs = s.core.accs := rfl
@[simp] theorem State.writeAfter_core_table (s : State) (lat : Nat) (d : Dest) : (s.writeAfter lat d).core.table = s.core.table := rfl
@[simp] theorem State.writeAfter_core_tableOf (s : State) (lat : Nat) (d : Dest) : (s.writeAfter lat d).core.tableOf = s.core.tableOf := rfl
@[simp] theorem State.writeAfter_core_cache (s : State) (lat : Nat) (d : Dest) : (s.writeAfter lat d).core.cache = s.core.cache := rfl
@[simp] theorem State.writeAfter_core_icache (s : State) (lat : Nat) (d : Dest) : (s.writeAfter lat d).core.icache = s.core.icache := rfl
@[simp] theorem State.writeAfter_core_running (s : State) (lat : Nat) (d : Dest) : (s.writeAfter lat d).core.running = s.core.running := rfl
@[simp] theorem State.writeAfter_core_number (s : State) (lat : Nat) (d : Dest) : (s.writeAfter lat d).core.number = s.core.number := rfl
@[simp] theorem State.writeAfter_core_tenant (s : State) (lat : Nat) (d : Dest) : (s.writeAfter lat d).core.tenant = s.core.tenant := rfl
@[simp] theorem State.writeAfter_core_now (s : State) (lat : Nat) (d : Dest) : (s.writeAfter lat d).core.now = s.core.now := rfl
@[simp] theorem State.writeAfter_core_meter (s : State) (lat : Nat) (d : Dest) : (s.writeAfter lat d).core.meter = s.core.meter := rfl
@[simp] theorem State.writeAfter_core_tableLaunch (s : State) (lat : Nat) (d : Dest) : (s.writeAfter lat d).core.tableLaunch = s.core.tableLaunch := rfl
@[simp] theorem State.writeAfter_core_shootDown (s : State) (lat : Nat) (d : Dest) : (s.writeAfter lat d).core.shootDown = s.core.shootDown := rfl
@[simp] theorem State.writeAfter_core_opId (s : State) (lat : Nat) (d : Dest) : (s.writeAfter lat d).core.opId = s.core.opId := rfl
@[simp] theorem State.writeAfter_core_slice (s : State) (lat : Nat) (d : Dest) : (s.writeAfter lat d).core.slice = s.core.slice := rfl
@[simp] theorem State.writeAfter_core_waitq (s : State) (lat : Nat) (d : Dest) : (s.writeAfter lat d).core.waitq = s.core.waitq := rfl
@[simp] theorem State.writeAfter_iss_pc (s : State) (lat : Nat) (d : Dest) : (s.writeAfter lat d).core.iss.pc = s.core.iss.pc := rfl
@[simp] theorem State.writeAfter_iss_bundle (s : State) (lat : Nat) (d : Dest) : (s.writeAfter lat d).core.iss.bundle = s.core.iss.bundle := rfl
@[simp] theorem State.writeAfter_iss_sched (s : State) (lat : Nat) (d : Dest) : (s.writeAfter lat d).core.iss.sched = s.core.iss.sched := rfl
@[simp] theorem State.writeAfter_iss_iq (s : State) (lat : Nat) (d : Dest) : (s.writeAfter lat d).core.iss.iq = s.core.iss.iq := rfl
@[simp] theorem State.writeAfter_iss_lag (s : State) (lat : Nat) (d : Dest) : (s.writeAfter lat d).core.iss.lag = s.core.iss.lag := rfl
@[simp] theorem State.writeAfter_iss_drift (s : State) (lat : Nat) (d : Dest) : (s.writeAfter lat d).core.iss.drift = s.core.iss.drift := rfl
@[simp] theorem State.writeAfter_iss_stall (s : State) (lat : Nat) (d : Dest) : (s.writeAfter lat d).core.iss.stall = s.core.iss.stall := rfl
@[simp] theorem State.writeAfter_iss_top (s : State) (lat : Nat) (d : Dest) : (s.writeAfter lat d).core.iss.top = s.core.iss.top := rfl
@[simp] theorem State.writeAfter_iss_cur (s : State) (lat : Nat) (d : Dest) : (s.writeAfter lat d).core.iss.cur = s.core.iss.cur := rfl
@[simp] theorem State.writeAfter_iss_waited (s : State) (lat : Nat) (d : Dest) : (s.writeAfter lat d).core.iss.waited = s.core.iss.waited := rfl
@[simp] theorem State.writeAfter_iss_held (s : State) (lat : Nat) (d : Dest) : (s.writeAfter lat d).core.iss.held = s.core.iss.held := rfl
@[simp] theorem State.writeAfter_iss_next (s : State) (lat : Nat) (d : Dest) : (s.writeAfter lat d).core.iss.next = s.core.iss.next := rfl
@[simp] theorem State.writeAfter_iss_slip (s : State) (lat : Nat) (d : Dest) : (s.writeAfter lat d).core.iss.slip = s.core.iss.slip := rfl
@[simp] theorem State.writeAfter_iss_fault (s : State) (lat : Nat) (d : Dest) : (s.writeAfter lat d).core.iss.fault = s.core.iss.fault := rfl
@[simp] theorem State.writeAfter_iss_waits (s : State) (lat : Nat) (d : Dest) : (s.writeAfter lat d).core.iss.waits = s.core.iss.waits := rfl
@[simp] theorem State.writeAfter_iss_waitReg (s : State) (lat : Nat) (d : Dest) : (s.writeAfter lat d).core.iss.waitReg = s.core.iss.waitReg := rfl
@[simp] theorem State.writeAfter_iss_rett (s : State) (lat : Nat) (d : Dest) : (s.writeAfter lat d).core.iss.rett = s.core.iss.rett := rfl
@[simp] theorem State.writeAfter_iss_absent (s : State) (lat : Nat) (d : Dest) : (s.writeAfter lat d).core.iss.absent = s.core.iss.absent := rfl
@[simp] theorem State.writeAfter_iss_halted (s : State) (lat : Nat) (d : Dest) : (s.writeAfter lat d).core.iss.halted = s.core.iss.halted := rfl

@[simp] theorem State.tick_dev (s : State) (n : Nat) : (s.tick n).dev = s.dev := rfl
@[simp] theorem State.tick_mem (s : State) (n : Nat) : (s.tick n).mem = s.mem := rfl
@[simp] theorem State.tick_thr (s : State) (n : Nat) : (s.tick n).thr = s.thr := rfl
@[simp] theorem State.tick_threshers (s : State) (n : Nat) : (s.tick n).threshers = s.threshers := rfl
@[simp] theorem State.tick_results (s : State) (n : Nat) : (s.tick n).results = s.results := rfl
@[simp] theorem State.tick_agenda (s : State) (n : Nat) : (s.tick n).agenda = s.agenda := rfl
@[simp] theorem State.tick_core_regs (s : State) (n : Nat) : (s.tick n).core.regs = s.core.regs := rfl
@[simp] theorem State.tick_core_nV (s : State) (n : Nat) : (s.tick n).core.nV = s.core.nV := rfl
@[simp] theorem State.tick_core_nA (s : State) (n : Nat) : (s.tick n).core.nA = s.core.nA := rfl
@[simp] theorem State.tick_core_iss (s : State) (n : Nat) : (s.tick n).core.iss = s.core.iss := rfl
@[simp] theorem State.tick_core_shadow (s : State) (n : Nat) : (s.tick n).core.shadow = s.core.shadow := rfl
@[simp] theorem State.tick_core_gate (s : State) (n : Nat) : (s.tick n).core.gate = s.core.gate := rfl
@[simp] theorem State.tick_core_inter (s : State) (n : Nat) : (s.tick n).core.inter = s.core.inter := rfl
@[simp] theorem State.tick_core_loads (s : State) (n : Nat) : (s.tick n).core.loads = s.core.loads := rfl
@[simp] theorem State.tick_core_fars (s : State) (n : Nat) : (s.tick n).core.fars = s.core.fars := rfl
@[simp] theorem State.tick_core_engs (s : State) (n : Nat) : (s.tick n).core.engs = s.core.engs := rfl
@[simp] theorem State.tick_core_strm (s : State) (n : Nat) : (s.tick n).core.strm = s.core.strm := rfl
@[simp] theorem State.tick_core_mx (s : State) (n : Nat) : (s.tick n).core.mx = s.core.mx := rfl
@[simp] theorem State.tick_core_accs (s : State) (n : Nat) : (s.tick n).core.accs = s.core.accs := rfl
@[simp] theorem State.tick_core_table (s : State) (n : Nat) : (s.tick n).core.table = s.core.table := rfl
@[simp] theorem State.tick_core_tableOf (s : State) (n : Nat) : (s.tick n).core.tableOf = s.core.tableOf := rfl
@[simp] theorem State.tick_core_cache (s : State) (n : Nat) : (s.tick n).core.cache = s.core.cache := rfl
@[simp] theorem State.tick_core_icache (s : State) (n : Nat) : (s.tick n).core.icache = s.core.icache := rfl
@[simp] theorem State.tick_core_running (s : State) (n : Nat) : (s.tick n).core.running = s.core.running := rfl
@[simp] theorem State.tick_core_number (s : State) (n : Nat) : (s.tick n).core.number = s.core.number := rfl
@[simp] theorem State.tick_core_tenant (s : State) (n : Nat) : (s.tick n).core.tenant = s.core.tenant := rfl
@[simp] theorem State.tick_core_tableLaunch (s : State) (n : Nat) : (s.tick n).core.tableLaunch = s.core.tableLaunch := rfl
@[simp] theorem State.tick_core_shootDown (s : State) (n : Nat) : (s.tick n).core.shootDown = s.core.shootDown := rfl
@[simp] theorem State.tick_core_opId (s : State) (n : Nat) : (s.tick n).core.opId = s.core.opId := rfl
@[simp] theorem State.tick_core_slice (s : State) (n : Nat) : (s.tick n).core.slice = s.core.slice := rfl
@[simp] theorem State.tick_core_waitq (s : State) (n : Nat) : (s.tick n).core.waitq = s.core.waitq := rfl
@[simp] theorem State.tick_core_now (s : State) (n : Nat) : (s.tick n).core.now = s.core.now + n := rfl
@[simp] theorem State.tick_core_cycle (s : State) (n : Nat) : (s.tick n).core.meter.cycle = s.core.meter.cycle + n := rfl

@[simp] theorem State.land_dev (s : State) : s.land.dev = s.dev := rfl
@[simp] theorem State.land_mem (s : State) : s.land.mem = s.mem := rfl
@[simp] theorem State.land_thr (s : State) : s.land.thr = s.thr := rfl
@[simp] theorem State.land_threshers (s : State) : s.land.threshers = s.threshers := rfl
@[simp] theorem State.land_results (s : State) : s.land.results = s.results := rfl
@[simp] theorem State.land_agenda (s : State) : s.land.agenda = s.agenda := rfl
@[simp] theorem State.land_freeCtr (s : State) : s.land.freeCtr = s.freeCtr := rfl
@[simp] theorem State.land_core_nV (s : State) : s.land.core.nV = s.core.nV := rfl
@[simp] theorem State.land_core_nA (s : State) : s.land.core.nA = s.core.nA := rfl
@[simp] theorem State.land_core_shadow (s : State) : s.land.core.shadow = s.core.shadow := rfl
@[simp] theorem State.land_core_gate (s : State) : s.land.core.gate = s.core.gate := rfl
@[simp] theorem State.land_core_inter (s : State) : s.land.core.inter = s.core.inter := rfl
@[simp] theorem State.land_core_loads (s : State) : s.land.core.loads = s.core.loads := rfl
@[simp] theorem State.land_core_fars (s : State) : s.land.core.fars = s.core.fars := rfl
@[simp] theorem State.land_core_engs (s : State) : s.land.core.engs = s.core.engs := rfl
@[simp] theorem State.land_core_strm (s : State) : s.land.core.strm = s.core.strm := rfl
@[simp] theorem State.land_core_mx (s : State) : s.land.core.mx = s.core.mx := rfl
@[simp] theorem State.land_core_accs (s : State) : s.land.core.accs = s.core.accs := rfl
@[simp] theorem State.land_core_table (s : State) : s.land.core.table = s.core.table := rfl
@[simp] theorem State.land_core_tableOf (s : State) : s.land.core.tableOf = s.core.tableOf := rfl
@[simp] theorem State.land_core_cache (s : State) : s.land.core.cache = s.core.cache := rfl
@[simp] theorem State.land_core_icache (s : State) : s.land.core.icache = s.core.icache := rfl
@[simp] theorem State.land_core_running (s : State) : s.land.core.running = s.core.running := rfl
@[simp] theorem State.land_core_number (s : State) : s.land.core.number = s.core.number := rfl
@[simp] theorem State.land_core_tenant (s : State) : s.land.core.tenant = s.core.tenant := rfl
@[simp] theorem State.land_core_now (s : State) : s.land.core.now = s.core.now := rfl
@[simp] theorem State.land_core_meter (s : State) : s.land.core.meter = s.core.meter := rfl
@[simp] theorem State.land_core_tableLaunch (s : State) : s.land.core.tableLaunch = s.core.tableLaunch := rfl
@[simp] theorem State.land_core_shootDown (s : State) : s.land.core.shootDown = s.core.shootDown := rfl
@[simp] theorem State.land_core_opId (s : State) : s.land.core.opId = s.core.opId := rfl
@[simp] theorem State.land_core_slice (s : State) : s.land.core.slice = s.core.slice := rfl
@[simp] theorem State.land_core_waitq (s : State) : s.land.core.waitq = s.core.waitq := rfl

@[simp] theorem State.hold_dev (s : State) (w : Option WaitFor) : (s.hold w).dev = s.dev := rfl
@[simp] theorem State.hold_mem (s : State) (w : Option WaitFor) : (s.hold w).mem = s.mem := rfl
@[simp] theorem State.hold_thr (s : State) (w : Option WaitFor) : (s.hold w).thr = s.thr := rfl
@[simp] theorem State.hold_threshers (s : State) (w : Option WaitFor) : (s.hold w).threshers = s.threshers := rfl
@[simp] theorem State.hold_results (s : State) (w : Option WaitFor) : (s.hold w).results = s.results := rfl
@[simp] theorem State.hold_agenda (s : State) (w : Option WaitFor) : (s.hold w).agenda = s.agenda := rfl
@[simp] theorem State.hold_freeCtr (s : State) (w : Option WaitFor) : (s.hold w).freeCtr = s.freeCtr := rfl
@[simp] theorem State.hold_core_regs (s : State) (w : Option WaitFor) : (s.hold w).core.regs = s.core.regs := rfl
@[simp] theorem State.hold_core_nV (s : State) (w : Option WaitFor) : (s.hold w).core.nV = s.core.nV := rfl
@[simp] theorem State.hold_core_nA (s : State) (w : Option WaitFor) : (s.hold w).core.nA = s.core.nA := rfl
@[simp] theorem State.hold_core_shadow (s : State) (w : Option WaitFor) : (s.hold w).core.shadow = s.core.shadow := rfl
@[simp] theorem State.hold_core_gate (s : State) (w : Option WaitFor) : (s.hold w).core.gate = s.core.gate := rfl
@[simp] theorem State.hold_core_inter (s : State) (w : Option WaitFor) : (s.hold w).core.inter = s.core.inter := rfl
@[simp] theorem State.hold_core_loads (s : State) (w : Option WaitFor) : (s.hold w).core.loads = s.core.loads := rfl
@[simp] theorem State.hold_core_fars (s : State) (w : Option WaitFor) : (s.hold w).core.fars = s.core.fars := rfl
@[simp] theorem State.hold_core_engs (s : State) (w : Option WaitFor) : (s.hold w).core.engs = s.core.engs := rfl
@[simp] theorem State.hold_core_strm (s : State) (w : Option WaitFor) : (s.hold w).core.strm = s.core.strm := rfl
@[simp] theorem State.hold_core_mx (s : State) (w : Option WaitFor) : (s.hold w).core.mx = s.core.mx := rfl
@[simp] theorem State.hold_core_accs (s : State) (w : Option WaitFor) : (s.hold w).core.accs = s.core.accs := rfl
@[simp] theorem State.hold_core_table (s : State) (w : Option WaitFor) : (s.hold w).core.table = s.core.table := rfl
@[simp] theorem State.hold_core_tableOf (s : State) (w : Option WaitFor) : (s.hold w).core.tableOf = s.core.tableOf := rfl
@[simp] theorem State.hold_core_cache (s : State) (w : Option WaitFor) : (s.hold w).core.cache = s.core.cache := rfl
@[simp] theorem State.hold_core_icache (s : State) (w : Option WaitFor) : (s.hold w).core.icache = s.core.icache := rfl
@[simp] theorem State.hold_core_running (s : State) (w : Option WaitFor) : (s.hold w).core.running = s.core.running := rfl
@[simp] theorem State.hold_core_number (s : State) (w : Option WaitFor) : (s.hold w).core.number = s.core.number := rfl
@[simp] theorem State.hold_core_tenant (s : State) (w : Option WaitFor) : (s.hold w).core.tenant = s.core.tenant := rfl
@[simp] theorem State.hold_core_now (s : State) (w : Option WaitFor) : (s.hold w).core.now = s.core.now := rfl
@[simp] theorem State.hold_core_meter (s : State) (w : Option WaitFor) : (s.hold w).core.meter = s.core.meter := rfl
@[simp] theorem State.hold_core_tableLaunch (s : State) (w : Option WaitFor) : (s.hold w).core.tableLaunch = s.core.tableLaunch := rfl
@[simp] theorem State.hold_core_shootDown (s : State) (w : Option WaitFor) : (s.hold w).core.shootDown = s.core.shootDown := rfl
@[simp] theorem State.hold_core_opId (s : State) (w : Option WaitFor) : (s.hold w).core.opId = s.core.opId := rfl
@[simp] theorem State.hold_core_slice (s : State) (w : Option WaitFor) : (s.hold w).core.slice = s.core.slice := rfl
@[simp] theorem State.hold_core_waitq (s : State) (w : Option WaitFor) : (s.hold w).core.waitq = s.core.waitq := rfl
@[simp] theorem State.hold_iss (s : State) (w : Option WaitFor) : (s.hold w).core.iss = { s.core.iss with held := some (w.getD .other) } := rfl

end Sys2Proof.Machine
end

