-- ==== Sys2Proof/Laws/Ops.lean ====
section
/-! SUPPORT. The shared operations, each with what it can do: the form of an issue, of a check, of a result on its way, of what an op asks of
the gate and of an engine, of a trap and of a restart point. -/

namespace Sys2Proof.Machine

/-! ### Vectors -/

@[simp] theorem vget_vset_same {α : Type} {n : Nat} (v : Vector α n) (i : Nat) (x d : α) (h : i < n) : vget (vset v i x) i d = x := by
  simp [vget, vset, Vector.getD, h]

theorem vget_vset_other {α : Type} {n : Nat} (v : Vector α n) (i j : Nat) (x d : α) (h : j ≠ i) :
    vget (vset v i x) j d = vget v j d := by
  by_cases hj : j < n <;> simp [vget, vset, Vector.getD, hj, Ne.symm h]

/-! ### Checks -/

@[simp] theorem Chk.and_ok_iff (a b : Chk) : a.and b = .ok ↔ a = .ok ∧ b = .ok := by
  cases a <;> simp [Chk.and]

@[simp] theorem Chk.ok_and (b : Chk) : Chk.ok.and b = b := rfl

@[simp] theorem Chk.trap_and (c : Nat) (v : X64) (b : Chk) : (Chk.trap c v).and b = .trap c v := rfl

@[simp] theorem need_ok_iff (c : Bool) (cause : Nat) (val : X64) : need c cause val = .ok ↔ c = true := by
  cases c <;> simp [need]

/-! ### Issue -/

/-- An op whose checks pass and that need not wait has its effect. -/
@[simp] theorem issueOp_go (s : State) (eff : State → State) : issueOp s .ok .go eff = .next (eff s) := rfl

@[simp] theorem issueOp_wait (s : State) (w : Option WaitFor) (eff : State → State) :
    issueOp s .ok (.wait w) eff = .next (s.hold w) := rfl

@[simp] theorem issueOp_trap (s : State) (c : Nat) (v : X64) (r : Ready) (eff : State → State) :
    issueOp s (.trap c v) r eff = .next (s.issueTrap c v) := rfl

@[simp] theorem issueOp_lookup (s : State) (c : Nat) (v : X64) (r : Ready) (eff : State → State) :
    issueOp s (.lookup c v) r eff = .next (s.lookupFails c v) := rfl

/-- What an issue can do: a trap before the bundle issues, a noted lookup fault, a wait in the queue, or the effect. -/
theorem issueOp_cases {s t : State} {k : Chk} {r : Ready} {eff : State → State} (h : issueOp s k r eff = .next t) :
    (∃ c v, k = .trap c v ∧ t = s.issueTrap c v) ∨ (∃ c v, k = .lookup c v ∧ t = s.lookupFails c v) ∨
      (∃ w, k = .ok ∧ r = .wait w ∧ t = s.hold w) ∨ (k = .ok ∧ r = .go ∧ t = eff s) := by
  cases k with
  | trap c v => exact .inl ⟨c, v, rfl, by simpa using h.symm⟩
  | lookup c v => exact .inr (.inl ⟨c, v, rfl, by simpa using h.symm⟩)
  | ok =>
    cases r with
    | wait w => exact .inr (.inr (.inl ⟨w, rfl, rfl, by simpa using h.symm⟩))
    | go => exact .inr (.inr (.inr ⟨rfl, rfl, by simpa using h.symm⟩))

/-- An issue always answers a next state. -/
theorem issueOp_next (s : State) (k : Chk) (r : Ready) (eff : State → State) : ∃ t, issueOp s k r eff = .next t := by
  cases k <;> cases r <;> exact ⟨_, rfl⟩

@[simp] theorem issueSerial_trap (s : State) (c : Nat) (v : X64) (p : Ready) (r : State → Ready) (eff : State → State) :
    issueSerial s (.trap c v) p r eff = .next (s.issueTrap c v) := rfl

@[simp] theorem issueSerial_lookup (s : State) (c : Nat) (v : X64) (p : Ready) (r : State → Ready) (eff : State → State) :
    issueSerial s (.lookup c v) p r eff = .next (s.lookupFails c v) := rfl

@[simp] theorem issueSerial_pre (s : State) (w : Option WaitFor) (r : State → Ready) (eff : State → State) :
    issueSerial s .ok (.wait w) r eff = .next (s.hold w) := rfl

theorem issueSerial_go (s : State) (r : State → Ready) (eff : State → State) (h : r s.serialPoint = .go) :
    issueSerial s .ok .go r eff = .next (eff s.serialPoint) := by simp [issueSerial, h]

theorem issueSerial_wait (s : State) (r : State → Ready) (eff : State → State) (w : Option WaitFor)
    (h : r s.serialPoint = .wait w) : issueSerial s .ok .go r eff = .next (s.serialPoint.hold w) := by simp [issueSerial, h]

/-- What a serialising issue can do; its restart point is committed before its own wait and before the effect, and not before the wait
`p` that precedes its issue. -/
theorem issueSerial_cases {s t : State} {k : Chk} {p : Ready} {r : State → Ready} {eff : State → State}
    (h : issueSerial s k p r eff = .next t) :
    (∃ c v, k = .trap c v ∧ t = s.issueTrap c v) ∨ (∃ c v, k = .lookup c v ∧ t = s.lookupFails c v) ∨
      (∃ w, k = .ok ∧ p = .wait w ∧ t = s.hold w) ∨
      (∃ w, k = .ok ∧ p = .go ∧ r s.serialPoint = .wait w ∧ t = s.serialPoint.hold w) ∨
      (k = .ok ∧ p = .go ∧ r s.serialPoint = .go ∧ t = eff s.serialPoint) := by
  cases k with
  | trap c v => exact .inl ⟨c, v, rfl, by simpa using h.symm⟩
  | lookup c v => exact .inr (.inl ⟨c, v, rfl, by simpa using h.symm⟩)
  | ok =>
    cases p with
    | wait w => exact .inr (.inr (.inl ⟨w, rfl, rfl, by simpa using h.symm⟩))
    | go =>
      cases hr : r s.serialPoint with
      | wait w => rw [issueSerial_wait _ _ _ w hr] at h; exact .inr (.inr (.inr (.inl ⟨w, rfl, rfl, rfl, by simpa using h.symm⟩)))
      | go => rw [issueSerial_go _ _ _ hr] at h; exact .inr (.inr (.inr (.inr ⟨rfl, rfl, rfl, by simpa using h.symm⟩)))

theorem issueSerial_next (s : State) (k : Chk) (p : Ready) (r : State → Ready) (eff : State → State) :
    ∃ t, issueSerial s k p r eff = .next t := by
  cases k with
  | trap c v => exact ⟨_, rfl⟩
  | lookup c v => exact ⟨_, rfl⟩
  | ok => cases p with
    | wait w => exact ⟨_, rfl⟩
    | go => cases hr : r s.serialPoint with
      | wait w => exact ⟨_, issueSerial_wait _ _ _ w hr⟩
      | go => exact ⟨_, issueSerial_go _ _ _ hr⟩

/-! ### Results on their way -/

theorem mem_pendInsert {x w : PWrite} : ∀ l : List PWrite, x ∈ pendInsert w l ↔ x = w ∨ x ∈ l
  | [] => by simp [pendInsert]
  | b :: t => by
    simp only [pendInsert]
    split
    · simp
    · simp [mem_pendInsert t]; tauto

@[simp] theorem Dest.apply_x0 (r : Regs) (v : X64) (po : Bool) : (Dest.x 0 v po).apply r = r := rfl

@[simp] theorem Dest.apply_p0 (r : Regs) (v m : PBits) (po : Bool) : (Dest.p 0 v m po).apply r = r := rfl

theorem State.land_none (s : State) (h : s.core.iss.pend = []) : s.land.core.regs = s.core.regs ∧ s.land.core.iss = s.core.iss := by
  have hl : landDue s.core.iss.sched s.core.iss.keeps s.core.iss.pend s.core.regs = ([], s.core.regs) := by simp [landDue, h]
  refine ⟨congrArg Prod.snd hl, ?_⟩
  calc s.land.core.iss = { s.core.iss with pend := s.core.iss.pend } := by rw [h]; exact congrArg (fun l => { s.core.iss with pend := l }) (congrArg Prod.fst hl)
    _ = s.core.iss := rfl

/-! ### The queues -/

/-- A slot whose op is still queued does not come nearer, and no slot is further away than one bundle more (R22 to R24). -/
theorem Issue.lagAfter_le (i : Issue) (n : Fin 8) : i.lagAfter[n] ≤ i.lag[n] + 1 := by
  simp only [Issue.lagAfter, Fin.getElem_fin, Vector.getElem_ofFn]
  split <;> split <;> omega

theorem mem_requeue {x q : Slotted} : ∀ l : List Slotted, x ∈ requeue q l ↔ x = q ∨ x ∈ l
  | [] => by simp [requeue]
  | p :: t => by
    simp only [requeue]
    split
    · simp
    · simp [mem_requeue t]; tauto

/-! ### Interlocked results and commands -/

theorem State.interlockTok_zero (s : State) (id : Nat) (g : Bool) : s.interlockTok 0 id g = s := rfl

theorem State.interlockTok_pos (s : State) {tok : Nat} (id : Nat) (g : Bool) (h : tok ≠ 0) :
    s.interlockTok tok id g = s.interlock (.x tok) id g := by simp [State.interlockTok, h]

@[simp] theorem State.interlock_mem (s : State) (r : RegName) (id : Nat) (g : Bool) : (s.interlock r id g).mem = s.mem := rfl
@[simp] theorem State.interlock_dev (s : State) (r : RegName) (id : Nat) (g : Bool) : (s.interlock r id g).dev = s.dev := rfl
@[simp] theorem State.interlock_regs (s : State) (r : RegName) (id : Nat) (g : Bool) :
    (s.interlock r id g).core.regs = s.core.regs := rfl
@[simp] theorem State.interlock_gate (s : State) (r : RegName) (id : Nat) (g : Bool) :
    (s.interlock r id g).core.gate = s.core.gate := rfl
@[simp] theorem State.interlock_iss (s : State) (r : RegName) (id : Nat) (g : Bool) : (s.interlock r id g).core.iss = s.core.iss := rfl

@[simp] theorem State.interlockTok_mem (s : State) (tok id : Nat) (g : Bool) : (s.interlockTok tok id g).mem = s.mem := by
  unfold State.interlockTok; split <;> rfl
@[simp] theorem State.interlockTok_dev (s : State) (tok id : Nat) (g : Bool) : (s.interlockTok tok id g).dev = s.dev := by
  unfold State.interlockTok; split <;> rfl
@[simp] theorem State.interlockTok_regs (s : State) (tok id : Nat) (g : Bool) :
    (s.interlockTok tok id g).core.regs = s.core.regs := by
  unfold State.interlockTok; split <;> rfl
@[simp] theorem State.interlockTok_iss (s : State) (tok id : Nat) (g : Bool) : (s.interlockTok tok id g).core.iss = s.core.iss := by
  unfold State.interlockTok; split <;> rfl

/-! ### Vector operands -/

@[simp] theorem State.takeSeq_seq (s : State) : s.takeSeq.core.regs.seq = s.core.regs.seq + 1 := rfl
@[simp] theorem State.takeSeq_mem (s : State) : s.takeSeq.mem = s.mem := rfl
@[simp] theorem State.takeSeq_dev (s : State) : s.takeSeq.dev = s.dev := rfl
@[simp] theorem State.takeSeq_iss (s : State) : s.takeSeq.core.iss = s.core.iss := rfl

/-- A vector result goes to its register under the guard, or to the stream that QSEL names. -/
theorem State.putV_cases (s : State) (f : RG) (lat : Nat) (r : VRes) :
    (f.qsel ≠ .d ∧ s.putV f lat r = s.writeAfter lat (.v (s.pv f.d) (r.image (s.guard f.g)).1 (r.image (s.guard f.g)).2.1
      (r.image (s.guard f.g)).2.2)) ∨
    (f.qsel = .d ∧ s.putV f lat r =
      s.append f.d.toNat lat (r.image (s.guard f.g)).1 (r.image (s.guard f.g)).2.2) := by
  by_cases h : f.qsel = .d
  · exact .inr ⟨h, by simp [State.putV, State.putVWith, h]⟩
  · exact .inl ⟨h, by simp [State.putV, State.putVWith, h]⟩

/-- A source image is used where QSEL names a source, and nothing changes otherwise. -/
theorem State.useStream_cases (s : State) (f : RG) :
    ((f.qsel = .none ∨ f.qsel = .d) ∧ s.useStream f = s) ∨ (f.qsel = .a ∧ s.useStream f = s.takeImage f.a.toNat) ∨
      (f.qsel = .b ∧ s.useStream f = s.takeImage f.b.toNat) ∨ (f.qsel = .c ∧ s.useStream f = s.takeImage f.c.toNat) := by
  cases h : f.qsel <;> simp [State.useStream, h]

/-! ### Traps -/

@[simp] theorem Core.dropQueue_regs (c : Core) : c.dropQueue.regs = c.regs := by unfold Core.dropQueue; split <;> rfl
@[simp] theorem Core.dropQueue_gate (c : Core) : c.dropQueue.gate = c.gate := by unfold Core.dropQueue; split <;> rfl
@[simp] theorem Core.dropQueue_iss (c : Core) : c.dropQueue.iss = c.iss := by unfold Core.dropQueue; split <;> rfl

/-- A trap with a handler armed and none running enters it; any other takes the strand off the core in STATE 4. -/
theorem State.takeTrap_cases (s : State) (cause : Nat) (val : X64) (pc : Nat) :
    (s.core.regs.sys.handles = true ∧ ∃ u : State, s.takeTrap cause val pc =
        u.commitAt (s.core.iss.bundle + 1) s.core.regs.sys.handler ∧ u.mem = s.mem ∧ u.dev = s.dev ∧ u.core.gate = s.core.gate ∧
        u.core.regs = { s.core.regs with sys := { s.core.regs.sys with
          trapc := BitVec.ofNat 64 (cause % 256 + 256 * 1), trappc := trapPc pc, trapval := val } }) ∨
    (s.core.regs.sys.handles = false ∧ ∃ u : State, s.takeTrap cause val pc = u.leaveCore .trapped pc ∧ u.mem = s.mem ∧ u.dev = s.dev) := by
  by_cases h : s.core.regs.sys.handles
  · refine .inl ⟨h, ?_⟩
    simp only [State.takeTrap, h, if_true]
    exact ⟨_, rfl, rfl, rfl, Core.dropQueue_gate _, by simp⟩
  · simp only [Bool.not_eq_true] at h
    refine .inr ⟨h, ?_⟩
    simp only [State.takeTrap, h]
    exact ⟨_, rfl, rfl, rfl⟩

/-- The first failed lookup of a bundle decides. -/
theorem State.lookupFails_first (s : State) (cause : Nat) (addr : X64) (h : s.core.iss.fault = none) :
    (s.lookupFails cause addr).core.iss.fault = some { cause := cause, addr := addr } := by simp [State.lookupFails, h]

theorem State.lookupFails_later (s : State) (cause : Nat) (addr : X64) (f : LFault) (h : s.core.iss.fault = some f) :
    (s.lookupFails cause addr).core.iss.fault = some f := by simp [State.lookupFails, h]

/-! ### Restart points -/

/-- A restart point with an empty gate: the shadow takes the registers and the place, and nothing is performed. -/
theorem State.commitAt_empty (s : State) (b pc : Nat) (h : s.core.gate = []) :
    (s.commitAt b pc).mem = s.mem ∧ (s.commitAt b pc).dev = s.dev ∧ (s.commitAt b pc).core.regs = s.core.regs ∧
      (s.commitAt b pc).core.iss = s.core.iss ∧ (s.commitAt b pc).core.gate = [] ∧ (s.commitAt b pc).core.accs = [] ∧
      (s.commitAt b pc).core.shadow = { regs := s.core.regs, pend := s.core.iss.pend.filter (fun w => decide (w.bundle < b)),
                                        pc := pc, bundle := b } := by
  simp [State.commitAt, Core.releasing, h]

end Sys2Proof.Machine
end

