-- ==== Sys2Proof/Laws/PerInstr.lean ====
section
/-! SUPPORT. One lemma per instruction: the fields that its encoding packs are those of its opcode's row. -/

namespace Sys2Proof.Laws.Fields

/-- The op word of an instruction is packed by the widths of the row that decodes its slot and opcode, a thresher word by those of its
opcode's, with a value for each field. -/
def Statement (i : Instr) : Prop :=
  (∀ slot opc ws vs, opFields i = some (slot, opc, ws, vs) →
    ∃ r, opRow slot opc = some r ∧ r.widths = ws ∧ vs.length = ws.length ∧ ws.sum = 52 ∧ slot < 8 ∧ opc < 256) ∧
  (∀ opc ws vs, thrFields i = some (opc, ws, vs) →
    ∃ r, thrRow opc = some r ∧ r.widths = ws ∧ vs.length = ws.length ∧ ws.sum = 26 ∧ opc < 64)

/-- A core op's statement, from its row. -/
theorem of_op {i : Instr} {slot opc : Nat} {ws vs : List Nat} {r : OpRow} (h : opFields i = some (slot, opc, ws, vs))
    (ht : thrFields i = none) (hr : opRow slot opc = some r) (hw : r.widths = ws) (hl : vs.length = ws.length)
    (hs : ws.sum = 52) (h8 : slot < 8) (h256 : opc < 256) : Statement i := by
  refine ⟨fun a b c d e => ?_, fun a b c e => ?_⟩
  · rw [h] at e; cases e; exact ⟨r, hr, hw, hl, hs, h8, h256⟩
  · rw [ht] at e; cases e

/-- A thresher instruction's statement, from its row. -/
theorem of_thr {i : Instr} {opc : Nat} {ws vs : List Nat} {r : OpRow} (h : thrFields i = some (opc, ws, vs))
    (ho : opFields i = none) (hr : thrRow opc = some r) (hw : r.widths = ws) (hl : vs.length = ws.length)
    (hs : ws.sum = 26) (h64 : opc < 64) : Statement i := by
  refine ⟨fun a b c d e => ?_, fun a b c e => ?_⟩
  · rw [ho] at e; cases e
  · rw [h] at e; cases e; exact ⟨r, hr, hw, hl, hs, h64⟩

/-- An event has no word. -/
theorem of_event {i : Instr} (ho : opFields i = none) (ht : thrFields i = none) : Statement i :=
  ⟨fun a b c d e => (by rw [ho] at e; cases e), fun a b c e => (by rw [ht] at e; cases e)⟩

theorem add (f : RG) : Statement (.add f) := of_op rfl rfl rfl rfl rfl rfl (by decide) (by decide)
theorem sub (f : RG) : Statement (.sub f) := of_op rfl rfl rfl rfl rfl rfl (by decide) (by decide)
theorem mul (f : RG) : Statement (.mul f) := of_op rfl rfl rfl rfl rfl rfl (by decide) (by decide)
theorem mulh (f : RG) : Statement (.mulh f) := of_op rfl rfl rfl rfl rfl rfl (by decide) (by decide)
theorem mulhu (f : RG) : Statement (.mulhu f) := of_op rfl rfl rfl rfl rfl rfl (by decide) (by decide)
theorem div (f : RG) : Statement (.div f) := of_op rfl rfl rfl rfl rfl rfl (by decide) (by decide)
theorem divu (f : RG) : Statement (.divu f) := of_op rfl rfl rfl rfl rfl rfl (by decide) (by decide)
theorem rem (f : RG) : Statement (.rem f) := of_op rfl rfl rfl rfl rfl rfl (by decide) (by decide)
theorem remu (f : RG) : Statement (.remu f) := of_op rfl rfl rfl rfl rfl rfl (by decide) (by decide)
theorem and (f : RG) : Statement (.and f) := of_op rfl rfl rfl rfl rfl rfl (by decide) (by decide)
theorem or (f : RG) : Statement (.or f) := of_op rfl rfl rfl rfl rfl rfl (by decide) (by decide)
theorem xor (f : RG) : Statement (.xor f) := of_op rfl rfl rfl rfl rfl rfl (by decide) (by decide)
theorem shl (f : RG) : Statement (.shl f) := of_op rfl rfl rfl rfl rfl rfl (by decide) (by decide)
theorem shr (f : RG) : Statement (.shr f) := of_op rfl rfl rfl rfl rfl rfl (by decide) (by decide)
theorem sra (f : RG) : Statement (.sra f) := of_op rfl rfl rfl rfl rfl rfl (by decide) (by decide)
theorem rotr (f : RG) : Statement (.rotr f) := of_op rfl rfl rfl rfl rfl rfl (by decide) (by decide)
theorem clz (f : RG) : Statement (.clz f) := of_op rfl rfl rfl rfl rfl rfl (by decide) (by decide)
theorem popc (f : RG) : Statement (.popc f) := of_op rfl rfl rfl rfl rfl rfl (by decide) (by decide)
theorem min (f : RG) : Statement (.min f) := of_op rfl rfl rfl rfl rfl rfl (by decide) (by decide)
theorem max (f : RG) : Statement (.max f) := of_op rfl rfl rfl rfl rfl rfl (by decide) (by decide)
theorem minu (f : RG) : Statement (.minu f) := of_op rfl rfl rfl rfl rfl rfl (by decide) (by decide)
theorem maxu (f : RG) : Statement (.maxu f) := of_op rfl rfl rfl rfl rfl rfl (by decide) (by decide)
theorem cmp (f : RG) : Statement (.cmp f) := of_op rfl rfl rfl rfl rfl rfl (by decide) (by decide)
theorem sel (f : RG) : Statement (.sel f) := of_op rfl rfl rfl rfl rfl rfl (by decide) (by decide)
theorem extr (f : RG) : Statement (.extr f) := of_op rfl rfl rfl rfl rfl rfl (by decide) (by decide)
theorem insr (f : RG) : Statement (.insr f) := of_op rfl rfl rfl rfl rfl rfl (by decide) (by decide)
theorem addi (f : IM) : Statement (.addi f) := of_op rfl rfl rfl rfl rfl rfl (by decide) (by decide)
theorem andi (f : IM) : Statement (.andi f) := of_op rfl rfl rfl rfl rfl rfl (by decide) (by decide)
theorem ori (f : IM) : Statement (.ori f) := of_op rfl rfl rfl rfl rfl rfl (by decide) (by decide)
theorem xori (f : IM) : Statement (.xori f) := of_op rfl rfl rfl rfl rfl rfl (by decide) (by decide)
theorem shli (f : IM) : Statement (.shli f) := of_op rfl rfl rfl rfl rfl rfl (by decide) (by decide)
theorem shri (f : IM) : Statement (.shri f) := of_op rfl rfl rfl rfl rfl rfl (by decide) (by decide)
theorem srai (f : IM) : Statement (.srai f) := of_op rfl rfl rfl rfl rfl rfl (by decide) (by decide)
theorem movi (f : MW) : Statement (.movi f) := of_op rfl rfl rfl rfl rfl rfl (by decide) (by decide)
theorem movhi (f : MW) : Statement (.movhi f) := of_op rfl rfl rfl rfl rfl rfl (by decide) (by decide)
theorem fadd (f : RG) : Statement (.fadd f) := of_op rfl rfl rfl rfl rfl rfl (by decide) (by decide)
theorem fsub (f : RG) : Statement (.fsub f) := of_op rfl rfl rfl rfl rfl rfl (by decide) (by decide)
theorem fmul (f : RG) : Statement (.fmul f) := of_op rfl rfl rfl rfl rfl rfl (by decide) (by decide)
theorem ffma (f : RG) : Statement (.ffma f) := of_op rfl rfl rfl rfl rfl rfl (by decide) (by decide)
theorem fmin (f : RG) : Statement (.fmin f) := of_op rfl rfl rfl rfl rfl rfl (by decide) (by decide)
theorem fmax (f : RG) : Statement (.fmax f) := of_op rfl rfl rfl rfl rfl rfl (by decide) (by decide)
theorem fcmp (f : RG) : Statement (.fcmp f) := of_op rfl rfl rfl rfl rfl rfl (by decide) (by decide)
theorem fcvt (f : RG) : Statement (.fcvt f) := of_op rfl rfl rfl rfl rfl rfl (by decide) (by decide)
theorem br (f : BRF) : Statement (.br f) := of_op rfl rfl rfl rfl rfl rfl (by decide) (by decide)
theorem bc (f : BRF) : Statement (.bc f) := of_op rfl rfl rfl rfl rfl rfl (by decide) (by decide)
theorem brl (f : BRF) : Statement (.brl f) := of_op rfl rfl rfl rfl rfl rfl (by decide) (by decide)
theorem call (f : BRF) : Statement (.call f) := of_op rfl rfl rfl rfl rfl rfl (by decide) (by decide)
theorem ret (f : RG) : Statement (.ret f) := of_op rfl rfl rfl rfl rfl rfl (by decide) (by decide)
theorem jmpx (f : RG) : Statement (.jmpx f) := of_op rfl rfl rfl rfl rfl rfl (by decide) (by decide)
theorem rep (f : RP) : Statement (.rep f) := of_op rfl rfl rfl rfl rfl rfl (by decide) (by decide)
theorem loopb (f : RP) : Statement (.loopb f) := of_op rfl rfl rfl rfl rfl rfl (by decide) (by decide)
theorem vadd (f : RG) : Statement (.vadd f) := of_op rfl rfl rfl rfl rfl rfl (by decide) (by decide)
theorem vsub (f : RG) : Statement (.vsub f) := of_op rfl rfl rfl rfl rfl rfl (by decide) (by decide)
theorem vadds (f : RG) : Statement (.vadds f) := of_op rfl rfl rfl rfl rfl rfl (by decide) (by decide)
theorem vsubs (f : RG) : Statement (.vsubs f) := of_op rfl rfl rfl rfl rfl rfl (by decide) (by decide)
theorem vmul (f : RG) : Statement (.vmul f) := of_op rfl rfl rfl rfl rfl rfl (by decide) (by decide)
theorem vmulh (f : RG) : Statement (.vmulh f) := of_op rfl rfl rfl rfl rfl rfl (by decide) (by decide)
theorem vmulw (f : RG) : Statement (.vmulw f) := of_op rfl rfl rfl rfl rfl rfl (by decide) (by decide)
theorem vmacw (f : RG) : Statement (.vmacw f) := of_op rfl rfl rfl rfl rfl rfl (by decide) (by decide)
theorem vfma (f : RG) : Statement (.vfma f) := of_op rfl rfl rfl rfl rfl rfl (by decide) (by decide)
theorem vfms (f : RG) : Statement (.vfms f) := of_op rfl rfl rfl rfl rfl rfl (by decide) (by decide)
theorem vneg (f : RG) : Statement (.vneg f) := of_op rfl rfl rfl rfl rfl rfl (by decide) (by decide)
theorem vabs (f : RG) : Statement (.vabs f) := of_op rfl rfl rfl rfl rfl rfl (by decide) (by decide)
theorem vmin (f : RG) : Statement (.vmin f) := of_op rfl rfl rfl rfl rfl rfl (by decide) (by decide)
theorem vmax (f : RG) : Statement (.vmax f) := of_op rfl rfl rfl rfl rfl rfl (by decide) (by decide)
theorem vand (f : RG) : Statement (.vand f) := of_op rfl rfl rfl rfl rfl rfl (by decide) (by decide)
theorem vor (f : RG) : Statement (.vor f) := of_op rfl rfl rfl rfl rfl rfl (by decide) (by decide)
theorem vxor (f : RG) : Statement (.vxor f) := of_op rfl rfl rfl rfl rfl rfl (by decide) (by decide)
theorem vnot (f : RG) : Statement (.vnot f) := of_op rfl rfl rfl rfl rfl rfl (by decide) (by decide)
theorem vshl (f : RG) : Statement (.vshl f) := of_op rfl rfl rfl rfl rfl rfl (by decide) (by decide)
theorem vshr (f : RG) : Statement (.vshr f) := of_op rfl rfl rfl rfl rfl rfl (by decide) (by decide)
theorem vsra (f : RG) : Statement (.vsra f) := of_op rfl rfl rfl rfl rfl rfl (by decide) (by decide)
theorem vcmp (f : RG) : Statement (.vcmp f) := of_op rfl rfl rfl rfl rfl rfl (by decide) (by decide)
theorem vsel (f : RG) : Statement (.vsel f) := of_op rfl rfl rfl rfl rfl rfl (by decide) (by decide)
theorem vrcp (f : RG) : Statement (.vrcp f) := of_op rfl rfl rfl rfl rfl rfl (by decide) (by decide)
theorem vrsq (f : RG) : Statement (.vrsq f) := of_op rfl rfl rfl rfl rfl rfl (by decide) (by decide)
theorem vsqrt (f : RG) : Statement (.vsqrt f) := of_op rfl rfl rfl rfl rfl rfl (by decide) (by decide)
theorem vexp2 (f : RG) : Statement (.vexp2 f) := of_op rfl rfl rfl rfl rfl rfl (by decide) (by decide)
theorem vlog2 (f : RG) : Statement (.vlog2 f) := of_op rfl rfl rfl rfl rfl rfl (by decide) (by decide)
theorem vcvt (f : RG) : Statement (.vcvt f) := of_op rfl rfl rfl rfl rfl rfl (by decide) (by decide)
theorem vredadd (f : RG) : Statement (.vredadd f) := of_op rfl rfl rfl rfl rfl rfl (by decide) (by decide)
theorem vredmax (f : RG) : Statement (.vredmax f) := of_op rfl rfl rfl rfl rfl rfl (by decide) (by decide)
theorem vredmin (f : RG) : Statement (.vredmin f) := of_op rfl rfl rfl rfl rfl rfl (by decide) (by decide)
theorem vbcast (f : RG) : Statement (.vbcast f) := of_op rfl rfl rfl rfl rfl rfl (by decide) (by decide)
theorem vext (f : RG) : Statement (.vext f) := of_op rfl rfl rfl rfl rfl rfl (by decide) (by decide)
theorem vins (f : RG) : Statement (.vins f) := of_op rfl rfl rfl rfl rfl rfl (by decide) (by decide)
theorem vperm (f : RG) : Statement (.vperm f) := of_op rfl rfl rfl rfl rfl rfl (by decide) (by decide)
theorem vslide (f : RG) : Statement (.vslide f) := of_op rfl rfl rfl rfl rfl rfl (by decide) (by decide)
theorem viota (f : RG) : Statement (.viota f) := of_op rfl rfl rfl rfl rfl rfl (by decide) (by decide)
theorem vmov (f : RG) : Statement (.vmov f) := of_op rfl rfl rfl rfl rfl rfl (by decide) (by decide)
theorem vmovi (f : VI) : Statement (.vmovi f) := of_op rfl rfl rfl rfl rfl rfl (by decide) (by decide)
theorem vpacksx (f : RG) : Statement (.vpacksx f) := of_op rfl rfl rfl rfl rfl rfl (by decide) (by decide)
theorem vunpksx (f : RG) : Statement (.vunpksx f) := of_op rfl rfl rfl rfl rfl rfl (by decide) (by decide)
theorem pand (f : RG) : Statement (.pand f) := of_op rfl rfl rfl rfl rfl rfl (by decide) (by decide)
theorem por (f : RG) : Statement (.por f) := of_op rfl rfl rfl rfl rfl rfl (by decide) (by decide)
theorem pxor (f : RG) : Statement (.pxor f) := of_op rfl rfl rfl rfl rfl rfl (by decide) (by decide)
theorem pnot (f : RG) : Statement (.pnot f) := of_op rfl rfl rfl rfl rfl rfl (by decide) (by decide)
theorem plen (f : RG) : Statement (.plen f) := of_op rfl rfl rfl rfl rfl rfl (by decide) (by decide)
theorem pset (f : RG) : Statement (.pset f) := of_op rfl rfl rfl rfl rfl rfl (by decide) (by decide)
theorem pcnt (f : RG) : Statement (.pcnt f) := of_op rfl rfl rfl rfl rfl rfl (by decide) (by decide)
theorem pmov (f : RG) : Statement (.pmov f) := of_op rfl rfl rfl rfl rfl rfl (by decide) (by decide)
theorem mma (f : MM) : Statement (.mma f) := of_op rfl rfl rfl rfl rfl rfl (by decide) (by decide)
theorem mzero (f : MX) : Statement (.mzero f) := of_op rfl rfl rfl rfl rfl rfl (by decide) (by decide)
theorem mdrain (f : MX) : Statement (.mdrain f) := of_op rfl rfl rfl rfl rfl rfl (by decide) (by decide)
theorem maccld (f : MX) : Statement (.maccld f) := of_op rfl rfl rfl rfl rfl rfl (by decide) (by decide)
theorem maccst (f : MX) : Statement (.maccst f) := of_op rfl rfl rfl rfl rfl rfl (by decide) (by decide)
theorem epld (f : MXE) : Statement (.epld f) := of_op rfl rfl rfl rfl rfl rfl (by decide) (by decide)
theorem ld (f : MS) : Statement (.ld f) := of_op rfl rfl rfl rfl rfl rfl (by decide) (by decide)
theorem fld (f : MS) : Statement (.fld f) := of_op rfl rfl rfl rfl rfl rfl (by decide) (by decide)
theorem st (f : MS) : Statement (.st f) := of_op rfl rfl rfl rfl rfl rfl (by decide) (by decide)
theorem fst (f : MS) : Statement (.fst f) := of_op rfl rfl rfl rfl rfl rfl (by decide) (by decide)
theorem vld (f : MV) : Statement (.vld f) := of_op rfl rfl rfl rfl rfl rfl (by decide) (by decide)
theorem vfld (f : MV) : Statement (.vfld f) := of_op rfl rfl rfl rfl rfl rfl (by decide) (by decide)
theorem vst (f : MV) : Statement (.vst f) := of_op rfl rfl rfl rfl rfl rfl (by decide) (by decide)
theorem vfst (f : MV) : Statement (.vfst f) := of_op rfl rfl rfl rfl rfl rfl (by decide) (by decide)
theorem vlds (f : MVX) : Statement (.vlds f) := of_op rfl rfl rfl rfl rfl rfl (by decide) (by decide)
theorem vldx (f : MVX) : Statement (.vldx f) := of_op rfl rfl rfl rfl rfl rfl (by decide) (by decide)
theorem vsts (f : MVX) : Statement (.vsts f) := of_op rfl rfl rfl rfl rfl rfl (by decide) (by decide)
theorem vstx (f : MVX) : Statement (.vstx f) := of_op rfl rfl rfl rfl rfl rfl (by decide) (by decide)
theorem lsfmt (f : LF) : Statement (.lsfmt f) := of_op rfl rfl rfl rfl rfl rfl (by decide) (by decide)
theorem copy (f : EACopy) : Statement (.copy f) := of_op rfl rfl rfl rfl rfl rfl (by decide) (by decide)
theorem strb (f : EAStrb) : Statement (.strb f) := of_op rfl rfl rfl rfl rfl rfl (by decide) (by decide)
theorem pusht (f : EAPush) : Statement (.pusht f) := of_op rfl rfl rfl rfl rfl rfl (by decide) (by decide)
theorem amo (f : EAAmo) : Statement (.amo f) := of_op rfl rfl rfl rfl rfl rfl (by decide) (by decide)
theorem red (f : EARed) : Statement (.red f) := of_op rfl rfl rfl rfl rfl rfl (by decide) (by decide)
theorem claim (f : EAClaim) : Statement (.claim f) := of_op rfl rfl rfl rfl rfl rfl (by decide) (by decide)
theorem resolve (f : EAClaim) : Statement (.resolve f) := of_op rfl rfl rfl rfl rfl rfl (by decide) (by decide)
theorem casn (f : EACasn) : Statement (.casn f) := of_op rfl rfl rfl rfl rfl rfl (by decide) (by decide)
theorem copya (f : EA) : Statement (.copya f) := of_op rfl rfl rfl rfl rfl rfl (by decide) (by decide)
theorem stru (f : EA) : Statement (.stru f) := of_op rfl rfl rfl rfl rfl rfl (by decide) (by decide)
theorem popt (f : EA) : Statement (.popt f) := of_op rfl rfl rfl rfl rfl rfl (by decide) (by decide)
theorem markr (f : EA) : Statement (.markr f) := of_op rfl rfl rfl rfl rfl rfl (by decide) (by decide)
theorem splitr (f : EA) : Statement (.splitr f) := of_op rfl rfl rfl rfl rfl rfl (by decide) (by decide)
theorem joinr (f : EA) : Statement (.joinr f) := of_op rfl rfl rfl rfl rfl rfl (by decide) (by decide)
theorem rickq (f : EA) : Statement (.rickq f) := of_op rfl rfl rfl rfl rfl rfl (by decide) (by decide)
theorem popq (f : EA) : Statement (.popq f) := of_op rfl rfl rfl rfl rfl rfl (by decide) (by decide)
theorem qclaim (f : EA) : Statement (.qclaim f) := of_op rfl rfl rfl rfl rfl rfl (by decide) (by decide)
theorem retire (f : EA) : Statement (.retire f) := of_op rfl rfl rfl rfl rfl rfl (by decide) (by decide)
theorem chopen (f : EA) : Statement (.chopen f) := of_op rfl rfl rfl rfl rfl rfl (by decide) (by decide)
theorem chcommit (f : EA) : Statement (.chcommit f) := of_op rfl rfl rfl rfl rfl rfl (by decide) (by decide)
theorem send (f : EA) : Statement (.send f) := of_op rfl rfl rfl rfl rfl rfl (by decide) (by decide)
theorem recv (f : EA) : Statement (.recv f) := of_op rfl rfl rfl rfl rfl rfl (by decide) (by decide)
theorem coll (f : EA) : Statement (.coll f) := of_op rfl rfl rfl rfl rfl rfl (by decide) (by decide)
theorem ctl (f : CG) : Statement (.ctl f) := of_op rfl rfl rfl rfl rfl rfl (by decide) (by decide)
theorem barg (f : CG) : Statement (.barg f) := of_op rfl rfl rfl rfl rfl rfl (by decide) (by decide)
theorem joing (f : CG) : Statement (.joing f) := of_op rfl rfl rfl rfl rfl rfl (by decide) (by decide)
theorem leaveg (f : CG) : Statement (.leaveg f) := of_op rfl rfl rfl rfl rfl rfl (by decide) (by decide)
theorem spawn (f : CG) : Statement (.spawn f) := of_op rfl rfl rfl rfl rfl rfl (by decide) (by decide)
theorem susp (f : CG) : Statement (.susp f) := of_op rfl rfl rfl rfl rfl rfl (by decide) (by decide)
theorem exit (f : CG) : Statement (.exit f) := of_op rfl rfl rfl rfl rfl rfl (by decide) (by decide)
theorem yield (f : CG) : Statement (.yield f) := of_op rfl rfl rfl rfl rfl rfl (by decide) (by decide)
theorem nextt (f : CG) : Statement (.nextt f) := of_op rfl rfl rfl rfl rfl rfl (by decide) (by decide)
theorem rett (f : CG) : Statement (.rett f) := of_op rfl rfl rfl rfl rfl rfl (by decide) (by decide)
theorem tstpsn (f : CG) : Statement (.tstpsn f) := of_op rfl rfl rfl rfl rfl rfl (by decide) (by decide)
theorem rdeng (f : CG) : Statement (.rdeng f) := of_op rfl rfl rfl rfl rfl rfl (by decide) (by decide)
theorem rdcyc (f : CG) : Statement (.rdcyc f) := of_op rfl rfl rfl rfl rfl rfl (by decide) (by decide)
theorem lsstep (f : CG) : Statement (.lsstep f) := of_op rfl rfl rfl rfl rfl rfl (by decide) (by decide)
theorem fence (f : CGFence) : Statement (.fence f) := of_op rfl rfl rfl rfl rfl rfl (by decide) (by decide)
theorem trap (f : CGCode) : Statement (.trap f) := of_op rfl rfl rfl rfl rfl rfl (by decide) (by decide)
theorem svc (f : CGCode) : Statement (.svc f) := of_op rfl rfl rfl rfl rfl rfl (by decide) (by decide)
theorem rdsr (f : CGSr) : Statement (.rdsr f) := of_op rfl rfl rfl rfl rfl rfl (by decide) (by decide)
theorem wrsr (f : CGSr) : Statement (.wrsr f) := of_op rfl rfl rfl rfl rfl rfl (by decide) (by decide)
theorem bkpt (f : CGSr) : Statement (.bkpt f) := of_op rfl rfl rfl rfl rfl rfl (by decide) (by decide)
theorem thrAdd (f : TR) : Statement (.thrAdd f) := of_thr rfl rfl rfl rfl rfl rfl (by decide)
theorem thrSub (f : TR) : Statement (.thrSub f) := of_thr rfl rfl rfl rfl rfl rfl (by decide)
theorem thrMul (f : TR) : Statement (.thrMul f) := of_thr rfl rfl rfl rfl rfl rfl (by decide)
theorem thrFma (f : TR) : Statement (.thrFma f) := of_thr rfl rfl rfl rfl rfl rfl (by decide)
theorem thrMin (f : TR) : Statement (.thrMin f) := of_thr rfl rfl rfl rfl rfl rfl (by decide)
theorem thrMax (f : TR) : Statement (.thrMax f) := of_thr rfl rfl rfl rfl rfl rfl (by decide)
theorem thrAbs (f : TR) : Statement (.thrAbs f) := of_thr rfl rfl rfl rfl rfl rfl (by decide)
theorem thrNeg (f : TR) : Statement (.thrNeg f) := of_thr rfl rfl rfl rfl rfl rfl (by decide)
theorem thrAnd (f : TR) : Statement (.thrAnd f) := of_thr rfl rfl rfl rfl rfl rfl (by decide)
theorem thrOr (f : TR) : Statement (.thrOr f) := of_thr rfl rfl rfl rfl rfl rfl (by decide)
theorem thrXor (f : TR) : Statement (.thrXor f) := of_thr rfl rfl rfl rfl rfl rfl (by decide)
theorem thrShl (f : TR) : Statement (.thrShl f) := of_thr rfl rfl rfl rfl rfl rfl (by decide)
theorem thrShr (f : TR) : Statement (.thrShr f) := of_thr rfl rfl rfl rfl rfl rfl (by decide)
theorem thrSra (f : TR) : Statement (.thrSra f) := of_thr rfl rfl rfl rfl rfl rfl (by decide)
theorem thrAdds (f : TR) : Statement (.thrAdds f) := of_thr rfl rfl rfl rfl rfl rfl (by decide)
theorem thrSel (f : TR) : Statement (.thrSel f) := of_thr rfl rfl rfl rfl rfl rfl (by decide)
theorem thrEx2 (f : TR) : Statement (.thrEx2 f) := of_thr rfl rfl rfl rfl rfl rfl (by decide)
theorem thrLg2 (f : TR) : Statement (.thrLg2 f) := of_thr rfl rfl rfl rfl rfl rfl (by decide)
theorem thrCmp (f : TRCmp) : Statement (.thrCmp f) := of_thr rfl rfl rfl rfl rfl rfl (by decide)
theorem thrCvt (f : TRCvt) : Statement (.thrCvt f) := of_thr rfl rfl rfl rfl rfl rfl (by decide)
theorem thrMovi (f : TIMov) : Statement (.thrMovi f) := of_thr rfl rfl rfl rfl rfl rfl (by decide)
theorem thrAddi (f : TIAdd) : Statement (.thrAddi f) := of_thr rfl rfl rfl rfl rfl rfl (by decide)
theorem thrVext (f : TRLane) : Statement (.thrVext f) := of_thr rfl rfl rfl rfl rfl rfl (by decide)
theorem thrVbc (f : TRLane) : Statement (.thrVbc f) := of_thr rfl rfl rfl rfl rfl rfl (by decide)
theorem thrHdr (f : TRLane) : Statement (.thrHdr f) := of_thr rfl rfl rfl rfl rfl rfl (by decide)
theorem thrPld (f : TM) : Statement (.thrPld f) := of_thr rfl rfl rfl rfl rfl rfl (by decide)
theorem thrPst (f : TM) : Statement (.thrPst f) := of_thr rfl rfl rfl rfl rfl rfl (by decide)
theorem thrBld (f : TM) : Statement (.thrBld f) := of_thr rfl rfl rfl rfl rfl rfl (by decide)
theorem thrBst (f : TM) : Statement (.thrBst f) := of_thr rfl rfl rfl rfl rfl rfl (by decide)
theorem thrBamo (f : TRBamo) : Statement (.thrBamo f) := of_thr rfl rfl rfl rfl rfl rfl (by decide)
theorem thrBr (f : TC) : Statement (.thrBr f) := of_thr rfl rfl rfl rfl rfl rfl (by decide)
theorem thrBc (f : TC) : Statement (.thrBc f) := of_thr rfl rfl rfl rfl rfl rfl (by decide)
theorem thrLoopi (f : TC) : Statement (.thrLoopi f) := of_thr rfl rfl rfl rfl rfl rfl (by decide)
theorem thrFwd (f : TC) : Statement (.thrFwd f) := of_thr rfl rfl rfl rfl rfl rfl (by decide)
theorem thrDrop (f : TC) : Statement (.thrDrop f) := of_thr rfl rfl rfl rfl rfl rfl (by decide)
theorem thrRedir (f : TC) : Statement (.thrRedir f) := of_thr rfl rfl rfl rfl rfl rfl (by decide)
theorem thrTrap (f : TC) : Statement (.thrTrap f) := of_thr rfl rfl rfl rfl rfl rfl (by decide)
theorem thrEnd (f : TC) : Statement (.thrEnd f) := of_thr rfl rfl rfl rfl rfl rfl (by decide)
theorem coldStart (flashOk : Bool) : Statement (.coldStart flashOk) := of_event rfl rfl
theorem recoveryImageAccept (img : FwImage) : Statement (.recoveryImageAccept img) := of_event rfl rfl
theorem overtempPowerOff (temp : Int) : Statement (.overtempPowerOff temp) := of_event rfl rfl
theorem pageMadePresent (backed : Bool) : Statement (.pageMadePresent backed) := of_event rfl rfl
theorem remoteAccess (dev : Nat) (op : RemoteOp) : Statement (.remoteAccess dev op) := of_event rfl rfl
theorem hostWrite (tenant off : Nat) (bytes : List Byte) : Statement (.hostWrite tenant off bytes) := of_event rfl rfl
theorem hostRead (p : ReadPlace) (off len : Nat) : Statement (.hostRead p off len) := of_event rfl rfl
theorem windowTimeout (die : Nat) : Statement (.windowTimeout die) := of_event rfl rfl
theorem pendingTokenArrival (k : Nat) (reg : Reg) (value : X64) : Statement (.pendingTokenArrival k reg value) := of_event rfl rfl
theorem park (k : Nat) : Statement (.park k) := of_event rfl rfl
theorem unpark (k : Nat) : Statement (.unpark k) := of_event rfl rfl
theorem kill (k : Nat) : Statement (.kill k) := of_event rfl rfl
theorem resume (k : Nat) : Statement (.resume k) := of_event rfl rfl
theorem changeAffinity (k : Nat) (cluster : Nat) (cores : BitVec 8) : Statement (.changeAffinity k cluster cores) := of_event rfl rfl
theorem tailWrite (place : TailPlace) (value : BitVec 32) : Statement (.tailWrite place value) := of_event rfl rfl
theorem shootDownRequest (tenant : Nat) : Statement (.shootDownRequest tenant) := of_event rfl rfl
theorem migration (src dst len : Nat) : Statement (.migration src dst len) := of_event rfl rfl
theorem forwardedAccess (op : RemoteOp) : Statement (.forwardedAccess op) := of_event rfl rfl
theorem powerStep (watts : Nat) (temp : Int) (amps : Nat × Nat) : Statement (.powerStep watts temp amps) := of_event rfl rfl
theorem ownerRuntimeCreatesClaim (c : NewClaim) : Statement (.ownerRuntimeCreatesClaim c) := of_event rfl rfl
theorem ownerRuntimeRetiresClaim (name : ClaimName) : Statement (.ownerRuntimeRetiresClaim name) := of_event rfl rfl
theorem svcReply (reply : Option X64) : Statement (.svcReply reply) := of_event rfl rfl
theorem flitReceive (port origin : Nat) (crcOk : Bool) : Statement (.flitReceive port origin crcOk) := of_event rfl rfl
theorem portDown (port : Nat) : Statement (.portDown port) := of_event rfl rfl
theorem losttoExpiry (dev : Nat) : Statement (.losttoExpiry dev) := of_event rfl rfl
theorem lossNotice (dev : Nat) : Statement (.lossNotice dev) := of_event rfl rfl
theorem messageArrival (m : LinkMsg) : Statement (.messageArrival m) := of_event rfl rfl
theorem creditReturn (tenant peer k : Nat) : Statement (.creditReturn tenant peer k) := of_event rfl rfl
theorem dataFrame (f : Frame) : Statement (.dataFrame f) := of_event rfl rfl
theorem ackFrame (head : FrameHead) (route seq : Nat) : Statement (.ackFrame head route seq) := of_event rfl rfl
theorem retransmitTimeout (tenant route : Nat) : Statement (.retransmitTimeout tenant route) := of_event rfl rfl
theorem collMessage (m : CollMsg) : Statement (.collMessage m) := of_event rfl rfl
theorem slotRequest (first : SlotReq) (more : List SlotReq) : Statement (.slotRequest first more) := of_event rfl rfl
theorem algorithmDecision (m : DecisionMsg) (answers : List (Nat × Bool)) : Statement (.algorithmDecision m answers) := of_event rfl rfl
theorem slotBeat (tenant : Nat) (key : X64) (round : Nat) (digest : BitVec 32) (b : BeatIn) : Statement (.slotBeat tenant key round digest b) := of_event rfl rfl
theorem abortNotice (c : CollKey) (round status : Nat) : Statement (.abortNotice c round status) := of_event rfl rfl
theorem roundTimeout (c : CollKey) : Statement (.roundTimeout c) := of_event rfl rfl
theorem thresherInvocation (spec : InvSpec) : Statement (.thresherInvocation spec) := of_event rfl rfl
theorem kernelLoad (l : KernelLoad) (image : List Byte) : Statement (.kernelLoad l image) := of_event rfl rfl
theorem hookWrite (h w : Nat) (value : X64) : Statement (.hookWrite h w value) := of_event rfl rfl
theorem binWindowAccess (off len : Nat) (write : Option X64) : Statement (.binWindowAccess off len write) := of_event rfl rfl
theorem registerWrite (p : RegPlace) (value : X64) : Statement (.registerWrite p value) := of_event rfl rfl
theorem errCounterWrite (e : Nat) : Statement (.errCounterWrite e) := of_event rfl rfl
theorem powerDown : Statement (.powerDown) := of_event rfl rfl
theorem bundleDispatch : Statement (.bundleDispatch) := of_event rfl rfl
theorem icacheFill : Statement (.icacheFill) := of_event rfl rfl
theorem fixedLatencyWrite : Statement (.fixedLatencyWrite) := of_event rfl rfl
theorem lookupFault : Statement (.lookupFault) := of_event rfl rfl
theorem restartPointCommit : Statement (.restartPointCommit) := of_event rfl rfl
theorem pickup : Statement (.pickup) := of_event rfl rfl
theorem strandEnd : Statement (.strandEnd) := of_event rfl rfl
theorem sliceExpiry : Statement (.sliceExpiry) := of_event rfl rfl
theorem deschedule : Statement (.deschedule) := of_event rfl rfl
theorem classPreemption : Statement (.classPreemption) := of_event rfl rfl
theorem preempt : Statement (.preempt) := of_event rfl rfl
theorem contextSave : Statement (.contextSave) := of_event rfl rfl
theorem shootDownAck : Statement (.shootDownAck) := of_event rfl rfl
theorem qpwdogExpiry : Statement (.qpwdogExpiry) := of_event rfl rfl
theorem lineCopy : Statement (.lineCopy) := of_event rfl rfl
theorem colStagingDone : Statement (.colStagingDone) := of_event rfl rfl
theorem mmaRetire : Statement (.mmaRetire) := of_event rfl rfl
theorem drainComplete : Statement (.drainComplete) := of_event rfl rfl
theorem rampDutyStep : Statement (.rampDutyStep) := of_event rfl rfl
theorem arrayFeedFree : Statement (.arrayFeedFree) := of_event rfl rfl
theorem pwrbrkAssert : Statement (.pwrbrkAssert) := of_event rfl rfl
theorem pwrbrkDeassert : Statement (.pwrbrkDeassert) := of_event rfl rfl
theorem pwrbrkHoldExpiry : Statement (.pwrbrkHoldExpiry) := of_event rfl rfl
theorem quiesce : Statement (.quiesce) := of_event rfl rfl
theorem getVersion : Statement (.getVersion) := of_event rfl rfl
theorem getCapabilities : Statement (.getCapabilities) := of_event rfl rfl
theorem getDigests : Statement (.getDigests) := of_event rfl rfl
theorem keyExchange : Statement (.keyExchange) := of_event rfl rfl
theorem farLoadReturn (k : Nat) : Statement (.farLoadReturn k) := of_event rfl rfl
theorem farStorePerformed (k : Nat) : Statement (.farStorePerformed k) := of_event rfl rfl
theorem waitEventOccurred (k : Nat) : Statement (.waitEventOccurred k) := of_event rfl rfl
theorem blockRead (tenant : Nat) : Statement (.blockRead tenant) := of_event rfl rfl
theorem sheafRelease (k : Nat) : Statement (.sheafRelease k) := of_event rfl rfl
theorem blockComplete (k : Nat) : Statement (.blockComplete k) := of_event rfl rfl
theorem chuteCommitLands (k : Nat) : Statement (.chuteCommitLands k) := of_event rfl rfl
theorem claimShootDown (name : ClaimName) : Statement (.claimShootDown name) := of_event rfl rfl
theorem recallAck (name : ClaimName) (cache : Nat) : Statement (.recallAck name cache) := of_event rfl rfl
theorem claimLookup (q : ClaimAsk) : Statement (.claimLookup q) := of_event rfl rfl
theorem engineTokenWrite (k : Nat) : Statement (.engineTokenWrite k) := of_event rfl rfl
theorem streamFetch (q : BitVec 3) : Statement (.streamFetch q) := of_event rfl rfl
theorem streamWriteback (q : BitVec 3) : Statement (.streamWriteback q) := of_event rfl rfl
theorem atomicPerformed (k : Nat) : Statement (.atomicPerformed k) := of_event rfl rfl
theorem rickEngineApply (k : Nat) : Statement (.rickEngineApply k) := of_event rfl rfl
theorem idleFlit (port : Nat) : Statement (.idleFlit port) := of_event rfl rfl
theorem baleCheckpoint (die : Nat) : Statement (.baleCheckpoint die) := of_event rfl rfl
theorem baleRestore (die : Nat) : Statement (.baleRestore die) := of_event rfl rfl
theorem balerComplete (die : Nat) : Statement (.balerComplete die) := of_event rfl rfl
theorem indomWrite (value : X64) : Statement (.indomWrite value) := of_event rfl rfl
theorem firmwareUpdate (die : Nat) (img : FwImage) : Statement (.firmwareUpdate die img) := of_event rfl rfl
theorem portRetrain (port : Nat) : Statement (.portRetrain port) := of_event rfl rfl
theorem portRetrainDone (port : Nat) : Statement (.portRetrainDone port) := of_event rfl rfl
theorem channelGroupRetrain (g : Nat) : Statement (.channelGroupRetrain g) := of_event rfl rfl
theorem channelGroupRetrainDone (g : Nat) : Statement (.channelGroupRetrainDone g) := of_event rfl rfl
theorem sensorRecalibration (die : Nat) : Statement (.sensorRecalibration die) := of_event rfl rfl
theorem sensorRecalibrationDone (die : Nat) : Statement (.sensorRecalibrationDone die) := of_event rfl rfl
theorem clusterFencing (c : Nat) : Statement (.clusterFencing c) := of_event rfl rfl
theorem fenceDeadline (c : Nat) : Statement (.fenceDeadline c) := of_event rfl rfl
theorem clusterUnfence (c : Nat) : Statement (.clusterUnfence c) := of_event rfl rfl
theorem tenantCreate (t : Nat) : Statement (.tenantCreate t) := of_event rfl rfl
theorem tenantRemove (t : Nat) : Statement (.tenantRemove t) := of_event rfl rfl
theorem negotiateAlgorithms (asym hash : Nat) : Statement (.negotiateAlgorithms asym hash) := of_event rfl rfl
theorem getCertificate (off len : Nat) : Statement (.getCertificate off len) := of_event rfl rfl
theorem challenge (nonce : List Byte) : Statement (.challenge nonce) := of_event rfl rfl
theorem getMeasurements (index : Nat) (nonce : List Byte) : Statement (.getMeasurements index nonce) := of_event rfl rfl
theorem chstWrite (value : X64) : Statement (.chstWrite value) := of_event rfl rfl
theorem errinjRickStream (value : X64) : Statement (.errinjRickStream value) := of_event rfl rfl
theorem errinjPoisonLoad (value : X64) : Statement (.errinjPoisonLoad value) := of_event rfl rfl
theorem errinjCorrected (value : X64) : Statement (.errinjCorrected value) := of_event rfl rfl

end Sys2Proof.Laws.Fields
end

