-- ==== Sys2Proof/Safety.lean ====
section
/-! DEFINITION. What counts as a safe run: one that no fault and no refusal ends. -/

namespace Sys2Proof

/-- The machine answers a next state at each of `k` steps from `s`. -/
def RunsFor (k : Nat) (s : Machine.State) : Prop := ∃ t, core.run k s = .next t

/-- A safe run: it never stops. -/
def Safe (s : Machine.State) : Prop := ∀ k, RunsFor k s

end Sys2Proof
end

