-- ==== Sys2Proof/Tests/Slice0.lean ====
section
/-! SUPPORT. The model's own tests: words of the encoding tables, well-formedness, single steps whose results the manual gives,
and, for every statement with hypotheses, a state and operands that meet them (`witness_…`). -/

namespace Sys2Proof.Tests

open Sys2Proof Sys2Proof.Machine Sys2Proof.Claims

-- One theorem after the other: each asks the kernel, and as many threads as theorems do not fit in memory.
set_option Elab.async false

/-! ### States -/

/-- The machine about to dispatch `add x0, x0, x0` at 0x10000. -/
def atFetch : State := State.reset.withFetchWord 64 0

/-- A bundle at 0x10000 in issue, with an op of slot 0 and its bundle scheduled at cycle 10. -/
def inIssue : State :=
  atFetch.mapIss (fun i => { i with
    bundle := 1, cur := { slot := 0, bundle := 1, addr := 0x10000, after := 0x10008, ctl := Ctl.none, sched := 10, rrb := 0, loop := false } })

/-- Xn holds `v`. -/
def withX (n : Nat) (v : X64) (s : State) : State := s.mapRegs (fun r => { r with x := vset r.x n v })

/-- Xn is poisoned. -/
def badX (n : Nat) (s : State) : State := s.mapRegs (fun r => { r with xPoison := vset r.xPoison n true })

/-- An RG op on registers `d`, `a`, `b` and `c` of type `t`. -/
def rg (d a b c : BitVec 6) (t : Fmt := .fp32) (q : QSel := .none) : RG := ⟨d, a, b, c, 0, t, .fp32, .dyn, false, .none, .eq, q⟩

def noCtl : Ctl := Ctl.none

/-- slot S: R89, R90, with the opcodes of R96: words written out from the encoding. -/
theorem test_words_scalar_a : ([
    (0x8004268c00000000, .add ⟨16, 38, 35, 0, 0, .fp32, .fp32, .dyn, false, .none, .eq, .none⟩),
    (0x802258ec00000000, .sub ⟨9, 24, 59, 0, 0, .fp32, .fp32, .dyn, false, .none, .eq, .none⟩),
    (0x8039dfa400000000, .mul ⟨39, 31, 41, 0, 0, .fp32, .fp32, .dyn, false, .none, .eq, .none⟩),
    (0x8049859c00000000, .mulh ⟨38, 5, 39, 0, 0, .fp32, .fp32, .dyn, false, .none, .eq, .none⟩),
    (0x80507bd800000000, .mulhu ⟨1, 59, 54, 0, 0, .fp32, .fp32, .dyn, false, .none, .eq, .none⟩),
    (0x8067d19000000000, .div ⟨31, 17, 36, 0, 0, .fp32, .fp32, .dyn, false, .none, .eq, .none⟩),
    (0x8073cdb800000000, .divu ⟨15, 13, 46, 0, 0, .fp32, .fp32, .dyn, false, .none, .eq, .none⟩),
    (0x8087e3d800000000, .rem ⟨31, 35, 54, 0, 0, .fp32, .fp32, .dyn, false, .none, .eq, .none⟩),
    (0x80991f6800000000, .remu ⟨36, 31, 26, 0, 0, .fp32, .fp32, .dyn, false, .none, .eq, .none⟩),
    (0x80aa782800000000, .and ⟨41, 56, 10, 0, 0, .fp32, .fp32, .dyn, false, .none, .eq, .none⟩),
    (0x80c3e92800000000, .or ⟨15, 41, 10, 0, 0, .fp32, .fp32, .dyn, false, .none, .eq, .none⟩),
    (0x80ee3c8800000000, .xor ⟨56, 60, 34, 0, 0, .fp32, .fp32, .dyn, false, .none, .eq, .none⟩),
    (0x8106700400000000, .shl ⟨25, 48, 1, 0, 0, .fp32, .fp32, .dyn, false, .none, .eq, .none⟩),
    (0x811af21400000000, .shr ⟨43, 50, 5, 0, 0, .fp32, .fp32, .dyn, false, .none, .eq, .none⟩),
    (0x8122f1f800000000, .sra ⟨11, 49, 62, 0, 0, .fp32, .fp32, .dyn, false, .none, .eq, .none⟩),
    (0x8169835000000000, .rotr ⟨38, 3, 20, 0, 0, .fp32, .fp32, .dyn, false, .none, .eq, .none⟩),
    (0x819c82d400000000, .min ⟨50, 2, 53, 0, 0, .fp32, .fp32, .dyn, false, .none, .eq, .none⟩),
    (0x81ae127c00000000, .max ⟨56, 18, 31, 0, 0, .fp32, .fp32, .dyn, false, .none, .eq, .none⟩),
    (0x81b9efec00000000, .minu ⟨39, 47, 59, 0, 0, .fp32, .fp32, .dyn, false, .none, .eq, .none⟩),
    (0x81ce59b800000000, .maxu ⟨57, 25, 46, 0, 0, .fp32, .fp32, .dyn, false, .none, .eq, .none⟩),
    (0x817cfb0000000000, .clz ⟨51, 59, 0, 0, 0, .fp32, .fp32, .dyn, false, .none, .eq, .none⟩),
    (0x81871a0000000000, .popc ⟨28, 26, 0, 0, 0, .fp32, .fp32, .dyn, false, .none, .eq, .none⟩),
    (0x81dbf49400000030, .cmp ⟨47, 52, 37, 0, 0, .fp32, .fp32, .dyn, false, .none, .ltu, .none⟩),
    (0x81e77ef090000000, .sel ⟨29, 62, 60, 9, 0, .fp32, .fp32, .dyn, false, .none, .eq, .none⟩)
  ] : List (Nat × Instr)).all (fun p => decodeTableWord 64 p.1 == some p.2 && wellFormed p.2) = true := by
  decide +kernel

/-- slot S: R89, R90, with the opcodes of R96: words written out from the encoding. -/
theorem test_words_scalar_b : ([
    (0x81fe58a170000000, .extr ⟨57, 24, 40, 23, 0, .fp32, .fp32, .dyn, false, .none, .eq, .none⟩),
    (0x8201c3fc00000000, .insr ⟨7, 3, 63, 0, 0, .fp32, .fp32, .dyn, false, .none, .eq, .none⟩),
    (0x801260fffffffffb, .addi ⟨9, 32, 0xfffffffffb⟩),
    (0x80b3917fffffffff, .andi ⟨14, 17, 0x7fffffffff⟩),
    (0x80dfac8000000000, .ori ⟨62, 44, 0x8000000000⟩),
    (0x80f7320123456789, .xori ⟨28, 50, 0x123456789⟩),
    (0x813a77000000003f, .shli ⟨41, 55, 0x3f⟩),
    (0x81451b0000000001, .shri ⟨20, 27, 0x1⟩),
    (0x8158760000000000, .srai ⟨33, 54, 0x0⟩),
    (0x8216600000000007, .movi ⟨25, 0x200000000007⟩),
    (0x822940000003ffff, .movhi ⟨37, 0x3ffff⟩),
    (0x8305e39800102a00, .fadd ⟨23, 35, 38, 0, 0, .bf16, .fp32, (.mode .rup), true, .none, .eq, .none⟩),
    (0x8316e63c00102a00, .fsub ⟨27, 38, 15, 0, 0, .bf16, .fp32, (.mode .rup), true, .none, .eq, .none⟩),
    (0x832e96b000102a00, .fmul ⟨58, 22, 44, 0, 0, .bf16, .fp32, (.mode .rup), true, .none, .eq, .none⟩),
    (0x834efc0800102a00, .fmin ⟨59, 60, 2, 0, 0, .bf16, .fp32, (.mode .rup), true, .none, .eq, .none⟩),
    (0x835dd29c00102a00, .fmax ⟨55, 18, 39, 0, 0, .bf16, .fp32, (.mode .rup), true, .none, .eq, .none⟩),
    (0x833aed2ed0083400, .ffma ⟨43, 45, 11, 45, 0, .fp16, .fp32, (.mode .sr), false, .none, .eq, .none⟩),
    (0x836e15f800080028, .fcmp ⟨56, 21, 62, 0, 0, .fp16, .fp32, .dyn, false, .none, .ge, .none⟩),
    (0x8378fa0000180300, .fcvt ⟨35, 58, 0, 0, 0, .int8, .fp32, .dyn, true, .lsn, .eq, .none⟩),
    (0x840003ffffffffff, .br ⟨0, .eq, 0x3ffffffffff⟩),
    (0x841265ffffffffff, .bc ⟨9, .geu, 0x1ffffffffff⟩),
    (0x842bc20000000000, .brl ⟨47, .eq, 0x20000000000⟩),
    (0x843fc00000000005, .call ⟨63, .eq, 0x5⟩),
    (0x8440250000000000, .ret ⟨0, 37, 0, 0, 0, .fp32, .fp32, .dyn, false, .none, .eq, .none⟩)
  ] : List (Nat × Instr)).all (fun p => decodeTableWord 64 p.1 == some p.2 && wellFormed p.2) = true := by
  decide +kernel

/-- slot S: R89, R90, with the opcodes of R96: words written out from the encoding. -/
theorem test_words_scalar_c : ([
    (0x8459470000000000, .jmpx ⟨37, 7, 0, 0, 0, .fp32, .fp32, .dyn, false, .none, .eq, .none⟩),
    (0x8462100000000000, .rep ⟨16, 4096⟩),
    (0x8478000000000000, .loopb ⟨64, 0⟩)
  ] : List (Nat × Instr)).all (fun p => decodeTableWord 64 p.1 == some p.2 && wellFormed p.2) = true := by
  decide +kernel

/-- slots VA and VB: R89, R90, with the opcodes of R96: words written out from the encoding. -/
theorem test_words_vector_a : ([
    (0x900baa380b002c00, .vadd ⟨46, 42, 14, 0, 11, .fp32, .fp32, (.mode .rdn), false, .none, .eq, .none⟩),
    (0x901da54805002c00, .vsub ⟨54, 37, 18, 0, 5, .fp32, .fp32, (.mode .rdn), false, .none, .eq, .none⟩),
    (0x9042057c0e002c00, .vmul ⟨8, 5, 31, 0, 14, .fp32, .fp32, (.mode .rdn), false, .none, .eq, .none⟩),
    (0x90ca5f1806002c00, .vmin ⟨41, 31, 6, 0, 6, .fp32, .fp32, (.mode .rdn), false, .none, .eq, .none⟩),
    (0x90dd056c0f002c00, .vmax ⟨52, 5, 27, 0, 15, .fp32, .fp32, (.mode .rdn), false, .none, .eq, .none⟩),
    (0xa082824c73102404, .vfma ⟨10, 2, 19, 7, 3, .bf16, .fp32, (.mode .rtz), false, .none, .eq, .c⟩),
    (0xa097326c73102404, .vfms ⟨28, 50, 27, 7, 3, .bf16, .fp32, (.mode .rtz), false, .none, .eq, .c⟩),
    (0xa0ae080001280000, .vneg ⟨56, 8, 0, 0, 1, .int32, .fp32, .dyn, false, .none, .eq, .none⟩),
    (0xa0b0e70001280000, .vabs ⟨3, 39, 0, 0, 1, .int32, .fp32, .dyn, false, .none, .eq, .none⟩),
    (0x902a310c07280000, .vadds ⟨40, 49, 3, 0, 7, .int32, .fp32, .dyn, false, .none, .eq, .none⟩),
    (0x903996900f200000, .vsubs ⟨38, 22, 36, 0, 15, .int16, .fp32, .dyn, false, .none, .eq, .none⟩),
    (0x9058500c05180000, .vmulh ⟨33, 16, 3, 0, 5, .int8, .fp32, .dyn, false, .none, .eq, .none⟩),
    (0x9061479c09180000, .vmulw ⟨5, 7, 39, 0, 9, .int8, .fp32, .dyn, false, .none, .eq, .none⟩),
    (0x90ef4dfc07200000, .vand ⟨61, 13, 63, 0, 7, .int16, .fp32, .dyn, false, .none, .eq, .none⟩),
    (0x90fa11280c180000, .vor ⟨40, 17, 10, 0, 12, .int8, .fp32, .dyn, false, .none, .eq, .none⟩),
    (0x910ff85806200000, .vxor ⟨63, 56, 22, 0, 6, .int16, .fp32, .dyn, false, .none, .eq, .none⟩),
    (0x912f89e80e200000, .vshl ⟨62, 9, 58, 0, 14, .int16, .fp32, .dyn, false, .none, .eq, .none⟩),
    (0x91365ee009200000, .vshr ⟨25, 30, 56, 0, 9, .int16, .fp32, .dyn, false, .none, .eq, .none⟩),
    (0x914ab89c0b280000, .vsra ⟨42, 56, 39, 0, 11, .int32, .fp32, .dyn, false, .none, .eq, .none⟩),
    (0x9071e8fc05200000, .vmacw ⟨7, 40, 63, 0, 5, .int16, .fp32, .dyn, false, .none, .eq, .none⟩),
    (0x911f740002180000, .vnot ⟨61, 52, 0, 0, 2, .int8, .fp32, .dyn, false, .none, .eq, .none⟩),
    (0x9152e14806280040, .vcmp ⟨11, 33, 18, 0, 6, .int32, .fp32, .dyn, false, .none, .gtu, .none⟩),
    (0xa16729bcf4080000, .vsel ⟨28, 41, 47, 15, 4, .fp16, .fp32, .dyn, false, .none, .eq, .none⟩),
    (0x918b860008003002, .vrcp ⟨46, 6, 0, 0, 8, .fp32, .fp32, (.mode .rna), false, .none, .eq, .a⟩)
  ] : List (Nat × Instr)).all (fun p => decodeTableWord 64 p.1 == some p.2 && wellFormed p.2) = true := by
  decide +kernel

/-- slots VA and VB: R89, R90, with the opcodes of R96: words written out from the encoding. -/
theorem test_words_vector_b : ([
    (0x9194060008003002, .vrsq ⟨16, 6, 0, 0, 8, .fp32, .fp32, (.mode .rna), false, .none, .eq, .a⟩),
    (0x91af060008003002, .vsqrt ⟨60, 6, 0, 0, 8, .fp32, .fp32, (.mode .rna), false, .none, .eq, .a⟩),
    (0x91b5060008003002, .vexp2 ⟨20, 6, 0, 0, 8, .fp32, .fp32, (.mode .rna), false, .none, .eq, .a⟩),
    (0x91c7060008003002, .vlog2 ⟨28, 6, 0, 0, 8, .fp32, .fp32, (.mode .rna), false, .none, .eq, .a⟩),
    (0xa1d1ff0009103681, .vcvt ⟨7, 63, 0, 0, 9, .bf16, .fp32, (.mode .sr), true, .ls, .eq, .d⟩),
    (0x920462000a082000, .vredadd ⟨17, 34, 0, 0, 10, .fp16, .fp32, (.mode .rne), false, .none, .eq, .none⟩),
    (0x921524000a082000, .vredmax ⟨20, 36, 0, 0, 10, .fp16, .fp32, (.mode .rne), false, .none, .eq, .none⟩),
    (0x922581000a082000, .vredmin ⟨22, 1, 0, 0, 10, .fp16, .fp32, (.mode .rne), false, .none, .eq, .none⟩),
    (0x928cdb980b200000, .vbcast ⟨51, 27, 38, 0, 11, .int16, .fp32, .dyn, false, .none, .eq, .none⟩),
    (0x929542640b200000, .vext ⟨21, 2, 25, 0, 11, .int16, .fp32, .dyn, false, .none, .eq, .none⟩),
    (0x92aa26a40b200000, .vins ⟨40, 38, 41, 0, 11, .int16, .fp32, .dyn, false, .none, .eq, .none⟩),
    (0x92b244a40b200000, .vperm ⟨9, 4, 41, 0, 11, .int16, .fp32, .dyn, false, .none, .eq, .none⟩),
    (0x92ca56780b200000, .vslide ⟨41, 22, 30, 0, 11, .int16, .fp32, .dyn, false, .none, .eq, .none⟩),
    (0x92d5c0000c280000, .viota ⟨23, 0, 0, 0, 12, .int32, .fp32, .dyn, false, .none, .eq, .none⟩),
    (0x92eb3b000d000000, .vmov ⟨44, 59, 0, 0, 13, .fp32, .fp32, .dyn, false, .none, .eq, .none⟩),
    (0x92f8782000003c00, .vmovi ⟨33, 14, .fp16, 0x3c00⟩),
    (0x9305e70001380200, .vpacksx ⟨23, 39, 0, 0, 1, .sx5, .fp32, .dyn, true, .none, .eq, .none⟩),
    (0x931b920002300000, .vunpksx ⟨46, 18, 0, 0, 2, .sx3, .fp32, .dyn, false, .none, .eq, .none⟩),
    (0x9403080400000000, .pand ⟨12, 8, 1, 0, 0, .fp32, .fp32, .dyn, false, .none, .eq, .none⟩),
    (0x9412812c00000000, .por ⟨10, 1, 11, 0, 0, .fp32, .fp32, .dyn, false, .none, .eq, .none⟩),
    (0x9420461400000000, .pxor ⟨1, 6, 5, 0, 0, .fp32, .fp32, .dyn, false, .none, .eq, .none⟩),
    (0x9432c80000000000, .pnot ⟨11, 8, 0, 0, 0, .fp32, .fp32, .dyn, false, .none, .eq, .none⟩),
    (0x94714a0000000000, .pmov ⟨5, 10, 0, 0, 0, .fp32, .fp32, .dyn, false, .none, .eq, .none⟩),
    (0xa453e70000000000, .pset ⟨15, 39, 0, 0, 0, .fp32, .fp32, .dyn, false, .none, .eq, .none⟩)
  ] : List (Nat × Instr)).all (fun p => decodeTableWord 64 p.1 == some p.2 && wellFormed p.2) = true := by
  decide +kernel

/-- slots VA and VB: R89, R90, with the opcodes of R96: words written out from the encoding. -/
theorem test_words_vector_c : ([
    (0xa4654f0000000000, .pcnt ⟨21, 15, 0, 0, 0, .fp32, .fp32, .dyn, false, .none, .eq, .none⟩),
    (0xa4404c0000400000, .plen ⟨1, 12, 0, 0, 0, .sx8, .fp32, .dyn, false, .none, .eq, .none⟩)
  ] : List (Nat × Instr)).all (fun p => decodeTableWord 64 p.1 == some p.2 && wellFormed p.2) = true := by
  decide +kernel

/-- slot M: R91, with the opcodes of R96: words written out from the encoding. -/
theorem test_words_matrix : ([
    (0xb00ee7bf12345678, .mma ⟨3, 5, 6, .sx5, true, false, 63, 0x12345678⟩),
    (0xb018000000000000, .mzero ⟨2, 0, .fp32, .dyn, false, .none⟩),
    (0xb026c0e600000000, .mdrain ⟨1, 44, .fp16, (.mode .rna), true, .lsn⟩),
    (0xb03ed00000000000, .maccld ⟨3, 45, .fp32, .dyn, false, .none⟩),
    (0xb046e00000000000, .maccst ⟨1, 46, .fp32, .dyn, false, .none⟩),
    (0xb052f80000000000, .epld ⟨47, 32⟩)
  ] : List (Nat × Instr)).all (fun p => decodeTableWord 64 p.1 == some p.2 && wellFormed p.2) = true := by
  decide +kernel

/-- slot L: R92, with the opcodes of R96: words written out from the encoding. -/
theorem test_words_load : ([
    (0xc0060c60fffffff8, .ld ⟨24, 12, .w16, true, false, 0xfffffff8⟩),
    (0xc04571f07fffffff, .fld ⟨21, 49, .w64, true, true, 0x7fffffff⟩),
    (0xc011337f803fffc0, .vld ⟨4, 51, 7, .raw, .dyn, false, .none, false, false, 0x3fffc0⟩),
    (0xc05072e480dfffff, .vfld ⟨1, 50, 14, .bfp64, .dyn, false, .none, true, true, 0x1fffff⟩),
    (0xc020ead28012fffc, .vlds ⟨3, 42, 13, .int32, .dyn, false, .none, false, 18, 0xfffc⟩),
    (0xc030d530006c0004, .vldx ⟨3, 21, 3, .fp32, .dyn, false, .none, true, 44, 0x4⟩),
    (0xc0601558c4000000, .lsfmt ⟨21, 22, .sx3, .planar⟩)
  ] : List (Nat × Instr)).all (fun p => decodeTableWord 64 p.1 == some p.2 && wellFormed p.2) = true := by
  decide +kernel

/-- slot ST: R92, with the opcodes of R96: words written out from the encoding. -/
theorem test_words_store : ([
    (0xd006370000000007, .st ⟨24, 55, .w8, false, false, 0x7⟩),
    (0xd049d19080000000, .fst ⟨39, 17, .w32, false, true, 0x80000000⟩),
    (0xd0103fa0ed600000, .vst ⟨0, 63, 10, .fp16, (.mode .sr), true, .ls, false, true, 0x200000⟩),
    (0xd050949184800100, .vfst ⟨2, 20, 9, .int8, .dyn, true, .none, true, false, 0x100⟩),
    (0xd021aac156078000, .vsts ⟨6, 42, 12, .bf16, (.mode .rup), true, .lsn, false, 7, 0x8000⟩),
    (0xd0306764007d7fff, .vstx ⟨1, 39, 6, .sx8, .dyn, false, .none, true, 61, 0x7fff⟩)
  ] : List (Nat × Instr)).all (fun p => decodeTableWord 64 p.1 == some p.2 && wellFormed p.2) = true := by
  decide +kernel

/-- slot E: R93, with the opcodes of R96: words written out from the encoding. -/
theorem test_words_engine : ([
    (0xe000420c400ca000, .copy ⟨1, 2, 3, 4, .fp16, (.mode .rtz), .ls⟩),
    (0xe011460000000000, .copya ⟨5, 6, 0, 0, 0⟩),
    (0xe020070006000100, .strb ⟨7, 6, .wr⟩),
    (0xe032000005000000, .stru ⟨8, 0, 0, 0, 5⟩),
    (0xe0824a2c03201800, .pusht ⟨9, 10, 11, 3, .int16, .none, true, 256⟩),
    (0xe0930d3802000000, .popt ⟨12, 13, 14, 0, 2⟩),
    (0xe0a3d00001000000, .markr ⟨15, 16, 0, 0, 1⟩),
    (0xe0b4524c03000000, .splitr ⟨17, 18, 19, 0, 3⟩),
    (0xe0c5155802000000, .joinr ⟨20, 21, 22, 0, 2⟩),
    (0xe0d5d81c01000000, .rickq ⟨23, 24, 7, 0, 1⟩),
    (0xe1065a6dc00009c0, .amo ⟨25, 26, 27, 28, .cas, .w64⟩),
    (0xe1101d78000009c0, .red ⟨29, 30, .bfpadd, .w64⟩),
    (0xe127c00000000000, .popq ⟨31, 0, 0, 0, 0⟩),
    (0xe188218807000b00, .claim ⟨32, 33, 34, 7, .cword⟩),
    (0xe198c00006000300, .resolve ⟨35, 0, 0, 6, .chute⟩),
    (0xe1a9250005000000, .qclaim ⟨36, 37, 0, 0, 5⟩),
    (0xe1b9800004000000, .retire ⟨38, 0, 0, 0, 4⟩),
    (0xe1c9e81c03000100, .casn ⟨39, 40, 7, 3, true⟩),
    (0xe20a460007000000, .chopen ⟨41, 6, 0, 0, 7⟩),
    (0xe21a800006000000, .chcommit ⟨42, 0, 0, 0, 6⟩),
    (0xe28aecb6e0000000, .send ⟨43, 44, 45, 46, 0⟩),
    (0xe29bf0c720000000, .recv ⟨47, 48, 49, 50, 0⟩),
    (0xe2acf4d760000000, .coll ⟨51, 52, 53, 54, 0⟩)
  ] : List (Nat × Instr)).all (fun p => decodeTableWord 64 p.1 == some p.2 && wellFormed p.2) = true := by
  decide +kernel

/-- slot C: R94, with the opcodes of R96: words written out from the encoding. -/
theorem test_words_control : ([
    (0xf0000000000080af, .ctl ⟨0, 0, 0, ⟨15, false, true, false, true, 0x80⟩⟩),
    (0xf0100000002ea553, .fence ⟨.host, ⟨false, true, true⟩, ⟨3, true, false, true, false, 0xa5⟩⟩),
    (0xf1004200000080af, .barg ⟨1, 2, 0, ⟨15, false, true, false, true, 0x80⟩⟩),
    (0xf110c400000080af, .joing ⟨3, 4, 0, ⟨15, false, true, false, true, 0x80⟩⟩),
    (0xf1214600000080af, .leaveg ⟨5, 6, 0, ⟨15, false, true, false, true, 0x80⟩⟩),
    (0xf201c824000080af, .spawn ⟨7, 8, 9, ⟨15, false, true, false, true, 0x80⟩⟩),
    (0xf2100a2c000080af, .susp ⟨0, 10, 11, ⟨15, false, true, false, true, 0x80⟩⟩),
    (0xf2200000000080af, .exit ⟨0, 0, 0, ⟨15, false, true, false, true, 0x80⟩⟩),
    (0xf2300000000080af, .yield ⟨0, 0, 0, ⟨15, false, true, false, true, 0x80⟩⟩),
    (0xf24c0000000080af, .nextt ⟨48, 0, 0, ⟨15, false, true, false, true, 0x80⟩⟩),
    (0xf2800000beefa553, .trap ⟨0, 0, 0xbeef, ⟨3, true, false, true, false, 0xa5⟩⟩),
    (0xf2900000000080af, .rett ⟨0, 0, 0, ⟨15, false, true, false, true, 0x80⟩⟩),
    (0xf2a30d001234a553, .svc ⟨12, 13, 0x1234, ⟨3, true, false, true, false, 0xa5⟩⟩),
    (0xf2b38f00000080af, .tstpsn ⟨14, 15, 0, ⟨15, false, true, false, true, 0x80⟩⟩),
    (0xf3040000003ba553, .rdsr ⟨16, 0, 0x03b, ⟨3, true, false, true, false, 0xa5⟩⟩),
    (0xf31011000010a553, .wrsr ⟨0, 17, 0x010, ⟨3, true, false, true, false, 0xa5⟩⟩),
    (0xf32012000123a553, .bkpt ⟨0, 18, 0x123, ⟨3, true, false, true, false, 0xa5⟩⟩),
    (0xf334c000000080af, .rdeng ⟨19, 0, 0, ⟨15, false, true, false, true, 0x80⟩⟩),
    (0xf3450000000080af, .rdcyc ⟨20, 0, 0, ⟨15, false, true, false, true, 0x80⟩⟩),
    (0xf3a00000000080af, .lsstep ⟨0, 0, 0, ⟨15, false, true, false, true, 0x80⟩⟩)
  ] : List (Nat × Instr)).all (fun p => decodeTableWord 64 p.1 == some p.2 && wellFormed p.2) = true := by
  decide +kernel

/-- thresher words: R429, R430, with the opcodes of R431: words written out from the encoding. -/
theorem test_words_thresher_a : ([
    (0x0048c240, .thrAdd ⟨1, 2, 3, 0, .bf16, false, true⟩),
    (0x05158180, .thrSub ⟨4, 5, 6, 0, .fp32, true, false⟩),
    (0x09e24000, .thrMul ⟨7, 8, 9, 0, .int32, false, false⟩),
    (0x0eaf3600, .thrFma ⟨10, 11, 12, 13, .bf16, false, false⟩),
    (0x13bc4140, .thrMin ⟨14, 15, 1, 0, .fp32, false, true⟩),
    (0x148d0080, .thrMax ⟨2, 3, 4, 0, .int32, true, false⟩),
    (0x19580200, .thrAbs ⟨5, 6, 0, 0, .bf16, false, false⟩),
    (0x1de00180, .thrNeg ⟨7, 8, 0, 0, .fp32, true, false⟩),
    (0x2048c000, .thrAnd ⟨1, 2, 3, 0, .int32, false, false⟩),
    (0x248d0040, .thrOr ⟨2, 3, 4, 0, .int32, false, true⟩),
    (0x28d14000, .thrXor ⟨3, 4, 5, 0, .int32, false, false⟩),
    (0x2d158040, .thrShl ⟨4, 5, 6, 0, .int32, false, true⟩),
    (0x3159c000, .thrShr ⟨5, 6, 7, 0, .int32, false, false⟩),
    (0x359e0040, .thrSra ⟨6, 7, 8, 0, .int32, false, true⟩),
    (0x39e24000, .thrAdds ⟨7, 8, 9, 0, .int32, false, false⟩),
    (0x3e61c185, .thrCmp ⟨9, 8, 7, .fp32, true, false, .ge⟩),
    (0x4048d240, .thrSel ⟨1, 2, 3, 4, .bf16, false, true⟩),
    (0x45580290, .thrCvt ⟨5, 6, .bf16, .fp32, true⟩),
    (0x49e00100, .thrEx2 ⟨7, 8, 0, 0, .fp32, false, false⟩),
    (0x4e680180, .thrLg2 ⟨9, 10, 0, 0, .fp32, true, false⟩),
    (0x52fabcde, .thrMovi ⟨11, true, 0x1abcde⟩),
    (0x5737ffff, .thrAddi ⟨12, 13, 0x3ffff⟩),
    (0x5bbc000f, .thrVext ⟨14, 15, 15⟩),
    (0x5c480000, .thrVbc ⟨1, 2, 0⟩)
  ] : List (Nat × Instr)).all (fun p => decodeTableWord 32 p.1 == some p.2 && wellFormed p.2) = true := by
  decide +kernel

/-- thresher words: R429, R430, with the opcodes of R431: words written out from the encoding. -/
theorem test_words_thresher_b : ([
    (0x68c00008, .thrHdr ⟨3, 0, 8⟩),
    (0x6114ffff, .thrPld ⟨4, 5, false, 0xffff⟩),
    (0x659e0004, .thrPst ⟨6, 7, true, 0x4⟩),
    (0x6e260008, .thrBld ⟨8, 9, true, 0x8⟩),
    (0x72ac0040, .thrBst ⟨10, 11, false, 0x40⟩),
    (0x7448c000, .thrBamo ⟨1, 2, 3, .add⟩),
    (0x7559c004, .thrBamo ⟨5, 6, 7, .maxu⟩),
    (0x76af0009, .thrBamo ⟨10, 11, 12, .xor⟩),
    (0x7800abcd, .thrBr ⟨0, 0, 0xabcd⟩),
    (0x7d648001, .thrBc ⟨5, 9, 0x8001⟩),
    (0x83ccffff, .thrLoopi ⟨15, 3, 0xffff⟩),
    (0x84000000, .thrFwd ⟨0, 0, 0x0⟩),
    (0x88000000, .thrDrop ⟨0, 0, 0x0⟩),
    (0x8c380000, .thrRedir ⟨0, 14, 0x0⟩),
    (0x90001234, .thrTrap ⟨0, 0, 0x1234⟩),
    (0x94000000, .thrEnd ⟨0, 0, 0x0⟩)
  ] : List (Nat × Instr)).all (fun p => decodeTableWord 32 p.1 == some p.2 && wellFormed p.2) = true := by
  decide +kernel

/-! ### Words of the manual's own examples -/

/-- R97, R179, R213, R241, R355, R474 and the encoding chapters: words the manual writes out. -/
theorem test_words_spec : ([
    (0xE1C5150803000100, .casn ⟨20, 21, 2, 3, true⟩),
    (0xF24D000000000000, .nextt ⟨52, 0, 0, noCtl⟩),
    (0xF310190000170000, .wrsr ⟨0, 25, 0x17, noCtl⟩),
    (0xF320030000050000, .bkpt ⟨0, 3, 5, noCtl⟩),
    (0xF330000000000000, .rdeng ⟨0, 0, 0, noCtl⟩),
    (0xF290000000000000, .rett ⟨0, 0, 0, noCtl⟩),
    (0xF280000001230000, .trap ⟨0, 0, 0x123, noCtl⟩),
    (0xF2A5150000070000, .svc ⟨20, 21, 7, noCtl⟩),
    (0xF2B1490000000000, .tstpsn ⟨5, 9, 0, noCtl⟩),
    (0xE0201E0000000000, .strb ⟨30, 0, .rd⟩)
  ] : List (Nat × Instr)).all (fun p => decodeTableWord 64 p.1 == some p.2 && wellFormed p.2) = true := by
  decide +kernel

/-- R98, R99: an unassigned opcode, a nonzero bit that no field covers, and a reserved slot trap with their TRAPVAL. -/
theorem test_refused_opcode : decodeBundle [0xFFF0000000000000] = .error (0x02, 0x70000) := by decide +kernel

theorem test_refused_bits : decodeBundle [0x9000000000003800] = .error (0x03, 0x10A00) ∧
    decodeBundle [0xF000000000010000] = .error (0x03, 0x71000) := by decide +kernel

/-- R97: reserved codes and values out of range are refused. -/
theorem test_refused_words :
    ([0xFFF0000000000000, 0x9000000000003800, 0xF000000000010000] : List Nat).all (fun w => (decodeTableWord 64 w).isNone) = true := by
  decide +kernel

/-! ### Well-formedness: one ill-formed term for each kind of check, refused -/

/-- An unused register, guard, type or modifier field (R88). -/
theorem test_ill_unused :
    ([.add (rg 1 2 3 4), .ret (rg 1 2 0 0), .add (rg 1 2 3 0 .fp16), .vredadd (rg 1 2 3 0),
      .clz ⟨1, 2, 0, 0, 1, .fp32, .fp32, .dyn, false, .none, .eq, .none⟩,
      .fadd ⟨1, 2, 3, 0, 0, .fp32, .fp32, .dyn, false, .ls, .eq, .none⟩,
      .mzero ⟨1, 1, .fp32, .dyn, false, .none⟩, .lsstep ⟨1, 0, 0, noCtl⟩, .tstpsn ⟨1, 2, 3, noCtl⟩,
      .stru ⟨0, 1, 0, 0, 2⟩] : List Instr).all (fun i => wellFormed i == false) = true := by decide +kernel

/-- A type, rounding mode, saturation, condition or operation the op does not accept (R45, R97, R107, R113). -/
theorem test_ill_modifiers :
    ([.fadd (rg 1 2 3 0 .int32), .vadds (rg 1 2 3 0 .fp32), .mma ⟨1, 0, 1, .int32, false, true, 15, 0⟩,
      .vadd ⟨1, 2, 3, 0, 0, .int32, .fp32, .mode .rne, false, .none, .eq, .none⟩,
      .fcmp ⟨1, 2, 3, 0, 0, .fp32, .fp32, .dyn, false, .none, .ltu, .none⟩,
      .vst ⟨43, 5, 0, .int8, .mode .rne, false, .none, false, false, 0⟩,
      .amo ⟨22, 21, 5, 6, .addb, .w8⟩, .red ⟨21, 5, .fadd32, .w64⟩] : List Instr).all (fun i => wellFormed i == false) = true := by
  decide +kernel

/-- A number out of its range: shifts, fields, repetitions, predicates, handles, lengths (R97). -/
theorem test_ill_ranges :
    ([.shli ⟨1, 2, 64⟩, .extr (rg 1 2 40 24), .movhi ⟨1, 0x40000⟩, .rep ⟨17, 4⟩, .loopb ⟨65, 0⟩,
      .vcmp (rg 16 1 2 0), .pand (rg 1 2 16 0), .vmovi ⟨1, 0, .int8, 256⟩,
      .strb ⟨1, 8, .rd⟩, .resolve ⟨12, 0, 0, 8, .tensor⟩, .barg ⟨1, 8, 0, noCtl⟩, .rdsr ⟨1, 0, 0xFFF, noCtl⟩,
      .vadd (rg 1 8 2 0 .fp32 .a)] : List Instr).all (fun i => wellFormed i == false) = true := by decide +kernel

/-- Thresher instructions: an unused field, a type, lane 11 of the header, a condition (R430, R431). -/
theorem test_ill_thresher :
    ([.thrAdd ⟨1, 2, 3, 4, .int32, false, false⟩, .thrFma ⟨1, 2, 3, 4, .int32, false, false⟩, .thrHdr ⟨1, 0, 11⟩,
      .thrAdd ⟨1, 2, 3, 0, .int32, true, true⟩, .thrEnd ⟨1, 0, 0⟩] : List Instr).all (fun i => wellFormed i == false) = true := by
  decide +kernel

/-- Events: a tenant, device, die, port or counter that the manual does not number. -/
theorem test_ill_events :
    ([.tenantCreate 64, .losttoExpiry 64, .baleCheckpoint 2, .portDown 8, .errCounterWrite 6, .clusterFencing 32,
      .channelGroupRetrain 6] : List Instr).all (fun i => wellFormed i == false) = true := by decide +kernel

/-! ### Numbers: the manual's worked examples -/

/-- FP32 patterns as values. -/
def f32 (l : List Nat) : List Machine.Num := l.map (decodeFloat .fp32)

/-- The worked conversion to SX5 (after R61): 3.0, −1.3125, 0.5, 0.40625 and twelve zeros. -/
def sx5Example : SxBlock × Bool :=
  sxEncode 4 .rne false (f32 ([0x40400000, 0xBFA80000, 0x3F000000, 0x3ED00000] ++ List.replicate 12 0)) (fun _ => 0)

theorem test_sx5_packed : sxPack 4 sx5Example.1 = 0x192ACFE80 ∧ sx5Example.2 = false := by decide +kernel

/-- R59 and the planar example after R237. -/
theorem test_sx5_planar :
    (List.range 4).map (sxPlanarByte sx5Example.1) = [0x0C, 0x85, 0x04, 0x03] ∧
      (List.range 5).map (fun i => (roundFloat .fp32 .rne false 0 (sxDecode 4 sx5Example.1 i)).bits) =
        [0x40400000, 0xBFA00000, 0x3F000000, 0x3EC00000, 0] := by decide +kernel

/-- The worked realignment (after R63). -/
theorem test_bfp_realignment :
    let b : Bfp := { x := 130, poisoned := false, saturated := false, dropped := 0, m := [8388000, 3] ++ List.replicate 62 0 }
    bfpAdd b [(Machine.Num.ofInt 1000).scale (-20), Machine.Num.ofInt 0] false = { b with x := 131, m := [4194500, 2] ++ List.replicate 62 0 } := by decide +kernel

/-- One lane, two symbols (after R318): frequencies 1,024 and 3 at cumulative values 0 and 1,024. -/
theorem test_rick_lane :
    let c : Coder := { lanes := [0x4000000000000005], words := [] }
    let c1 := c.push 0 1024 0
    let c2 := c1.push 0 3 1024
    c1 = { lanes := [0x100000000], words := [5] } ∧ c2 = { lanes := [0x55555555401], words := [5] } := by decide +kernel

/-! ### Single steps with the manual's results -/

/-- The result an op has in flight for Xn. -/
def xOut (i : Instr) (s : State) (n : Nat) : Option X64 :=
  match exec i s with
  | .next t => t.core.iss.pend.findSome? (fun w => match w.dest with
    | .x m v _ => if m = n then some v else none
    | _ => none)
  | _ => none

/-- The result an op has in flight for Vn: its bits and the bytes it writes. -/
def vOut (i : Instr) (s : State) (n : Nat) : Option (VBits × PBits) :=
  match exec i s with
  | .next t => t.core.iss.pend.findSome? (fun w => match w.dest with
    | .v m v mask _ => if m = n then some (v, mask) else none
    | _ => none)
  | _ => none

/-- The op with X2 = `a` and X3 = `b`, its result in X1. -/
def on2 (i : RG → Instr) (a b : X64) : Option X64 := xOut (i (rg 1 2 3 0)) (withX 3 b (withX 2 a inIssue)) 1

/-- −2^63. -/
def least : X64 := 0x8000000000000000

/-- R112: division by zero, and −2^63 by −1. -/
theorem test_divide_corners :
    on2 .div 7 0 = some (-1) ∧ on2 .divu 7 0 = some (-1) ∧ on2 .rem 7 0 = some 7 ∧ on2 .remu 7 0 = some 7 ∧
      on2 .div least (-1) = some least ∧ on2 .rem least (-1) = some 0 ∧ on2 .rem (-7) 2 = some (-1) ∧ on2 .div (-7) 2 = some (-3) := by
  decide +kernel

/-- R111: products of −1 by −1, high halves. -/
theorem test_mulh : on2 .mulh (-1) (-1) = some 0 ∧ on2 .mulhu (-1) (-1) = some (-2) := by decide +kernel

/-- R111: a shift takes its count mod 64, and a rotation of 1 by 1 sets bit 63. -/
theorem test_shift_rotate : on2 .rotr 1 1 = some least ∧ on2 .sra least 63 = some (-1) ∧ on2 .shl 1 65 = some 2 := by decide +kernel

/-- X0 reads as zero (R9). -/
theorem test_x0 : xOut (.add (rg 1 0 0 0)) (withX 0 5 inIssue) 1 = some 0 := by decide +kernel

/-- The guarded VMACW after R122: elements 0 to 3, element 1 not written. -/
def vmacwState : State := inIssue.mapRegs (fun r => { r with
  v := vset (vset (vset r.v 4 (BitVec.ofNat 2048 (3 + 65534 * 2 ^ 16 + 32767 * 2 ^ 32 + 32768 * 2 ^ 48))) 5
    (BitVec.ofNat 2048 (4 + 5 * 2 ^ 16 + 32767 * 2 ^ 32 + 32768 * 2 ^ 48))) 12
    (BitVec.ofNat 2048 (10 + 10 * 2 ^ 32 + 1 * 2 ^ 64 + 1073741824 * 2 ^ 96)),
  p := vset r.p 3 (BitVec.allOnes 256 &&& ~~~ (16 : BitVec 256)) })

theorem test_vmacw :
    (vOut (.vmacw ⟨12, 4, 5, 0, 3, .int16, .fp32, .dyn, false, .none, .eq, .none⟩) vmacwState 12).map (fun q =>
      ([0, 2, 3].map (fun e => q.1.toNat / 2 ^ (32 * e) % 2 ^ 32), q.2.toNat % 2 ^ 16)) =
    some ([22, 1073676290, 2147483648], 0xFF0F) := by decide +kernel

/-- The reduction after R129: P5 enables four lanes that hold 16,777,216, 1, 1 and 2. -/
def reduceState (mode : BitVec 64) : State := inIssue.mapRegs (fun r => { r with
  v := vset r.v 4 (BitVec.ofNat 2048 (0x4B800000 + 0x3F800000 * 2 ^ 32 + 0x3F800000 * 2 ^ 64 + 0x40000000 * 2 ^ 96)),
  p := vset r.p 5 (BitVec.ofNat 256 0xFFFF), sys := { r.sys with rmode := mode } })

theorem test_reduce_order :
    let red := fun m => (vOut (.vredadd ⟨1, 4, 0, 0, 5, .fp32, .fp32, .dyn, false, .none, .eq, .none⟩) (reduceState m) 1).map
      (fun q => q.1.toNat % 2 ^ 32)
    red 0 = some 0x4B800001 ∧ red 2 = some 0x4B800003 := by decide +kernel

/-- The k steps after R143: a MAC, a max and fourteen MACs under RNE, from 1.0, give 16.5. -/
theorem test_k_steps :
    let two : MElem := { val := decodeFloat .fp32 0x40000000, int := 0, poison := false }
    let half : MElem := { val := decodeFloat .fp32 0x3F000000, int := 0, poison := false }
    cellRun .fp16 { mode := .rne, k := 0, draw := { seed := 0, seq := 0, strand := 0 } } 8 0 0 0x3F800000
      (List.replicate 16 two) (List.replicate 16 half) = 0x41840000 := by decide +kernel

/-- The epilogue example after R158: the cells 37 and −40, by 1/16 and rectified, are 2.3125 and 0, which as INT8 under RNE are 2
and 0. -/
theorem test_epilogue :
    let cells := [37, -40].map (fun i => (rne32 (Machine.Num.ofInt i), false))
    let row := [0x30003D80, 0x50000000].foldl (fun ws w => (epiOf w).apply State.reset.mem 0 ws) cells
    row.map (fun q => ((roundFloat .fp32 .rne false 0 q.1).bits, (convertTo .int8 .rne true 0 q.1).bits)) =
      [(0x40140000, 2), (0, 0)] := by
  decide +kernel
/-! ### Witnesses: the step, encoding and memory -/

theorem witness_StepRunsDecoded_thresher :
    ∃ v, (State.reset.withFetchWord 32 0x94000000).thr = some v ∧ v.fetch = .ok (.thrEnd ⟨0, 0, 0⟩) := ⟨_, rfl, rfl⟩

/-- The op of the bundle at 0x10000. -/
def firstOp : Instr := .add (rg 0 0 0 0)

theorem witness_StepRunsDecoded_bundle :
    let s := atFetch
    let ws := [0x8000000000000000]
    let c := s.land.place (s.core.iss.pc + 8) Ctl.none
    CoreTurn s ∧ s.core.iss.mayDispatch = true ∧ s.core.iss.pc % 8 = 0 ∧
      s.land.fetch = .words ws ∧ decodeBundle ws = .ok [(0, firstOp)] ∧
      BundleReady (s.land.mapIss (fun i => { i with cur := c })) [(0, firstOp)] := by
  unfold CoreTurn BundleReady
  decide +kernel

/-- An op of slot S in its queue. -/
def queued (i : Instr) : Slotted :=
  { ctx := { slot := 0, bundle := 1, addr := 0x10000, after := 0x10008, ctl := Ctl.none, sched := 0, rrb := 0, loop := false }, op := i,
    wait := none, since := 0 }

/-- A `brl` that reads X1 stands before `firstOp` of the next bundle, and X1 waits for a result. -/
def branching : State :=
  (atFetch.mapIss (fun i => { i with bundle := 3, iq := [queued (.brl ⟨1, .eq, 0⟩)] })).interlock (.x 1) 7 false

theorem witness_StepRunsDecoded_queued :
    (let s := atFetch.mapIss (fun i => { i with iq := [queued (.ctl ⟨0, 0, 0, noCtl⟩), queued (.yield ⟨0, 0, 0, noCtl⟩)] })
     CoreTurn s ∧ s.core.iss.mayDispatch = false ∧
       s.core.iss.iq.contains (queued (.ctl ⟨0, 0, 0, noCtl⟩)) = true ∧
       (s.issuing (queued (.ctl ⟨0, 0, 0, noCtl⟩))).mustWait (queued (.ctl ⟨0, 0, 0, noCtl⟩)) = false) ∧
    (branching.core.iss.iq.contains (queued (.brl ⟨1, .eq, 0⟩)) = true ∧
      (branching.issuing (queued (.brl ⟨1, .eq, 0⟩))).mustWait (queued (.brl ⟨1, .eq, 0⟩)) = true) := by
  unfold CoreTurn
  decide +kernel

theorem witness_DecodeEncode : wellFormed firstOp = true ∧ (opFields firstOp).isSome = true ∧ encode firstOp = [0x8000000000000000] ∧
    wellFormed (.thrEnd ⟨0, 0, 0⟩) = true ∧ (thrFields (.thrEnd ⟨0, 0, 0⟩)).isSome = true ∧ encode (.thrEnd ⟨0, 0, 0⟩) = [0x94000000] ∧
    wellFormed .quiesce = true ∧ (thrFields .quiesce).isSome = false ∧ (opFields .quiesce).isSome = false := by decide +kernel

theorem witness_EncodeDecode : decodeTableWord 64 0x8000000000000000 = some firstOp ∧
    decodeTableWord 32 0x94000000 = some (.thrEnd ⟨0, 0, 0⟩) := by decide +kernel

theorem witness_StepKeepsMemory : atFetch.mem.wf = true ∧ ∃ t, step atFetch = .next t := by
  refine ⟨by decide +kernel, ?_⟩
  have h : (match step atFetch with | .next _ => true | _ => false) = true := by decide +kernel
  revert h
  cases step atFetch with
  | next t => exact fun _ => ⟨t, rfl⟩
  | fault _ => intro h; cases h
  | refused _ => intro h; cases h

theorem witness_MemoryLaws : atFetch.mem.wf = true ∧ homeOf (physOf 0) ≠ .host := by decide +kernel

/-! ### Witnesses: results, the scalar unit and control flow -/

/-- A result for X5 that lands at cycle `due`, of bundle `b`. -/
def result (due b : Nat) : PWrite := { dest := .x 5 7 false, due := due, bundle := b, slot := 0, slip := false }

theorem witness_ResultLands :
    let s := fun l => inIssue.mapIss (fun i => { i with sched := 10, pend := l })
    ((s [result 10 1]).core.iss.pend = [result 10 1] ∧ (s [result 10 1]).core.iss.iq = [] ∧ (result 10 1).dead = false ∧
      (result 10 1).due ≤ (s [result 10 1]).core.iss.sched) ∧
    (let w : PWrite := { result 10 1 with dead := true }
     (s [w]).core.iss.pend = [w] ∧ (s [w]).core.iss.iq = [] ∧ w.dead = true ∧ w.due ≤ (s [w]).core.iss.sched) ∧
    ((s [result 11 1]).core.iss.pend = [result 11 1] ∧ (s [result 11 1]).core.iss.sched < (result 11 1).due) ∧
    (let l := [result 11 1, result 10 2]
     (s l).core.iss.pend = l ∧ (result 10 2).due ≤ (s l).core.iss.sched ∧ (s l).core.iss.sched < (result 11 1).due ∧
       (result 11 1).bundle < (result 10 2).bundle ∧ (result 11 1).dest.key.isSome = true ∧
       (result 11 1).dest.key = (result 10 2).dest.key) := by
  decide +kernel

theorem witness_ScalarIntegers : (⟨1, 2, 63⟩ : IM).imm.toNat < 64 := by decide

theorem witness_MultiplyDivideCompare : (rg 1 2 40 23).b.toNat + (rg 1 2 40 23).c.toNat + 1 ≤ 64 := by decide

theorem witness_ScalarFloats : (rg 1 2 3 4 .bf16).t ≠ .raw ∧ (rg 1 2 3 4 .raw).t = .raw ∧ (rg 1 2 3 4 .bf16).t2 ≠ .raw ∧
    Cond.ge.code < 6 := by decide

theorem witness_ControlFlow : inIssue.poisonX 47 = false ∧ (47 : Reg).toNat < 48 ∧ 48 ≤ (48 : Reg).toNat ∧
    (badX 47 inIssue).poisonX 47 = true := by decide +kernel

theorem witness_Rotation : inIssue.core.nV = 64 ∧ (inIssue.mapCore (fun c => { c with nV := 56 })).core.nV < 64 := by decide +kernel
/-! ### Witnesses: vector ops and local memory -/

/-- A pattern of two images of 256 bytes. -/
def twoImages : Affine := { dst := 0, src := 0x1000, elem := 256, loops := [⟨2, 256, 0⟩] }

/-- Q0 bound in the direction, with one image in its buffers. -/
def withStream (dir : Dir) (s : State) : State :=
  (s.mapRegs (fun r => { r with q := vset r.q 0 (some { dir := dir, pat := twoImages, taken := 0, bundle := 0, home := [], code := 0 }) })).mapCore
    (fun c => { c with strm := vset c.strm 0 { images := [(5, 0)], coming := [(0, 5, 0)], moved := 1, code := 0 } })

theorem readReady : ReadReady (withStream .rd inIssue) 0 := ⟨⟨_, rfl, by decide +kernel⟩, by decide +kernel⟩

theorem writeReady : WriteReady (withStream .wr inIssue) 0 := ⟨⟨_, rfl, by decide +kernel⟩, by decide +kernel⟩

/-- Every form of an RG op's stream operand meets `VecReady`, at the last V register. -/
theorem witness_VecReady :
    VecReady (rg 63 0 1 2) vf3 [.fp32] inIssue ∧ VecReady (rg 0 1 63 2 .int16 .d) vf3 [.int16] (withStream .wr inIssue) ∧
      VecReady (rg 3 0 63 2 .bf16 .a) vf3 [.bf16, .fp32] (withStream .rd inIssue) ∧
      VecReady (rg 3 63 0 2 .int8 .b) vf2 [.int8] (withStream .rd inIssue) ∧
      VecReady (rg 3 4 5 0 .fp16 .c) vf3 [.fp16] (withStream .rd inIssue) := by
  refine ⟨⟨?_, ?_, ?_, ?_, ?_, trivial⟩, ⟨?_, ?_, ?_, ?_, ?_, writeReady⟩, ⟨?_, ?_, ?_, ?_, ?_, readReady⟩,
    ⟨?_, ?_, ?_, ?_, ?_, readReady⟩, ⟨?_, ?_, ?_, ?_, ?_, readReady⟩⟩ <;> decide +kernel

theorem witness_GuardedResult : (63 : Nat) < 64 ∧ 8 * 256 = 2048 ∧ 64 * 32 = 2048 ∧ ∀ e : Nat, (fun _ => 255) e < 2 ^ 8 := by
  exact ⟨by decide, rfl, rfl, fun _ => (by decide : 255 < 2 ^ 8)⟩

theorem witness_VectorBinary :
    (let s := inIssue.mapCore (fun c => { c with nV := 32 })
     (rg 32 0 1 0).qsel = .none ∧ ¬ ((rg 32 0 1 0).d.toNat < s.core.nV) ∧ (rg 32 31 1 0).a.toNat < s.core.nV ∧
       (rg 32 0 31 0).b.toNat < s.core.nV) ∧
    ((rg 63 0 1 0 .raw).t = .raw ∧ (rg 63 0 1 0 .raw).d.toNat < inIssue.core.nV) ∧
    ((rg 63 0 1 0 .fp32 .a).qsel = .a ∧ inIssue.rdQ 0 = none) := by decide +kernel

theorem witness_VectorUnaryFused : isElem (rg 63 0 1 2 .int16).t = true := by decide

theorem witness_VectorConversions : (rg 63 0 0 0 .sx3).t.isSx = true ∧ (rg 63 0 0 0 .sx3).t2 = .fp32 ∧
    isElem (rg 63 0 0 0 .bf16).t2 = true := by decide

theorem witness_VectorReductions : isElem (rg 63 0 0 0 .fp16).t = true ∧ (rg 63 0 0 0 .fp16).qsel = .none := by decide

theorem witness_VectorMoves : (63 : Reg).toNat < inIssue.core.nV := by decide +kernel

theorem witness_PredicateOps : (rg 15 1 0 0 .sx8).t ≠ .raw := by decide

/-- X1 is the last aligned 8-byte place of the local store. -/
def atTop : State := withX 1 0x1FFFF8 inIssue

/-- `ld` or `st` of X2 at X1 plus an offset. -/
def ms (off : BitVec 32) (w : Width := .w64) : MS := ⟨2, 1, w, false, false, off⟩

theorem witness_LocalScalars :
    (atTop.poisonX 1 = false ∧ LocalRange atTop (addrOf atTop 1 0) 8 ∧ localBad atTop (addrOf atTop 1 0) 8 = false ∧
      atTop.core.gate.length < 64 ∧ atTop.mem.wf = true) ∧
    (let s := { atTop with mem := atTop.mem.mark (ownLs 0x1FFFF8) }
     LocalRange s (addrOf s 1 0) 8 ∧ localBad s (addrOf s 1 0) 8 = true) ∧
    (badX 1 atTop).poisonX 1 = true ∧ lsSize ≤ addrOf atTop 1 8 ∧
    (addrOf atTop 1 7 < lsSize ∧ lsSize < addrOf atTop 1 7 + 8) := by
  unfold LocalRange
  decide +kernel

theorem witness_LocalScalars_store : ∃ t, exec (.st (ms 0)) atTop = .next t := by
  have h : (match exec (.st (ms 0)) atTop with | .next _ => true | _ => false) = true := by decide +kernel
  revert h
  cases exec (.st (ms 0)) atTop with
  | next t => exact fun _ => ⟨t, rfl⟩
  | fault _ => intro h; cases h
  | refused _ => intro h; cases h

/-- A store of the interval before the one of bundle `b`. -/
def gatedStore (b : Nat) : GateEntry :=
  { bundle := b, slot := 5, op := .store { cells := [(ownLs 0, 1), (ownLs 1, 2)], poisoned := [], ovfs := false } }

theorem witness_StoreGate :
    (let d : StoreData := { cells := [(hostBase, 1), (ownLs 1, 2), (hostBase, 3)], poisoned := [hostBase], ovfs := false }
     atFetch.mem.wf = true ∧ d.cells = [(hostBase, 1)] ++ (ownLs 1, 2) :: [(hostBase, 3)] ∧ hostBase ≠ ownLs 1 ∧
       homeOf (physOf hostBase) = .host ∧ hostBase ∈ d.poisoned ∧ ∀ q ∈ d.cells, q.1 ≠ 7) := by
  decide +kernel

theorem witness_StoreGate_release :
    ∀ e ∈ (inIssue.mapCore (fun c => { c with gate := [gatedStore 1, gatedStore 2] })).core.gate, ∃ d, e.op = .store d := by
  intro e he
  have h : e = gatedStore 1 ∨ e = gatedStore 2 := by simpa [State.mapCore] using he
  rcases h with h | h <;> exact h ▸ ⟨_, rfl⟩

/-- `vld` and `vst` of V63 (of Q0, where `q`) at X1. -/
def mv (d : Reg) (q : Bool) (off : BitVec 22 := 0) : MV := ⟨d, 1, 0, .fp32, .dyn, false, .none, false, q, off⟩

/-- `vlds`, `vldx` and their stores: V63 at X1 with the stride X3 or the index V3. -/
def mvx : MVX := ⟨63, 1, 0, .fp32, .dyn, false, .none, false, 3, 0⟩

/-- X1 is the last place of the local store at which 256 bytes fit. -/
def atTile : State := withX 1 0x1FFF00 inIssue

theorem witness_LocalVectors :
    (LoadRegs atTile 63 false 1 ∧ atTile.chkLocal (addrOf atTile 1 0) .fp32 false .contiguous (atTile.guard 0) = .ok) ∧
    (StoreRegs atTile 63 false 1 ∧ atTile.chkLocal (addrOf atTile 1 0) .fp32 true .contiguous (atTile.guard 0) = .ok) ∧
    (let s := withX 3 0xFFFFFFFFFFFFFFFC (withX 1 0x1FFFFC inIssue)
     LoadRegs s 63 false 1 ∧ StoreRegs s 63 false 1 ∧ s.poisonX 3 = false ∧
       s.chkLocal (addrOf s 1 0) .fp32 false (.strided (s.rdX 3).toInt) (s.guard 0) = .ok ∧
       s.chkLocal (addrOf s 1 0) .fp32 true (.strided (s.rdX 3).toInt) (s.guard 0) = .ok) ∧
    ((3 : Reg).toNat < atTile.core.nV ∧ atTile.chkIndex 3 .fp32 0 = .ok ∧
       atTile.chkLocal (addrOf atTile 1 0) .fp32 false (atTile.index 3 .fp32) (atTile.guard 0) = .ok ∧
       atTile.chkLocal (addrOf atTile 1 0) .fp32 true (atTile.index 3 .fp32) (atTile.guard 0) = .ok) ∧
    (atTile.view.tag (regionOf (ownLs 0x1FFF00))).1 = .raw := by
  simp only [LoadRegs, StoreRegs, Bool.false_eq_true, if_false]
  decide +kernel

theorem witness_LocalVectors_stream :
    LoadRegs (withStream .wr atTile) 0 true 1 ∧ StoreRegs (withStream .rd atTile) 0 true 1 := by
  refine ⟨⟨?_, by decide +kernel⟩, ⟨?_, by decide +kernel, by decide +kernel⟩⟩
  · exact ⟨⟨_, rfl, by decide +kernel⟩, by decide +kernel⟩
  · exact ⟨⟨_, rfl, by decide +kernel⟩, by decide +kernel⟩
/-! ### Witnesses: far accesses, tags, the matrix unit -/

/-- Virtual 0x100000 to 0x1FFFFF on the own home slice, readable and writable, kind RC. -/
def dataPage : Entry := { fetchEntry 0 with vbase := 0x100000, size := 20, pbase := sramBase, kind := .rc, w := true, x := false }

/-- In issue with that page mapped, and X1 its last aligned 8-byte place. -/
def onPage : State := (withX 1 0x1FFFF8 inIssue).mapCore (fun c => { c with table := [dataPage] })

theorem witness_FarAccesses :
    (onPage.poisonX 1 = false ∧ Permitted onPage .load (addrOf onPage 1 0) 8 ∧ Permitted onPage .store (addrOf onPage 1 0) 8 ∧
      onPage.meetsAtomic (onPage.partsOf (stretches onPage.core.table 300 (addrOf onPage 1 0) 8)) = false ∧
      onPage.core.loads.length < 16 ∧ onPage.core.gate.length < 64 ∧ onPage.core.queued < 32 ∧
      onPage.core.regs.sys.errinj.toNat % 16 = 0) ∧
    (onPage.core.iss.fault = none ∧ ∀ i, i < 8 → entryAt onPage.core.table (addrOf onPage 1 8 + i) = none) := by
  refine ⟨⟨by decide +kernel, ?_, ?_, by decide +kernel⟩, by decide +kernel⟩ <;>
    (intro i hi; refine ⟨dataPage, ?_, rfl, rfl⟩; interval_cases i <;> decide +kernel)

/-- X1 is the last place of the page at which 256 bytes fit. -/
def tilePage : State := withX 1 0x1FFF00 onPage

theorem witness_FarAccesses_vector :
    LoadRegs tilePage 63 false 1 ∧ tilePage.chkFar (addrOf tilePage 1 0) .fp32 false (tilePage.guard 0) = .ok ∧
      StoreRegs tilePage 63 false 1 ∧ tilePage.chkFar (addrOf tilePage 1 0) .fp32 true (tilePage.guard 0) = .ok ∧
      (withStream .wr tilePage).core.loads.length < 16 ∧
      (withStream .wr tilePage).chkFar (addrOf tilePage 1 0) .fp32 false ((withStream .wr tilePage).guard 0) = .ok ∧
      (withStream .rd tilePage).chkFar (addrOf tilePage 1 0) .fp32 true ((withStream .rd tilePage).guard 0) = .ok := by
  simp only [LoadRegs, StoreRegs, Bool.false_eq_true, if_false]
  decide +kernel

theorem witness_FarAccesses_stream :
    LoadRegs (withStream .wr tilePage) 0 true 1 ∧ StoreRegs (withStream .rd tilePage) 0 true 1 :=
  ⟨⟨⟨⟨_, rfl, by decide +kernel⟩, by decide +kernel⟩, by decide +kernel⟩,
    ⟨⟨⟨_, rfl, by decide +kernel⟩, by decide +kernel⟩, by decide +kernel, by decide +kernel⟩⟩

/-- A load of 256 bytes whose image Q0 takes. -/
def imageLoad : FarLoad :=
  { id := 9, strand := 0, bundle := 0, slot := 4, acq := false, parts := [{ addr := sramBase, len := 256, kind := .rc, lost := false }],
    form := .vector { rw := 32, n := 64, mv := .bits, e := 4 } .fp32 .fp32 .packed [] 0 false, reg := 0, inject := false, stream := some 0 }

theorem witness_FarAccesses_image :
    (imageLoad.stream = some 0 ∧ imageLoad.form = .vector { rw := 32, n := 64, mv := .bits, e := 4 } .fp32 .fp32 .packed [] 0 false) ∧
    (let g : GateEntry := { bundle := 0, slot := 4, op := .imageOf 0 imageLoad.id }
     (inIssue.mapCore (fun c => { c with gate := [g] })).core.gate = [g]) ∧
    (inIssue.core.gate = [] ∧ inIssue.core.running = some imageLoad.strand) := by
  decide +kernel

theorem witness_FormatTags :
    (let s := withX 2 0x1000 (withX 1 0x1FF000 inIssue)
     s.poisonX 1 = false ∧ (s.rdX 1).toNat % 4096 = 0 ∧ (s.rdX 2).toNat % 4096 = 0 ∧
       (s.rdX 1).toNat + (s.rdX 2).toNat ≤ lsSize ∧ s.core.gate.length < 64) ∧
    ((withX 1 0x800 inIssue).rdX 1).toNat % 4096 ≠ 0 ∧ ((withX 2 1 inIssue).rdX 2).toNat % 4096 ≠ 0 ∧ inIssue.mem.wf = true ∧
    (let s := withX 2 0x2000 (withX 1 0x1FF000 inIssue)
     s.poisonX 1 = false ∧ (s.rdX 1).toNat % 4096 = 0 ∧ (s.rdX 2).toNat % 4096 = 0 ∧ (s.rdX 2).toNat ≠ 0 ∧
       lsSize < (s.rdX 1).toNat + (s.rdX 2).toNat) ∧
    (badX 1 inIssue).poisonX 1 = true := by
  decide +kernel

/-- A chute of two INT8 slots of 2,048 bytes, of which `n` are committed. -/
def chute (nm : ClaimName) (base n : Nat) : Chute :=
  { name := nm, base := base, slotBytes := 2048, slots := 2, fmt := .int8, geo := .packed, commits := n,
    extents := [(128, 16), (128, 16)], members := [{ core := 0, head := 0, reserved := 0, landed := n }], producer := none,
    dirty := [], broken := false, closed := false }

/-- CH0 and CH1 name chutes 5 and 6; chute 5 is also staged. -/
def withChutes (a b : Chute) (s : State) : State :=
  ((s.mapRegs (fun r => { r with ch := vset (vset r.ch 0 (.valid 5)) 1 (.valid 6) })).mapDev (fun d => { d with chutes := [a, b] })).mapCore
    (fun c => { c with mx := { c.mx with staged := [6] } })

/-- `mma` of A3 on two chutes, or on CH0 alone. -/
def mma (b : BitVec 3) (col : Bool) : MM := ⟨3, 0, b, .int8, false, col, 0, 0⟩

theorem witness_MmaResult :
    (let s := withChutes (chute 5 0 1) (chute 6 4096 1) inIssue
     chkMma (mma 1 true) s = .ok ∧ readyMma (mma 1 true) s = .go ∧ MM.void (mma 1 true) s = false ∧
       s.chuteOf 0 = some (chute 5 0 1) ∧ s.chuteOf 1 = some (chute 6 4096 1)) ∧
    (let s := withChutes (chute 5 0 2) (chute 6 4096 1) inIssue
     chkMma (mma 0 false) s = .ok ∧ readyMma (mma 0 false) s = .go ∧ MM.void (mma 0 false) s = false ∧ MM.same (mma 0 false) s = true) := by
  decide +kernel

/-- A program of one FP32 output instruction, and MACCLD's operand. -/
def mx (acc : BitVec 2) (t : Fmt := .fp32) : MX := ⟨acc, 1, t, .dyn, false, .none⟩

theorem witness_AccumulatorMoves :
    (mx 3).acc.toNat < inIssue.core.nA ∧ inIssue.poisonX 1 = false ∧
    (let s := withX 1 0x1F0000 inIssue
     (s.rdX 1).toNat % 4 = 0 ∧ (s.rdX 1).toNat + 65536 ≤ lsSize ∧ s.core.gate.length < 64) ∧
    ((withX 1 0x1F0002 inIssue).rdX 1).toNat % 4 ≠ 0 ∧ lsSize ≤ ((withX 1 0x200000 inIssue).rdX 1).toNat ∧
    (let a := ((withX 1 0x1F0004 inIssue).rdX 1).toNat
     a % 4 = 0 ∧ a < lsSize ∧ lsSize < a + 65536) := by
  decide +kernel

/-- A program of one EOUT in the local store at 0x1FFFFC. -/
def epiHere (w : BitVec 32) : State :=
  let s := withX 1 0x1FFFFC inIssue
  { s with mem := s.mem.store (cellsAt (ownLs 0x1FFFFC) (bytesOfNat 4 w.toNat)) [] }

theorem witness_AccumulatorMoves_epld :
    (let s := epiHere 0x80000000
     s.poisonX 1 = false ∧ (s.rdX 1).toNat % 4 = 0 ∧ (s.rdX 1).toNat + 4 * 1 ≤ lsSize ∧
       epiCheck 1 ((List.range 1).map (fun i => s.viewM.num (ownLs ((s.rdX 1).toNat + 4 * i)) 4)) [] 0 = none) ∧
    (let s := epiHere 0xF0000000
     (epiCheck 1 ((List.range 1).map (fun i => s.viewM.num (ownLs ((s.rdX 1).toNat + 4 * i)) 4)) [] 0).isSome = true) ∧
    lsSize < ((epiHere 0).rdX 1).toNat + 4 * 2 := by
  decide +kernel

theorem lowestBad_none (p : Nat → Bool) (l : List Nat) (h : ∀ a ∈ l, p a = false) : lowestBad p l = none := by
  have : l.filter p = [] := by simpa [List.filter_eq_nil_iff] using h
  simp [lowestBad, this]

theorem drain_bounds (x : X64) (hb : outBase x = 0x1F0000) (hp : outPitch x .fp32 = 512) :
    lowestBad (fun a => decide (lsSize ≤ a)) (outAddrs x .fp32) = none := by
  refine lowestBad_none _ _ fun a h => ?_
  simp only [outAddrs, List.mem_flatten, List.mem_map, List.mem_range, exists_exists_and_eq_and, hb, hp] at h
  obtain ⟨r, hr, i, hi, rfl⟩ := h
  have : rowBytes .fp32 = 512 := rfl
  refine decide_eq_false ?_
  simp only [lsSize]
  omega

/-- An MDRAIN with no program passes its checks where its parts do. -/
theorem chkMdrain_ok (f : MX) (s : State) (hA : s.needAlloc [(50, s.hasA f.acc.toNat)] = .ok) (hp : outputOf s.program = .out)
    (ht : needTyped f.t = .ok) (hx : s.needCtl f.a = .ok) (hg : s.needGate = .ok)
    (hb : ¬ (bitsAt (s.rdX f.a).toNat 23 21 ≠ 0 ∨ bitsAt (s.rdX f.a).toNat 63 42 ≠ 0))
    (ho : lowestBad (fun a => decide (lsSize ≤ a)) (outAddrs (s.rdX f.a) f.t) = none) : chkMdrain f s = .ok := by
  simp only [chkMdrain, hA, hp, ht, hx, hg, hb, ho, if_false, Chk.and]

theorem witness_DrainOutput :
    let s := withX 1 0x1F0000 inIssue
    chkMdrain (mx 3) s = .ok ∧ readyMdrain (mx 3) s = .go ∧ s.core.regs.epi = [] := by
  refine ⟨chkMdrain_ok _ _ (by decide +kernel) (by decide +kernel) (by decide +kernel) (by decide +kernel) (by decide +kernel)
    (by decide +kernel) (drain_bounds _ (by decide +kernel) (by decide +kernel)), by decide +kernel, by decide +kernel⟩
/-! ### Witnesses: engines, claims, chutes, ricks and links -/

/-- X2, X3: 0x100000 to 0x100010 in the page of `onPage`. -/
def copying (n : X64) : State := withX 3 n (withX 2 0x100000 (withX 1 0x100100 onPage))

theorem witness_EngineCommands :
    (let f : EACopy := ⟨4, 1, 2, 3, .raw, .dyn, .none⟩
     chkCopyOp f (copying 16) = .ok ∧ (copying 16).cmds Cmd.isCopy < 16 ∧ (copying 16).rdX 3 ≠ 0 ∧
       chkCopyOp f (copying 0) = .ok ∧ (copying 0).rdX 3 = 0) := by
  decide +kernel

/-- The words of an affine record that reads 256 bytes at 0x100000 (R288); a copy of it writes them at `dst`. -/
def record (dst : Nat) : List Nat :=
  [dst, 0x100000, 1 * 2 ^ 16 + 31, 256, 1, 0, 0, 0, 0, 0, 0, 0, 0, 0, 0, 0]

/-- X1 is the record's place, the last at which one fits. -/
def withRecord (dst : Nat) : State :=
  let s := withX 1 0x1FFF80 onPage
  { s with mem := s.mem.store (cellsAt (ownLs 0x1FFF80) ((record dst).map (bytesOfNat 8)).flatten) [] }

def copya : EA := ⟨4, 1, 0, 0, 0⟩

theorem witness_EngineCommands_record : chkCopya copya (withRecord 0x100100) = .ok ∧ (4 : Nat) ≠ 0 := by decide +kernel

/-- A run of `len` bytes between two places of the own home slice. -/
def copyRun (fs : Fmt) (len : Nat) : CopyRun :=
  let part := fun (a : Nat) => { addr := a, len := 256, kind := .rc, lost := false : Part }
  { src := [part sramBase], dst := [part (sramBase + 0x1000)], fs := fs, gs := .packed, len := len, first := 0 }

theorem witness_EngineCommands_run :
    inIssue.mem.wf = true ∧ (isRaw .raw (copyRun .raw 4).fs = true ∧ CopyClean inIssue (copyRun .raw 4) 4) ∧
    (isRaw .bf16 (copyRun .fp32 4).fs = false ∧ isElem .bf16 = true ∧ isElem (copyRun .fp32 4).fs = true ∧
      (copyRun .fp32 4).len = 1 * elemBytes (copyRun .fp32 4).fs ∧ CopyClean inIssue (copyRun .fp32 4) (1 * elemBytes .bf16)) := by
  unfold CopyClean
  decide +kernel

theorem witness_StreamBinding :
    chkStrb ⟨1, 7, .rd⟩ (withRecord 0) = .ok ∧ inIssue.rdQ 0 = none ∧
    (let s := withStream .rd inIssue
     (s.rdQ 0).isSome = true ∧ s.poisonX 1 = false ∧ chkStru ⟨4, 0, 0, 0, 0⟩ s = .ok ∧ readyStru ⟨4, 0, 0, 0, 0⟩ s = .go) := by
  decide +kernel

/-- X1 in a page of host memory. -/
def hostPage : State :=
  (withX 1 0x1FFFF0 onPage).mapCore (fun c => { c with table := [{ dataPage with pbase := hostBase, kind := .un }] })

theorem witness_Atomics :
    (onPage.poisonX 1 = false ∧ (onPage.rdX 1).toNat % 8 = 0 ∧ RangePermitted onPage [.load, .store] (onPage.rdX 1).toNat 8 ∧
      RangePermitted onPage [.store] (onPage.rdX 1).toNat 8 ∧ NoHost onPage (onPage.rdX 1).toNat 8 ∧ onPage.core.gate.length < 64 ∧
      onPage.core.regs.arq.length < 16 ∧ onPage.core.queued < 32) ∧
    ((withX 1 4 inIssue).rdX 1).toNat % 8 ≠ 0 ∧
    (let s := withX 1 0x1FFFF0 onPage
     (s.rdX 1).toNat % 16 = 0 ∧ RangePermitted s [.load, .store] (s.rdX 1).toNat 16 ∧ NoHost s (s.rdX 1).toNat 16) ∧
    (RangePermitted hostPage [.load, .store] (hostPage.rdX 1).toNat 16 ∧ ¬ NoHost hostPage (hostPage.rdX 1).toNat 16 ∧
      ¬ NoHost hostPage (hostPage.rdX 1).toNat 8) ∧
    (let s := inIssue.mapRegs (fun r => { r with arq := [{ id := 1, value := some (7, false) }] })
     s.core.regs.arq = [{ id := 1, value := some (7, false) }]) ∧ inIssue.core.regs.arq = [] := by
  unfold RangePermitted NoHost
  decide +kernel

/-- The page as one of BFP64 blocks. -/
def bfpPage : State := tilePage.mapCore (fun c => { c with table := [{ dataPage with fmt := .bfp64 }] })

theorem witness_Atomics_bfp :
    let f : EARed := ⟨1, 63, .bfpadd, .w64⟩
    f.b.toNat < bfpPage.core.nV ∧ bfpPage.poisonX 1 = false ∧ (bfpPage.rdX 1).toNat % redLen f = 0 ∧
      RangePermitted bfpPage [.store] (bfpPage.rdX 1).toNat (redLen f) ∧ NoHost bfpPage (bfpPage.rdX 1).toNat (redLen f) ∧
      bfpPage.chkBfpPage (bfpPage.rdX 1).toNat = .ok := by
  unfold RangePermitted NoHost
  decide +kernel

/-- The first name that the device gives (R202). -/
def firstName : ClaimName := mkName 1 1 1

/-- A live claim of the type under the first name, with `uses` uses and the own cache as its holder. -/
def claim (ty : ClaimType) : Claim :=
  { name := firstName, ty := ty, state := .live, owner := 0, home := 0, base := 0, size := 0, attr := 0, uses := [],
    holders := [ownCache], token := none }

/-- The claim is entered, and N2 holds its name. -/
def named (ty : ClaimType) (s : State) : State :=
  (s.mapDev (fun d => { d with claims := [claim ty] })).mapRegs (fun r => { r with n := vset r.n 2 firstName })

theorem witness_ClaimOps :
    (let s := withX 2 16 (withX 1 0x1FFFF0 onPage)
     chkClaim ⟨4, 1, 2, 7, .tensor⟩ s = .ok) ∧
    (let s := named .tensor inIssue
     s.resolve s.core.tenant (s.rdN 2) = some (claim .tensor) ∧ (claim .tensor).ty ≠ .group) ∧
    inIssue.resolve inIssue.core.tenant (inIssue.rdN 2) = none ∧
    (let s := withX 1 0x1FFFC0 inIssue
     s.poisonX 1 = false ∧ (s.rdX 1).toNat % 64 = 0 ∧ (s.rdX 1).toNat + 64 ≤ lsSize ∧ s.core.gate.length < 64) ∧
    ((withX 1 0x20 inIssue).rdX 1).toNat % 64 ≠ 0 ∧ lsSize < ((withX 1 0x200000 inIssue).rdX 1).toNat + 64 := by
  decide +kernel

/-- The named chute `k` stands with its claim, and CH0 is open on it. -/
def openChute (k : Chute) : State :=
  ((named .chute inIssue).mapDev (fun d => { d with chutes := [{ k with name := firstName }] })).mapRegs
    (fun r => { r with ch := vset r.ch 0 (.valid firstName) })

/-- A QCLAIM of the first name into the last 64 bytes of the local store is at its engine. -/
def querying : Engine :=
  { id := 2, strand := 0, bundle := 0, slot := 6, tok := 4, cmd := .qclaim firstName 0x1FFFC0, done := none }

/-- The name that it finds, in a state where it is there. -/
def queriedIn (s : State) : Option Claim := (s.shieldGate querying (span (ownLs 0x1FFFC0) 64)).queried 0 firstName

theorem witness_ClaimOps_record :
    (let s := (named .tensor inIssue).mapCore (fun c => { c with engs := [querying] })
     s.core.engs[0]? = some querying ∧ querying.done = none ∧ querying.cmd = .qclaim firstName 0x1FFFC0 ∧ s.mem.wf = true ∧
       0x1FFFC0 + 64 ≤ lsSize ∧ s.tenantOf querying.strand = 0 ∧ queriedIn s = some (claim .tensor) ∧ (claim .tensor).owner < 64 ∧
       (claim .tensor).home < 2 ^ 64) ∧
    queriedIn (inIssue.mapCore (fun c => { c with engs := [querying] })) = none := by
  decide +kernel

theorem witness_ChuteOps :
    (let k := { chute 5 0 1 with name := firstName }
     let s := openChute k
     s.chuteNamed (s.rdN 2) = some (claim .chute, some k) ∧ k.ownMember ≠ none ∧ k.final = false ∧ k.room = true ∧
       s.needChute 0 = .ok ∧ s.core.gate.length < 64) ∧
    (let k := { chute 5 0 2 with name := firstName, closed := true }
     (openChute k).chuteNamed ((openChute k).rdN 2) = some (claim .chute, some k) ∧ k.final = true) ∧
    inIssue.chuteNamed (inIssue.rdN 2) = none ∧
    commitOk ((withX 4 (0x400 * 2 ^ 40 + 128 * 2 ^ 32) inIssue).rdX 4) = true ∧ commitOk ((withX 4 (2 ^ 53) inIssue).rdX 4) = false ∧
    inIssue.rdCh 1 = .invalid := by
  decide +kernel

/-- K3 names a rick; the segment register X1 holds 255, X2 a tile's place or a count. -/
def withRick (n : X64) : State :=
  (withX 2 n (withX 1 255 inIssue)).mapRegs (fun r => { r with k := vset r.k 3 (.valid firstName) })

theorem witness_RickOps :
    (RickReady (withRick 8) 3 1 ∧ 2 ≤ ((withRick 8).rdX 2).toNat ∧ ((withRick 8).rdX 2).toNat ≤ 8 ∧
      ¬ (2 ≤ ((withRick 9).rdX 2).toNat ∧ ((withRick 9).rdX 2).toNat ≤ 8) ∧ RickAddr (withRick 0x1FFF00) 2) ∧
    ((withRick 0x1FFF00).poisonX 2 = false ∧ chkPushSource ⟨4, 1, 2, 3, .raw, .none, false, 1⟩ (withRick 0x1FFF00) = .ok ∧
      chkPushSkip ⟨4, 1, 2, 3, .raw, .none, true, 1⟩ (withRick 0x1FFF00) = .ok) ∧
    inIssue.rdK 3 = .invalid ∧
    (let s := withX 1 0x1FF700 (named .rick inIssue)
     RickAddr s 1 ∧ (s.rdX 1).toNat + 2112 ≤ lsSize ∧ s.cmds Cmd.isRick < 8 ∧
       s.resolve s.core.tenant (s.rdN 2) = some (claim .rick) ∧ (claim .rick).ty = .rick ∧
       s.resolve s.core.tenant (s.rdN 0) = none) := by
  unfold RickReady RickAddr
  decide +kernel

/-- A rick of segment 0 under the first name, of the capacity and with the tables. -/
def newRick (capacity : Nat) (tables : List (List Nat)) : Rick := Rick.fresh firstName capacity 0 tables

/-- It stands with its claim. -/
def ricked (r : Rick) : State := inIssue.mapDev (fun d => { d with ricks := [r], claims := [claim .rick] })

/-- A command on it. -/
def rickCmd (seg : Nat) (op : RickOp) : RickCmd := { rick := firstName, seg := seg, op := op }

/-- A run with one tile: of 256 bytes 0 by a table that gives the symbol 0 every slot, or of `.skip`. No word is stored for either. -/
def oneTile (skip : Bool) (damaged : List Nat) : Run :=
  { Run.fresh 0 with lanes := (if skip then 2 ^ 31 + 140735340895104 else 2 ^ 31 + 4503597614104960) :: List.replicate 31 (2 ^ 31),
                     depth := 1, damaged := damaged }

/-- A rick whose segment 0 holds that run. -/
def tiled (skip : Bool) (damaged : List Nat) : Rick :=
  (newRick 8192 [4096 :: List.replicate 255 0]).setSeg 0 (fun g => { g with layers := [{ run := oneTile skip damaged, children := [] }] })

/-- Segment 0 has been split into two open segments. -/
def splitRick (capacity : Nat) (top : Run) : Rick :=
  { newRick capacity [] with
    segs := [{ state := .split, parent := 0, owed := 0, layers := [{ run := Run.fresh 1, children := [1, 2] }] },
             { state := .open, parent := 0, owed := 0, layers := [{ run := top, children := [] }] },
             { state := .open, parent := 0, owed := 0, layers := [{ run := Run.fresh 3, children := [] }] }],
    nextRun := 4 }

theorem witness_RickOps_marks :
    let r := newRick 8192 []
    let full := { r with marks := List.replicate 256 { seg := 0, run := 9, depth := 0, pos := 0, lanes := [] } }
    (ricked r).rick? firstName = some r ∧ inIssue.rick? firstName = none ∧ r.opens 255 = false ∧ r.opens 0 = true ∧ (r.seg? 0).isSome = true ∧
      r.marks.length < 256 ∧ (ricked full).rick? firstName = some full ∧ full.opens 0 = true ∧ 256 ≤ full.marks.length := by
  decide +kernel

/-- What the run of a segment costs when it is closed. -/
def closing (q : Run) : Nat := if q.closed = false ∧ q.depth ≠ 0 then 256 else 0

theorem witness_RickOps_split :
    (let r := tiled false []
     (ricked r).rick? firstName = some r ∧ r.opens 0 = true ∧ (r.seg? 0).map (·.top) = some (oneTile false []) ∧ closing (oneTile false []) = 256 ∧
       r.segs.length + 2 ≤ 256 ∧ r.used + 256 ≤ r.capacity) ∧
    (let r := { tiled false [] with capacity := 255 }
     (ricked r).rick? firstName = some r ∧ r.opens 0 = true ∧ r.capacity < r.used + 256) ∧
    (let r := { newRick 8192 [] with
       segs := List.replicate 255 { state := .open, parent := 0, owed := 0, layers := [{ run := Run.fresh 1, children := [] }] } }
     (ricked r).rick? firstName = some r ∧ r.opens 0 = true ∧ 256 < r.segs.length + 2) ∧
    (let kids := fun (r : Rick) => (((r.seg? 0).bind (·.layers.head?)).map (·.children)).getD []
     let total := fun (r : Rick) => r.used + (((kids r).filterMap r.seg?).map (fun q => closing q.top)).sum
     let r := splitRick 8192 (oneTile false [])
     let small := splitRick 255 (oneTile false [])
     (ricked r).rick? firstName = some r ∧ (r.seg? 0).map (·.state) = some .split ∧ kids r = [1, 2] ∧ (kids r).length ≠ 3 ∧
       (∀ i ∈ kids r, (r.seg? i).map (·.state) ≠ some .split) ∧ total r ≤ r.capacity ∧ kids small = [1, 2] ∧ small.capacity < total small) := by
  decide +kernel

/-- A push of a tile of 256 bytes from the start of the local store. -/
def pushing (skip : Bool) : RickOp := .push skip 256 .raw 0 .raw .packed false (inIssue.snap .dyn)

theorem witness_RickOps_push :
    (let s := ricked (newRick 8192 [])
     let bad := { s with mem := s.mem.mark (ownLs 4) }
     let x := fun (u : State) => (u.pushedTile 256 .raw 0 .raw .packed false (inIssue.snap .dyn)).2.1
     x s = false ∧ x bad = true ∧ bad.rick? firstName = some (newRick 8192 []) ∧ (newRick 8192 []).opens 0 = true) ∧
    (let r := newRick 8192 []
     let d := (Run.fresh 0).coder.pushSkip { t := .raw, g := .packed, len := 256, bytes := [] }
     (r.seg? 0).map (·.top) = some (Run.fresh 0) ∧ r.used + 4 * (d.words.length - (Run.fresh 0).words.length) ≤ r.capacity) ∧
    (isRaw .raw .raw = true ∧ isRaw .bf16 .fp32 = false ∧ isElem .bf16 = true ∧ isElem .fp32 = true ∧ 256 = 128 * elemBytes .bf16) := by
  decide +kernel

/-- A rick with a run of 255 lanes' words, of a capacity that it fills. -/
def fullRick : Rick :=
  (newRick 256 []).setSeg 0 (fun g => { g with layers := [{ run := { Run.fresh 0 with
    lanes := List.replicate 32 (2 ^ 63 - 1), words := List.replicate 64 0, depth := 1 }, children := [] }] })

theorem witness_RickOps_pushFull :
    let g : Segment := ((fullRick.seg? 0).getD ⟨.open, 0, 0, []⟩)
    let d := g.top.coder.pushSkip { t := .raw, g := .packed, len := 256, bytes := [] }
    fullRick.opens 0 = true ∧ fullRick.capacity < fullRick.used + 4 * (d.words.length - g.top.words.length) := by
  decide +kernel

theorem witness_RickOps_pop :
    (let r := splitRick 8192 (oneTile false [])
     (r.seg? 0).map (·.state) = some .split) ∧
    (let r := (tiled false []).setSeg 0 (fun g => { g with owed := 3 })
     (ricked r).rick? firstName = some r ∧ (r.seg? 0).map (fun g => (g.state, g.owed)) = some (.open, 3)) ∧
    (let r := newRick 8192 []
     (r.seg? 0).map (fun g => (g.owed, g.layers)) = some (0, [{ run := Run.fresh 0, children := [] }]) ∧ (Run.fresh 0).depth = 0) ∧
    (let r := tiled false [0]
     (r.seg? 0).map (fun g => (g.owed, g.layers)) = some (0, [{ run := oneTile false [0], children := [] }]) ∧
       (oneTile false [0]).damaged.contains ((oneTile false [0]).depth - 1) = true) ∧
    ((tiled true []).seg? 0).map (fun g => (g.owed, g.layers)) = some (0, [{ run := oneTile true [], children := [] }]) ∧
    (oneTile true []).coder.popHeader.2.flag = 2 ∧
    (let h := (oneTile false []).coder.popHeader
     ((tiled false []).seg? 0).map (fun g => (g.owed, g.layers)) = some (0, [{ run := oneTile false [], children := [] }]) ∧ h.2.flag ≠ 2 ∧
       lsSize < 0x1FFF80 + h.2.len ∧ 0x1FFF00 + h.2.len ≤ lsSize) ∧
    (oneTile false []).depth ≠ 0 ∧ inIssue.mem.wf = true := by
  decide +kernel

/-- Neither tile reads a word, so whatever is damaged under the rick, the pop does not meet it. -/
theorem witness_RickOps_undamaged (skip : Bool) (e : Nat) : (tiled skip []).meetsDamage e false (oneTile skip []) = false := by
  have w : (tiled skip []).readsWord (oneTile skip []) = false := by cases skip <;> decide +kernel
  have d : (oneTile skip []).damaged.contains ((oneTile skip []).depth - 1) = false := rfl
  have c : (oneTile skip []).closed = false := rfl
  simp only [Rick.meetsDamage, w, d, c, Bool.and_false, Bool.or_false]

/-- Device 1 is in the domain's map; X1 names the peer and tag 31, X2 the last 256 bytes of the local store, X3 the count. -/
def linked (peer n : X64) : State :=
  (withX 3 n (withX 2 0x1FFF00 (withX 1 (31 * 2 ^ 16 + peer) inIssue))).mapDev (fun d => { d with ident := { d.ident with indom := true, map := [(1, 2)] } })

/-- A message of 256 bytes with tag 31. -/
def message : LinkMsg :=
  { peer := 1, tag := 31, bytes := List.replicate 256 0, poisoned := [false], tenant := 0, seq := 0 }

theorem witness_LinkOps :
    let ok := fun (s : State) => linkOk s.dev.ident.index (s.rdX 1) (s.rdX 3).toNat = true ∧ (s.rdX 2).toNat % 256 = 0 ∧
      (s.rdX 2).toNat + (s.rdX 3).toNat ≤ lsSize ∧ s.poisonX 2 = false ∧ s.core.gate.length < 64
    (ok (linked 1 256) ∧ (linked 1 256).dev.unreachable 1 = false ∧ 1 ≤ ((linked 1 256).queue 1).credits ∧
      ((linked 1 256).queue 1).msgs = []) ∧
    (ok (linked 2 256) ∧ (linked 2 256).dev.unreachable 2 = true) ∧
    (let s := (linked 1023 256).mapDev (fun d => { d with block := [(0x2000 + 32 * 767, 0x8000000000000000)],
                                                            entries := [(0x2000 + 32 * 767, 0x8000000000000000)] })
     ok s ∧ s.dev.unreachable 1023 = false) ∧
    (let s := (linked 1 256).mapDev (fun d => d.mapQueue 0 1 (fun q => { q with msgs := [message] }))
     ok s ∧ (s.queue 1).msgs = [message] ∧ message.tag = linkTag (s.rdX 1) ∧ msgEntries message = 1) ∧
    (let m : LinkMsg := { message with tag := 30 }
     let s := (linked 1 256).mapDev (fun d => d.mapQueue 0 1 (fun q => { q with msgs := [m] }))
     ok s ∧ (s.queue 1).msgs = [m] ∧ m.tag ≠ linkTag (s.rdX 1)) ∧
    ((linked 1 256).poisonX 2 = false ∧ (linked 1 256).dev.silent 1 = false) ∧
    (let s := (linked 1 256).mapDev (fun d => { d with ident := { d.ident with lost := [1] } })
     ok s ∧ (s.queue 1).msgs = [] ∧ s.dev.silent 1 = true) ∧
    linkOk 0 ((linked 1 128).rdX 1) 128 = false := by
  decide +kernel
/-! ### Witnesses: system registers, traps, groups and strands -/

/-- RDSR or WRSR of the number, with X1. -/
def sr (n : BitVec 12) : CGSr := ⟨1, 1, n, noCtl⟩

theorem witness_ReadSystem :
    (sr 0x027).srn.toNat = 0x020 + 7 ∧ (sr 0x03B).srn.toNat = 0x038 + 3 ∧ (sr 0x018).srn.toNat = 0x018 ∧
    (0x019 ≤ (sr 0x019).srn.toNat ∧ (sr 0x01F).srn.toNat < 0x020 ∧ 0x028 ≤ (sr 0x028).srn.toNat ∧ 0x03C ≤ (sr 0x03C).srn.toNat) ∧
    (63 : Reg).toNat < inIssue.core.nV ∧ (inIssue.mapCore (fun c => { c with nV := 63 })).core.nV ≤ (63 : Reg).toNat := by
  decide +kernel

theorem witness_WriteSystem :
    inIssue.poisonX 1 = false ∧ inIssue.core.iss.cur.loop = false ∧ inIssue.core.nV = 64 ∧
    (let s := (withX 1 0x700 inIssue).mapCore (fun c => { c with nV := 56 })
     s.core.nV ≠ 64 ∧ rrbVB (s.rdX 1) ≠ 0) ∧
    ((withX 1 5 inIssue).rdX 1).toNat % 8 < 6 ∧ 6 ≤ ((withX 1 6 inIssue).rdX 1).toNat % 8 ∧
    ((withX 1 3 inIssue).rdX 1).toNat % 16 = 3 ∧ 3 < ((withX 1 4 inIssue).rdX 1).toNat % 16 ∧
    (let s := withX 1 0x30001 (withRick 0)
     (s.rdX 1).toNat % 16 = 1 ∧ s.core.gate.length < 64 ∧ s.rdK ((s.rdX 1).toNat / 2 ^ 16 % 4) ≠ .invalid) ∧
    (let s := withX 1 1 inIssue
     (s.rdX 1).toNat % 16 = 1 ∧ s.rdK ((s.rdX 1).toNat / 2 ^ 16 % 4) = .invalid) ∧
    (0 < ((withX 1 6 inIssue).rdX 1).toNat % 32 ∧ ((withX 1 6 inIssue).rdX 1).toNat % 32 < 7 ∧ 17 < ((withX 1 18 inIssue).rdX 1).toNat % 32) ∧
    ((sr 0x01F).srn.toNat < 0x020 ∧ 0x03C ≤ (sr 0x03C).srn.toNat) ∧
    (7 ≤ ((withX 1 7 inIssue).rdX 1).toNat % 32 ∧ ((withX 1 17 inIssue).rdX 1).toNat % 32 ≤ 17) ∧
    (0x020 ≤ (sr 0x027).srn.toNat ∧ (sr 0x027).srn.toNat < 0x028 ∧ (sr 0x033).srn.toNat < 0x034 ∧ (sr 0x037).srn.toNat < 0x038 ∧
      (sr 0x03B).srn.toNat < 0x03C) ∧
    ((sr 0x00F).srn.toNat ≤ 0x00F ∧ 0x011 ≤ (sr 0x015).srn.toNat ∧ (sr 0x015).srn.toNat ≤ 0x015) := by
  decide +kernel

/-- TRAPV is armed. -/
def armed : State := inIssue.mapSys (fun y => { y with trapv := 0x20001 })

/-- A handler runs. -/
def inHandler : State := armed.mapSys (fun y => { y with trapc := 0x104, trappc := 0x10008 })

theorem witness_TrapDelivery :
    (255 < 256 ∧ armed.core.gate = [] ∧ armed.core.inter = [] ∧ armed.core.regs.sys.trapv.getLsbD 0 = true ∧
      armed.core.regs.sys.trapc.getLsbD 8 = false) ∧
    (inIssue.core.running = some 0 ∧ inIssue.dev.strands[0]? = some fetchStrand ∧ inIssue.core.regs.sys.trapv.getLsbD 0 = false) ∧
    (inHandler.core.running = some 0 ∧ inHandler.core.regs.sys.trapc.getLsbD 8 = true) := by
  decide +kernel

/-- A far load of bundle 0 at the byte's home. -/
def load (addr : Nat) : FarLoad :=
  { id := 9, strand := 0, bundle := 0, slot := 4, acq := false, parts := [{ addr := addr, len := 8, kind := .rc, lost := false }],
    form := .scalar true, reg := 5, inject := false }

/-- That load is in flight. -/
def loading (addr : Nat) : State := inIssue.mapCore (fun c => { c with loads := [load addr] })

theorem witness_TrapOpsAndFences :
    inHandler.core.regs.sys.trapc.getLsbD 8 = true ∧ inIssue.core.regs.sys.trapc.getLsbD 8 = false ∧
    (inIssue.poisonX 1 = false ∧ inIssue.rdX 1 = 0) ∧ (withX 1 1 inIssue).rdX 1 ≠ 0 ∧ (badX 1 inIssue).poisonX 1 = true ∧
    (let f : CGFence := ⟨.device, ⟨false, true, false⟩, noCtl⟩
     let meets := fun (u : State) (p : Part) => Kinds.has f.kinds p.kind && u.inScope f.scope p.addr
     (∀ l ∈ inIssue.serialPoint.core.loads, ∀ p ∈ l.left, meets inIssue.serialPoint p = false) ∧
     (∀ o ∈ inIssue.serialPoint.core.fars, ∀ p ∈ o.parts, meets inIssue.serialPoint p = false) ∧
     ∃ l ∈ (loading sramBase).serialPoint.core.loads, ∃ p ∈ l.left, meets (loading sramBase).serialPoint p = true) := by
  decide +kernel

/-- The loss-scale registers as LSSTEP finds them. -/
def scales (k stat grow : X64) (hi : X64) : SysRegs :=
  { SysRegs.reset with lscale := k, lsmin := 0xFF, lsmax := hi, lsstat := stat, lsgrow := grow }

theorem witness_LossScale :
    (scaleK inIssue.core.regs.sys.lsmin ≤ scaleK inIssue.core.regs.sys.lsmax ∧ readyLsstep inIssue.serialPoint = .go) ∧
    (let y := (inIssue.mapSys (fun _ => scales 0 0 0 0x80)).core.regs.sys
     scaleK y.lsmax < scaleK y.lsmin) ∧
    (scaleK (scales 0 1 0 1).lsmin ≤ scaleK (scales 0 1 0 1).lsmax ∧ (scales 0 1 0 1).lsstat.getLsbD 0 = true ∧
      scaleK (scales 0 1 0 1).lsmin < scaleK (scales 0 1 0 1).lscale) ∧
    scaleK (scales 0xFF 1 0 1).lscale ≤ scaleK (scales 0xFF 1 0 1).lsmin ∧
    (let y := scales 0 0x10000 2 1
     y.lsstat.getLsbD 0 = false ∧ y.lsgrow.toNat % 65536 ≤ min (y.lsstat.toNat / 2 ^ 16 % 2 ^ 16 + 1) 65535 ∧
       scaleK y.lscale < scaleK y.lsmax) ∧
    scaleK (scales 1 0x10000 2 1).lsmax ≤ scaleK (scales 1 0x10000 2 1).lscale ∧
    (let y := scales 0 0 2 1
     min (y.lsstat.toNat / 2 ^ 16 % 2 ^ 16 + 1) 65535 < y.lsgrow.toNat % 65536) := by
  decide +kernel

/-- A group of two members under the first name, of which one has arrived. -/
def pair : Group :=
  { name := firstName, members := 2, expected := 2, arrived := 1, arrnext := 0, phase := 2 ^ 56 - 1, waiters := [] }

/-- The group stands with its claim, N2 names it, and the strand has joined the groups. -/
def inGroup (joined : List (ClaimName × Nat)) : State :=
  (named .group inIssue).mapDev (fun d => (({ d with groups := [pair] }).setStrand 0 (fun t => { t with groups := joined })))

/-- JOING, LEAVEG or BARG of N2. -/
def groupOp : CG := ⟨1, 2, 0, noCtl⟩

theorem witness_GroupOps :
    (let s := inGroup []
     chkJoing groupOp s = .ok ∧ s.serialPoint.liveGroup (s.serialPoint.rdN 2) = some pair ∧ s.serialPoint.core.loads = [] ∧
       s.serialPoint.core.fars = [] ∧ s.resolve s.core.tenant (s.rdN 2) = some (claim .group) ∧ (claim .group).ty = .group ∧
       s.dev.group? (s.rdN 2) = some pair ∧ s.joinedPhase pair.name = none) ∧
    (let s := inGroup [(firstName, 0)]
     chkMember groupOp s = .ok ∧ s.serialPoint.liveGroup (s.serialPoint.rdN 2) = some pair ∧ s.joinedPhase pair.name = some 0) ∧
    (inIssue.resolve inIssue.core.tenant (inIssue.rdN 2) = none ∧
      inIssue.serialPoint.liveGroup (inIssue.serialPoint.rdN 2) = none) ∧
    (let g : Group := { pair with arrived := 2, arrnext := 1 }
     g.expected = g.arrived ∧ 0 < g.arrived ∧ g.arrnext < g.members) := by
  decide +kernel

/-- A strand record in the page at 0x1FFFC0, with the CORES given: class 2, 64 V registers, its code at 0x10000. -/
def spawning (cores : Nat) : State :=
  let s := withX 1 0x1FFFC0 onPage
  let w := [0x10000, cores * 2 ^ 32 + 7 * 2 ^ 21 + 2 * 2 ^ 4, 0, 0x1000, 0, 0, 0, 0]
  { s with mem := s.mem.store (cellsAt (sramBase + 0xFFFC0) (w.map (bytesOfNat 8)).flatten) [] }

/-- A strand op on X1 and X2 that names X48. -/
def strandOp : CG := ⟨48, 1, 2, noCtl⟩

/-- A block of `n` sheaves, of which `k` are drawn. -/
def block (n k : Nat) : Block :=
  { tenant := 0, template := { pc := 0x10000, srseed := 0, nA := 0, nV := 64, chk := 0, lsgrow := 0, lsmax := 0, lsmin := 0, lscale := 0,
                               rmode := 0, lswz := [] },
    pcount := 1, cores := 1, die := 0, clusters := 1, scope := 3, serial := false, cls := 0, persist := true, completion := 0, home := [], seq := 1,
    strandBase := 0, levels := [{ start := 0, bound := n, stride := 1 }], args := [], sheaves := n, placed := 1, drawn := k,
    checked := false, rejected := none, complete := false, killed := 0, cause := 0, firstKilled := 0, killedAt := 0, trappc := 0, trapval := 0,
    energy := 0, cycles := 0, broken := 0, debugHold := false, names := [], ricks := [] }

/-- The strand draws from a block. -/
def drawing (n k : Nat) : State :=
  inIssue.mapDev (fun d => ({ d with blocks := [block n k] }).setStrand 0 (fun t => { t with persistent := true, block := some 0 }))

/-- Another strand of class 0 waits for the core. -/
def contended : State :=
  inIssue.mapDev (fun d => ({ d with strands := d.strands ++ [{ fetchStrand with state := .runnable, recAddr := 64 }] }).setPage 0
    { Page.reset with active := true, weight := 1 })

theorem witness_StrandOps :
    (let s := spawning 1
     chkSpawn strandOp s = .ok ∧ readySpawn strandOp s.serialPoint = .go ∧ (s.serialPoint.rdX 1).toNat = 0x1FFFC0 ∧
       spawnBad (s.serialPoint.spawnWords 0x1FFFC0) ((s.serialPoint.self.map (·.cls)).getD 0) = false ∧
       s.serialPoint.dev.liveStrands 0 < 65536) ∧
    (let s := spawning 0
     chkSpawn strandOp s = .ok ∧ spawnBad (s.serialPoint.spawnWords 0x1FFFC0) ((s.serialPoint.self.map (·.cls)).getD 0) = true) ∧
    (inIssue.serialPoint.core.running = some 0 ∧ inIssue.serialPoint.dev.strands[0]? = some fetchStrand ∧
      chkSusp strandOp inIssue = .ok ∧ readySusp inIssue.serialPoint = .go ∧ readyExit inIssue.serialPoint = .go ∧
      inIssue.serialPoint.dev.waiter (fun c => decide (c ≤ 0)) = false) ∧
    contended.serialPoint.dev.waiter (fun c => decide (c ≤ 0)) = true ∧
    (48 ≤ strandOp.d.toNat ∧ readyNextt inIssue = .go ∧ inIssue.serialPoint.drawFrom = none) ∧
    ((drawing 2 1).serialPoint.drawFrom.map (·.1) = some 0 ∧ (block 2 1).drawn < (block 2 1).sheafCount ∧
      (drawing 2 2).serialPoint.drawFrom.map (·.1) = some 0 ∧ (block 2 2).sheafCount ≤ (block 2 2).drawn) ∧
    (47 : Reg).toNat < 48 := by
  decide +kernel
/-- The die's table is full, and the SPAWN has committed. -/
def fullDie : State :=
  ((spawning 1).mapCore (fun c => { c with shadow := { c.shadow with bundle := 2 } })).mapDev (fun d =>
    { d with strands := d.strands ++ List.replicate 65536 fetchStrand })

theorem liveStrands_replicate (d : Dev) (n die : Nat) (u : Strand) (h : (u.live && u.cluster / 16 == die) = true) :
    n ≤ ({ d with strands := d.strands ++ List.replicate n u } : Dev).liveStrands die := by
  simp only [Dev.liveStrands, List.filter_append, List.length_append, List.filter_replicate, h, if_true, List.length_replicate]
  omega

theorem witness_StrandOps_full :
    (chkSpawn strandOp fullDie = .ok ∧ readySpawn strandOp fullDie.serialPoint = .go ∧
      spawnBad (fullDie.serialPoint.spawnWords 0x1FFFC0) ((fullDie.serialPoint.self.map (·.cls)).getD 0) = false) ∧
    65536 ≤ fullDie.serialPoint.dev.liveStrands 0 :=
  ⟨by decide +kernel, (if_pos (by decide +kernel) : fullDie.serialPoint = fullDie) ▸
    liveStrands_replicate (spawning 1).dev 65536 0 fetchStrand (by decide +kernel)⟩

/-! ### Witnesses: the thresher and the core's events -/

/-- The image of R444's worked kernel: NW 7, KIND 1, BOUND 22. -/
def sumKernel : List Byte :=
  ([0x00010007, 0x00000016, 0, 0, 0, 0, 0, 0, 0x80C00005, 0x60440000, 0x60840100, 0x38848000, 0x64840100, 0x54440040, 0x94000000].map
    (bytesOfNat 4)).flatten

/-- An invocation about to run one word, with Z1 holding `z`. -/
def invoked (w : Nat) (z : BitVec 32) : State :=
  let s := State.reset.withFetchWord 32 w
  { s with thr := s.thr.map (fun v => { v with z := vset v.z 1 z }) }

/-- Its invocation. -/
def invocation (z : BitVec 32) : Invocation := ((invoked 0x94000000 z).thr).getD (Invocation.start
  { name := 0, tenant := 0, words := [], slot := false, forward := true, bins := none, bound := 0, traps := 0 }
  { kernel := 0, slot := false, input := [], partialIn := [], poisoned := false, sender := 0, dest := 0, tenant := 0, tag := 0, key := 0,
    beat := 0, count := 0, round := 0, pass := 0 } true)

theorem witness_Thresher : (invoked 0x94000000 0).thr = some (invocation 0) ∧ (⟨1, 2, .bf16, .int32, true⟩ : TRCvt).t ≠ .int32 ∧
    (invocation 0).disp = .fwd := by
  decide +kernel

theorem witness_ThresherMoves :
    (let m := fun (z : BitVec 32) => ((invocation z).rdZ 1).toNat % 2 ^ 32
     m 192 % 4 = 0 ∧ m 192 + 64 ≤ 256 ∧ m 252 + 4 ≤ 256 ∧ ¬ (m 2 % 4 = 0) ∧ ¬ (m 196 + 64 ≤ 256) ∧ m 0xFFFFFFFC + 4 > 256) ∧
    (invocation 0).binGone = true := by
  decide +kernel

/-- A kernel with a bin set of 64 bytes at the first bin. -/
def binned : State :=
  (invoked 0x94000000 0).mapDev (fun d => { d with claims := [{ claim .bins with size := 64 }] })

/-- An invocation of that kernel. -/
def binnedInv (z : BitVec 32) : Invocation :=
  { invocation z with binGone := false, kernel := { (invocation z).kernel with bins := some firstName } }

theorem witness_ThresherMoves_bins :
    binned.dev.binSet (binnedInv 0).kernel = (0, 64) ∧ (binnedInv 60).binGone = false ∧
    (((binnedInv 60).rdZ 1).toNat % 4 = 0 ∧ ((binnedInv 60).rdZ 1).toNat + 4 ≤ 64 ∧ ((binnedInv 0).rdZ 1).toNat + 64 ≤ 64) ∧
    ¬ (((binnedInv 62).rdZ 1).toNat % 4 = 0) ∧ ¬ (((binnedInv 64).rdZ 1).toNat + 4 ≤ 64) := by
  decide +kernel

theorem witness_ThresherControl :
    (let trips := fun (z : BitVec 32) (a : BitVec 4) (k : BitVec 4) =>
       if a = 0 then k.toNat + 1 else (min ((invocation z).rdZ a).toInt (k.toNat + 1 : Nat)).toNat
     trips 0 1 15 = 0 ∧ 0 < trips 1 1 15 ∧ 0 < trips 0 0 0) := by
  decide +kernel

/-- A lookup fault is noted. -/
def faulted (cause : Nat) (absent : Bool) : State :=
  inIssue.mapIss (fun i => { i with fault := some { cause := cause, addr := 0x30000 }, absent := absent })

theorem witness_CoreEvents :
    (let s := atFetch.mapCore (fun c => { c with icache := [] })
     s.core.running ≠ none ∧ s.fetch = .miss 0) ∧
    (let s := State.reset.withFetchWord 64 0xF000000000000010
     s.core.running ≠ none ∧ s.core.iss.mayDispatch = true ∧ s.core.iss.iq = [] ∧
       (s.nextCtl.map (fun c => c.mark || c.qp)) = some true) ∧
    ((faulted 6 false).core.iss.fault.isSome = true ∧ (faulted 6 false).core.iss.absent = false ∧ 6 ≠ 5 ∧
      (faulted 5 false).core.running ≠ none ∧ (faulted 5 true).core.iss.absent = true) ∧
    inIssue.core.shadow.pend = [] ∧
    (let s := inIssue.mapCore (fun c => { c with shadow := { c.shadow with pend := [result 20 0] } })
     s.core.shadow.pend = [result 20 0] ∧ (result 20 0).dead = false ∧ s.core.iss.sched < (result 20 0).due ∧ (result 20 0).dest.key.isSome = true ∧
       s.rollback.core.iss.pend = [result 20 0] ∧ s.rollback.core.regs.x = ((result 20 0).dest.apply s.core.shadow.regs).x) := by
  decide +kernel

/-- A far store of bundle 0 in flight, and an AMO. -/
def far (atom : Option AtomOp) : FarOp :=
  { id := 8, strand := 0, bundle := 0, slot := 5, rel := false, parts := [{ addr := sramBase, len := 8, kind := .rc, lost := false }],
    data := { cells := cellsAt sramBase (bytesOfNat 8 7), poisoned := [], ovfs := false }, atom := atom, bytes := 8, tok := 0 }

/-- The store's line has moved to GDDR7. -/
def migrated : State :=
  inIssue.mapDev (fun d => { d with migrations := [{ src := sramBase, dst := 0x100000, len := 512, moved := 1 }] })

theorem witness_AccessEvents :
    (let s := loading sramBase
     s.core.loadParts[0]? = some (load sramBase, 0) ∧ s.loadReady (load sramBase, 0) = true ∧ s.core.running = some 0 ∧
       { load sramBase with got := [(0, [])] }.left = []) := by
  decide +kernel

theorem witness_AccessEvents_parts :
    (let l := { load sramBase with parts := (load sramBase).parts ++ [{ addr := sramBase + 8, len := 8, kind := .so, lost := false, entry := 1 }] }
     let s := inIssue.mapCore (fun c => { c with loads := [l] })
     s.core.loadParts[1]? = some (l, 1) ∧ s.loadReady (l, 1) = true ∧ { l with got := [(1, [])] }.left ≠ []) := by
  decide +kernel

theorem witness_AccessEvents_stores :
    (let f := far none
     let s := migrated.mapCore (fun c => { c with fars := [f] })
     s.core.fars[0]? = some f ∧ f.atom = none ∧ s.farReady f = true ∧ ∀ p ∈ f.parts, s.lostNow p = false) ∧
    (let f := far (some (.amo .add 1 0 false))
     let s := inIssue.mapCore (fun c => { c with fars := [f] })
     s.core.fars[0]? = some f ∧ f.atom = some (.amo .add 1 0 false) ∧ s.farReady f = true) ∧
    (((withStream .rd inIssue).rdQ 0).isSome = true ∧ (withStream .rd inIssue).fetchReady 0 = true ∧
      ((withStream .wr inIssue).rdQ 0).isSome = true ∧ (withStream .wr inIssue).writebackReady 0 = true) ∧
    (inIssue.dev.ident.lost.contains 1 = false ∧ ((linked 1 256).mapDev (fun d =>
      { d with ident := { d.ident with lost := [1] } })).dev.ident.lost.contains 1 = true) ∧
    (migrated.route (remoteAddr (.load sramBase 8)) ≠ remoteAddr (.load sramBase 8) ∧ remoteHome sramBase 8 = true) ∧
    [true, false, false, false, false, false, false, false].length = 8 := by
  decide +kernel

/-- An atomic of `n` bytes in flight at the start of the own home slice; its token goes to X4. -/
def atomic (op : AtomOp) (n : Nat) (lost : Bool) : FarOp :=
  { id := 8, strand := 0, bundle := 0, slot := 5, rel := false, parts := [{ addr := sramBase, len := n, kind := .rc, lost := lost }],
    data := { cells := [], poisoned := [], ovfs := false }, atom := some op, bytes := n, tok := 4 }

/-- An interlocked result of operation 8. -/
def awaited (r : RegName) : Inter := { reg := r, id := 8, bundle := 0, slot := 5, gated := false, later := [] }

/-- The atomic in flight, its token, its name and its return-queue entry awaited. -/
def atoms (f : FarOp) : State :=
  (inIssue.mapCore (fun c => { c with fars := [f], inter := [awaited (.x 4), awaited (.n 3)] })).mapRegs (fun r =>
    { r with arq := [{ id := 8, value := none }] })

theorem witness_AccessEvents_atomics :
    (let f := atomic (.amo .add 5 0 false) 8 false
     (atoms f).core.fars[0]? = some f ∧ f.atom = some (.amo .add 5 0 false) ∧ (atoms f).farReady f = true ∧ (atoms f).mem.wf = true ∧
       (atoms f).lostNow { addr := sramBase, len := 8, kind := .rc, lost := false } = false ∧
       (atoms f).poisonedAt ((atoms f).route sramBase) 8 = false ∧ (atoms f).core.running = some f.strand ∧
       (∀ i, i < 8 → homeOf (physOf ((atoms f).route sramBase + i)) ≠ .host) ∧
       (atoms f).core.inter.find? (fun i => i.id == f.id && i.reg == .x 4) = some (awaited (.x 4)) ∧ (awaited (.x 4)).later = []) ∧
    (let f := atomic (.red .add 5 false) 8 true
     (atoms f).farReady f = true ∧ (atoms f).lostNow { addr := sramBase, len := 8, kind := .rc, lost := true } = true) ∧
    (let f := atomic (.bfp 0 false) 256 false
     let s := { atoms f with mem := (atoms f).mem.mark sramBase }
     s.farReady f = true ∧ s.poisonedAt (s.route sramBase) 256 = true) ∧
    (let f := atomic (.casn 0 7 false 3 9) 16 false
     let u := ((atoms f).dropFar f).chargeParts f.strand f.parts
     (atoms f).farReady f = true ∧ BitVec.ofNat 128 ((atoms f).mem.num ((atoms f).route sramBase) 16) = (0 : ClaimName) ∧
       u.pins (u.tenantOf f.strand) 7 = false ∧
       (atoms f).core.inter.find? (fun i => i.id == f.id && i.reg == .n 3) = some (awaited (.n 3))) ∧
    (let f := atomic (.amo .add 5 0 false) 8 false
     let s := ((atoms f).mapCore (fun c => { c with running := none, inter := [] })).mapDev (fun d => d.setStrand 0 (fun t =>
       { t with pending := [awaited (.x 4)] }))
     s.farReady f = true ∧ s.core.running ≠ some f.strand ∧ s.core.inter.find? (fun i => i.id == f.id && i.reg == .x 4) = none ∧
       ((s.dev.strands[0]?).map (fun u => u.pending.any (fun i => i.id == f.id && i.reg == .x 4))) = some true) := by
  decide +kernel

/-- A free core, and one eligible strand. -/
def idle : State :=
  (contended.mapCore (fun c => { c with running := none, tableOf := some 0, tableLaunch := some 0 })).mapDev (fun d =>
    { d with strands := [{ fetchStrand with state := .runnable, fresh := true, recAddr := 64 }] })

/-- The one strand, in a state and with what it waits for. -/
def strandIn (st : StrandState) (w : Option WaitFor) (s : State) : State :=
  s.mapDev (fun d => { d with strands := d.strands.map (fun t => { t with state := st, waits := w }) })

/-- Its strand. -/
def one (s : State) : Strand := (s.dev.strands[0]?).getD fetchStrand

theorem witness_StrandEvents_pickup :
    idle.dev.strands[0]? = some (one idle) ∧ idle.mayPick = true ∧ idle.dev.pick.1 = some 0 ∧
      idle.dev.pick.2.strands[0]? = some (one idle) ∧ State.saveLost { idle with dev := idle.dev.pick.2 } (one idle) = false ∧
      State.loadTable { idle with dev := idle.dev.pick.2 } (one idle) = some idle.core.table := by
  decide +kernel

theorem witness_StrandEvents_due :
    (inIssue.core.running = some 0 ∧ inIssue.core.iss.halted = false ∧
      (inIssue.mapIss (fun i => { i with halted := true })).core.iss.halted = true) ∧
    (contended.mapCore (fun c => { c with meter := { c.meter with since := 2 ^ 20 } })).sliceDue = true ∧
    ((contended.mapDev (fun d => d.setStrand 0 (fun t => { t with cls := 1 }))).classDue = true) ∧
    ((contended.mapIss (fun i => { i with waits := some .svc })).mapCore (fun c => { c with meter := { c.meter with waited := 4096 } })).descheduleDue
      = true := by
  decide +kernel

theorem witness_StrandEvents_states :
    (let s := strandIn .waiting (some (.send 2 1)) idle
     (one s).state = .waiting ∧ s.eventHolds (one s) = true ∧ s.core.running ≠ some 0) ∧
    (let s := strandIn .parked (some .svc) idle
     (one s).state = .parked ∧ (1 : BitVec 8) ≠ 0 ∧ 31 < 32 ∧ (one s).fresh = true) ∧
    (let s := (strandIn .trapped none idle).mapDev (fun d => d.setStrand 0 (fun t => { t with debugHold := true, fresh := false }))
     (one s).state = .trapped ∧ (one s).debugHold = true ∧ (one s).cluster = 0) ∧
    (let s := (strandIn .done none idle).mapDev (fun d => d.setStrand 0 (fun t => { t with ending := true }))
     s.endingStrand = some 0) ∧
    (let i : Inter := { reg := .x 5, id := 77, bundle := 0, slot := 6, gated := false, later := [] }
     let s := idle.mapDev (fun d => d.setStrand 0 (fun t => { t with pending := [i] }))
     s.core.running ≠ some 0 ∧ (one s).pending.find? (fun i => i.reg == .x 5) = some i ∧
       (∀ l ∈ s.core.loads, l.id ≠ 77) ∧ (∀ f ∈ s.core.fars, f.id ≠ 77) ∧ ∀ e ∈ s.core.engs, e.id ≠ 77) := by
  decide +kernel
/-! ### Witnesses: events of the device -/

/-- A mapping list entry of 64 KiB at virtual 0 onto GDDR7 0x10000, readable and writable (R224). -/
def listed : List Host.Cell :=
  cellsAt 0x4000 ([0x8000000000000010, 1 * 2 ^ 28 + 31 * 2 ^ 23 + 0x18000].map (bytesOfNat 8)).flatten

/-- Tenant 0 has that list, its queue of two blocks at virtual 0x100, and the block given there. -/
def queueing (blk : List Nat) : State :=
  let s := State.reset.mapDev (fun d => d.setPage 0
    { Page.reset with active := true, en := true, qbase := 0x100, qsize := 1, tail := 1, mapbase := 0x4000 })
  { s with mem := s.mem.store (listed ++ cellsAt 0x10100 (blk.map (bytesOfNat 8)).flatten) [] }

/-- A block of one level of two sheaves, its record at virtual 0x1000. -/
def twoSheaves : List Nat := [0x2000, 2 ^ 40 + 2 ^ 16 + 3 * 2 ^ 8 + 1, 0x1000, 9, 0, 0, 0, 0, 0, 2 ^ 32 + 2]

theorem witness_BlockEvents :
    (let p := State.reset.dev.page 0
     63 < 64 ∧ p.active = true ∧ ((1 : BitVec 32) - p.head).toNat ≤ 2 ^ p.qsize ∧ 2 ^ p.qsize < ((2 : BitVec 32) - p.head).toNat) ∧
    (let s := queueing twoSheaves
     let p := s.dev.page 0
     let data := s.tenantLoad 0 (p.qbase.toNat + 256 * (p.head.toNat % 2 ^ p.qsize)) 256
     p.hasBlock = true ∧ data.map (fun d => wordAt (d.map (·.1)) 16 % 64 == 0 && d.all (fun q => !q.2)) = some true ∧
       (s.tenantParts 0 [.store] 0x1000 64).isSome = true) ∧
    (let s := (queueing []).mapDev (fun d => d.mapPage 0 (fun p => { p with qbase := 0xFFFF00 }))
     (s.dev.page 0).hasBlock = true ∧ s.tenantLoad 0 0xFFFF00 256 = none) ∧
    (let s := (drawing 2 1).mapDev (fun d => { d with blocks := [{ block 2 1 with persist := false }], strands := [] })
     s.dev.blocks[0]? = some { block 2 1 with persist := false } ∧ s.dev.mayPlace 0 = true) ∧
    (let b := { block 2 1 with persist := false, args := List.replicate 8 9 }
     let s := (drawing 2 1).mapDev (fun d => { d with blocks := [b], strands := [] })
     s.dev.blocks[0]? = some b ∧ s.dev.mayPlace 0 = true ∧ b.levels.length ≤ 6 ∧ b.args.length = 8 ∧ s.dev.links.fenced = [] ∧
       s.dev.links.fencing = []) ∧
    (let b := { block 2 0 with placed := 0, args := List.replicate 8 9 }
     let s := (drawing 2 0).mapDev (fun d => { d with blocks := [b], strands := [] })
     s.dev.blocks[0]? = some b ∧ s.dev.mayPlace 0 = true ∧ b.persist = true ∧ b.args.length = 8) ∧
    (let s := (drawing 2 1).mapDev (fun d => { d with strands := [] })
     s.dev.blocks[0]? = some (block 2 1) ∧ s.blockDone 0 = true) := by
  decide +kernel

/-- A window write that waits on die 0. -/
def waitingWrite : WinWrite := { tenant := 63, die := 0, cells := [(0x10000, 7)], since := 0, winto := 100 }

/-- A window at the page of `listed`. -/
def windowed (held : Nat) : State :=
  let w : WinWrite := { waitingWrite with cells := List.replicate held (0x10000, 7) }
  ((queueing []).mapCore (fun c => { c with table := [{ dataPage with pbase := 0x10000, size := 16, win := true }] })).mapDev
    (fun d => { d with ingress := [w] })

theorem witness_TranslationAndWindow :
    (let s := queueing []
     s.barParts 0 .store 0x10000 8 = none ∧ (s.barParts 0 .store 0 8).isSome = true ∧ s.core.table = [] ∧ s.dev.ingress = [] ∧
       (s.barParts 0 .load 0 8).isSome = true ∧ s.barParts 63 .load 0 8 = none ∧
       ((s.barParts 0 .store 0 8).getD []).all (fun p => !s.lostNow p) = true) ∧
    (let s := (inIssue.mapDev (fun d => { d with ingress := [waitingWrite] })).mapCore (fun c => { c with now := 105000 })
     s.dev.ingress.find? (fun w => w.die == 0) = some waitingWrite ∧ waitingWrite.tenant < 64 ∧
       waitingWrite.since + 1050 * waitingWrite.winto ≤ s.core.now ∧
       (∀ o ∈ s.dev.ingress.takeWhile (fun o => o != waitingWrite), o.tenant ≠ 63) ∧ inIssue.core.now < waitingWrite.since + 1050 * waitingWrite.winto) ∧
    (4 ≠ 8 ∧ 0x7FFFF8 < 0x800000 ∧ 0x7FFFFC % 8 ≠ 0) ∧
    (let s := windowed 1
     (s.barParts 0 .store 0 1).isSome = true ∧ s.mapsWindow waitingWrite = true ∧ s.dev.ingressBytes 0 + 1 ≤ 2 ^ 18 ∧
       (queueing []).mapsWindow waitingWrite = false ∧ (queueing []).dev.ingressBytes 0 < 2 ^ 18 ∧
       (s.landPieces.barParts 0 .load 0 8).isSome = true) ∧
    (inIssue.core.running.isSome = true ∧ inIssue.core.tenant = 0) ∧
    (let s := idle.mapCore (fun c => { c with shootDown := true })
     s.core.shootDown = true ∧ s.core.running = none ∧ s.core.performed = true) := by
  decide +kernel

/-- A shoot-down at a core about to dispatch a QP bundle, noted 52,500 cycles ago. -/
def shootDown : State :=
  ((State.reset.withFetchWord 64 0xF000000000000020).mapCore (fun c => { c with shootDown := true, tableOf := none, now := 52500 })).mapDev
    (fun d => ({ d with shootDowns := [{ tenant := 0, since := 0, limit := 52500 }] }).mapPage 0 (fun p => { p with mapbase := 0x4000 }))

theorem witness_TranslationAndWindow_shootDown :
    (shootDown.core.shootDown = true ∧ shootDown.core.running.isSome = true ∧ shootDown.core.tableOf = none ∧ shootDown.core.iss.iq = [] ∧
      shootDown.core.iss.mayDispatch = true ∧ shootDown.nextCtl.map (·.qp) = some true ∧ shootDown.core.gate = [] ∧
      shootDown.core.performed = true ∧ shootDown.tenantTable? 0 = some []) ∧
    shootDown.watchdogDue = true ∧ onPage.mayMigrate sramBase (sramBase + 0x100000) 0x100000 = true ∧
    (let m : Migration := { src := sramBase, dst := 0x100000, len := 512, moved := 0 }
     let s := inIssue.mapDev (fun d => { d with migrations := [m] })
     s.mem.wf = true ∧ s.dev.migrations = [m] ∧ 256 * (m.moved + 1) < m.len) := by
  decide +kernel

/-- A chute of two members, of which core 1 has not taken the commit. -/
def replicated : Chute :=
  { chute 5 0 1 with members := [{ core := 0, head := 0, reserved := 0, landed := 1 }, { core := 1, head := 0, reserved := 0, landed := 0 }] }

theorem witness_ArrayEvents :
    (let s := withChutes replicated (chute 6 4096 1) inIssue
     s.dev.owedCopies[0]? = some (5, 1) ∧ s.chute? 5 = some replicated ∧ replicated.members.find? (fun m => m.core == 1) =
       some { core := 1, head := 0, reserved := 0, landed := 0 } ∧ s.mem.wf = true) ∧
    (let s := (withChutes (chute 5 0 1) (chute 6 4096 1) inIssue).mapIss (fun i => { i with
       iq := [{ ctx := i.cur, op := .mma ⟨3, 0, 1, .int8, true, false, 0, 0⟩, wait := some .other, since := 0 }] })
     s.toStage = some 5) ∧
    (let m : MmaFlight := { id := 4, bundle := 0, op := mma 1 true, snap := inIssue.snap .dyn, input := 0, inPoison := false,
                            chutes := [(5, 0, 1)], fed := 0, due := 0, released := true }
     let s := (withChutes (chute 5 0 1) (chute 6 4096 1) inIssue).mapCore (fun c => { c with mx := { c.mx with mmas := [m] } })
     s.core.mx.mmas = [m] ∧ m.released = true ∧ m.due ≤ s.core.now ∧ s.core.mx.drainUntil ≤ s.core.now ∧ s.chute? 5 = some (chute 5 0 1)) ∧
    (let s := inIssue.mapCore (fun c => { c with now := 1050, mx := { c.mx with feeding := true, feedUntil := 1050 } })
     s.core.mx.feeding = true ∧ s.core.mx.feedUntil ≤ s.core.now ∧ s.mmaWaits = false ∧ s.core.mx.dutyAt + s.core.mx.ramp ≤ s.core.now ∧
       s.core.mx.dutyAt + s.core.mx.ramp ≤ s.core.mx.feedUntil) ∧
    (let s := inIssue.mapCore (fun c => { c with now := 1050 })
     s.core.mx.dutyAt + s.core.mx.ramp ≤ s.core.now ∧ s.core.mx.feeding = false) := by
  decide +kernel

theorem witness_ArrayEvents_clean : ∀ i, i < replicated.slotBytes → inIssue.mem.poisoned (ownLs (replicated.slotOff 0 + i)) = false := by
  intro i _
  rfl

/-- An image for flash. -/
def image : FwImage := { kind := .foreman, bytes := [], sig := 0, secver := 0 }

theorem witness_PowerEvents :
    (inIssue.mapDev (fun d => { d with power := { d.power with pwrbrk := true } })).dev.power.pwrbrk = true ∧
    inIssue.dev.power.sensorHeld = [] ∧ (inIssue.mapDev (fun d => { d with power := { d.power with sensorHeld := [1] } })).dev.power.sensorHeld ≠ [] ∧
    (115 : Int) ≤ 115 ∧ inIssue.dev.ident.gen < 2 ^ 24 - 1 ∧
    ((inIssue.mapDev (fun d => { d with ident := { d.ident with recovery := true } })).dev.ident.recovery = true ∧ image.kind = .foreman) := by
  decide +kernel

/-- A claim that the owner runtime asks for. -/
def newClaim : NewClaim :=
  { ty := .group, owner := 0, home := homeField 0 0 0 0, base := 0, size := 4096, attr := 0, chute := none, launch := false }

/-- The claim, in a state. -/
def claimIn (st : ClaimState) : Claim := { claim .tensor with state := st }

/-- It is entered. -/
def entered (st : ClaimState) : State := (named .tensor inIssue).mapDev (fun d => { d with claims := [claimIn st] })

theorem witness_ClaimEvents :
    ((inIssue.dev.page newClaim.owner).active = true ∧ newClaim.ty = .group ∧ newClaim.launch = false ∧ inIssue.homeOk newClaim = true ∧
      inIssue.mayEnter newClaim.home = true) ∧
    ((entered .live).dev.claim? firstName = some (claimIn .live) ∧ (claimIn .live).state = .live ∧ (claimIn .live).holders ≠ [] ∧
      (entered .live).dev.groups.find? (fun g => g.name == firstName) = none) ∧
    ((entered .retiring).dev.claim? firstName = some (claimIn .retiring) ∧ (entered .retiring).handled firstName = false ∧
      (claimIn .retiring).holders = [ownCache] ∧ (claimIn .retiring).uses = [] ∧ (entered .retiring).usesOf firstName = 0 ∧
      (claimIn .retiring).ty ≠ .coll ∧ (claimIn .retiring).ty ≠ .lease) ∧
    (let e : Engine := { id := 1, strand := 0, bundle := 0, slot := 6, tok := 4, cmd := .resolve firstName .tensor, done := none }
     let s := (entered .live).mapCore (fun c => { c with engs := [e] })
     e ∈ s.core.engs ∧ e.cmd.looked = some firstName ∧ firstName ∉ s.core.cache ∧
       s.resolve s.core.tenant firstName = some (claimIn .live)) ∧
    (let h := 1024 * (5 + 1) + 33
     (entered .live).lookup 0 firstName = some (claimIn .live) ∧ (5 : Nat) ≠ (entered .live).dev.ident.index ∧ h ≠ ownCache ∧
       h ∉ (claimIn .live).holders) := by
  decide +kernel

/-- A frame of route 767. -/
def frame (seq : Nat) : Frame :=
  { tenant := 0, ver := 1, kind := 0, srcRoute := 767, seq := seq, tag := 31, entries := 1, frag := 0, nfrag := 1, zeros := true,
    payload := List.replicate 256 0 }

/-- A SEND that waits for its acknowledgement, sent `n` times again. -/
def waitingAck (n : Nat) : Unacked := { tenant := 0, route := 767, seq := 3, tries := n, id := 6, since := 0 }

/-- It is on route 767. -/
def unacked (n : Nat) : State :=
  (inIssue.mapDev (fun d => { d with links := { d.links with unacked := [waitingAck n] } })).mapCore
    (fun c => { c with engs := [{ id := 6, strand := 0, bundle := 0, slot := 6, tok := 4, cmd := .send 1023 31 0 1 false, done := none }] })

theorem witness_LinkEvents :
    (7 < 8 ∧ inIssue.dev.ident.lost.contains 1 = false ∧ 7 ∉ inIssue.dev.links.down) ∧
    (let s := linked 1 256
     s.dev.losable 1 = true ∧ s.dev.rounds = [] ∧ (∀ c ∈ s.dev.claims, c.token = none) ∧ s.silentFor 1 = false ∧
       (s.mapCore (fun c => { c with now := 1050000 })).silentFor 1 = true ∧
       s.dev.ident.members.find? (fun q => q.1 == 1) = some (1, 2) ∧
       (s.dev.page message.tenant).active = true ∧ s.dev.losable message.peer = true ∧ message.tag < 32 ∧ 1 ≤ msgEntries message ∧
       msgEntries message ≤ 64 ∧ message.bytes.length % 256 = 0 ∧ s.hasRoom 0 1 (msgEntries message) = true ∧ s.dev.hook 0 31 = none) ∧
    (let s := inIssue.mapDev (fun d => { d with links := { d.links with routes := [{ route := 767, sendSeq := 0, recvSeq := 2, frags := [] }] } })
     let r := s.dev.links.routeState 767
     ((frame 1).srcRoute < 768 ∧ s.dev.routeLive 767 = true) ∧ 768 ≤ { frame 1 with srcRoute := 768 }.srcRoute ∧
       (s.mapDev (fun d => { d with links := { d.links with retraining := [6] } })).dev.routeLive 767 = false ∧
       frameGood { frame 1 with ver := 2 }.head 0 = false ∧ frameGood { frame 1 with zeros := false }.head 1 = false ∧
       frameGood (frame 1).head 0 = true ∧ (frame 1).seq < r.recvSeq ∧ r.recvSeq < (frame 3).seq ∧ r.frags = [] ∧
       r.recvSeq = (frame 2).seq ∧ (frame 2).nfrag = 1 ∧ (frame 2).frag = 0 ∧ (frame 2).payload.length = 256 * (frame 2).entries ∧
       s.hasRoom 0 (256 + 767) 1 = true ∧ s.dev.hook 0 31 = none) ∧
    ((unacked 8).dev.routeLive 767 = true ∧ frameGood { frame 3 with kind := 1 }.head 1 = true ∧
      (unacked 8).dev.links.unacked.find? (fun u => u.route == 767 && u.seq == 3) = some (waitingAck 8) ∧
      (unacked 8).unansweredOn 0 767 = some (waitingAck 8) ∧ 8 ≤ (waitingAck 8).tries) ∧
    inIssue.unansweredOn 0 767 = none ∧
    ((unacked 7).unansweredOn 0 767 = some (waitingAck 7) ∧ (waitingAck 7).tries < 8 ∧ (unacked 7).sendOf 6 = some (31, 0, 1)) := by
  decide +kernel
/-! ### Witnesses: collectives, engines, threshers and service -/

/-- The record of a collective of devices 0 and 1: one tile of 256 bytes, one iteration, key 1 (R405). -/
def collWords : List Nat :=
  [0, 0, 1, 2 ^ 56 + 2 ^ 16 + 1, 0, 0, 0, 0, 0, 0, 0, 0, 1, 0, 0, 0, 0, 0, 0, 0, 0, 0, 0, 0, 256]

/-- X1 is its place, X2 and X3 the buffers. -/
def withCollective : State :=
  let s := withX 3 0x100200 (withX 2 0x100100 (withX 1 0x100000 onPage))
  let t := s.mapCore (fun c => { c with table := [{ dataPage with fmt := .raw }] })
  { t with mem := t.mem.store (cellsAt sramBase (collWords.map (bytesOfNat 8)).flatten) [] }

/-- A round of that record in tenant 0, at a stage, with a timeout of one microsecond. -/
def round (rank alg : Nat) (st : Stage) : Round :=
  let r := (withCollective.collRecord 0x100000).2
  { id := 3, record := { r with rank := rank, alg := alg, digest := 5, timeout := 1 }, q := 0, tenant := 0, since := 0, src := [], dst := [],
    srcWords := List.replicate 64 0, srcBad := [false], stage := st, drops := [0], sats := [false], exps := [], glean := [], early := [],
    sent := [], got := [], past := [], pastWork := [], slots := false, leased := false, answers := [(0, true)], kernel := none, lostExps := 0 }

/-- The round is in progress. -/
def inRound (rank alg : Nat) (st : Stage) : State := inIssue.mapDev (fun d => { d with rounds := [round rank alg st] })

/-- A message of the round to device 0, with a digest. -/
def collMsg (digest : BitVec 32) : CollMsg :=
  { tenant := 0, key := 1, round := 0, iter := 0, fromRank := 1, toRank := 0, tile := 0, digest := digest, agree := false, data := [],
    drops := [], satmarks := [], exps := [] }

/-- A decision of the round. -/
def decision (d : Decision) : DecisionMsg := { tenant := 0, key := 1, round := 0, digest := 5, decision := d }

/-- A beat of the round. -/
def slotBeat (digest : BitVec 32) : Beat :=
  { tenant := 0, key := 1, round := 0, digest := digest, pass := 0, beat := 0, port := 0, down := false, words := [], drops := 0,
    satmark := false, poisoned := false }

/-- A request for a slot. -/
def slotReq : SlotReq := { tenant := 0, key := 1, release := false, record := [], image := [] }

theorem witness_CollRounds_coll : chkColl ⟨4, 1, 2, 3, 0⟩ withCollective = .ok ∧ withCollective.cmds Cmd.isCopy < 16 := by decide +kernel

theorem witness_CollRounds_message :
    (inIssue.dev.aborted.contains (0, 1, 0) = false ∧ inIssue.dev.roundOf 0 1 0 = none) ∧
    (let r := round 0 0 .deciding
     (inRound 0 0 .deciding).dev.roundOf 0 1 0 = some r ∧ (collMsg 5).toRank = r.record.rank ∧ (collMsg 5).digest = r.record.digest ∧
       r.agrees (collMsg 5) = true ∧ (collMsg 4).digest ≠ r.record.digest ∧ ({ collMsg 5 with toRank := 1 } : CollMsg).toRank ≠ r.record.rank) ∧
    (let r := round 0 0 .walking
     (inRound 0 0 .walking).dev.roundOf 0 1 0 = some r ∧ (collMsg 5).toRank = r.record.rank ∧ (collMsg 5).digest = r.record.digest ∧
       r.agrees { collMsg 5 with fromRank := 7 } = false) ∧
    (inIssue.mapDev (fun d => { d with aborted := [(0, 1, 0)] })).dev.aborted.contains (0, 1, 0) = true := by
  decide +kernel

/-- Where the root of a round finds it. -/
def atRoot (s : State) : Option Round :=
  s.dev.rounds.find? (fun r => r.tenant == 0 && r.record.key == 1 && r.record.rank == 0 && r.stage == .deciding)

theorem witness_CollRounds_decision :
    (let r := round 0 1 .deciding
     atRoot (inRound 0 1 .deciding) = some r ∧ (∃ w ∈ r.record.tree r.net, ∀ a ∈ r.answers, a.1 ≠ w) ∧ r.record.kernel = 0 ∧
       (∀ w ∈ r.record.tree r.net, ∃ a ∈ r.answers ++ [(1, true)], a.1 = w) ∧ (∀ a ∈ r.answers ++ [(1, true)], a.2 = true) ∧
       (inRound 0 1 .deciding).kernelOk r = true ∧ (∃ a ∈ r.answers ++ [(1, false)], a.2 = false) ∧ r.record.alg = 1 ∧
       inIssue.kernelOk { r with record := { r.record with kernel := 9 } } = false) ∧
    (let r := round 1 2 .deciding
     let s := inRound 1 2 .deciding
     atRoot s = none ∧ s.dev.roundOf 0 1 0 = some r ∧ r.record.rank ≠ 0 ∧ r.stage = .deciding ∧
       (decision .noslot).digest = r.record.digest ∧ r.record.alg = 2 ∧ (collMsg 4).digest ≠ r.record.digest) ∧
    (atRoot inIssue = none ∧ inIssue.dev.roundOf 0 1 0 = none) := by
  decide +kernel

/-- A grant of a collective of devices 0 and 1 at device 2. -/
def relay : State :=
  let g : Grant := { tenant := 0, key := 1, record := (round 0 1 .deciding).record, lease := firstName, kernel := none }
  inIssue.mapDev (fun d => { d with ident := { d.ident with index := 2 }, grants := [g] })

theorem witness_CollRounds_beat :
    (inIssue.dev.aborted.contains (0, 1, 0) = false ∧ (relay.dev.relaying (slotBeat 5)).isSome = true) ∧
    (inIssue.dev.relaying (slotBeat 5) = none ∧ inIssue.dev.roundOf 0 1 0 = none) ∧
    (let s := inRound 1 2 (.passing 0 0 false)
     s.dev.relaying (slotBeat 5) = none ∧ (s.dev.roundOf 0 1 0).map (·.record.digest) = some 5 ∧ (slotBeat 5).digest = 5 ∧
       (slotBeat 4).digest ≠ 5) := by
  decide +kernel

theorem witness_CollRounds_ends :
    (slotReq.release = false ∧ vget inIssue.dev.slots 0 none = none ∧ inIssue.mayEnter (homeField inIssue.dev.ident.index 0 0 0) = true) ∧
    ((inRound 1 0 .deciding).dev.roundOf 0 1 0 = some (round 1 0 .deciding) ∧ inIssue.dev.roundOf 0 1 0 = none) ∧
    (let s := (inRound 1 0 .deciding).mapCore (fun c => { c with now := 1050 })
     s.dev.rounds.find? (fun r => r.tenant == 0 && r.record.key == 1 && r.timedOut s.core.now) = some (round 1 0 .deciding) ∧
       (round 1 0 .deciding).stage ≠ .queued) := by
  decide +kernel

/-- Every slot below 63 is leased, or all of them. -/
def slotsTaken (last : Option (Nat × ClaimName)) : State :=
  inIssue.mapDev (fun d => { d with slots := vset (Vector.replicate 64 (some (1, 0))) 63 last })

theorem witness_CollRounds_lastSlot :
    vget (slotsTaken none).dev.slots 63 none = none ∧
    (List.range 63).all (fun j => vget (slotsTaken none).dev.slots j none != none) = true ∧
    (List.range 64).all (fun j => vget (slotsTaken (some (2, 0))).dev.slots j none != none) = true := by
  decide +kernel

/-- A command in flight. -/
def inFlight (c : Cmd) (done : Option X64) : Engine :=
  { id := 2, strand := 0, bundle := 0, slot := 6, tok := 4, cmd := c, done := done }

/-- An empty copy. -/
def emptyCopy : CopyCmd := { t := .raw, scaled := false, snap := inIssue.snap .dyn, runs := [] }

theorem witness_EngineEvents :
    (let e := inFlight (.resolve firstName .tensor) (some 7)
     let s := inIssue.mapCore (fun c => { c with engs := [e] })
     s.core.engs[0]? = some e ∧ e.done = some 7) ∧
    (let e := inFlight (.copy emptyCopy) none
     let s := inIssue.mapCore (fun c => { c with engs := [e] })
     s.core.engs[0]? = some e ∧ e.done = none ∧ e.cmd = .copy emptyCopy ∧ s.engineReady e = true) ∧
    (let e := inFlight (.rick { rick := firstName, seg := 0, op := .mark }) none
     let s := inIssue.mapCore (fun c => { c with engs := [e] })
     s.core.engs[0]? = some e ∧ s.rickReady e = true) ∧
    (let s := (inIssue.mapDev (fun d => { d with svc := [(0, 0, 7, 5)] })).mapIss (fun i => { i with waits := some .svc })
     s.dev.svc = [(0, 0, 7, 5)] ∧ s.svcWaiter 0 0 = some 0) := by
  decide +kernel

/-- A result of operation 2 that X4 waits for. -/
def awaiting : Inter := { reg := .x 4, id := 2, bundle := 0, slot := 6, gated := false, later := [] }

theorem witness_EngineEvents_tokens :
    (let e := inFlight (.resolve firstName .tensor) (some 7)
     let s := inIssue.mapCore (fun c => { c with inter := [awaiting] })
     e.tok ≠ 0 ∧ s.core.inter.find? (fun i => i.id == e.id && i.reg == .x e.tok) = some awaiting ∧ awaiting.later = [] ∧
       inIssue.core.inter.find? (fun i => i.id == e.id && i.reg == .x e.tok) = none) ∧
    (let s := idle.mapDev (fun d => d.setStrand 0 (fun t => { t with pending := [awaiting] }))
     s.core.inter.find? (fun i => i.id == 2 && i.reg == .x 4) = none ∧ s.dev.strands[0]? = some (one s) ∧ awaiting ∈ (one s).pending ∧
       awaiting.id = 2 ∧ awaiting.reg = .x 4) ∧
    (let e := inFlight (.rick { rick := firstName, seg := 0, op := .mark }) none
     let s := inIssue.mapCore (fun c => { c with engs := [e] })
     s.rickReady e = true ∧ s.rick? firstName = none) ∧
    (let s := (strandIn .waiting (some .svc) idle).mapDev (fun d => { d with svc := [(0, 0, 7, 5)] })
     s.svcWaiter 0 0 = some 0 ∧ s.core.running ≠ some 0 ∧ s.dev.strands[0]? = some (one s)) := by
  decide +kernel

theorem witness_EngineEvents_copy :
    let c : CopyCmd := { emptyCopy with runs := [copyRun .raw 4] }
    let e := inFlight (.copy c) none
    let s := inIssue.mapCore (fun c => { c with engs := [e] })
    s.core.engs[0]? = some e ∧ e.done = none ∧ s.engineReady e = true ∧ s.mem.wf = true ∧ isRaw c.t (copyRun .raw 4).fs = true ∧
      CopyClean s (copyRun .raw 4) 4 := by
  unfold CopyClean
  decide +kernel

/-- The kernel of `sumKernel`, as its load makes it. -/
def kernel : Kernel :=
  (State.reset.kernelOf 0 sumKernel 0).getD { name := 1, tenant := 63, words := [], slot := false, forward := false, bins := none, bound := 0, traps := 0 }

/-- An invocation of it. -/
def invSpec (bad : Bool) : InvSpec := { (invocation 0).spec with slot := true, poisoned := bad }

/-- The load of a kernel for tenant 0. -/
def loadOf (launch : Bool) : KernelLoad :=
  { tenant := 0, launch := launch, bins := none, knames := [], elsewhere := none }

theorem witness_ThresherEvents :
    (State.reset.kernelOf (loadOf false).tenant sumKernel 0 = some kernel ∧ kernel.bound = 22 ∧ (State.reset.dev.page 0).active = true ∧
      State.reset.mayEnter (homeField State.reset.dev.ident.index 0 0 0) = true ∧ State.reset.kernelOf (loadOf true).tenant [] 0 = none ∧
      (State.reset.dev.page 0).launched = false) ∧
    (let s := State.reset.mapDev (fun d => { d with kernels := [kernel] })
     s.thr = none ∧ s.thrFree (invSpec true) = true ∧ s.thrFree (invSpec false) = true ∧
       s.dev.kernel? (invSpec true).kernel = some kernel ∧ kernel.tenant = (invSpec true).tenant ∧ kernel.slot = (invSpec true).slot ∧
       (invSpec false).poisoned = false ∧ (invSpec true).poisoned = true ∧ (s.dev.page (invSpec true).tenant).trq = 0) ∧
    ({ loadOf true with elsewhere := some none }.elsewhere = some none ∧ 63 < 64 ∧ 3 < 4 ∧ (3 : Nat) ≠ 0) ∧
    (8 = 8 ∧ (2 ^ 23 - 8) % 8 = 0 ∧ 2 ^ 23 - 8 + 8 ≤ 2 ^ 23 ∧ cellsWf 0 State.reset.dev.bins = true) := by
  decide +kernel

/-- Baler 1 with its registers set, and memory's bale header at BALE. -/
def baling (len : X64) : State :=
  let b : Baler := { Baler.reset with rbase := 0x1000, rlen := len, bale := 0x100000, cpl := 0x200000 }
  let s := State.reset.mapDev (fun d => { d with balers := vset d.balers 1 b })
  { s with mem := s.mem.store (cellsAt 0x100000 (bytesOfNat 4 0x4C424654 ++ bytesOfNat 4 1) ++ cellsAt 0x100018 (bytesOfNat 8 1)) [] }

/-- A run of a checkpoint of no blocks, or of one. -/
def baleRun (len : Nat) (old : Option (List (BitVec 32 × Bool))) : BaleRun :=
  { cpl := 0x200000, dir := false, base := 0x1000, len := len, bale := 0x100000, block := 0, off := 64, old := old, failed := false }

theorem witness_ServiceEvents_baler :
    (let b := (baling 0x1000).dev.baler 1
     1 < 2 ∧ b.running = none ∧ balerGood b.rbase.toNat b.rlen.toNat b.bale.toNat b.cpl.toNat = true) ∧
    (let b := (baling 0).dev.baler 1
     b.running = none ∧ balerGood b.rbase.toNat b.rlen.toNat b.bale.toNat b.cpl.toNat = false ∧ b.cpl.toNat % 8 = 0 ∧
       inSpace b.cpl.toNat 8 = true) ∧
    (let s := (baling 0).mapDev (fun d => { d with balers := vset d.balers 1 { Baler.reset with running := some (baleRun 0 none) } })
     (s.dev.baler 1).running = some (baleRun 0 none) ∧ (baleRun 0 none).finished = true ∧ (baleRun 0x1000 none).finished = false ∧
       (baleRun 0 none).cpl.toNat % 8 = 0 ∧ inSpace (baleRun 0 none).cpl.toNat 8 = true) ∧
    ((baleRun 0x1000 none).dir = false ∧ (baleRun 0x1000 none).old = none) := by
  decide +kernel

theorem witness_ServiceEvents :
    (let l := State.reset.dev.links
     7 ∉ l.retraining ∧ 5 ∉ l.groupsOut ∧ 31 ∉ l.fencing ∧ 31 ∉ l.fenced ∧ 1 ∉ State.reset.dev.power.sensorHeld) ∧
    (let s := State.reset.mapDev (fun d => { d with links := { d.links with retraining := [7], fencing := [31] } })
     7 ∈ s.dev.links.retraining ∧ 31 ∈ s.dev.links.fencing ∧ s.core.running = none ∧ s.dev.homedOn 31 = []) ∧
    (let s := State.reset.mapDev (fun d => { d with strands := [{ fetchStrand with state := .parked, byFence := true, cluster := 31 }] })
     (one s).cluster = 31 ∧ (one s).byFence = true ∧ (one s).state = .parked) ∧
    ((State.reset.dev.page 63).active = false ∧
      (let s := State.reset.mapDev (fun d => d.setPage 63 { Page.reset with active := true })
       0 < 63 ∧ (s.dev.page 63).active = true ∧ ∀ c ∈ s.dev.claims, c.owner = 63 → c.state ≠ .live)) ∧
    (inIssue.core.running.isSome = true ∧ (0x2 : X64).toNat % 16 = 2 ∧ (0x3 : X64).toNat % 16 = 3 ∧
      (let v : X64 := 3 * 2 ^ 16 + 1
       v.toNat % 16 = 1 ∧ (withRick 0).rdK (v.toNat / 2 ^ 16 % 4) = .valid firstName ∧ (withRick 0).core.gate.length < 64)) := by
  decide +kernel

theorem witness_OwnerRegisters :
    63 < 64 ∧ (State.reset.mapDev (fun d => d.setPage 63 { Page.reset with en := true })).dev.page 63 = { Page.reset with en := true } ∧
      0x14 % 8 ≠ 0 ∧ 0x1400000 ≤ 0x1400000 ∧ (0x9030 ≤ 0x7FFFF8 ∧ 0x7FFFF8 < 0x800000) ∧ State.reset.core.running = none ∧
      (0x800000 ≤ 0xFFFFF8 ∧ 0xFFFFF8 < 0x1000000 ∧ 0xFFFFF8 % 8 = 0) ∧ State.reset.dev.ident.indom = false ∧
      (linked 1 256).dev.ident.indom = true ∧ idle.core.tableOf = some 0 := by
  decide +kernel
/-! ### Witnesses: where the forms complete -/

theorem witness_FormsComplete :
    (inIssue.core.gate = [] ∧ inIssue.core.loads = [] ∧ inIssue.core.fars = [] ∧ inIssue.poisonX 1 = false ∧ inIssue.rdX 1 = 0) ∧
    ((63 : Reg).toNat < inIssue.core.nV ∧ inIssue.sysReg (sr 0x018).srn.toNat = some 0) ∧
    (armed.core.gate = [] ∧ armed.core.loads = [] ∧ armed.core.fars = [] ∧ armed.core.regs.sys.trapv.getLsbD 0 = true ∧
      armed.core.regs.sys.trapc.getLsbD 8 = false ∧ inHandler.core.gate = [] ∧ inHandler.core.loads = [] ∧ inHandler.core.fars = [] ∧
      inHandler.core.regs.sys.trapc.getLsbD 8 = true) ∧
    (inIssue.dev.aborted = [] ∧ inIssue.dev.rounds = [] ∧ inIssue.dev.grants = [] ∧ slotReq.release = false ∧
      inIssue.mayEnter (homeField inIssue.dev.ident.index 0 0 0) = true ∧ vget inIssue.dev.slots 0 none = none) ∧
    (let s := (inRound 1 0 .deciding).mapCore (fun c => { c with now := 1050 })
     s.dev.rounds = [round 1 0 .deciding] ∧ (round 1 0 .deciding).timedOut s.core.now = true) := by
  decide +kernel

theorem witness_FormsComplete_engines :
    (let e := inFlight (.resolve firstName .tensor) (some 7)
     (inIssue.mapCore (fun c => { c with engs := [e] })).core.engs[0]? = some e ∧ e.done = some 7) ∧
    (let e := inFlight (.rick { rick := firstName, seg := 0, op := .mark }) none
     let s := inIssue.mapCore (fun c => { c with engs := [e] })
     s.core.engs[0]? = some e ∧ s.rickReady e = true) ∧
    (inIssue.mapDev (fun d => { d with svc := [(0, 0, 7, 5)] })).dev.svc = [(0, 0, 7, 5)] := by
  decide +kernel

theorem length_bytesOfNat (n x : Nat) : (bytesOfNat n x).length = n := by
  induction n generalizing x with
  | zero => rfl
  | succ n ih => simp [bytesOfNat, ih]

theorem codedPayload_length (bs p : List Byte) (h : codedPayload bs = some p) : p.length ≤ 4096 := by
  unfold codedPayload at h
  revert h
  generalize byteModel bs = m
  dsimp only
  intro h
  split at h
  · cases h
  · rename_i hn
    obtain rfl := Option.some.inj h
    simp only [Bool.or_eq_true, decide_eq_true_eq, not_or, not_lt] at hn
    exact hn.2

theorem padded_length (p : List Byte) (hp : p.length ≤ 4096) : 8 + p.length + (8 - p.length % 8) % 8 ≤ 4111 := by omega

theorem baleBlock_length (i : Nat) (bs : List Byte) (po : Bool) (h : bs.length = 4096) : (baleBlock i bs po).length ≤ 4111 := by
  unfold baleBlock
  simp only [List.length_append, length_bytesOfNat, List.length_replicate]
  split
  · rename_i p hp; exact padded_length p (codedPayload_length bs p hp)
  · exact padded_length bs h.le

theorem length_words (l : List (BitVec 32 × Bool)) : ((l.map (fun w => bytesOfNat 4 w.1.toNat)).flatten).length = 4 * l.length := by
  induction l with
  | nil => rfl
  | cons w l ih => simp only [List.map_cons, List.flatten_cons, List.length_append, length_bytesOfNat, ih, List.length_cons]; omega

theorem length_baleWords (s : State) (a : Nat) : (s.baleWords a).length = 1024 := by
  simp only [State.baleWords, List.length_map, List.length_range]

theorem blockFrom_length (s : State) (i a : Nat) : (blockFrom i (s.baleWords a)).length ≤ 4111 :=
  baleBlock_length i _ _ (by rw [length_words, length_baleWords])

theorem baleOf_split (s : State) (base : Nat) : (s.baleOf base 4096).length = 64 + (blockFrom 0 (s.baleWords base)).length := by
  have r : List.range (4096 / 4096) = [0] := by decide
  simp only [State.baleOf, r, baleHeader, List.map_cons, List.map_nil, List.flatten_cons, List.flatten_nil, List.append_nil,
    List.length_append, length_bytesOfNat, List.length_replicate, Nat.mul_zero, Nat.add_zero]

/-- The bale of one block, with its header, takes at most 4,175 bytes. -/
theorem baleOf_length (s : State) (base : Nat) : (s.baleOf base 4096).length ≤ 4175 := by
  have h := blockFrom_length s 0 base
  rw [baleOf_split]; omega

/-- A range of at most 5,000 bytes at 0x100000 lies in memory, and in one part of it. -/
theorem fits (n : Nat) (h : n ≤ 5000) : inSpace 0x100000 n = true ∧ homeOf (0x100000 + n - 1) = homeOf 0x100000 := by
  have hs : inSpace 0x100000 n = true := by
    have : 0x100000 + n ≤ gddrEnd := by simp only [gddrEnd]; omega
    simp [inSpace, this]
  have hg : ∀ a, a < gddrEnd → homeOf a = .gddr := fun a ha => by simp [homeOf, ha]
  exact ⟨hs, by rw [hg _ (by simp only [gddrEnd]; omega), hg _ (by decide)]⟩

theorem witness_ServiceEvents_bale : (baling 0x1000).baleFits 0x1000 0x1000 0x100000 = true := by
  have h := baleOf_length (baling 0x1000) 0x1000
  have f := fits ((baling 0x1000).baleOf 0x1000 4096).length (by omega)
  simp only [State.baleFits, f.1, f.2, beq_self_eq_true, Bool.and_self]

/-- The bale of one block at the last 64 bytes of GDDR7 finds no room. -/
theorem witness_ServiceEvents_full :
    balerGood 0x1000 0x1000 (gddrEnd - 64) 0x200000 = true ∧ (baling 0x1000).baleFits 0x1000 0x1000 (gddrEnd - 64) = false := by
  refine ⟨by decide +kernel, ?_⟩
  have h : 72 ≤ ((baling 0x1000).baleOf 0x1000 4096).length := by
    have e : (blockFrom 0 ((baling 0x1000).baleWords 0x1000)).length ≥ 8 := by
      simp only [blockFrom, baleBlock, List.length_append, length_bytesOfNat]; omega
    rw [baleOf_split]; omega
  have : inSpace (gddrEnd - 64) ((baling 0x1000).baleOf 0x1000 4096).length = false := by
    have g : gddrEnd = 0x2400000000 := rfl
    have m : sramBase = 0x4000000000 := rfl
    have o : hostBase = 0x100000000000 := rfl
    revert h
    generalize ((baling 0x1000).baleOf 0x1000 4096).length = n
    intro h
    simp only [inSpace, Bool.or_eq_false_iff, Bool.and_eq_false_iff, decide_eq_false_iff_not]
    omega
  simp only [State.baleFits, this, Bool.false_and]

theorem witness_ServiceEvents_block :
    let s := baling 0x1000
    let r := baleRun 0x1000 (some (s.baleWords 0x1000))
    let out := blockFrom r.block (s.baleWords (r.base + 4096 * r.block))
    r.dir = false ∧ r.old = some (s.baleWords (r.base + 4096 * r.block)) ∧ inSpace 0x100000 (64 + out.length) = true := by
  intro s r out
  have h : out.length ≤ 4111 := blockFrom_length _ _ _
  refine ⟨rfl, ?_, (fits _ (by omega)).1⟩
  simp only [r, baleRun, Nat.mul_zero, Nat.add_zero]

end Sys2Proof.Tests
end

section
/-! The results that land (R28 to R32). -/
open Sys2Proof Sys2Proof.Machine Sys2Proof.Claims

namespace Sys2Proof.Machine

/-! ### A result lands -/

/-- With nothing queued no read is still to come, so no write is held back (R29). -/
theorem Issue.keeps_of_idle {i : Issue} (h : i.iq = []) (w : PWrite) : i.keeps w = false := by
  simp only [Issue.keeps, h, List.any_nil]; split <;> rfl

theorem PWrite.not_overtakes_self (w : PWrite) : w.overtakes w = false := by
  simp [PWrite.overtakes]

/-- A later bundle's write of the same register overtakes (R32). -/
theorem PWrite.overtakes_of_later {v w : PWrite} (hb : v.bundle < w.bundle) (hv : v.dest.key.isSome = true)
    (hk : v.dest.key = w.dest.key) : w.overtakes v = true := by
  simp [PWrite.overtakes, ← hk, hv, hb]

theorem State.land_regs (s : State) :
    s.land.core.regs = (landDue s.core.iss.sched s.core.iss.keeps s.core.iss.pend s.core.regs).2 := rfl

theorem State.land_pend (s : State) :
    s.land.core.iss.pend = (landDue s.core.iss.sched s.core.iss.keeps s.core.iss.pend s.core.regs).1 := rfl

/-- A live result whose time has come is written, and is in flight no longer. -/
theorem landDue_due {sched : Nat} {keeps : PWrite → Bool} {w : PWrite} (r : Regs) (hd : w.dead = false) (ht : w.due ≤ sched)
    (hk : keeps w = false) : landDue sched keeps [w] r = ([], w.dest.apply r) := by
  simp [landDue, hd, ht, hk, PWrite.not_overtakes_self]

/-- A result that a later write has discarded is waited for to its time and writes nothing (R32). -/
theorem landDue_dead {sched : Nat} {keeps : PWrite → Bool} {w : PWrite} (r : Regs) (hd : w.dead = true) (ht : w.due ≤ sched) :
    landDue sched keeps [w] r = ([], r) := by
  simp [landDue, hd, ht]

/-- Before its time a result stays in flight. -/
theorem landDue_early {sched : Nat} {keeps : PWrite → Bool} {w : PWrite} (r : Regs) (ht : sched < w.due) :
    landDue sched keeps [w] r = ([w], r) := by
  simp [landDue, ht]

/-- A later bundle's write that lands first discards the earlier result, which stays in flight to its time (R32). -/
theorem landDue_overtaken {sched : Nat} {keeps : PWrite → Bool} {v w : PWrite} (r : Regs) (hw : w.dead = false)
    (ht : w.due ≤ sched) (hv : sched < v.due) (hk : keeps w = false) (ho : w.overtakes v = true) :
    landDue sched keeps [v, w] r = ([{ v with dead := true }], w.dest.apply r) := by
  have hv' : ¬ v.due ≤ sched := by omega
  have hw' : ¬ sched < w.due := by omega
  simp [landDue, hw, ht, hv, hk, ho, hv', hw', PWrite.not_overtakes_self]

/-- A result in flight is the one thing that `writeAfter` adds. -/
theorem State.writeAfter_adds (s : State) (lat : Nat) (d : Dest) :
    ∃ w : PWrite, w.dest = d ∧ w.due = s.core.iss.cur.sched + lat ∧ w.bundle = s.core.iss.cur.bundle ∧
      w.slot = s.core.iss.cur.slot ∧ w.dead = false ∧
      ∀ x, x ∈ (s.writeAfter lat d).core.iss.pend ↔ x = w ∨ x ∈ s.core.iss.pend :=
  ⟨_, rfl, rfl, rfl, rfl, rfl, fun _ => mem_pendInsert _⟩

/-- The shadow takes the result of a serialising op that has waited (R344), and keeps its registers and its place. -/
theorem State.writeAfter_shadow (s : State) (lat : Nat) (d : Dest) :
    (s.writeAfter lat d).core.shadow.regs = s.core.shadow.regs ∧ (s.writeAfter lat d).core.shadow.pc = s.core.shadow.pc := by
  simp only [State.writeAfter, State.mapCore_core]
  split <;> exact ⟨rfl, rfl⟩

/-- An X register after a result has landed in one of them. -/
theorem Dest.apply_x (r : Regs) {i : Nat} (v : X64) (po : Bool) (h : 0 < i) :
    (Dest.x i v po).apply r = { r with x := vset r.x i v, xPoison := vset r.xPoison i po } := by
  simp [Dest.apply, show i ≠ 0 by omega]

/-- Settles O8: the landing of each kind of result in flight is one lemma about `landDue`. -/
theorem resultLands : Obligations.ResultLands := by
  unfold Obligations.ResultLands
  refine ⟨fun s lat d => ?_, fun s w hp hq => ?_, fun s v w hp hq hw hv hb hs hk hd => ?_, Dest.apply_x0, Dest.apply_p0,
    fun r i v po h0 h64 => ?_⟩
  · have hs := s.writeAfter_shadow lat d
    exact ⟨s.writeAfter_adds lat d, rfl, rfl, rfl, rfl, rfl, rfl, rfl, hs.1, hs.2, rfl, rfl, rfl⟩
  · rw [State.land_regs, State.land_pend, hp]
    refine ⟨fun hd ht => ?_, fun hd ht => ?_, fun ht => ?_⟩
    · simp [landDue_due s.core.regs hd ht (Issue.keeps_of_idle hq w)]
    · simp [landDue_dead s.core.regs hd ht]
    · simp [landDue_early s.core.regs ht]
  · rw [State.land_regs, State.land_pend, hp,
      landDue_overtaken s.core.regs hd hw hv (Issue.keeps_of_idle hq w) (PWrite.overtakes_of_later hb hs hk)]
    exact ⟨rfl, rfl⟩
  · rw [Dest.apply_x r v po h0]
    exact ⟨vget_vset_same _ _ _ _ h64, vget_vset_same _ _ _ _ h64,
      fun j hj => ⟨vget_vset_other _ _ _ _ _ hj, vget_vset_other _ _ _ _ _ hj⟩, rfl, rfl, rfl, rfl, rfl, rfl, rfl, rfl, rfl, rfl, rfl⟩
end Sys2Proof.Machine
end

section
/-! The rotation of the register files (R14, R15). -/
open Sys2Proof Sys2Proof.Machine Sys2Proof.Claims

namespace Sys2Proof.Machine

/-! ### The rotation -/

/-- A region of `k` numbers from `lo` on, turned by `b`: the shape of `physX`, `physV` and `physP` (R14). -/
def rotated (lo k b n : Nat) : Nat := if n ≥ lo then lo + (n - lo + b) % k else n

theorem physX_eq_rotated (r : X64) (n : Nat) : physX r n = rotated 48 16 (rrbXB r) n := rfl
theorem physV_eq_rotated (r : X64) (n : Nat) : physV r n = rotated 32 32 (rrbVB r) n := rfl
theorem physP_eq_rotated (r : X64) (n : Nat) : physP r n = rotated 8 8 (rrbPB r) n := rfl

theorem rotated_static {lo k b n : Nat} (h : n < lo) : rotated lo k b n = n := by
  simp [rotated, show ¬ n ≥ lo by omega]

theorem rotated_mem {lo k b n : Nat} (h : lo ≤ n) (hk : 0 < k) : lo ≤ rotated lo k b n ∧ rotated lo k b n < lo + k := by
  have := Nat.mod_lt (n - lo + b) hk
  simp only [rotated, h, if_true]; omega

/-- A turn is injective: two numbers of the region that meet differ by a multiple of its length. -/
theorem rotated_inj {lo k b m n : Nat} (hm : m < lo + k) (hn : n < lo + k) (h : rotated lo k b m = rotated lo k b n) : m = n := by
  rcases Nat.lt_or_ge m lo with hml | hml <;> rcases Nat.lt_or_ge n lo with hnl | hnl
  · simpa [rotated_static hml, rotated_static hnl] using h
  · have := (rotated_mem (b := b) hnl (by omega : 0 < k)).1
    rw [rotated_static hml] at h; omega
  · have := (rotated_mem (b := b) hml (by omega : 0 < k)).1
    rw [rotated_static hnl] at h; omega
  · simp only [rotated, hml, hnl, if_true] at h
    have e : (m - lo + b) ≡ (n - lo + b) [MOD k] := by unfold Nat.ModEq; omega
    have := (Nat.ModEq.add_right_cancel' b e).eq_of_lt_of_lt (by omega) (by omega)
    omega

/-- A base one less turns the region so that the next number takes each one's place (R15). -/
theorem rotated_step {lo k b c n : Nat} (h : lo ≤ n) (hc : c % k = (b + (k - 1)) % k) (hk : 0 < k) :
    rotated lo k c (n + 1) = rotated lo k b n := by
  have e : n + 1 - lo + (b + (k - 1)) = n - lo + b + k := by omega
  simp only [rotated, show n + 1 ≥ lo by omega, h, if_true]
  rw [Nat.add_mod, hc, ← Nat.add_mod, e, Nat.add_mod_right]

theorem rotated_zero {lo k n : Nat} (h : n < lo + k) : rotated lo k 0 n = n := by
  unfold rotated
  split
  · rw [Nat.add_zero, Nat.mod_eq_of_lt (by omega)]; omega
  · rfl

/-- The three bases read back from the RRB that they make (R17). -/
theorem rrbOf_toNat (x v p : Nat) : (rrbOf x v p).toNat = x % 16 + 2 ^ 8 * (v % 32) + 2 ^ 16 * (p % 8) := by
  simp only [rrbOf, BitVec.toNat_ofNat]; exact Nat.mod_eq_of_lt (by omega)

theorem rrbXB_rrbOf (x v p : Nat) : rrbXB (rrbOf x v p) = x % 16 := by simp only [rrbXB, rrbOf_toNat]; omega
theorem rrbVB_rrbOf (x v p : Nat) : rrbVB (rrbOf x v p) = v % 32 := by simp only [rrbVB, rrbOf_toNat]; omega
theorem rrbPB_rrbOf (x v p : Nat) : rrbPB (rrbOf x v p) = p % 8 := by simp only [rrbPB, rrbOf_toNat]; omega

theorem rrbXB_rrbStep (nV : Nat) (r : X64) : rrbXB (rrbStep nV r) = (rrbXB r + 15) % 16 := rrbXB_rrbOf _ _ _

theorem rrbVB_rrbStep_full (r : X64) : rrbVB (rrbStep 64 r) = (rrbVB r + 31) % 32 := rrbVB_rrbOf _ _ _

theorem rrbVB_rrbStep_part {nV : Nat} (r : X64) (h : nV < 64) : rrbVB (rrbStep nV r) = 0 := by
  simp [rrbStep, h, rrbVB_rrbOf]

theorem rrbPB_rrbStep (nV : Nat) (r : X64) : rrbPB (rrbStep nV r) = (rrbPB r + 7) % 8 := rrbPB_rrbOf _ _ _

/-- Settles O13: each file is a turned region, and BRL's step takes one from its base. -/
theorem rotation : Obligations.Rotation := by
  unfold Obligations.Rotation
  intro rrb nV
  simp only [physX_eq_rotated, physV_eq_rotated, physP_eq_rotated]
  refine ⟨fun n h => rotated_static h, fun n h => rotated_static h, fun n h => rotated_static h,
    fun n h _ => rotated_mem h (by decide), fun n h _ => rotated_mem h (by decide), fun n h _ => rotated_mem h (by decide),
    fun m n hm hn => rotated_inj hm hn, fun m n hm hn => rotated_inj hm hn, fun m n hm hn => rotated_inj hm hn,
    fun n h _ => rotated_step h (by simp [rrbXB_rrbStep]) (by decide), fun hV n h _ => ?_, fun hV => ?_,
    fun n h _ => rotated_step h (by simp [rrbPB_rrbStep]) (by decide)⟩
  · rw [hV]; exact rotated_step h (by simp [rrbVB_rrbStep_full]) (by decide)
  · rw [rrbVB_rrbStep_part rrb hV]; exact ⟨rfl, fun n h => rotated_zero h⟩
end Sys2Proof.Machine
end

section
/-! What reset leaves (R42, R202, R396, R421). -/
open Sys2Proof Sys2Proof.Machine Sys2Proof.Claims

namespace Sys2Proof.Machine

/-! ### Reset -/

/-- With no result in flight a read meets the registers as they stand. -/
theorem State.seen_of_no_pend {s : State} (h : s.core.iss.pend = []) : s.seen = s.core.regs := by
  simp [State.seen, h]

theorem vget_replicate {α : Type} (n i : Nat) (x : α) : vget (Vector.replicate n x) i x = x := by
  by_cases h : i < n <;> simp [vget, Vector.getD, h]

theorem State.reset_rdX (n : Reg) : State.reset.rdX n = 0 := by
  unfold State.rdX
  split
  · rfl
  · rw [State.seen_of_no_pend rfl]; exact vget_replicate _ _ _

/-- Of the tenants' pages at reset only the owner runtime's is active (R396). -/
theorem State.reset_page_active {t : Nat} (h : t < 64) : (State.reset.dev.page t).active = decide (t = 0) := by
  rcases t with _ | t
  · rfl
  · simp [Dev.page, State.reset, Dev.reset, vget, Vector.getD, h, Page.reset]

/-- Settles O1: each field is read off the reset state. -/
theorem resetState : Obligations.ResetState := by
  unfold Obligations.ResetState
  have hset : ∀ c, c < 4 → vget State.reset.dev.set.slice c 0 = 2 ^ 20 ∧ vget State.reset.dev.set.quant c 0 = 2 ^ 16 := by decide
  exact ⟨rfl, State.reset_mem_wf, State.reset_rdX, rfl, rfl, rfl, rfl, rfl, rfl, rfl, rfl, rfl, rfl, rfl, rfl, rfl, rfl, rfl, rfl, rfl,
    rfl, hset, fun t => State.reset_page_active, rfl, rfl, rfl, rfl, fun _ => rfl⟩
end Sys2Proof.Machine
end

section
/-! A step of the machine and a cycle of the core (R18, R22, R424): which instruction runs. -/
open Sys2Proof Sys2Proof.Machine Sys2Proof.Claims

namespace Sys2Proof.Machine

/-! ### Whose turn it is -/

theorem State.turnThr_of_alone {s : State} (h : s.threshers = []) : s.turnThr = s := by
  simp [State.turnThr, h]

theorem State.baleSome_of_idle {s : State} (h : s.dev.balers.toList.all (fun b => b.running.isNone) = true) : s.baleSome = s := by
  simp only [State.baleSome, h, if_true]

theorem State.nextEvent_nil {s : State} (h : s.agenda = []) : s.nextEvent = none := by
  simp [State.nextEvent, h]

theorem State.arrive_of_none {s : State} (hp : s.dev.pieces = []) (hw : s.dev.links.waiting = []) : s.arrive = s := by
  have hl : s.landSome = s := by simp [State.landSome, hp]
  simp [State.arrive, hl, State.sendSome, hw]

/-- An invocation that runs takes its next word, where the outside starts none. -/
theorem thrTurn_word {ex : Instr → State → Out} {v : Invocation} {s : State} {i : Instr}
    (ha : ∀ j, s.agenda.head? ≠ some (.thresherInvocation j)) (hf : v.fetch = .ok i) : thrTurn ex v s = ex i s := by
  unfold thrTurn
  split
  · next j t h => exact absurd (by rw [h]; rfl) (ha j)
  · rw [hf]

theorem step_thresher {s : State} {v : Invocation} {i : Instr} (hv : s.thr = some v) (ht : s.threshers = [])
    (ha : ∀ j, s.agenda.head? ≠ some (.thresherInvocation j)) (hf : v.fetch = .ok i) : step s = exec i s := by
  simp only [step, cycle, State.turnThr_of_alone ht, hv]
  exact thrTurn_word ha hf

/-- Nothing else being due, a step is a cycle of the core (log 5). -/
theorem step_of_coreTurn {s : State} (h : CoreTurn s) : step s = coreCycle exec s := by
  obtain ⟨hthr, hths, hag, hpc, hwt, hbl, hpow, hrec, hint, -, -⟩ := h
  simp only [step, cycle, State.turnThr_of_alone hths, hthr, State.baleSome_of_idle hbl, State.nextEvent_nil hag,
    State.arrive_of_none hpc hwt, hpow, hrec, hint]
  rfl

/-! ### A cycle of the core -/

/-- Where no bundle may be dispatched, the cycle is the slots' turns. -/
theorem coreCycle_of_held {ex : Instr → State → Out} {s : State} (hr : s.core.running.isSome = true) (ha : s.core.iss.absent = false)
    (hm : s.core.iss.mayDispatch = false) : coreCycle ex s = runHeads ex s.core.iss.heads s := by
  have hn : s.core.running.isNone = false := by rw [Option.isNone_eq_false_iff]; exact hr
  simp [coreCycle, hn, ha, hm]

/-- A bundle that dispatch has queued, the strand on the core and the bundle's number unchanged, is followed by the slots' turns. -/
theorem coreCycle_of_dispatch {ex : Instr → State → Out} {s t : State} (hr : s.core.running.isSome = true)
    (ha : s.core.iss.absent = false) (hm : s.core.iss.mayDispatch = true) (ht : ex .bundleDispatch s = .next t)
    (hs : t.core.running = s.core.running) (hb : t.core.iss.bundle = s.core.iss.bundle) :
    coreCycle ex s = runHeads ex t.core.iss.heads t := by
  have hn : s.core.running.isNone = false := by rw [Option.isNone_eq_false_iff]; exact hr
  simp [coreCycle, hn, ha, hm, ht, hs, hb]

/-! ### A bundle is checked and queued -/

/-- No comparator that is enabled, no match (R372). -/
theorem SysRegs.compare_off {y : SysRegs} (pc : Nat) (slots : List Nat) :
    ∀ l : List Nat, (∀ n ∈ l, (vget y.bka n 0).getLsbD 0 = false) → y.compare pc slots l = (y, none)
  | [], _ => rfl
  | n :: t, h => by
    have hn : y.hit pc slots n = false := by
      have h0 : (vget y.bka n 0).toNat.testBit 0 = false := h n List.mem_cons_self
      simp only [SysRegs.hit, h0, Bool.false_and]
    simp only [SysRegs.compare, hn]
    exact SysRegs.compare_off pc slots t (fun m hm => h m (List.mem_cons_of_mem _ hm))

/-- A bundle passes its checks and issues from the state as it is. -/
theorem State.checkBundle_issue {u : State} {ops : List (Nat × Instr)} (hh : u.core.iss.cur.ctl.hwin = false)
    (hc : ∀ n, n < 4 → (vget u.core.regs.sys.bka n 0).getLsbD 0 = false) (hk : checkOps ops u.foreseen = .ok)
    (hl : u.firstLate ops = none ∨ u.core.regs.sys.chkctl.getLsbD 0 = false ∧ u.core.iss.cur.ctl.chk = false) :
    u.checkBundle ops = .issue u := by
  have hcmp : (if u.core.iss.rett || u.core.regs.sys.trapc.getLsbD 8 then (u.core.regs.sys, none)
      else u.core.regs.sys.compare u.core.iss.pc (ops.map (·.1)) [0, 1, 2, 3]) = (u.core.regs.sys, none) := by
    split
    · rfl
    · exact SysRegs.compare_off _ _ _ (fun n hn => hc n (by simp at hn; omega))
  have hid : u.mapSys (fun _ => u.core.regs.sys) = u := rfl
  simp only [State.checkBundle, hcmp, hid, hh, Bool.false_eq_true, if_false, hk]
  rcases hl with hl | ⟨h0, h1⟩
  · simp [hl]
  · rw [h0, h1]; cases u.firstLate ops <;> rfl

theorem State.pinned_of_no_loop {s : State} (h : s.core.regs.loopb = none) (v : Nat) : s.pinned v = false := by
  simp [State.pinned, h]

theorem State.pin_of_no_loop {s : State} (h : s.core.regs.loopb = none) : s.pin = s := by
  simp [State.pin, h]

theorem State.keepWords_of_no_loop {s : State} (h : s.core.regs.loopb = none) (ws : List Nat) : s.keepWords ws = s := by
  simp [State.keepWords, State.pinned_of_no_loop h]

theorem State.stepRep_of_none {s : State} (h : s.core.regs.rep = none) : s.stepRep = s := by
  simp [State.stepRep, h]

/-- REALIGN of every slot, or a serialising op, leaves no slot trailing (R25, R344). -/
theorem Ctx.levels_iff (c : Ctx) (ops : List (Nat × Instr)) :
    c.levels (ops.map (fun o => { ctx := c, op := o.2, wait := none, since := 0 })) = true ↔
      c.ctl.realign = 255 ∨ ops.any (fun o => serialising o.2) = true := by
  simp [Ctx.levels, List.any_map, Function.comp_def]

/-- The ops of a bundle whose place is `c`, no REP open, enter their queues as `Queued` says. -/
theorem State.enqueue_eq {s : State} (c : Ctx) (ops : List (Nat × Instr)) (h : s.core.regs.rep = none) :
    (s.mapIss (fun i => { i with cur := c })).enqueue ops = Queued s c ops := by
  have hd : (if c.levels (ops.map (fun o => { ctx := c, op := o.2, wait := none, since := 0 })) = true then 0 else s.core.iss.drift) =
      if c.ctl.realign = 255 ∨ ops.any (fun o => serialising o.2) = true then 0 else s.core.iss.drift :=
    if_congr (Ctx.levels_iff c ops) rfl rfl
  have hr : (s.mapIss (fun i => { i with cur := c })).stepRep = s.mapIss (fun i => { i with cur := c }) := State.stepRep_of_none h
  simp only [State.enqueue, hr, Queued, ← hd]
  rfl

/-- A decoded bundle that is ready enters the queues. -/
theorem State.dispatchOps_ready {s : State} {ops : List (Nat × Instr)} (ws : List Nat) (after : Nat)
    {ctl : Ctl} (hctl : ((ops.find? (fun o => o.1 == 7)).map (fun o => ctlOf o.2)).getD Ctl.none = ctl)
    (h : BundleReady (s.mapIss (fun i => { i with cur := s.place after ctl })) ops) :
    s.dispatchOps ws ops after = Queued s (s.place after ctl) ops := by
  obtain ⟨⟨hm, hq, hh⟩, ⟨hrep, hloop⟩, hw, hc, hk, hl⟩ := h
  have hm' : ctl.mark = false := hm
  have hq' : ctl.qp = false := hq
  simp only [State.dispatchOps, hctl, hw, hm', hq', Bool.or_self, Bool.false_and, Bool.false_eq_true, if_false,
    State.checkBundle_issue hh hc hk hl, State.keepWords_of_no_loop hloop ws]
  exact State.enqueue_eq _ ops hrep

/-- Dispatch of a bundle that fetches, decodes and is ready. -/
theorem exec_bundleDispatch_ready {s : State} {ws : List Nat} {ops : List (Nat × Instr)} (hr : s.core.running.isSome = true)
    (hm : s.core.iss.mayDispatch = true) (hpc : s.core.iss.pc % 8 = 0) (hf : s.land.fetch = .words ws)
    (hd : decodeBundle ws = .ok ops) :
    let c := s.land.place (s.core.iss.pc + 8 * ws.length) (((ops.find? (fun o => o.1 == 7)).map (fun o => ctlOf o.2)).getD Ctl.none)
    BundleReady (s.land.mapIss (fun i => { i with cur := c })) ops → exec .bundleDispatch s = .next (Queued s.land c ops) := by
  intro c h
  have hn : s.core.running.isNone = false := by rw [Option.isNone_eq_false_iff]; exact hr
  have hp : s.land.pin = s.land := State.pin_of_no_loop h.2.1.2
  show execBundleDispatch s = _
  simp only [execBundleDispatch, hn, hm, hp, hpc, hf, hd]
  simp [State.dispatchOps_ready ws _ rfl h, c]

/-! ### The slots' turns -/

theorem runHeads_nil (ex : Instr → State → Out) (s : State) : runHeads ex [] s = .next s.closeTurn := rfl

/-- An op that its slot has reached and that need not wait issues: the turn goes on, unless the strand has left the core. -/
theorem runHeads_issue {ex : Instr → State → Out} {s : State} {q : Slotted} (rest : List Slotted)
    (hq : s.core.iss.iq.contains q = true) (hw : (s.issuing q).mustWait q = false) :
    runHeads ex (q :: rest) s =
      match ex q.op (s.issuing q) with
      | .next v => if v.core.running ≠ s.core.running then .next (v.heldTrap s.core.running)
          else runHeads ex rest (s.tried q v)
      | .fault f => .fault f
      | .refused r => .refused r := by
  simp only [runHeads, hq, hw]
  cases h : ex q.op (s.issuing q) <;> simp

/-- An op that must wait keeps its place in its queue. -/
theorem runHeads_wait {ex : Instr → State → Out} {s : State} {q : Slotted} (rest : List Slotted)
    (hq : s.core.iss.iq.contains q = true) (hw : (s.issuing q).mustWait q = true) :
    runHeads ex (q :: rest) s = runHeads ex rest (s.keptWaiting q) := by
  simp only [runHeads, hq, hw]; rfl

/-- Settles O2: the order of `cycle` down to the core's turn, then dispatch, then the slots in turn. -/
theorem stepRunsDecoded : Obligations.StepRunsDecoded := by
  unfold Obligations.StepRunsDecoded
  refine ⟨fun s v i hv ht ha hf => step_thresher hv ht ha hf, fun s ws ops hc hm hpc hf hd => ?_, fun s hc hm => ?_,
    fun s q rest hq hw => runHeads_issue rest hq hw, fun s q rest hq hw => runHeads_wait rest hq hw, runHeads_nil exec⟩
  · obtain ⟨-, -, -, -, -, -, -, -, -, hr, ha⟩ := id hc
    intro c h
    have he := exec_bundleDispatch_ready hr hm hpc hf hd h
    refine ⟨he, ?_⟩
    rw [step_of_coreTurn hc]
    exact coreCycle_of_dispatch hr ha hm he rfl rfl
  · obtain ⟨-, -, -, -, -, -, -, -, -, hr, ha⟩ := id hc
    rw [step_of_coreTurn hc]
    exact coreCycle_of_held hr ha hm
end Sys2Proof.Machine
end

section
/-! The core's own events and the rollback (R28, R37, R343, R349 to R352). -/
open Sys2Proof Sys2Proof.Machine Sys2Proof.Claims

namespace Sys2Proof.Machine

/-! ### Leaving the queue -/

@[simp] theorem Core.dropQueue_shadow (c : Core) : c.dropQueue.shadow = c.shadow := by unfold Core.dropQueue; split <;> rfl
@[simp] theorem Core.dropQueue_running (c : Core) : c.dropQueue.running = c.running := by unfold Core.dropQueue; split <;> rfl
@[simp] theorem Core.dropQueue_fars (c : Core) : c.dropQueue.fars = c.fars := by unfold Core.dropQueue; split <;> rfl
@[simp] theorem Core.dropQueue_inter (c : Core) : c.dropQueue.inter = c.inter := by unfold Core.dropQueue; split <;> rfl
@[simp] theorem Core.dropQueue_loads (c : Core) : c.dropQueue.loads = c.loads := by unfold Core.dropQueue; split <;> rfl
@[simp] theorem Core.dropQueue_mmas (c : Core) : c.dropQueue.mx.mmas = c.mx.mmas := by unfold Core.dropQueue; split <;> rfl
@[simp] theorem Core.dropQueue_meter (c : Core) : c.dropQueue.meter = c.meter := by unfold Core.dropQueue; split <;> rfl
@[simp] theorem Core.dropQueue_committed (c : Core) : c.dropQueue.committed = c.committed := by simp [Core.committed]

/-! ### The rollback -/

@[simp] theorem State.rollback_shadow (s : State) : s.rollback.core.shadow = s.core.shadow := s.core.dropQueue_shadow
@[simp] theorem State.rollback_running (s : State) : s.rollback.core.running = s.core.running := s.core.dropQueue_running
@[simp] theorem State.rollback_fars (s : State) : s.rollback.core.fars = s.core.fars := s.core.dropQueue_fars
@[simp] theorem State.rollback_meter (s : State) : s.rollback.core.meter = s.core.meter := s.core.dropQueue_meter
@[simp] theorem State.rollback_iq (s : State) : s.rollback.core.iss.iq = s.core.committed := s.core.dropQueue_committed
@[simp] theorem State.rollback_pc (s : State) : s.rollback.core.iss.pc = s.core.shadow.pc :=
  congrArg Shadow.pc s.core.dropQueue_shadow

/-- The shadow's registers, with the counters that a rollback keeps. -/
def Core.shadowRegs (c : Core) : Regs := { c.shadow.regs with sys := keepCounts c.regs.sys c.shadow.regs.sys }

/-- What lands at a rollback: the results of the bundles before the restart point that are due. -/
def Core.shadowLand (c : Core) : List PWrite × Regs := landDue c.iss.sched (fun _ => false) c.shadow.pend c.shadowRegs

theorem State.rollback_pend (s : State) : s.rollback.core.iss.pend = s.core.shadowLand.1 := by
  show s.core.dropQueue.shadowLand.1 = _
  simp only [Core.shadowLand, Core.shadowRegs, Core.dropQueue_iss, Core.dropQueue_shadow, Core.dropQueue_regs]

theorem State.rollback_regs (s : State) :
    s.rollback.core.regs = landRest (s.core.shadowLand.1.filter (fun w => w.dest.key.isSome)) s.core.shadowLand.2 := by
  show landRest (s.core.dropQueue.shadowLand.1.filter (fun w => w.dest.key.isSome)) s.core.dropQueue.shadowLand.2 = _
  simp only [Core.shadowLand, Core.shadowRegs, Core.dropQueue_iss, Core.dropQueue_shadow, Core.dropQueue_regs]

theorem State.rollback_gate (s : State) :
    s.rollback.core.gate = s.core.gate.filter (fun e => decide (e.bundle < s.core.shadow.bundle)) := by
  show s.core.dropQueue.gate.filter (fun e => decide (e.bundle < s.core.dropQueue.shadow.bundle)) = _
  rw [Core.dropQueue_gate, Core.dropQueue_shadow]

theorem State.rollback_inter (s : State) :
    s.rollback.core.inter = (s.core.inter.filter (fun i => decide (i.bundle < s.core.shadow.bundle))).map (fun i =>
      { i with later := i.later.filter (fun o => decide (o < s.core.shadow.bundle)) }) := by
  show (s.core.dropQueue.inter.filter (fun i => decide (i.bundle < s.core.dropQueue.shadow.bundle))).map (fun i =>
    { i with later := i.later.filter (fun o => decide (o < s.core.dropQueue.shadow.bundle)) }) = _
  rw [Core.dropQueue_inter, Core.dropQueue_shadow]

theorem State.rollback_loads (s : State) :
    s.rollback.core.loads = s.core.loads.filter (fun l => decide (l.bundle < s.core.shadow.bundle)) := by
  show s.core.dropQueue.loads.filter (fun l => decide (l.bundle < s.core.dropQueue.shadow.bundle)) = _
  rw [Core.dropQueue_loads, Core.dropQueue_shadow]

theorem State.rollback_mmas (s : State) :
    s.rollback.core.mx.mmas = s.core.mx.mmas.filter (fun m => decide (m.bundle < s.core.shadow.bundle)) := by
  show s.core.dropQueue.mx.mmas.filter (fun m => decide (m.bundle < s.core.dropQueue.shadow.bundle)) = _
  rw [Core.dropQueue_mmas, Core.dropQueue_shadow]

/-- Nothing of a bundle after the restart point is left (R349). -/
theorem State.rollback_bundles (s : State) :
    (∀ e ∈ s.rollback.core.gate, e.bundle < s.core.shadow.bundle) ∧ (∀ i ∈ s.rollback.core.inter, i.bundle < s.core.shadow.bundle) ∧
      (∀ l ∈ s.rollback.core.loads, l.bundle < s.core.shadow.bundle) ∧
      (∀ m ∈ s.rollback.core.mx.mmas, m.bundle < s.core.shadow.bundle) := by
  rw [State.rollback_gate, State.rollback_inter, State.rollback_loads, State.rollback_mmas]
  refine ⟨fun e he => ?_, fun i hi => ?_, fun l hl => ?_, fun m hm => ?_⟩
  · exact of_decide_eq_true (List.mem_filter.mp he).2
  · obtain ⟨j, hj, rfl⟩ := List.mem_map.mp hi
    exact of_decide_eq_true (List.mem_filter.mp hj).2
  · exact of_decide_eq_true (List.mem_filter.mp hl).2
  · exact of_decide_eq_true (List.mem_filter.mp hm).2

/-- With no result in flight at the restart point the registers are the shadow's. -/
theorem State.rollback_settled {s : State} (h : s.core.shadow.pend = []) :
    s.rollback.core.regs = s.core.shadowRegs ∧ s.rollback.core.iss.pend = [] := by
  have hl : s.core.shadowLand = ([], s.core.shadowRegs) := by simp [Core.shadowLand, h, landDue]
  rw [State.rollback_regs, State.rollback_pend, hl]
  exact ⟨rfl, rfl⟩

/-- A result lands in a register file alike, whatever the system registers. -/
theorem Dest.apply_with_sys (d : Dest) (r : Regs) (y : SysRegs) : ∃ z, d.apply { r with sys := y } = { d.apply r with sys := z } := by
  cases d with
  | x i v po => by_cases h : i = 0 <;> exact ⟨y, by simp [Dest.apply, h]⟩
  | p i v m po => by_cases h : i = 0 <;> exact ⟨y, by simp [Dest.apply, h]⟩
  | ovfs set => cases set <;> exact ⟨_, rfl⟩
  | v | a | name | ch | k | loaded | brk | uninject => exact ⟨_, rfl⟩

/-- A result still in flight at the restart point stays so, and its register reads it already (R351). -/
theorem State.rollback_inFlight {s : State} {w : PWrite} (h : s.core.shadow.pend = [w]) (hd : w.dead = false)
    (ht : s.core.iss.sched < w.due) (hk : w.dest.key.isSome = true) :
    s.rollback.core.iss.pend = [w] ∧ s.rollback.core.regs = w.dest.apply s.core.shadowRegs := by
  have hl : s.core.shadowLand = ([w], s.core.shadowRegs) := by rw [Core.shadowLand, h, landDue_early _ ht]
  rw [State.rollback_regs, State.rollback_pend, hl]
  exact ⟨rfl, by simp [landRest, hk, hd, PWrite.not_overtakes_self]⟩

/-! ### A failed lookup -/

theorem State.heldTrap_of_running {s : State} (was : Option Nat) (h : s.core.running.isSome = true) : s.heldTrap was = s := by
  have hn : s.core.running.isNone = false := by rw [Option.isNone_eq_false_iff]; exact h
  unfold State.heldTrap
  split
  · rfl
  · split
    · simp [hn]
    · rfl

/-- A strand that waits for a page stays on the core, and its bundle does not end (R352). -/
theorem State.afterTrap_of_absent {s : State} (was : Option Nat) (ha : s.core.iss.absent = true) (h : s.core.running.isSome = true) :
    s.afterTrap was = s := by
  simp [State.afterTrap, ha, State.heldTrap_of_running was h]

theorem State.lookupTrap_delivered {s : State} {f : LFault} (h : f.cause ≠ 0x05) :
    s.lookupTrap f = s.rollback.takeTrap f.cause f.addr s.core.shadow.pc := by
  simp [State.lookupTrap, h]

theorem State.lookupTrap_absent {s : State} {f : LFault} (h : f.cause = 0x05) :
    s.lookupTrap f = s.rollback.mapIss (fun i => { i with absent := true, fault := some f }) := by
  simp [State.lookupTrap, h]

theorem exec_lookupFault {s : State} {f : LFault} (hf : s.core.iss.fault = some f) (ha : s.core.iss.absent = false) :
    exec .lookupFault s = .next ((s.lookupTrap f).afterTrap s.core.running) := by
  show execLookupFault s = _
  simp [execLookupFault, hf, ha]

theorem lookupFault_waits {s : State} {f : LFault} (hf : s.core.iss.fault = some f) (ha : s.core.iss.absent = false)
    (hc : f.cause = 0x05) (hr : s.core.running ≠ none) :
    Runs .lookupFault s (fun t => t.core.iss.absent = true ∧ t.core.iss.fault = some f ∧ t.core.iss.iq = s.core.committed ∧
      t.core.iss.pc = s.core.shadow.pc ∧ t.mem = s.mem) := by
  have hrun : s.rollback.core.running.isSome = true := by rw [State.rollback_running]; exact Option.isSome_iff_ne_none.mpr hr
  have hl := State.lookupTrap_absent (s := s) hc
  have hw : (s.lookupTrap f).afterTrap s.core.running = s.lookupTrap f :=
    State.afterTrap_of_absent _ (by rw [hl]; rfl) (by rw [hl]; exact hrun)
  have he := exec_lookupFault hf ha
  rw [hw, hl] at he
  exact ⟨_, he, rfl, rfl, s.rollback_iq, s.rollback_pc, rfl⟩

theorem pageMadePresent_backed {s : State} {f : LFault} (hf : s.core.iss.fault = some f) (ha : s.core.iss.absent = true) :
    Runs (.pageMadePresent true) s (fun t => t.core.iss.absent = false ∧ t.core.iss.fault = none ∧
      (∀ e ∈ t.core.table, e.maps f.addr.toNat = true → e.absent = false) ∧ t.core.regs = s.core.regs ∧ t.mem = s.mem) := by
  refine ⟨(s.mapIss (fun i => { i with absent := false, fault := none })).mapCore (fun c => c.present f.addr.toNat), ?_, rfl, rfl,
    fun e he hm => ?_, rfl, rfl⟩
  · show execPageMadePresent true s = _
    simp [execPageMadePresent, hf, ha]
  · obtain ⟨e', -, rfl⟩ := List.mem_map.mp he
    by_cases h : e'.maps f.addr.toNat = true
    · rw [if_pos h]
    · rw [if_neg h] at hm; exact absurd hm h

theorem exec_pageMadePresent_unbacked {s : State} {f : LFault} (hf : s.core.iss.fault = some f) (ha : s.core.iss.absent = true) :
    exec (.pageMadePresent false) s = .next (((s.mapIss (fun i => { i with absent := false, fault := none })).takeTrap 0x06 f.addr
      s.core.shadow.pc).afterTrap s.core.running) := by
  show execPageMadePresent false s = _
  simp [execPageMadePresent, hf, ha]

/-! ### Fills and restart points -/

theorem State.fillLine_icache (s : State) (line : Nat) :
    (∃ rest, (s.fillLine line).core.icache = (line, s.mem.bytes (64 * line) 128) :: rest) ∧ (s.fillLine line).core.icache.length ≤ 1024 :=
  ⟨⟨_, rfl⟩, List.length_take_le _ _⟩

theorem icacheFill_miss {s : State} {line : Nat} (hr : s.core.running ≠ none) (hf : s.fetch = .miss line) :
    Runs .icacheFill s (fun t => (∃ rest, t.core.icache = (line, s.mem.bytes (64 * line) 128) :: rest) ∧
      t.core.icache.length ≤ 1024 ∧ t.mem = s.mem ∧ t.core.regs = s.core.regs ∧ t.core.iss = s.core.iss) := by
  have hn : s.core.running.isNone = false := by rw [Option.isNone_eq_false_iff]; exact Option.isSome_iff_ne_none.mpr hr
  have h := s.fillLine_icache line
  refine ⟨(s.fillLine line).tick (1 + Config.waitCycles s.freeCtr), ?_, h.1, h.2, rfl, rfl, rfl⟩
  show execIcacheFill s = _
  simp [execIcacheFill, hn, hf]

theorem exec_restartPointCommit {s : State} {c : Ctl} (hr : s.core.running ≠ none) (hm : s.core.iss.mayDispatch = true)
    (hq : s.core.iss.iq = []) (hc : s.nextCtl = some c) (hp : (c.mark || c.qp) = true) :
    exec .restartPointCommit s = .next (s.commitAt s.core.iss.bundle s.core.iss.pc) := by
  have hs : s.core.running.isSome = true := Option.isSome_iff_ne_none.mpr hr
  show execRestartPointCommit s = _
  simp [execRestartPointCommit, hs, hm, hq, hc, hp]

/-- Settles O46: each event by its own lemma, the rollback by the lemmas about its fields. -/
theorem coreEvents : Obligations.CoreEvents := by
  unfold Obligations.CoreEvents
  refine ⟨fun s => ⟨fun line hr hf => icacheFill_miss hr hf, rfl, fun c hr hm hq hc hp => exec_restartPointCommit hr hm hq hc hp,
    fun f hf ha hc => ?_, fun f hf ha hc hr => lookupFault_waits hf ha hc hr, fun f hf ha => pageMadePresent_backed hf ha,
    fun f hf ha => exec_pageMadePresent_unbacked hf ha⟩, fun s w hp hd ht hk => ?_, fun s hp => ?_⟩
  · rw [exec_lookupFault hf ha, State.lookupTrap_delivered hc]
  · obtain ⟨hpend, hregs⟩ := State.rollback_inFlight hp hd ht hk
    obtain ⟨z, hz⟩ := w.dest.apply_with_sys s.core.shadow.regs (keepCounts s.core.regs.sys s.core.shadow.regs.sys)
    rw [hregs, Core.shadowRegs, hz]
    exact ⟨hpend, rfl, rfl, rfl, rfl⟩
  · obtain ⟨hregs, hpend⟩ := State.rollback_settled hp
    obtain ⟨hgate, hinter, hloads, hmmas⟩ := s.rollback_bundles
    intro t b
    rw [show t.core.regs = s.core.shadowRegs from hregs]
    exact ⟨rfl, rfl, rfl, rfl, rfl, rfl, rfl, rfl, rfl, rfl, s.rollback_pc, s.rollback_iq, hpend, rfl, hgate, hinter, hloads, hmmas, rfl,
      rfl, s.rollback_fars, s.rollback_meter⟩
end Sys2Proof.Machine
end

section
/-! What stores, charges, interrupts and the writes of a tenant page leave as it was; a restart point with an empty gate. -/
open Sys2Proof Sys2Proof.Machine Sys2Proof.Claims

namespace Sys2Proof.Machine

/-! ### Tenant pages and interrupts -/

theorem Dev.mapPage_page (d : Dev) {t : Nat} (f : Page → Page) (h : t < 64) : (d.mapPage t f).page t = f (d.page t) :=
  vget_vset_same _ _ _ _ h

@[simp] theorem Dev.raiseError_page (d : Dev) (t n : Nat) : (d.raiseError t).page n = d.page n := by
  unfold Dev.raiseError; split <;> rfl

/-- The block at `k` after a change of it. -/
theorem Dev.setBlock_get (d : Dev) {k : Nat} {b : Block} (f : Block → Block) (h : d.blocks[k]? = some b) :
    (d.setBlock k f).blocks[k]? = some (f b) := by
  simp [Dev.setBlock, h]

/-! ### Stores

A store by any agent writes memory, notes what it replaces in the chutes and the engines, and recomputes the MMAs whose operands it meets: of
the device it changes the chutes alone. -/

theorem State.redoMmas_dev (s : State) (l : List MmaFlight) : (s.redoMmas l).dev = s.dev := by
  unfold State.redoMmas; split <;> rfl

theorem State.storeAt_dev (s : State) (cells : List Host.Cell) (pois : List Nat) :
    ∃ cs, (s.storeAt cells pois).dev = { s.dev with chutes := cs } :=
  ⟨_, State.redoMmas_dev _ _⟩

@[simp] theorem State.engineStore_rounds (s : State) (cells : List Host.Cell) (pois : List Nat) :
    (s.engineStore cells pois).dev.rounds = s.dev.rounds := by
  obtain ⟨cs, h⟩ := s.storeAt_dev cells pois
  rw [State.engineStore, h]

@[simp] theorem State.engineStore_blocks (s : State) (cells : List Host.Cell) (pois : List Nat) :
    (s.engineStore cells pois).dev.blocks = s.dev.blocks := by
  obtain ⟨cs, h⟩ := s.storeAt_dev cells pois
  rw [State.engineStore, h]

@[simp] theorem State.plainStore_pages (s : State) (cells : List Host.Cell) : (s.plainStore cells).dev.pages = s.dev.pages := by
  obtain ⟨cs, h⟩ := s.storeAt_dev (cells.map (fun c => (s.route c.1, c.2))) []
  rw [State.plainStore, h]

/-- The pieces of host writes that are performed change no tenant page. -/
theorem State.landPieces_page (s : State) (t : Nat) : s.landPieces.dev.page t = s.dev.page t := by
  have h : ∀ (l : List (List Host.Cell)) (u : State), (l.foldl (fun (t : State) p => t.plainStore p) u).dev.pages = u.dev.pages := by
    intro l
    induction l with
    | nil => exact fun _ => rfl
    | cons p l ih => exact fun u => (ih _).trans (State.plainStore_pages u p)
  exact congrArg (fun v => vget v t Page.reset) (h s.dev.pieces s)

/-! ### Charges (R461) -/

/-- A charge changes the strand's counters alone. -/
theorem State.charge_meter (s : State) (strand g e : Nat) : ∃ m, s.charge strand g e = s.mapCore (fun c => { c with meter := m }) := by
  unfold State.charge
  split
  · exact ⟨_, rfl⟩
  · exact ⟨s.core.meter, rfl⟩

theorem State.chargeBytes_meter (s : State) (strand : Nat) (homes : List (Nat × Nat)) :
    ∃ m, s.chargeBytes strand homes = s.mapCore (fun c => { c with meter := m }) :=
  s.charge_meter strand _ _

@[simp] theorem State.chargeHomes_dev (s : State) (id : Nat) (addrs : List Nat) : (s.chargeHomes id addrs).dev = s.dev := by
  unfold State.chargeHomes
  split
  · next e _ =>
    obtain ⟨m, h⟩ := s.chargeBytes_meter e.strand (addrs.map (fun a => (a, 1)))
    rw [h]; rfl
  · rfl

/-! ### The gate and restart points -/

@[simp] theorem State.interlockTok_gate (s : State) (tok id : Nat) (g : Bool) : (s.interlockTok tok id g).core.gate = s.core.gate := by
  unfold State.interlockTok; split <;> rfl

/-- A command that the op in issue sends takes one gate entry; of the rest only the waits for its token change. -/
theorem State.gateCmd_frame (s : State) (tok : Nat) (c : Cmd) :
    (s.gateCmd tok c).core.gate.length = s.core.gate.length + 1 ∧ (s.gateCmd tok c).mem = s.mem ∧ (s.gateCmd tok c).dev = s.dev ∧
      (s.gateCmd tok c).core.regs = s.core.regs := by
  refine ⟨?_, State.interlockTok_mem _ _ _ _, State.interlockTok_dev _ _ _ _, State.interlockTok_regs _ _ _ _⟩
  rw [State.gateCmd, State.interlockTok_gate]
  exact List.length_append

/-- The restart point of a serialising op with an empty gate performs nothing (R344). -/
theorem State.serialPoint_of_empty {s : State} (h : s.core.gate = []) :
    ∃ inter accs shadow, s.serialPoint = s.mapCore (fun c => { c with inter := inter, accs := accs, shadow := shadow }) := by
  unfold State.serialPoint
  split
  · exact ⟨s.core.inter, s.core.accs, s.core.shadow, rfl⟩
  · have hr : s.core.releasing (s.core.iss.cur.bundle + 1) = [] := by simp [Core.releasing, h]
    have hg : s.core.gate.filter (fun e => !decide (e.bundle < s.core.iss.cur.bundle + 1)) = s.core.gate := by simp [h]
    simp only [State.commitAt, hr, List.foldl_nil, State.mapCore, hg]
    exact ⟨_, _, _, rfl⟩

/-- A trap with a handler armed, none running, and an empty gate: the handler's first bundle is next, and TRAPC, TRAPPC and TRAPVAL say what
happened (R353). -/
theorem State.takeTrap_handled {s : State} (cause : Nat) (val : X64) (pc : Nat) (hg : s.core.gate = [])
    (hh : s.core.regs.sys.handles = true) :
    (s.takeTrap cause val pc).mem = s.mem ∧
      (s.takeTrap cause val pc).core.regs = { s.core.regs with sys := { s.core.regs.sys with
        trapc := BitVec.ofNat 64 (cause % 256 + 256 * 1), trappc := trapPc pc, trapval := val } } ∧
      (s.takeTrap cause val pc).core.iss = s.core.iss.enter s.core.regs.sys.handler := by
  simp only [State.takeTrap, hh, if_true]
  obtain ⟨hm, -, hr, hi, -⟩ := State.commitAt_empty (((s.mapCore Core.dropQueue).mapSys (fun y =>
    { y with trapc := BitVec.ofNat 64 (cause % 256 + 256 * 1), trappc := trapPc pc, trapval := val })).mapIss (fun i =>
      i.enter s.core.regs.sys.handler)) (s.core.iss.bundle + 1) s.core.regs.sys.handler (by simp [hg])
  refine ⟨hm, hr.trans ?_, hi.trans ?_⟩ <;> simp
end Sys2Proof.Machine
end

section
/-! A collective round that ends leaves the device's rounds, and its command has its token (R407, R420). -/
open Sys2Proof Sys2Proof.Machine Sys2Proof.Claims

namespace Sys2Proof.Machine

/-! ### What an ending round does beside -/

theorem Dev.freeLease_rounds (l : List ClaimName) : ∀ d : Dev, (l.foldl Dev.freeLease d).rounds = d.rounds := by
  induction l with
  | nil => exact fun _ => rfl
  | cons x l ih => exact fun d => ih (d.freeLease x)

@[simp] theorem State.freeLeases_rounds (s : State) (nm : ClaimName) : (s.freeLeases nm).dev.rounds = s.dev.rounds :=
  Dev.freeLease_rounds _ _

@[simp] theorem State.giveUp_rounds (s : State) (r : Round) : (s.giveUp r).dev.rounds = s.dev.rounds := by
  unfold State.giveUp
  split
  · exact Dev.freeLease_rounds _ _
  · rfl

@[simp] theorem State.freeAmong_rounds (s : State) (addrs : List Nat) (past : List (List (Byte × Bool))) :
    (s.freeAmong addrs past).dev.rounds = s.dev.rounds := by
  unfold State.freeAmong
  split
  · rfl
  · exact State.engineStore_rounds _ _ _

@[simp] theorem State.writeBackRecord_rounds (s : State) (r : Round) (status : Nat) (leased : Bool) :
    (s.writeBackRecord r status leased).dev.rounds = s.dev.rounds :=
  (State.engineStore_rounds _ _ _).trans (congrArg (fun d : Dev => d.rounds) (State.chargeHomes_dev _ _ _))

/-! ### The end of a round -/

/-- The command of a round has the token that is written for it. -/
theorem State.collToken_done (s : State) (id : Nat) (v : X64) : ∀ e ∈ (s.collToken id v).core.engs, e.id = id → e.done = some v := by
  intro e he hid
  obtain ⟨o, -, rfl⟩ := List.mem_map.mp he
  by_cases h : (o.id == id) = true
  · rw [if_pos h]
  · rw [if_neg h] at hid; exact absurd (beq_iff_eq.mpr hid) h

/-- The token is the last thing that an ending round writes. -/
theorem State.failRound_token (s : State) (r : Round) (status : Nat) :
    ∃ u : State, s.failRound r status = u.collToken r.id (token status 0) ∧ u.dev.rounds = s.dev.rounds.filter (fun o => o.id != r.id) := by
  unfold State.failRound
  split
  · exact ⟨_, rfl, rfl⟩
  · refine ⟨_, rfl, ?_⟩
    simp only [State.writeBackRecord_rounds, apply_ite State.dev, apply_ite Dev.rounds, State.freeLeases_rounds, State.giveUp_rounds,
      State.freeAmong_rounds, ite_self]
    rfl

/-- A round that a member ends: it is gone, and its command has the token of the status (R420). -/
theorem State.abortRound_ends (s : State) (r : Round) (status : Nat) :
    (s.abortRound r status).dev.rounds = s.dev.rounds.filter (fun o => o.id != r.id) ∧
      ∀ e ∈ (s.abortRound r status).core.engs, e.id = r.id → e.done = some (token status 0) := by
  obtain ⟨u, hu, hr⟩ := s.failRound_token r status
  unfold State.abortRound
  split <;> rw [hu]
  · exact ⟨hr, u.collToken_done _ _⟩
  · exact ⟨hr, u.collToken_done _ _⟩
end Sys2Proof.Machine
end

section
/-! Where the ops that only read, wait or trap complete, and the events of queues, blocks, rounds, engines and registers. -/
open Sys2Proof Sys2Proof.Machine Sys2Proof.Claims

namespace Sys2Proof.Machine

/-! ### Ops that read, wait or trap -/

theorem sends_tstpsn {s : State} {f : CG} (h : f.a.toNat < s.core.nV) :
    Sends (.tstpsn f) s 1 (.x (s.px f.d) (s.poisonV f.a) false) := by
  have hv : s.hasV f.a = true := decide_eq_true h
  show execTstpsn f s = _
  rw [execTstpsn, chkTstpsn, hv]; rfl

theorem sends_rdsr {s : State} {g : CGSr} {v : X64} (h : s.sysReg g.srn.toNat = some v) :
    Sends (.rdsr g) s 1 (.x (s.px g.d) v false) := by
  have hc : chkRdsr g s = .ok := by rw [chkRdsr, h]; rfl
  show execRdsr g s = _
  rw [execRdsr, hc, issueOp_go, h]; rfl

theorem needCtl_clean {s : State} {r : Reg} (h : s.poisonX r = false) : s.needCtl r = .ok := by
  simp [State.needCtl, need, h]

theorem exec_bkpt_zero {s : State} {g : CGSr} (hp : s.poisonX g.a = false) (hz : s.rdX g.a = 0) : exec (.bkpt g) s = .next s := by
  show execBkpt g s = _
  simp only [execBkpt, chkBkpt, needCtl_clean hp, hz]; rfl

/-- A fence with nothing outstanding changes neither data nor the place of the next bundle (R256, R257). -/
theorem fence_quiet {s : State} (h : CGFence) (hg : s.core.gate = []) (hl : s.core.loads = []) (hf : s.core.fars = []) :
    Runs (.fence h) s (fun t => t.mem = s.mem ∧ t.dev = s.dev ∧ t.core.regs = s.core.regs ∧ t.core.iss = s.core.iss) := by
  obtain ⟨inter, accs, shadow, hs⟩ := State.serialPoint_of_empty hg
  have hr : readyFence h s.serialPoint = .go := by rw [hs]; simp [readyFence, hl, hf]
  refine ⟨s.serialPoint, ?_, ?_⟩
  · show execFence h s = _
    rw [execFence, issueSerial_go s _ _ hr]
  · rw [hs]
    exact ⟨rfl, rfl, rfl, rfl⟩

/-- TRAP with a handler armed and none running enters it (R353, R356). -/
theorem trap_handled {s : State} (c : CGCode) (hg : s.core.gate = []) (he : s.core.regs.sys.trapv.getLsbD 0 = true)
    (hi : s.core.regs.sys.trapc.getLsbD 8 = false) :
    Runs (.trap c) s (fun t => t.core.regs.sys.trapc = 0x10D ∧ t.core.regs.sys.trapval = c.code.zeroExtend 64 ∧
      t.core.iss.pc = s.core.regs.sys.trapv.toNat % 2 ^ 56 / 8 * 8 ∧ t.mem = s.mem ∧ t.core.regs.x = s.core.regs.x) := by
  obtain ⟨inter, accs, shadow, hs⟩ := State.serialPoint_of_empty hg
  have hh : s.serialPoint.core.regs.sys.handles = true := by
    have h : s.core.regs.sys.handles = true := by rw [SysRegs.handles, he, hi]; rfl
    rw [hs]; exact h
  have hgs : s.serialPoint.core.gate = [] := by rw [hs]; exact hg
  obtain ⟨hm, hr, hiss⟩ := State.takeTrap_handled 0x0D (c.code.zeroExtend 64) s.serialPoint.core.iss.nextPc hgs hh
  refine ⟨s.serialPoint.takeTrap 0x0D (c.code.zeroExtend 64) s.serialPoint.core.iss.nextPc, ?_, ?_⟩
  · show execTrap c s = _
    rw [execTrap, issueSerial_go s _ _ rfl]
  · beta_reduce
    rw [hr, hiss, hm, hs]
    exact ⟨rfl, rfl, rfl, rfl, rfl⟩

/-- RETT from a handler goes on at TRAPPC, TRAPC.IN cleared (R356). -/
theorem rett_inHandler {s : State} (f : CG) (hg : s.core.gate = []) (hi : s.core.regs.sys.trapc.getLsbD 8 = true) :
    Runs (.rett f) s (fun t => t.core.iss.next = .taken s.core.regs.sys.trappc.toNat ∧ t.core.regs.sys.trapc.getLsbD 8 = false ∧
      t.mem = s.mem ∧ t.core.regs.x = s.core.regs.x) := by
  obtain ⟨inter, accs, shadow, hs⟩ := State.serialPoint_of_empty (s := s.returnFromTrap) hg
  have hc : chkRett f s = .ok := by simp only [chkRett, hi, need, if_true]
  have hbit : (s.core.regs.sys.trapc &&& ~~~(0x100#64)).getLsbD 8 = false := by simp
  refine ⟨s.returnFromTrap.serialPoint, ?_, ?_⟩
  · show execRett f s = _
    rw [execRett, hc]; rfl
  · rw [hs]
    exact ⟨rfl, hbit, rfl, rfl⟩

/-- SVC puts the strand's request into the owner runtime's queue, and the strand waits (R356). -/
theorem svc_queues {s : State} (c : CGCode) (hg : s.core.gate = []) (hp : s.poisonX c.a = false) :
    Runs (.svc c) s (fun t => t.dev.svc = s.dev.svc ++ [(s.core.tenant, s.core.number, c.code, s.rdX c.a)] ∧
      t.core.iss.waits = some .svc ∧ t.mem = s.mem ∧ t.core.regs = s.core.regs) := by
  obtain ⟨inter, accs, shadow, hs⟩ := State.serialPoint_of_empty hg
  have he : exec (.svc c) s = .next ((s.serialPoint.mapDev (fun d => { d with svc := d.svc ++
      [(s.serialPoint.core.tenant, s.serialPoint.core.number, c.code, s.serialPoint.rdX c.a)] })).mapIss (fun i =>
        { i with waits := some .svc, waitReg := s.serialPoint.px c.d })) := by
    show execSvc c s = _
    rw [execSvc, chkSvc, needCtl_clean hp, issueSerial_go s _ _ rfl]
  rw [hs] at he
  exact ⟨_, he, rfl, rfl, rfl, rfl⟩

/-- The charge for a command's record leaves what the command leaves. -/
theorem State.chargeParts_gateCmd_frame (s : State) (strand tok : Nat) (ps : List Part) (c : Cmd) :
    ((s.chargeParts strand ps).gateCmd tok c).core.gate.length = s.core.gate.length + 1 ∧
      ((s.chargeParts strand ps).gateCmd tok c).mem = s.mem ∧ ((s.chargeParts strand ps).gateCmd tok c).dev = s.dev ∧
      ((s.chargeParts strand ps).gateCmd tok c).core.regs = s.core.regs := by
  obtain ⟨m, hm⟩ := s.chargeBytes_meter strand (ps.map (fun p => (p.addr, p.len)))
  rw [State.chargeParts, hm]
  exact State.gateCmd_frame _ tok c

/-- COLL, its checks passed and the engine with room, waits in the gate (R406). -/
theorem coll_gates {s : State} {f : EA} (hc : chkColl f s = .ok) (hr : s.cmds Cmd.isCopy < 16) :
    Runs (.coll f) s (fun t => t.core.gate.length = s.core.gate.length + 1 ∧ t.mem = s.mem ∧ (s.core.running ≠ none → t.dev = s.dev) ∧
      t.core.regs = s.core.regs) := by
  have hroom : s.readyRoom Cmd.isCopy 16 = .go := if_pos hr
  let r := (s.collRecord (s.rdX f.a)).2
  let c : Cmd := .coll r (s.partsOf (s.stretch (s.rdX f.b).toNat r.bytes)) (s.partsOf (s.stretch (s.rdX f.c).toNat r.bytes))
  obtain ⟨hgate, hmem, hdev, hregs⟩ := s.chargeParts_gateCmd_frame s.strandIdx (s.px f.d) r.home c
  refine ⟨(s.chargeParts s.strandIdx r.home).gateCmd (s.px f.d) c, ?_, hgate, hmem, fun _ => hdev, hregs⟩
  show execColl f s = _
  rw [execColl, hc, hroom, issueOp_go]
end Sys2Proof.Machine
end

section
/-! Where the events of queues, blocks, rounds, engines and registers complete. -/
open Sys2Proof Sys2Proof.Machine Sys2Proof.Claims

namespace Sys2Proof.Machine

/-! ### The tenant queue and its blocks (R185 to R192, R397) -/

theorem tailWrite_taken {s : State} {t : Nat} (l : Bool) {v : BitVec 32} (ht : t < 64) (ha : (s.dev.page t).active = true)
    (hv : (v - (s.dev.page t).head).toNat ≤ 2 ^ (s.dev.page t).qsize) :
    Runs (.tailWrite ⟨t, l⟩ v) s (fun u => (u.dev.page t).tail = v) := by
  refine ⟨s.landPieces.mapDev (fun d => d.mapPage t (fun p => { (if l then p.newLaunch else p) with tail := v })), ?_,
    congrArg Page.tail (Dev.mapPage_page _ _ ht)⟩
  show execTailWrite ⟨t, l⟩ v s = _
  simp only [execTailWrite, State.landPieces_page, ha, hv]
  rfl

/-- A block that is dropped is one that has been read. -/
theorem State.dropBlock_head (s : State) {t : Nat} (ht : t < 64) :
    ((s.dropBlock t).dev.page t).head = (s.dev.page t).head + 1 := by
  simp only [State.dropBlock, State.mapDev_dev, Dev.raiseError_page, Dev.mapPage_page _ _ ht]

/-- The block at HEAD is read, queued or dropped: HEAD advances past it (R397). -/
theorem blockRead_advances {s : State} {t : Nat} (ht : t < 64) (hb : (s.dev.page t).hasBlock = true) :
    Runs (.blockRead t) s (fun u => (u.dev.page t).head = (s.dev.page t).head + 1 ∧ u.mem = s.landPieces.mem) := by
  have hdrop := s.landPieces.dropBlock_head ht
  rw [State.landPieces_page] at hdrop
  show ∃ u, execBlockRead t s = .next u ∧ _
  simp only [execBlockRead, State.landPieces_page, hb, Bool.not_true, Bool.false_eq_true, if_false]
  split
  · exact ⟨_, rfl, hdrop, rfl⟩
  · split
    · exact ⟨_, rfl, hdrop, rfl⟩
    · split
      · exact ⟨_, rfl, hdrop, rfl⟩
      · refine ⟨_, rfl, ?_, rfl⟩
        have hpage := congrArg Page.head (Dev.mapPage_page s.landPieces.dev (fun p => { p with head := p.head + 1, launched := true }) ht)
        rw [State.landPieces_page] at hpage
        exact hpage

theorem sheafRelease_places {s : State} {k : Nat} (h : s.dev.mayPlace k = true) :
    Runs (.sheafRelease k) s (fun u => u.dev.strands.length = s.dev.strands.length + 1 ∧ u.mem = s.mem) := by
  obtain ⟨b, hb⟩ : ∃ b, s.dev.blocks[k]? = some b := by
    cases hb : s.dev.blocks[k]? with
    | none => simp [Dev.mayPlace, hb] at h
    | some b => exact ⟨b, rfl⟩
  show ∃ u, execSheafRelease k s = .next u ∧ _
  simp only [execSheafRelease, h, hb, if_true]
  exact ⟨_, rfl, List.length_append, rfl⟩

@[simp] theorem State.recordStore_blocks (s : State) (b : Block) (off : Nat) (bs : List Byte) :
    (s.recordStore b off bs).dev.blocks = s.dev.blocks := by
  unfold State.recordStore State.tenantStore
  cases s.tenantParts b.tenant [.store] (b.completion.toNat + off) bs.length <;> exact State.engineStore_blocks _ _ _

theorem blockComplete_completes {s : State} {k : Nat} (h : s.blockDone k = true) :
    Runs (.blockComplete k) s (fun u => u.dev.blocks[k]?.map (·.complete) = some true) := by
  obtain ⟨b, hb⟩ : ∃ b, s.dev.blocks[k]? = some b := by
    cases hb : s.dev.blocks[k]? with
    | none => simp [State.blockDone, hb] at h
    | some b => exact ⟨b, rfl⟩
  show ∃ u, execBlockComplete k s = .next u ∧ _
  simp only [execBlockComplete, h, hb, Bool.not_true, Bool.false_eq_true, if_false]
  refine ⟨_, rfl, ?_⟩
  have hr : ((s.recordStore b 8 (wordsBytes (b.completionWords.drop 1))).recordStore b 0
      (wordsBytes (b.completionWords.take 1))).dev.blocks[k]? = some b := by simp [hb]
  have hd := Dev.setBlock_get _ (fun b => { b with complete := true }) hr
  rw [State.mapDev_dev]
  split <;> exact congrArg (Option.map (·.complete)) hd

/-! ### Collectives (R408, R417 to R420) -/

theorem Dev.roundOf_of_none {d : Dev} (h : d.rounds = []) (tenant : Nat) (key : X64) (q : Nat) : d.roundOf tenant key q = none := by
  simp [Dev.roundOf, h]

theorem collMessage_early {s : State} (m : CollMsg) (ha : s.dev.aborted = []) (hr : s.dev.rounds = []) :
    Runs (.collMessage m) s (fun t => t.dev.early = s.dev.early ++ [m]) := by
  refine ⟨s.mapDev (fun d => { d with early := d.early ++ [m] }), ?_, rfl⟩
  show execCollMessage m s = _
  simp [execCollMessage, ha, Dev.roundOf_of_none hr]

theorem algorithmDecision_early {s : State} (d : DecisionMsg) (came : List (Nat × Bool)) (hr : s.dev.rounds = []) :
    Runs (.algorithmDecision d came) s (fun t => t.dev.earlyDecisions = s.dev.earlyDecisions ++ [d]) := by
  refine ⟨s.mapDev (fun v => { v with earlyDecisions := v.earlyDecisions ++ [d] }), ?_, rfl⟩
  show execAlgorithmDecision d came s = _
  simp [execAlgorithmDecision, Dev.roundOf_of_none hr, hr]

theorem slotBeat_early {s : State} (b : Beat) (ha : s.dev.aborted = []) (hr : s.dev.rounds = []) (hg : s.dev.grants = []) :
    Runs (.slotBeat b.tenant b.key b.round b.digest b.toBeatIn) s (fun t => t.dev.earlyBeats = s.dev.earlyBeats ++ [b]) := by
  have hrel : s.dev.relaying b = none := by simp [Dev.relaying, hg]
  refine ⟨s.mapDev (fun d => { d with earlyBeats := d.earlyBeats ++ [b] }), ?_, rfl⟩
  show execSlotBeat b.tenant b.key b.round b.digest b.toBeatIn s = _
  simp [execSlotBeat, ha, hrel, Dev.roundOf_of_none hr]

theorem abortNotice_early {s : State} (tenant : Nat) (key : X64) (round : Nat) {st : Nat} (hst : st = 7 ∨ st = 11)
    (hr : s.dev.rounds = []) :
    Runs (.abortNotice ⟨tenant, key⟩ round st) s (fun t =>
      t.dev.earlyAborts = s.dev.earlyAborts ++ [(tenant, key, round, st)]) := by
  refine ⟨s.mapDev (fun d => { d with earlyAborts := d.earlyAborts ++ [(tenant, key, round, st)] }), ?_, rfl⟩
  have hn : ¬ (st ≠ 7 ∧ st ≠ 11) := by omega
  show execAbortNotice ⟨tenant, key⟩ round st s = _
  simp only [execAbortNotice, hn, if_false, Dev.roundOf_of_none hr]

/-- The allocator's answer changes no slot. -/
@[simp] theorem State.answerRequest_slots (s : State) (q : SlotReq) (own : Option Round) (yes : Bool) :
    (s.answerRequest q own yes).dev.slots = s.dev.slots := by cases own <;> rfl

/-- The lowest free slot is granted (R417): slot 0, where that is free. -/
theorem State.allocate_first {s : State} {q : SlotReq} (hq : q.release = false)
    (hm : s.mayEnter (homeField s.dev.ident.index 0 0 0) = true) (h0 : vget s.dev.slots 0 none = none) :
    ∃ n, vget (s.allocate q).dev.slots 0 none = some (q.tenant, n) := by
  have hfind : (List.range 64).find? (fun i => (vget s.dev.slots i none).isNone) = some 0 := by
    rw [List.range_succ_eq_map]; simp [h0]
  simp only [State.allocate, hq, hfind, hm, Bool.not_true, Bool.false_eq_true, if_false, State.answerRequest_slots]
  exact ⟨_, vget_vset_same _ _ _ _ (by decide)⟩

theorem slotRequest_granted {s : State} {q : SlotReq} (hq : q.release = false)
    (hm : s.mayEnter (homeField s.dev.ident.index 0 0 0) = true) (h0 : vget s.dev.slots 0 none = none) :
    Runs (.slotRequest q []) s (fun t => ∃ n, vget t.dev.slots 0 none = some (q.tenant, n)) :=
  ⟨s.allocate q, rfl, State.allocate_first hq hm h0⟩

/-- The one round of the device times out (R420). -/
theorem roundTimeout_ends {s : State} {r : Round} (hr : s.dev.rounds = [r]) (ht : r.timedOut s.core.now = true) :
    Runs (.roundTimeout ⟨r.tenant, r.record.key⟩) s (fun t => t.dev.rounds = [] ∧
      ∀ e ∈ t.core.engs, e.id = r.id → e.done = some (token 7 0)) := by
  obtain ⟨hrounds, htok⟩ := s.abortRound_ends r 7
  refine ⟨s.abortRound r 7, ?_, ?_, htok⟩
  · show execRoundTimeout ⟨r.tenant, r.record.key⟩ s = _
    simp [execRoundTimeout, hr, ht]
  · rw [hrounds, hr]; simp

/-! ### Engines and services (R278, R324, R356) -/

/-- A command whose token is written is over. -/
theorem State.finishEngine_engs (s : State) (e : Engine) (v : X64) : ∀ o ∈ (s.finishEngine e v).core.engs, o.id ≠ e.id := by
  intro o ho
  simpa using (List.mem_filter.mp ho).2

theorem engineTokenWrite_done {s : State} {e : Engine} {k : Nat} {v : X64} (hk : s.core.engs[k]? = some e) (hd : e.done = some v) :
    Runs (.engineTokenWrite k) s (fun t => ∀ o ∈ t.core.engs, o.id ≠ e.id) := by
  refine ⟨s.finishEngine e v, ?_, s.finishEngine_engs e v⟩
  show execEngineTokenWrite k s = _
  simp only [execEngineTokenWrite, hk, hd]

theorem rickEngineApply_ready {s : State} {e : Engine} {k : Nat} (hk : s.core.engs[k]? = some e) (hr : s.rickReady e = true) :
    Runs (.rickEngineApply k) s (fun t => ∀ o ∈ t.core.engs, o.id ≠ e.id) := by
  obtain ⟨c, hc⟩ : ∃ c, e.cmd = .rick c := by
    unfold State.rickReady at hr
    split at hr
    · next c hc => exact ⟨c, hc⟩
    · cases hr
  show ∃ u, execRickEngineApply k s = .next u ∧ _
  simp only [execRickEngineApply, hk, hc, hr, if_true]
  exact ⟨_, rfl, State.finishEngine_engs _ e _⟩

@[simp] theorem State.answerWait_svc (s : State) (k : Nat) (v : X64) : (s.answerWait k v).dev.svc = s.dev.svc := by
  unfold State.answerWait; split <;> rfl

/-- The oldest request is answered and leaves the queue, whether its strand still waits or not. -/
theorem svcReply_oldest {s : State} {q : Nat × Nat × BitVec 16 × X64} {rest : List (Nat × Nat × BitVec 16 × X64)} (v : X64)
    (h : s.dev.svc = q :: rest) : Runs (.svcReply (some v)) s (fun t => t.dev.svc = rest) := by
  show ∃ u, execSvcReply (some v) s = .next u ∧ _
  simp only [execSvcReply, h]
  split
  · exact ⟨_, rfl, State.answerWait_svc _ _ _⟩
  · exact ⟨_, rfl, rfl⟩

/-! ### Registers (R468, R477, R481) -/

theorem bitsAt_one (v : X64) (n : Nat) : (bitsAt v.toNat n n == 1) = v.getLsbD n := by
  simp only [bitsAt, Nat.sub_self, Nat.zero_add, pow_one, BitVec.getLsbD, Nat.testBit_eq_decide_div_mod_eq]
  rfl

/-- A change of INDOM sends the core to its list, and touches neither registers nor memory (R477). -/
theorem indomWrite_sets (s : State) (v : X64) :
    Runs (.indomWrite v) s (fun t => t.dev.ident.indom = v.getLsbD 8 ∧ t.core.regs = s.core.regs ∧ t.mem = s.mem) := by
  refine ⟨_, rfl, ?_⟩
  rw [← bitsAt_one]
  split <;> exact ⟨rfl, rfl, rfl⟩

/-- A choice between two answers that are each a next state is one. -/
theorem ite_next {c : Prop} [Decidable c] {a b : Out} (ha : ∃ t, a = .next t) (hb : ∃ t, b = .next t) :
    ∃ t, (if c then a else b) = .next t := by
  split
  · exact ha
  · exact hb

theorem execTailWrite_next (p : TailPlace) (v : BitVec 32) (s : State) : ∃ t, execTailWrite p v s = .next t := by
  unfold execTailWrite
  exact ite_next ⟨_, rfl⟩ (ite_next ⟨_, rfl⟩ ⟨_, rfl⟩)

theorem State.writeOwnPage_next (s : State) (t off : Nat) (v : X64) : ∃ u, s.writeOwnPage t off v = .next u := by
  unfold State.writeOwnPage
  exact ite_next (execTailWrite_next _ _ _) (ite_next ⟨_, rfl⟩ ⟨_, rfl⟩)

theorem execBinWindowAccess_next (off len : Nat) (w : Option X64) (s : State) : ∃ t, execBinWindowAccess off len w s = .next t := by
  unfold execBinWindowAccess
  split
  · exact ite_next ⟨_, rfl⟩ ⟨_, rfl⟩
  · exact ⟨_, rfl⟩

theorem execHookWrite_next (h w : Nat) (v : X64) (s : State) : ∃ t, execHookWrite h w v s = .next t := by
  unfold execHookWrite
  exact ite_next ⟨_, rfl⟩ ⟨_, rfl⟩

/-- A write of a register always completes: a place that takes none is left as it is. -/
theorem execRegisterWrite_next (p : RegPlace) (v : X64) (s : State) : ∃ t, execRegisterWrite p v s = .next t := by
  unfold execRegisterWrite
  exact ite_next ⟨_, rfl⟩ (ite_next (s.writeOwnPage_next _ _ _) (ite_next (ite_next (execTailWrite_next _ _ _) ⟨_, rfl⟩)
    (ite_next ⟨_, rfl⟩ (ite_next ⟨_, rfl⟩ (ite_next (execBinWindowAccess_next _ _ _ _) (ite_next ⟨_, rfl⟩ (ite_next ⟨_, rfl⟩
    (ite_next ⟨_, rfl⟩ (ite_next ⟨_, rfl⟩ (ite_next (execHookWrite_next _ _ _ _) (ite_next ⟨_, rfl⟩ (ite_next ⟨_, rfl⟩
    ⟨_, rfl⟩))))))))))))

/-- Settles O60: every form by the lemma about its own completion. -/
theorem formsComplete : Obligations.FormsComplete := by
  unfold Obligations.FormsComplete
  refine ⟨fun f g c h s => ?_, fun f s => coll_gates, fun t k l v s ht => ?_, fun m d came b q tenant key round st s ha hr hg => ?_,
    fun r s => roundTimeout_ends, fun e k v s hk => ?_, fun e p v s => ?_⟩
  · intro y quiet
    exact ⟨rfl, rfl, rfl, sends_tstpsn, fun v => sends_rdsr, exec_bkpt_zero, fun ⟨hg, hl, hf⟩ => fence_quiet h hg hl hf,
      fun hq => trap_handled c hq.1, fun hq => rett_inHandler f hq.1, fun hq => svc_queues c hq.1⟩
  · exact ⟨tailWrite_taken l ht, blockRead_advances ht, sheafRelease_places, blockComplete_completes⟩
  · exact ⟨collMessage_early m ha hr, algorithmDecision_early d came hr, slotBeat_early b ha hr hg,
      fun hst => abortNotice_early tenant key round hst hr, slotRequest_granted⟩
  · exact ⟨engineTokenWrite_done hk, rickEngineApply_ready hk, fun q rest => svcReply_oldest v⟩
  · exact ⟨rfl, indomWrite_sets s v, execRegisterWrite_next p v s, ⟨_, rfl, rfl⟩⟩
end Sys2Proof.Machine
end

section
/-! The loss scale and LSSTEP (R67 to R71). -/
open Sys2Proof Sys2Proof.Machine Sys2Proof.Claims

namespace Sys2Proof.Machine

/-! ### The exponent K (R69) -/

/-- K is a signed byte. -/
theorem scaleK_range (r : X64) : -128 ≤ scaleK r ∧ scaleK r ≤ 127 := by
  simp only [scaleK, signedOf]
  split <;> omega

/-- An exponent within a byte is read back as it was written. -/
theorem scaleK_wrapInt {k : Int} (hlo : -128 ≤ k) (hhi : k ≤ 127) : scaleK (BitVec.ofNat 64 (wrapInt 8 k)) = k := by
  simp only [scaleK, signedOf, wrapInt, BitVec.toNat_ofNat]
  split <;> omega

/-- The exponent that LSSTEP leaves is the one it found. -/
theorem scaleK_wrapInt_scaleK (r : X64) : scaleK (BitVec.ofNat 64 (wrapInt 8 (scaleK r))) = scaleK r :=
  scaleK_wrapInt (scaleK_range r).1 (scaleK_range r).2

/-! ### The cases of LSSTEP's table (R71) -/

/-- LSSTAT.CLEAN once a clean step more is counted (R70). -/
def SysRegs.cleanNext (y : SysRegs) : Nat := min (y.lsstat.toNat / 2 ^ 16 % 2 ^ 16 + 1) 65535

/-- Whether the step counted by CLEAN is one after which the scale wants to grow (R70: N = 0 disables growth). -/
def SysRegs.wantsGrowth (y : SysRegs) : Prop := y.lsgrow.toNat % 65536 ≠ 0 ∧ y.lsgrow.toNat % 65536 ≤ y.cleanNext

/-- An overflow above the floor shrinks the scale and sets STEPSKIP alone. -/
theorem SysRegs.lsstep_shrink {y : SysRegs} (ho : y.lsstat.getLsbD 0 = true) (hk : scaleK y.lsmin < scaleK y.lscale) :
    y.lsstep = { y with lscale := BitVec.ofNat 64 (wrapInt 8 (scaleK y.lscale - 1)), lsstat := 2 } :=
  (if_pos ho).trans (if_pos hk)

/-- An overflow at the floor leaves the scale, sets STEPSKIP and LSFLOOR, and counts in LSSAT. -/
theorem SysRegs.lsstep_floor {y : SysRegs} (ho : y.lsstat.getLsbD 0 = true) (hk : scaleK y.lscale ≤ scaleK y.lsmin) :
    y.lsstep = { y with lscale := BitVec.ofNat 64 (wrapInt 8 (scaleK y.lscale)), lsstat := 6,
                        lssat := BitVec.ofNat 64 (min (y.lssat.toNat + 1) (2 ^ 32 - 1)) } :=
  (if_pos ho).trans (if_neg (Int.not_lt.mpr hk))

/-- Enough clean steps below the ceiling grow the scale. -/
theorem SysRegs.lsstep_grow {y : SysRegs} (ho : y.lsstat.getLsbD 0 = false) (hg : y.wantsGrowth)
    (hk : scaleK y.lscale < scaleK y.lsmax) :
    y.lsstep = { y with lscale := BitVec.ofNat 64 (wrapInt 8 (scaleK y.lscale + 1)), lsstat := 0 } :=
  (if_neg (Bool.eq_false_iff.mp ho)).trans ((if_pos hg).trans (if_pos hk))

/-- Enough clean steps at the ceiling leave the scale and set LSCEIL. -/
theorem SysRegs.lsstep_ceil {y : SysRegs} (ho : y.lsstat.getLsbD 0 = false) (hg : y.wantsGrowth)
    (hk : scaleK y.lsmax ≤ scaleK y.lscale) :
    y.lsstep = { y with lscale := BitVec.ofNat 64 (wrapInt 8 (scaleK y.lscale)), lsstat := 8 } :=
  (if_neg (Bool.eq_false_iff.mp ho)).trans ((if_pos hg).trans (if_neg (Int.not_lt.mpr hk)))

/-- Any other clean step is only counted. -/
theorem SysRegs.lsstep_count {y : SysRegs} (ho : y.lsstat.getLsbD 0 = false) (hg : ¬ y.wantsGrowth) :
    y.lsstep = { y with lscale := BitVec.ofNat 64 (wrapInt 8 (scaleK y.lscale)),
                        lsstat := BitVec.ofNat 64 (y.cleanNext * 2 ^ 16) } := by
  simp only [SysRegs.lsstep, if_neg (Bool.eq_false_iff.mp ho), Nat.zero_mul, Nat.add_zero]
  exact if_neg hg

/-! ### The issue of LSSTEP -/

/-- The scaled conversions that land set OVFS, and neither memory nor an X register. -/
theorem State.landOvfs_frame (s : State) : s.landOvfs.mem = s.mem ∧ s.landOvfs.core.regs.x = s.core.regs.x := by
  simp only [State.landOvfs]
  split
  · exact ⟨rfl, rfl⟩
  · split <;> split <;> exact ⟨rfl, rfl⟩

theorem chkLsstep_ok {f : CG} {s : State} (h : scaleK s.core.regs.sys.lsmin ≤ scaleK s.core.regs.sys.lsmax) :
    chkLsstep f s = .ok :=
  (need_ok_iff _ _ _).mpr (decide_eq_true h)

theorem chkLsstep_trap {f : CG} {s : State} (h : scaleK s.core.regs.sys.lsmax < scaleK s.core.regs.sys.lsmin) :
    chkLsstep f s = .trap 0x03 (BitVec.ofNat 64 (s.core.iss.cur.slot * 2 ^ 16)) := by
  simp [chkLsstep, need, State.slotVal, Int.not_le.mpr h]

/-- Once nothing scaled of an earlier bundle is left, the system registers take LSSTEP's step from what the conversions set. -/
theorem lsstep_runs {s : State} (f : CG) (h : scaleK s.core.regs.sys.lsmin ≤ scaleK s.core.regs.sys.lsmax)
    (hr : readyLsstep s.serialPoint = .go) :
    Runs (.lsstep f) s (fun t => t.core.regs.sys = s.serialPoint.landOvfs.core.regs.sys.lsstep ∧ t.mem = s.serialPoint.mem ∧
      t.core.regs.x = s.serialPoint.core.regs.x) := by
  refine ⟨s.serialPoint.landOvfs.keepSys SysRegs.lsstep, ?_, rfl, s.serialPoint.landOvfs_frame⟩
  show execLsstep f s = _
  rw [execLsstep, chkLsstep_ok h, issueSerial_go s _ _ hr]

theorem lsstep_traps {s : State} (f : CG) (h : scaleK s.core.regs.sys.lsmax < scaleK s.core.regs.sys.lsmin) :
    Traps (.lsstep f) s 0x03 (BitVec.ofNat 64 (s.core.iss.cur.slot * 2 ^ 16)) := by
  show execLsstep f s = _
  rw [execLsstep, chkLsstep_trap h, issueSerial_trap]

/-- Settles O40: the issue by its check, and each row of the table by the equation of its case. -/
theorem lossScale : Obligations.LossScale := by
  unfold Obligations.LossScale
  refine ⟨fun f s => lsstep_runs f, fun f s => lsstep_traps f, fun y _ => ⟨fun ho hk => ?shrink, fun ho hk => ?floor,
    fun ho h0 hc hk => ?grow, fun ho h0 hc hk => ?ceil, fun ho hg => ?count⟩⟩
  case shrink =>
    have := scaleK_range y.lsmin
    have := scaleK_range y.lscale
    rw [SysRegs.lsstep_shrink ho hk]
    exact ⟨scaleK_wrapInt (by omega) (by omega), rfl⟩
  case floor =>
    rw [SysRegs.lsstep_floor ho hk]
    exact ⟨scaleK_wrapInt_scaleK _, rfl, Nat.mod_eq_of_lt (by omega)⟩
  case grow =>
    have := scaleK_range y.lsmax
    have := scaleK_range y.lscale
    rw [SysRegs.lsstep_grow ho ⟨h0, hc⟩ hk]
    exact ⟨scaleK_wrapInt (by omega) (by omega), rfl⟩
  case ceil =>
    rw [SysRegs.lsstep_ceil ho ⟨h0, hc⟩ hk]
    exact ⟨scaleK_wrapInt_scaleK _, rfl⟩
  case count =>
    have hn : ¬ y.wantsGrowth := fun ⟨h0, hc⟩ => hg.elim h0 (Nat.not_lt.mpr hc)
    rw [SysRegs.lsstep_count ho hn]
    exact ⟨scaleK_wrapInt_scaleK _, rfl⟩
end Sys2Proof.Machine
end

section
/-! The fields of a word, and what a decoder asks of them (R87, R88, R98, R99, R429). -/
open Sys2Proof

namespace Sys2Proof

/-! ### Words and their fields -/

/-- A value for each field, and each in its width. -/
def Fits (ws vs : List Nat) : Prop := List.Forall₂ (fun w v => v < 2 ^ w) ws vs

@[simp] theorem fits_nil : Fits [] [] := .nil

@[simp] theorem fits_cons {w v : Nat} {ws vs : List Nat} : Fits (w :: ws) (v :: vs) ↔ v < 2 ^ w ∧ Fits ws vs :=
  List.forall₂_cons

theorem fits_unpack (ws : List Nat) (x : Nat) : Fits ws (unpack ws x) := by
  induction ws generalizing x with
  | nil => exact .nil
  | cons w ws ih => exact .cons (Nat.mod_lt _ (Nat.two_pow_pos w)) (ih _)

theorem unpack_pack {ws vs : List Nat} (h : Fits ws vs) : unpack ws (pack ws vs) = vs := by
  induction h with
  | nil => rfl
  | @cons w v ws vs hv _ ih =>
    have hp := Nat.two_pow_pos w
    simp only [pack, unpack, Nat.mod_eq_of_lt hv, Nat.add_mul_mod_self_left, Nat.add_mul_div_left _ _ hp,
      Nat.div_eq_of_lt hv, Nat.zero_add, ih]

theorem pack_unpack (ws : List Nat) (x : Nat) : pack ws (unpack ws x) = x % 2 ^ ws.sum := by
  induction ws generalizing x with
  | nil => simp [pack, Nat.mod_one]
  | cons w ws ih =>
    simp only [unpack, pack, ih, Nat.mod_mod, List.sum_cons, Nat.pow_add, Nat.mod_mul]

theorem pack_lt {ws vs : List Nat} (h : Fits ws vs) : pack ws vs < 2 ^ ws.sum := by
  rw [← unpack_pack h, pack_unpack]
  exact Nat.mod_lt _ (Nat.two_pow_pos _)

/-- Fields that fit are the values of a function at 0, 1, and so on. -/
theorem Fits.eq_map {ws vs : List Nat} (h : Fits ws vs) : vs = (List.range ws.length).map (fv vs) := by
  refine List.ext_getElem (by simp [h.length_eq]) fun i hi _ => ?_
  simp [fv, List.getD, hi]

theorem natOfBytes_bytesOfNat {n x : Nat} (h : x < 2 ^ (8 * n)) : natOfBytes (bytesOfNat n x) = x := by
  induction n generalizing x with
  | zero => simpa [natOfBytes, bytesOfNat, eq_comm] using h
  | succ n ih =>
    have hx : x / 256 < 2 ^ (8 * n) := by rw [Nat.mul_succ, Nat.pow_add] at h; omega
    rw [bytesOfNat, natOfBytes, ih hx, BitVec.toNat_ofNat]
    exact Nat.mod_add_div x 256

/-! ### What a row accepts -/

/-- Whether each use accepts its field. -/
def acceptsAll : List Use → List Nat → Bool
  | u :: us, v :: vs => u.accepts v && acceptsAll us vs
  | _, _ => true

@[simp] theorem acceptsAll_nil (vs : List Nat) : acceptsAll [] vs = true := rfl

@[simp] theorem acceptsAll_cons (u : Use) (us : List Use) (v : Nat) (vs : List Nat) :
    acceptsAll (u :: us) (v :: vs) = (u.accepts v && acceptsAll us vs) := rfl

/-- Fields that every use and every check between fields accepts. -/
def Accepted (us : List Use) (cs : List Cross) (vs : List Nat) : Prop :=
  acceptsAll us vs = true ∧ ∀ c ∈ cs, c.faults vs = []

theorem fieldFaults_eq_nil {ws us vs} (lo : Nat) (h : Fits ws vs) :
    fieldFaults ws us vs lo = [] ↔ acceptsAll us vs = true := by
  induction h generalizing us lo with
  | nil => cases us <;> simp [fieldFaults, acceptsAll]
  | @cons w v ws vs _ _ ih =>
    cases us with
    | nil => simp [fieldFaults]
    | cons u us =>
      have := ih (us := us) (lo + w)
      by_cases hu : u.accepts v = true <;> simp [fieldFaults, hu, this]

theorem leastOf_eq_none {l : List Nat} : leastOf l = none ↔ l = [] := by
  cases l with
  | nil => simp [leastOf]
  | cons x xs => rw [leastOf]; split <;> simp

theorem OpRow.fault_eq_none {r : OpRow} {x : Nat} :
    r.fault x = none ↔ Accepted r.uses r.cross (unpack r.widths x) := by
  simp [OpRow.fault, Accepted, leastOf_eq_none, fieldFaults_eq_nil _ (fits_unpack _ _)]

/-! ### Decoding by the rows -/

theorem decodeOp_ok {w : Nat} {i : Instr} : decodeOp w = .ok i ↔ ∃ r, opRow (wordSlot w) (wordOpc w) = some r ∧
    Accepted r.uses r.cross (unpack r.widths (w % 2 ^ 52)) ∧ r.build (unpack r.widths (w % 2 ^ 52)) = i := by
  rw [decodeOp]
  generalize w % 2 ^ 52 = x
  cases opRow (wordSlot w) (wordOpc w) with
  | none => simp
  | some r => cases h : r.fault x <;> simp [← OpRow.fault_eq_none, h]

theorem decodeThr_ok {w : Nat} {i : Instr} : decodeThr w = .ok i ↔ ∃ r, thrRow (w / 2 ^ 26 % 64) = some r ∧
    Accepted r.uses r.cross (unpack r.widths (w % 2 ^ 26)) ∧ r.build (unpack r.widths (w % 2 ^ 26)) = i := by
  rw [decodeThr]
  generalize w % 2 ^ 26 = x
  cases thrRow (w / 2 ^ 26 % 64) with
  | none => simp
  | some r => cases h : r.fault x <;> simp [← OpRow.fault_eq_none, h]

/-- The ranges of REP's and LOOPB's fields (R35, R36), which the slot structure asks for and not the rows. -/
def repRanges : Nat → Nat → List Nat → Bool
  | 0, 0x46, v => decide (1 ≤ fv v 2) && decide (fv v 2 ≤ 16) && decide (1 ≤ fv v 1) && decide (fv v 1 ≤ 4096)
  | 0, 0x47, v => decide (1 ≤ fv v 2) && decide (fv v 2 ≤ 64) && fv v 1 == 0
  | _, _, _ => true

theorem toOption_eq_some {ε α : Type} {x : Except ε α} {a : α} : x.toOption = some a ↔ x = .ok a := by
  cases x <;> simp [Except.toOption]

theorem decodeTableWord_thr {w : Nat} {i : Instr} (h : w < 2 ^ 32) : decodeTableWord 32 w = some i ↔ decodeThr w = .ok i := by
  rw [decodeTableWord, if_pos (by decide), natOfBytes_bytesOfNat h, toOption_eq_some]

theorem opRow_rep {r : OpRow} (h : opRow 0 0x46 = some r ∨ opRow 0 0x47 = some r) : r.widths = RP.widths := by
  rcases h with h | h <;> cases h <;> rfl

/-- A word with STOP is broken where its fields leave the ranges of REP and LOOPB. -/
theorem wordBroken_stop {w : Nat} {r : OpRow} (h : opRow (wordSlot w) (wordOpc w) = some r) :
    wordBroken (w % 2 ^ 63 + 2 ^ 63) = !repRanges (wordSlot w) (wordOpc w) (unpack r.widths (w % 2 ^ 52)) := by
  have hs : wordSlot (w % 2 ^ 63 + 2 ^ 63) = wordSlot w := by simp only [wordSlot]; omega
  have ho : wordOpc (w % 2 ^ 63 + 2 ^ 63) = wordOpc w := by simp only [wordOpc]; omega
  have ht : wordStop (w % 2 ^ 63 + 2 ^ 63) = true := by simp only [wordStop, beq_iff_eq]; omega
  have hn : (w % 2 ^ 63 + 2 ^ 63) / 2 ^ 45 % 128 = w % 2 ^ 52 / 2 ^ 32 / 2 ^ 13 % 2 ^ 7 := by omega
  have hc : (w % 2 ^ 63 + 2 ^ 63) / 2 ^ 32 % 8192 = w % 2 ^ 52 / 2 ^ 32 % 2 ^ 13 := by omega
  simp only [wordBroken, hs, ho, ht, hn, hc]
  generalize wordSlot w = slot at h ⊢
  generalize wordOpc w = opc at h ⊢
  have hu : unpack RP.widths (w % 2 ^ 52) =
      [w % 2 ^ 52 % 2 ^ 32, w % 2 ^ 52 / 2 ^ 32 % 2 ^ 13, w % 2 ^ 52 / 2 ^ 32 / 2 ^ 13 % 2 ^ 7] := rfl
  unfold repRanges
  split
  next => rw [opRow_rep (.inl h), hu]; simp [fv, Bool.and_assoc]
  next => rw [opRow_rep (.inr h), hu]; simp [fv]
  next h46 h47 => simp [not_and.mpr h46, not_and.mpr h47]

/-- A word of 64 bits stands for the instruction that its row builds of its fields. -/
theorem decodeTableWord_op {w : Nat} {i : Instr} (h : w < 2 ^ 64) : decodeTableWord 64 w = some i ↔
    ∃ r, opRow (wordSlot w) (wordOpc w) = some r ∧ Accepted r.uses r.cross (unpack r.widths (w % 2 ^ 52)) ∧
      repRanges (wordSlot w) (wordOpc w) (unpack r.widths (w % 2 ^ 52)) = true ∧
      r.build (unpack r.widths (w % 2 ^ 52)) = i := by
  rw [decodeTableWord, if_neg (by decide), natOfBytes_bytesOfNat h]
  cases hr : opRow (wordSlot w) (wordOpc w) with
  | none => simp [decodeOp, hr, Except.toOption]
  | some r =>
    have hd : (decodeOp w).toOption = some i ↔ _ := toOption_eq_some.trans decodeOp_ok
    rw [wordBroken_stop hr]
    simp only [hr, Option.some.injEq, exists_eq_left'] at hd ⊢
    generalize w % 2 ^ 52 = x at hd ⊢
    cases repRanges (wordSlot w) (wordOpc w) (unpack r.widths x) <;> simp [hd]

end Sys2Proof
end

section
/-! The formats of a word's fields: each packs an instruction's operands and gets them back (R89 to R95, R429, R430). -/
open Sys2Proof

namespace Sys2Proof

/-! ### Codes of the operands -/

theorem Use.accepts_lt {n v : Nat} : (Use.lt n).accepts v = true ↔ v < n := decide_eq_true_iff

theorem Use.accepts_oneOf {l : List Nat} {v : Nat} : (Use.oneOf l).accepts v = true ↔ v ∈ l := List.contains_iff_mem

@[simp] theorem Use.accepts_no {v : Nat} : Use.no.accepts v = true ↔ v = 0 := beq_iff_eq

@[simp] theorem Use.accepts_any (v : Nat) : Use.any.accepts v = true := rfl

@[simp] theorem beq_one_toNat {v : Nat} (h : v < 2 ^ 1) : (v == 1).toNat = v := by interval_cases v <;> rfl

/-- The codes of the formats (R45). -/
abbrev Fmt.use : Use := .oneOf [0, 1, 2, 3, 4, 5, 6, 7, 8, 9, 31]

@[simp] theorem Fmt.ofCode_code (t : Fmt) : Fmt.ofCode t.code = t := by cases t <;> rfl
@[simp] theorem Fmt.code_lt (t : Fmt) : t.code < 2 ^ 5 := by cases t <;> decide
@[simp] theorem Fmt.code_ofCode {v : Nat} (h : Fmt.use.accepts v = true) : (Fmt.ofCode v).code = v :=
  (by decide : ∀ v ∈ [0, 1, 2, 3, 4, 5, 6, 7, 8, 9, 31], (Fmt.ofCode v).code = v) v (Use.accepts_oneOf.mp h)

/-- The codes of MMA's types, in a field of four bits (R91). -/
abbrev Fmt.arrayUse : Use := .oneOf [0, 1, 2, 3, 6, 7, 8]

theorem Fmt.code_lt_array {t : Fmt} (h : Fmt.arrayUse.accepts t.code = true) : t.code < 2 ^ 4 :=
  (by decide : ∀ v ∈ [0, 1, 2, 3, 6, 7, 8], v < 2 ^ 4) _ (Use.accepts_oneOf.mp h)

@[simp] theorem Fmt.code_ofCode_array {v : Nat} (h : Fmt.arrayUse.accepts v = true) : (Fmt.ofCode v).code = v :=
  (by decide : ∀ v ∈ [0, 1, 2, 3, 6, 7, 8], (Fmt.ofCode v).code = v) v (Use.accepts_oneOf.mp h)

@[simp] theorem Geo.ofCode_code (t : Geo) : Geo.ofCode t.code = t := by cases t <;> rfl
@[simp] theorem Geo.code_lt (t : Geo) : t.code < 2 ^ 3 := by cases t <;> decide
@[simp] theorem Geo.code_ofCode {v : Nat} (h : (Use.lt 2).accepts v = true) : (Geo.ofCode v).code = v :=
  (by decide : ∀ v < 2, (Geo.ofCode v).code = v) v (Use.accepts_lt.mp h)

/-- The codes of RND (R95). -/
abbrev Rnd.use : Use := .oneOf [0, 8, 9, 10, 11, 12, 13]

@[simp] theorem Rnd.ofCode_code (t : Rnd) : Rnd.ofCode t.code = t := by rcases t with _ | (_ | _ | _ | _ | _ | _) <;> rfl
@[simp] theorem Rnd.code_lt (t : Rnd) : t.code < 2 ^ 4 := by rcases t with _ | (_ | _ | _ | _ | _ | _) <;> decide
@[simp] theorem Rnd.code_ofCode {v : Nat} (h : Rnd.use.accepts v = true) : (Rnd.ofCode v).code = v :=
  (by decide : ∀ v ∈ [0, 8, 9, 10, 11, 12, 13], (Rnd.ofCode v).code = v) v (Use.accepts_oneOf.mp h)

@[simp] theorem Scl.ofCode_code (t : Scl) : Scl.ofCode t.code = t := by cases t <;> rfl
@[simp] theorem Scl.code_lt (t : Scl) : t.code < 2 ^ 2 := by cases t <;> decide
@[simp] theorem Scl.code_ofCode {v : Nat} (h : (Use.lt 3).accepts v = true) : (Scl.ofCode v).code = v :=
  (by decide : ∀ v < 3, (Scl.ofCode v).code = v) v (Use.accepts_lt.mp h)

@[simp] theorem Cond.ofCode_code (t : Cond) : Cond.ofCode t.code = t := by cases t <;> rfl
@[simp] theorem Cond.code_lt (t : Cond) : t.code < 2 ^ 4 := by cases t <;> decide
@[simp] theorem Cond.code_ofCode {v : Nat} (h : (Use.lt 10).accepts v = true) : (Cond.ofCode v).code = v :=
  (by decide : ∀ v < 10, (Cond.ofCode v).code = v) v (Use.accepts_lt.mp h)

@[simp] theorem QSel.ofCode_code (t : QSel) : QSel.ofCode t.code = t := by cases t <;> rfl
@[simp] theorem QSel.code_lt (t : QSel) : t.code < 2 ^ 3 := by cases t <;> decide
@[simp] theorem QSel.code_ofCode {v : Nat} (h : (Use.lt 5).accepts v = true) : (QSel.ofCode v).code = v :=
  (by decide : ∀ v < 5, (QSel.ofCode v).code = v) v (Use.accepts_lt.mp h)

@[simp] theorem Width.ofCode_code (t : Width) : Width.ofCode t.code = t := by cases t <;> rfl
@[simp] theorem Width.code_lt (t : Width) : t.code < 2 ^ 2 := by cases t <;> decide
@[simp] theorem Width.code_ofCode {v : Nat} (h : v < 2 ^ 2) : (Width.ofCode v).code = v :=
  (by decide : ∀ v < 2 ^ 2, (Width.ofCode v).code = v) v h

@[simp] theorem Scope.ofCode_code (t : Scope) : Scope.ofCode t.code = t := by cases t <;> rfl
@[simp] theorem Scope.code_lt (t : Scope) : t.code < 2 ^ 3 := by cases t <;> decide
@[simp] theorem Scope.code_ofCode {v : Nat} (h : (Use.lt 6).accepts v = true) : (Scope.ofCode v).code = v :=
  (by decide : ∀ v < 6, (Scope.ofCode v).code = v) v (Use.accepts_lt.mp h)

@[simp] theorem AmoOp.ofCode_code (t : AmoOp) : AmoOp.ofCode t.code = t := by cases t <;> rfl
@[simp] theorem AmoOp.code_lt (t : AmoOp) : t.code < 2 ^ 5 := by cases t <;> decide
@[simp] theorem AmoOp.code_ofCode {v : Nat} (h : (Use.lt 12).accepts v = true) : (AmoOp.ofCode v).code = v :=
  (by decide : ∀ v < 12, (AmoOp.ofCode v).code = v) v (Use.accepts_lt.mp h)

@[simp] theorem RedOp.ofCode_code (t : RedOp) : RedOp.ofCode t.code = t := by cases t <;> rfl
@[simp] theorem RedOp.code_lt (t : RedOp) : t.code < 2 ^ 5 := by cases t <;> decide
@[simp] theorem RedOp.code_ofCode {v : Nat} (h : (Use.lt 10).accepts v = true) : (RedOp.ofCode v).code = v :=
  (by decide : ∀ v < 10, (RedOp.ofCode v).code = v) v (Use.accepts_lt.mp h)

@[simp] theorem ClaimType.ofCode_code (t : ClaimType) : ClaimType.ofCode t.code = t := by cases t <;> rfl
@[simp] theorem ClaimType.code_lt (t : ClaimType) : t.code < 2 ^ 5 := by cases t <;> decide
@[simp] theorem ClaimType.code_ofCode {v : Nat} (h : (Use.range 1 12).accepts v = true) : (ClaimType.ofCode v).code = v := by
  simp only [Use.accepts, Bool.and_eq_true, decide_eq_true_eq] at h
  exact (by decide : ∀ v < 12, 1 ≤ v → (ClaimType.ofCode v).code = v) v h.2 h.1

@[simp] theorem Dir.ofCode_code (t : Dir) : Dir.ofCode t.code = t := by cases t <;> rfl
@[simp] theorem Dir.code_lt (t : Dir) : t.code < 2 ^ 5 := by cases t <;> decide
@[simp] theorem Dir.code_ofCode {v : Nat} (h : (Use.lt 2).accepts v = true) : (Dir.ofCode v).code = v :=
  (by decide : ∀ v < 2, (Dir.ofCode v).code = v) v (Use.accepts_lt.mp h)

@[simp] theorem TType.ofCode_code (t : TType) : TType.ofCode t.code = t := by cases t <;> rfl
@[simp] theorem TType.code_lt (t : TType) : t.code < 2 ^ 2 := by cases t <;> decide
@[simp] theorem TType.code_ofCode {v : Nat} (h : (Use.lt 3).accepts v = true) : (TType.ofCode v).code = v :=
  (by decide : ∀ v < 3, (TType.ofCode v).code = v) v (Use.accepts_lt.mp h)

@[simp] theorem BamoOp.ofCode_code (t : BamoOp) : BamoOp.ofCode t.code = t := by cases t <;> rfl
@[simp] theorem BamoOp.code_lt (t : BamoOp) : t.code < 2 ^ 4 := by cases t <;> decide
@[simp] theorem BamoOp.code_ofCode {v : Nat} (h : (Use.lt 10).accepts v = true) : (BamoOp.ofCode v).code = v :=
  (by decide : ∀ v < 10, (BamoOp.ofCode v).code = v) v (Use.accepts_lt.mp h)

@[simp] theorem Kinds.code_lt (k : Kinds) : k.code < 2 ^ 3 := by
  rcases k with ⟨_ | _, _ | _, _ | _⟩ <;> decide

@[simp] theorem Kinds.ofCode_code (k : Kinds) : Kinds.ofCode k.code = k := by
  rcases k with ⟨_ | _, _ | _, _ | _⟩ <;> rfl

@[simp] theorem Kinds.code_ofCode {v : Nat} (h : v < 2 ^ 3) : (Kinds.ofCode v).code = v :=
  (by decide : ∀ v < 2 ^ 3, (Kinds.ofCode v).code = v) v h

theorem Ctl.fits (c : Ctl) :
    Fits [4, 1, 1, 1, 1, 8] [c.stall.toNat, c.mark.toNat, c.qp.toNat, c.hwin.toNat, c.chk.toNat, c.realign.toNat] := by
  simp [-Nat.reducePow, BitVec.isLt, Bool.toNat_le]

@[simp] theorem Ctl.code_lt (c : Ctl) : c.code < 2 ^ 16 := pack_lt c.fits

@[simp] theorem Ctl.ofCode_code (c : Ctl) : Ctl.ofCode c.code = c := by
  simp [Ctl.ofCode, Ctl.code, unpack_pack c.fits, fv]

@[simp] theorem Ctl.code_ofCode {v : Nat} (h : v < 2 ^ 16) : (Ctl.ofCode v).code = v := by
  have hb : ∀ n, (n % 2 == 1).toNat = n % 2 := fun n => beq_one_toNat (Nat.mod_lt n (by decide))
  have hl : (Ctl.ofCode v).code = pack [4, 1, 1, 1, 1, 8] (unpack [4, 1, 1, 1, 1, 8] v) := by
    simp [Ctl.code, Ctl.ofCode, unpack, fv, hb]
  rw [hl, pack_unpack]
  exact Nat.mod_eq_of_lt h

/-! ### Formats -/

/-- A format of operands: the widths of its fields, what they may hold, and how operands become fields and fields operands.
Fields are written as the values of a function, `fields_ofFields` says the same of any list that fits. -/
structure Format (α : Type) where
  widths : List Nat
  domain : List Use
  fields : α → List Nat
  ofFields : List Nat → α
  fits : ∀ f, acceptsAll domain (fields f) = true → Fits widths (fields f)
  ofFields_fields : ∀ f, ofFields (fields f) = f
  fields_map : ∀ g : Nat → Nat, Fits widths ((List.range widths.length).map g) →
    acceptsAll domain ((List.range widths.length).map g) = true →
    fields (ofFields ((List.range widths.length).map g)) = (List.range widths.length).map g

theorem Format.fields_ofFields {α : Type} (F : Format α) {vs : List Nat} (hf : Fits F.widths vs)
    (ha : acceptsAll F.domain vs = true) : F.fields (F.ofFields vs) = vs := by
  have h := F.fields_map (fv vs)
  rw [← hf.eq_map] at h
  exact h hf ha

def RG.format : Format RG where
  widths := RG.widths
  domain := [.lt 5, .lt 10, .lt 3, any, Rnd.use, Fmt.use, Fmt.use, any, any, any, any, any]
  fields := RG.fields
  ofFields := RG.ofFields
  fits f _ := by simp [-Nat.reducePow, RG.widths, RG.fields, BitVec.isLt, Bool.toNat_le]
  ofFields_fields f := by simp [RG.ofFields, RG.fields, fv]
  fields_map g := by
    simp +contextual [-Nat.reducePow, RG.widths, RG.ofFields, RG.fields, fv, Nat.mod_eq_of_lt, List.range_succ]

def IM.format : Format IM where
  widths := IM.widths
  domain := [any, any, any]
  fields := IM.fields
  ofFields := IM.ofFields
  fits f _ := by simp [-Nat.reducePow, IM.widths, IM.fields, BitVec.isLt]
  ofFields_fields f := by simp [IM.ofFields, IM.fields, fv]
  fields_map g := by
    simp +contextual [-Nat.reducePow, IM.widths, IM.ofFields, IM.fields, fv, Nat.mod_eq_of_lt, List.range_succ]

def MW.format : Format MW where
  widths := MW.widths
  domain := [any, any]
  fields := MW.fields
  ofFields := MW.ofFields
  fits f _ := by simp [-Nat.reducePow, MW.widths, MW.fields, BitVec.isLt]
  ofFields_fields f := by simp [MW.ofFields, MW.fields, fv]
  fields_map g := by
    simp +contextual [-Nat.reducePow, MW.widths, MW.ofFields, MW.fields, fv, Nat.mod_eq_of_lt, List.range_succ]

def BRF.format : Format BRF where
  widths := BRF.widths
  domain := [any, .lt 10, any]
  fields := BRF.fields
  ofFields := BRF.ofFields
  fits f _ := by simp [-Nat.reducePow, BRF.widths, BRF.fields, BitVec.isLt]
  ofFields_fields f := by simp [BRF.ofFields, BRF.fields, fv]
  fields_map g := by
    simp +contextual [-Nat.reducePow, BRF.widths, BRF.ofFields, BRF.fields, fv, Nat.mod_eq_of_lt, List.range_succ]

def RP.format : Format RP where
  widths := RP.widths
  domain := [no, any, any]
  fields := RP.fields
  ofFields := RP.ofFields
  fits f _ := by simp [-Nat.reducePow, RP.widths, RP.fields, BitVec.isLt]
  ofFields_fields f := by simp [RP.ofFields, RP.fields, fv]
  fields_map g := by
    simp +contextual [-Nat.reducePow, RP.widths, RP.ofFields, RP.fields, fv, Nat.mod_eq_of_lt, List.range_succ]

def VI.format : Format VI where
  widths := VI.widths
  domain := [any, no, Fmt.use, any, any]
  fields := VI.fields
  ofFields := VI.ofFields
  fits f _ := by simp [-Nat.reducePow, VI.widths, VI.fields, BitVec.isLt]
  ofFields_fields f := by simp [VI.ofFields, VI.fields, fv]
  fields_map g := by
    simp +contextual [-Nat.reducePow, VI.widths, VI.ofFields, VI.fields, fv, Nat.mod_eq_of_lt, List.range_succ]

def MM.format : Format MM where
  widths := MM.widths
  domain := [any, any, any, any, Fmt.arrayUse, any, any, any]
  fields := MM.fields
  ofFields := MM.ofFields
  fits f h := by
    simp only [acceptsAll_cons, MM.fields, Bool.and_eq_true] at h
    simp [-Nat.reducePow, MM.widths, MM.fields, BitVec.isLt, Bool.toNat_le, Fmt.code_lt_array, h]
  ofFields_fields f := by simp [MM.ofFields, MM.fields, fv]
  fields_map g := by
    simp +contextual [-Nat.reducePow, MM.widths, MM.ofFields, MM.fields, fv, Nat.mod_eq_of_lt, List.range_succ]

def MX.format : Format MX where
  widths := MX.widths
  domain := [no, .lt 3, any, Rnd.use, Fmt.use, any, any]
  fields := MX.fields
  ofFields := MX.ofFields
  fits f _ := by simp [-Nat.reducePow, MX.widths, MX.fields, BitVec.isLt, Bool.toNat_le]
  ofFields_fields f := by simp [MX.ofFields, MX.fields, fv]
  fields_map g := by
    simp +contextual [-Nat.reducePow, MX.widths, MX.ofFields, MX.fields, fv, Nat.mod_eq_of_lt, List.range_succ]

def MXE.format : Format MXE where
  widths := MXE.widths
  domain := [no, any, any, no]
  fields := MXE.fields
  ofFields := MXE.ofFields
  fits f _ := by simp [-Nat.reducePow, MXE.widths, MXE.fields, BitVec.isLt]
  ofFields_fields f := by simp [MXE.ofFields, MXE.fields, fv]
  fields_map g := by
    simp +contextual [-Nat.reducePow, MXE.widths, MXE.ofFields, MXE.fields, fv, Nat.mod_eq_of_lt, List.range_succ]

def MS.format : Format MS where
  widths := MS.widths
  domain := [any, no, any, any, any, any, any]
  fields := MS.fields
  ofFields := MS.ofFields
  fits f _ := by simp [-Nat.reducePow, MS.widths, MS.fields, BitVec.isLt, Bool.toNat_le]
  ofFields_fields f := by simp [MS.ofFields, MS.fields, fv]
  fields_map g := by
    simp +contextual [-Nat.reducePow, MS.widths, MS.ofFields, MS.fields, fv, Nat.mod_eq_of_lt, List.range_succ]

def MV.format : Format MV where
  widths := MV.widths
  domain := [any, any, any, .lt 3, any, Rnd.use, Fmt.use, any, any, any]
  fields := MV.fields
  ofFields := MV.ofFields
  fits f _ := by simp [-Nat.reducePow, MV.widths, MV.fields, BitVec.isLt, Bool.toNat_le]
  ofFields_fields f := by simp [MV.ofFields, MV.fields, fv]
  fields_map g := by
    simp +contextual [-Nat.reducePow, MV.widths, MV.ofFields, MV.fields, fv, Nat.mod_eq_of_lt, List.range_succ]

def MVX.format : Format MVX where
  widths := MVX.widths
  domain := [any, any, any, no, .lt 3, any, Rnd.use, Fmt.use, any, any, any]
  fields := MVX.fields
  ofFields := MVX.ofFields
  fits f _ := by simp [-Nat.reducePow, MVX.widths, MVX.fields, BitVec.isLt, Bool.toNat_le]
  ofFields_fields f := by simp [MVX.ofFields, MVX.fields, fv]
  fields_map g := by
    simp +contextual [-Nat.reducePow, MVX.widths, MVX.ofFields, MVX.fields, fv, Nat.mod_eq_of_lt, List.range_succ]

def LF.format : Format LF where
  widths := LF.widths
  domain := [no, .lt 2, Fmt.use, any, any, no]
  fields := LF.fields
  ofFields := LF.ofFields
  fits f _ := by simp [-Nat.reducePow, LF.widths, LF.fields, BitVec.isLt]
  ofFields_fields f := by simp [LF.ofFields, LF.fields, fv]
  fields_map g := by
    simp +contextual [-Nat.reducePow, LF.widths, LF.ofFields, LF.fields, fv, Nat.mod_eq_of_lt, List.range_succ]

def EA.format : Format EA where
  widths := EA.widths
  domain := [no, any, any, any, any, any]
  fields := EA.fields
  ofFields := EA.ofFields
  fits f _ := by simp [-Nat.reducePow, EA.widths, EA.fields, BitVec.isLt]
  ofFields_fields f := by simp [EA.ofFields, EA.fields, fv]
  fields_map g := by
    simp +contextual [-Nat.reducePow, EA.widths, EA.ofFields, EA.fields, fv, Nat.mod_eq_of_lt, List.range_succ]

def EACopy.format : Format EACopy where
  widths := EACopy.widths
  domain := [no, .lt 3, Rnd.use, Fmt.use, no, any, any, any, any]
  fields := EACopy.fields
  ofFields := EACopy.ofFields
  fits f _ := by simp [-Nat.reducePow, EACopy.widths, EACopy.fields, BitVec.isLt]
  ofFields_fields f := by simp [EACopy.ofFields, EACopy.fields, fv]
  fields_map g := by
    simp +contextual [-Nat.reducePow, EACopy.widths, EACopy.ofFields, EACopy.fields, fv, Nat.mod_eq_of_lt, List.range_succ]

def EAStrb.format : Format EAStrb where
  widths := EAStrb.widths
  domain := [no, .lt 2, no, any, no, any, no]
  fields := EAStrb.fields
  ofFields := EAStrb.ofFields
  fits f _ := by simp [-Nat.reducePow, EAStrb.widths, EAStrb.fields, BitVec.isLt]
  ofFields_fields f := by simp [EAStrb.ofFields, EAStrb.fields, fv]
  fields_map g := by
    simp +contextual [-Nat.reducePow, EAStrb.widths, EAStrb.ofFields, EAStrb.fields, fv, Nat.mod_eq_of_lt, List.range_succ]

def EAPush.format : Format EAPush where
  widths := EAPush.widths
  domain := [no, any, any, .lt 3, no, Fmt.use, any, no, any, any, any]
  fields := EAPush.fields
  ofFields := EAPush.ofFields
  fits f _ := by simp [-Nat.reducePow, EAPush.widths, EAPush.fields, BitVec.isLt, Bool.toNat_le]
  ofFields_fields f := by simp [EAPush.ofFields, EAPush.fields, fv]
  fields_map g := by
    simp +contextual [-Nat.reducePow, EAPush.widths, EAPush.ofFields, EAPush.fields, fv, Nat.mod_eq_of_lt, List.range_succ]

def EAAmo.format : Format EAAmo where
  widths := EAAmo.widths
  domain := [no, any, .lt 12, no, any, any, any, any]
  fields := EAAmo.fields
  ofFields := EAAmo.ofFields
  fits f _ := by simp [-Nat.reducePow, EAAmo.widths, EAAmo.fields, BitVec.isLt]
  ofFields_fields f := by simp [EAAmo.ofFields, EAAmo.fields, fv]
  fields_map g := by
    simp +contextual [-Nat.reducePow, EAAmo.widths, EAAmo.ofFields, EAAmo.fields, fv, Nat.mod_eq_of_lt, List.range_succ]

def EARed.format : Format EARed where
  widths := EARed.widths
  domain := [no, any, .lt 10, no, any, any, no]
  fields := EARed.fields
  ofFields := EARed.ofFields
  fits f _ := by simp [-Nat.reducePow, EARed.widths, EARed.fields, BitVec.isLt]
  ofFields_fields f := by simp [EARed.ofFields, EARed.fields, fv]
  fields_map g := by
    simp +contextual [-Nat.reducePow, EARed.widths, EARed.ofFields, EARed.fields, fv, Nat.mod_eq_of_lt, List.range_succ]

def EAClaim.format : Format EAClaim where
  widths := EAClaim.widths
  domain := [no, .range 1 12, no, any, no, any, any, any]
  fields := EAClaim.fields
  ofFields := EAClaim.ofFields
  fits f _ := by simp [-Nat.reducePow, EAClaim.widths, EAClaim.fields, BitVec.isLt]
  ofFields_fields f := by simp [EAClaim.ofFields, EAClaim.fields, fv]
  fields_map g := by
    simp +contextual [-Nat.reducePow, EAClaim.widths, EAClaim.ofFields, EAClaim.fields, fv, Nat.mod_eq_of_lt, List.range_succ]

def EACasn.format : Format EACasn where
  widths := EACasn.widths
  domain := [no, any, no, any, no, any, any, any]
  fields := EACasn.fields
  ofFields := EACasn.ofFields
  fits f _ := by simp [-Nat.reducePow, EACasn.widths, EACasn.fields, BitVec.isLt, Bool.toNat_le]
  ofFields_fields f := by simp [EACasn.ofFields, EACasn.fields, fv]
  fields_map g := by
    simp +contextual [-Nat.reducePow, EACasn.widths, EACasn.ofFields, EACasn.fields, fv, Nat.mod_eq_of_lt, List.range_succ]

def CG.format : Format CG where
  widths := CG.widths
  domain := [any, no, any, any, any]
  fields := CG.fields
  ofFields := CG.ofFields
  fits f _ := by simp [-Nat.reducePow, CG.widths, CG.fields, BitVec.isLt]
  ofFields_fields f := by simp [CG.ofFields, CG.fields, fv]
  fields_map g := by
    simp +contextual [-Nat.reducePow, CG.widths, CG.ofFields, CG.fields, fv, Nat.mod_eq_of_lt, List.range_succ]

def CGFence.format : Format CGFence where
  widths := CGFence.widths
  domain := [any, any, .lt 6, no]
  fields := CGFence.fields
  ofFields := CGFence.ofFields
  fits f _ := by simp [-Nat.reducePow, CGFence.widths, CGFence.fields]
  ofFields_fields f := by simp [CGFence.ofFields, CGFence.fields, fv]
  fields_map g := by
    simp +contextual [-Nat.reducePow, CGFence.widths, CGFence.ofFields, CGFence.fields, fv, List.range_succ]

def CGCode.format : Format CGCode where
  widths := CGCode.widths
  domain := [any, any, no, any, any]
  fields := CGCode.fields
  ofFields := CGCode.ofFields
  fits f _ := by simp [-Nat.reducePow, CGCode.widths, CGCode.fields, BitVec.isLt]
  ofFields_fields f := by simp [CGCode.ofFields, CGCode.fields, fv]
  fields_map g := by
    simp +contextual [-Nat.reducePow, CGCode.widths, CGCode.ofFields, CGCode.fields, fv, Nat.mod_eq_of_lt, List.range_succ]

def CGSr.format : Format CGSr where
  widths := CGSr.widths
  domain := [any, any, no, any, any]
  fields := CGSr.fields
  ofFields := CGSr.ofFields
  fits f _ := by simp [-Nat.reducePow, CGSr.widths, CGSr.fields, BitVec.isLt]
  ofFields_fields f := by simp [CGSr.ofFields, CGSr.fields, fv]
  fields_map g := by
    simp +contextual [-Nat.reducePow, CGSr.widths, CGSr.ofFields, CGSr.fields, fv, Nat.mod_eq_of_lt, List.range_succ]

def TR.format : Format TR where
  widths := TR.widths
  domain := [no, no, any, any, .lt 3, any, any, any, any]
  fields := TR.fields
  ofFields := TR.ofFields
  fits f _ := by simp [-Nat.reducePow, TR.widths, TR.fields, BitVec.isLt, Bool.toNat_le]
  ofFields_fields f := by simp [TR.ofFields, TR.fields, fv]
  fields_map g := by
    simp +contextual [-Nat.reducePow, TR.widths, TR.ofFields, TR.fields, fv, Nat.mod_eq_of_lt, List.range_succ]

def TRCmp.format : Format TRCmp where
  widths := TRCmp.widths
  domain := [.lt 10, no, any, any, .lt 3, no, any, any, any]
  fields := TRCmp.fields
  ofFields := TRCmp.ofFields
  fits f _ := by simp [-Nat.reducePow, TRCmp.widths, TRCmp.fields, BitVec.isLt, Bool.toNat_le]
  ofFields_fields f := by simp [TRCmp.ofFields, TRCmp.fields, fv]
  fields_map g := by
    simp +contextual [-Nat.reducePow, TRCmp.widths, TRCmp.ofFields, TRCmp.fields, fv, Nat.mod_eq_of_lt, List.range_succ]

def TRCvt.format : Format TRCvt where
  widths := TRCvt.widths
  domain := [no, .lt 3, no, any, .lt 3, no, no, any, any]
  fields := TRCvt.fields
  ofFields := TRCvt.ofFields
  fits f _ := by simp [-Nat.reducePow, TRCvt.widths, TRCvt.fields, BitVec.isLt, Bool.toNat_le]
  ofFields_fields f := by simp [TRCvt.ofFields, TRCvt.fields, fv]
  fields_map g := by
    simp +contextual [-Nat.reducePow, TRCvt.widths, TRCvt.ofFields, TRCvt.fields, fv, Nat.mod_eq_of_lt, List.range_succ]

def TRLane.format : Format TRLane where
  widths := TRLane.widths
  domain := [any, no, any, any]
  fields := TRLane.fields
  ofFields := TRLane.ofFields
  fits f _ := by simp [-Nat.reducePow, TRLane.widths, TRLane.fields, BitVec.isLt]
  ofFields_fields f := by simp [TRLane.ofFields, TRLane.fields, fv]
  fields_map g := by
    simp +contextual [-Nat.reducePow, TRLane.widths, TRLane.ofFields, TRLane.fields, fv, Nat.mod_eq_of_lt, List.range_succ]

def TRBamo.format : Format TRBamo where
  widths := TRBamo.widths
  domain := [.lt 10, no, any, any, any]
  fields := TRBamo.fields
  ofFields := TRBamo.ofFields
  fits f _ := by simp [-Nat.reducePow, TRBamo.widths, TRBamo.fields, BitVec.isLt]
  ofFields_fields f := by simp [TRBamo.ofFields, TRBamo.fields, fv]
  fields_map g := by
    simp +contextual [-Nat.reducePow, TRBamo.widths, TRBamo.ofFields, TRBamo.fields, fv, Nat.mod_eq_of_lt, List.range_succ]

def TIMov.format : Format TIMov where
  widths := TIMov.widths
  domain := [any, any, any]
  fields := TIMov.fields
  ofFields := TIMov.ofFields
  fits f _ := by simp [-Nat.reducePow, TIMov.widths, TIMov.fields, BitVec.isLt, Bool.toNat_le]
  ofFields_fields f := by simp [TIMov.ofFields, TIMov.fields, fv]
  fields_map g := by
    simp +contextual [-Nat.reducePow, TIMov.widths, TIMov.ofFields, TIMov.fields, fv, Nat.mod_eq_of_lt, List.range_succ]

def TIAdd.format : Format TIAdd where
  widths := TIAdd.widths
  domain := [any, any, any]
  fields := TIAdd.fields
  ofFields := TIAdd.ofFields
  fits f _ := by simp [-Nat.reducePow, TIAdd.widths, TIAdd.fields, BitVec.isLt]
  ofFields_fields f := by simp [TIAdd.ofFields, TIAdd.fields, fv]
  fields_map g := by
    simp +contextual [-Nat.reducePow, TIAdd.widths, TIAdd.ofFields, TIAdd.fields, fv, Nat.mod_eq_of_lt, List.range_succ]

def TM.format : Format TM where
  widths := TM.widths
  domain := [any, no, any, any, any]
  fields := TM.fields
  ofFields := TM.ofFields
  fits f _ := by simp [-Nat.reducePow, TM.widths, TM.fields, BitVec.isLt, Bool.toNat_le]
  ofFields_fields f := by simp [TM.ofFields, TM.fields, fv]
  fields_map g := by
    simp +contextual [-Nat.reducePow, TM.widths, TM.ofFields, TM.fields, fv, Nat.mod_eq_of_lt, List.range_succ]

def TC.format : Format TC where
  widths := TC.widths
  domain := [any, no, any, any]
  fields := TC.fields
  ofFields := TC.ofFields
  fits f _ := by simp [-Nat.reducePow, TC.widths, TC.fields, BitVec.isLt]
  ofFields_fields f := by simp [TC.ofFields, TC.fields, fv]
  fields_map g := by
    simp +contextual [-Nat.reducePow, TC.widths, TC.ofFields, TC.fields, fv, Nat.mod_eq_of_lt, List.range_succ]

end Sys2Proof
end

section
/-! Every instruction's format, row and well-formedness (R87 to R97, R429 to R431). -/
open Sys2Proof

namespace Sys2Proof

/-! ### The row of an instruction -/

/-- Whether `d` accepts all that a use accepts. -/
def Use.covers : Use → Use → Bool
  | .any, _ => true
  | _, .any => false
  | d, .no => d.accepts 0
  | d, .lt n => (List.range n).all d.accepts
  | d, .range lo hi => (List.range hi).all (fun v => decide (v < lo) || d.accepts v)
  | d, .oneOf l => l.all d.accepts

theorem Use.accepts_of_covers {d u : Use} {v : Nat} (h : d.covers u = true) (hu : u.accepts v = true) :
    d.accepts v = true := by
  revert h
  unfold covers
  split
  next => exact fun _ => rfl
  next => exact fun h => nomatch h
  next => exact fun h => Use.accepts_no.mp hu ▸ h
  next => exact fun h => List.all_eq_true.mp h v (List.mem_range.mpr (Use.accepts_lt.mp hu))
  next lo hi _ =>
    intro h
    simp only [Use.accepts, Bool.and_eq_true, decide_eq_true_eq] at hu
    simpa [Nat.not_lt.mpr hu.1] using List.all_eq_true.mp h v (List.mem_range.mpr hu.2)
  next => exact fun h => List.all_eq_true.mp h v (Use.accepts_oneOf.mp hu)

/-- `Use.covers`, field by field. -/
def coversAll : List Use → List Use → Bool
  | [], [] => true
  | d :: ds, u :: us => d.covers u && coversAll ds us
  | _, _ => false

theorem acceptsAll_of_covers : ∀ {ds us : List Use} {vs : List Nat}, coversAll ds us = true → acceptsAll us vs = true →
    acceptsAll ds vs = true
  | [], _, _, _, _ => rfl
  | _ :: _, [], _, h, _ => by cases h
  | _ :: _, _ :: _, [], _, _ => rfl
  | d :: ds, u :: us, v :: vs, h, hu => by
    simp only [coversAll, acceptsAll, Bool.and_eq_true] at h hu ⊢
    exact ⟨Use.accepts_of_covers h.1 hu.1, acceptsAll_of_covers h.2 hu.2⟩

/-- A row stands for the instructions `mk`, with operands in format `F`: it builds them, and they are well formed exactly where
the row accepts their fields, in the ranges that the slot structure asks for. -/
structure Codes {α : Type} (F : Format α) (mk : α → Instr) (r : OpRow) (ranges : List Nat → Bool) : Prop where
  widths : r.widths = F.widths
  build : ∀ vs, r.build vs = mk (F.ofFields vs)
  covers : coversAll F.domain r.uses = true
  wf : ∀ f, wellFormed (mk f) = true ↔ Accepted r.uses r.cross (F.fields f) ∧ ranges (F.fields f) = true

section
variable {α : Type} {F : Format α} {mk : α → Instr} {r : OpRow} {ranges : List Nat → Bool}

theorem Codes.domain_of_accepted (h : Codes F mk r ranges) {vs : List Nat} (ha : Accepted r.uses r.cross vs) :
    acceptsAll F.domain vs = true :=
  acceptsAll_of_covers h.covers ha.1

/-- A well-formed instruction's fields fit, and are what its row accepts and builds it of. -/
theorem Codes.of_wellFormed (h : Codes F mk r ranges) {f : α} (hw : wellFormed (mk f) = true) :
    Fits F.widths (F.fields f) ∧ Accepted r.uses r.cross (F.fields f) ∧ ranges (F.fields f) = true ∧
      r.build (F.fields f) = mk f := by
  obtain ⟨ha, hr⟩ := (h.wf f).mp hw
  exact ⟨F.fits f (h.domain_of_accepted ha), ha, hr, by rw [h.build, F.ofFields_fields]⟩

/-- Fields that a row accepts are those of the well-formed instruction that it builds of them. -/
theorem Codes.of_accepted (h : Codes F mk r ranges) {vs : List Nat} (hf : Fits F.widths vs)
    (ha : Accepted r.uses r.cross vs) (hr : ranges vs = true) :
    wellFormed (r.build vs) = true ∧ F.fields (F.ofFields vs) = vs := by
  have hv := F.fields_ofFields hf (h.domain_of_accepted ha)
  exact ⟨by rw [h.build, h.wf, hv]; exact ⟨ha, hr⟩, hv⟩

end

/-- An instruction has an op word, a thresher word, or is an event. -/
inductive Coded (i : Instr) : Prop where
  | op {α : Type} (F : Format α) {mk : α → Instr} (f : α) (hi : i = mk f) {slot opc : Nat} {r : OpRow}
      (hf : ∀ f, opFields (mk f) = some (slot, opc, F.widths, F.fields f)) (ht : ∀ f, thrFields (mk f) = none)
      (hr : opRow slot opc = some r) (hb : slot < 8 ∧ opc < 256 ∧ F.widths.sum = 52)
      (hc : Codes F mk r (repRanges slot opc))
  | thr {α : Type} (F : Format α) {mk : α → Instr} (f : α) (hi : i = mk f) {opc : Nat} {r : OpRow}
      (ht : ∀ f, thrFields (mk f) = some (opc, F.widths, F.fields f)) (hf : ∀ f, opFields (mk f) = none)
      (hr : thrRow opc = some r) (hb : opc < 64 ∧ F.widths.sum = 26) (hc : Codes F mk r (fun _ => true))
  | event (hf : opFields i = none) (ht : thrFields i = none)

/-- The slot whose words stand for an op in encoding: VB shares VA's (R87). -/
def slotVA (slot : Nat) : Nat := if slot = 2 then 1 else slot

/-- Each row builds an instruction of its own slot and opcode. -/
theorem opRow_build : ∀ slot < 8, ∀ opc < 256, ∀ r ∈ opRow slot opc,
    (opFields (r.build [])).map (fun p => (p.1, p.2.1)) = some (slotVA slot, opc) := by decide +kernel

theorem thrRow_build : ∀ opc < 64, ∀ r ∈ thrRow opc, (thrFields (r.build [])).map (fun p => p.1) = some opc := by
  decide +kernel

end Sys2Proof
end

section
/-! What each use asks of an operand, in the terms of well-formedness (R88, R97). -/
open Sys2Proof

namespace Sys2Proof

/-! ### An unused field -/

@[simp] theorem Fmt.code_eq_zero {t : Fmt} : t.code = 0 ↔ t = .fp32 := by cases t <;> decide
@[simp] theorem Rnd.code_eq_zero {r : Rnd} : r.code = 0 ↔ r = .dyn := by cases r <;> simp [Rnd.code]
@[simp] theorem Scl.code_eq_zero {s : Scl} : s.code = 0 ↔ s = .none := by cases s <;> decide
@[simp] theorem Cond.code_eq_zero {c : Cond} : c.code = 0 ↔ c = .eq := by cases c <;> decide
@[simp] theorem QSel.code_eq_zero {q : QSel} : q.code = 0 ↔ q = .none := by cases q <;> decide
@[simp] theorem TType.code_eq_zero {t : TType} : t.code = 0 ↔ t = .int32 := by cases t <;> decide
@[simp] theorem toNat_eq_zero_iff {n : Nat} {x : BitVec n} : x.toNat = 0 ↔ x = 0 := BitVec.toNat_inj (y := 0#n)

/-! ### A used field -/

@[simp] theorem Use.accepts_lt_toNat {n k : Nat} {x : BitVec k} : (Use.lt n).accepts x.toNat = true ↔ x.toNat < n :=
  accepts_lt

@[simp] theorem Rnd.use_accepts (r : Rnd) : Rnd.use.accepts r.code = true := by
  rcases r with _ | (_ | _ | _ | _ | _ | _) <;> rfl
@[simp] theorem Scl.use_accepts (s : Scl) : (Use.lt 3).accepts s.code = true := by cases s <;> rfl
@[simp] theorem Cond.use_accepts (c : Cond) : (Use.lt 10).accepts c.code = true := by cases c <;> rfl
@[simp] theorem Cond.accepts_float {c : Cond} : (Use.lt 6).accepts c.code = true ↔ c.code < 6 := Use.accepts_lt
@[simp] theorem Geo.use_accepts (g : Geo) : (Use.lt 2).accepts g.code = true := by cases g <;> rfl
@[simp] theorem Dir.use_accepts (d : Dir) : (Use.lt 2).accepts d.code = true := by cases d <;> rfl
@[simp] theorem Scope.use_accepts (s : Scope) : (Use.lt 6).accepts s.code = true := by cases s <;> rfl
@[simp] theorem AmoOp.use_accepts (o : AmoOp) : (Use.lt 12).accepts o.code = true := by cases o <;> rfl
@[simp] theorem RedOp.use_accepts (o : RedOp) : (Use.lt 10).accepts o.code = true := by cases o <;> rfl
@[simp] theorem BamoOp.use_accepts (o : BamoOp) : (Use.lt 10).accepts o.code = true := by cases o <;> rfl
@[simp] theorem ClaimType.use_accepts (t : ClaimType) : (Use.range 1 12).accepts t.code = true := by cases t <;> rfl

/-! The codes of the types that an op accepts, each with RAW, at which the op traps when it issues (R45, R97). -/

abbrev Fmt.floatUse : Use := .oneOf [0, 1, 2, 31]
abbrev Fmt.intUse : Use := .oneOf [3, 4, 5, 31]
abbrev Fmt.narrowUse : Use := .oneOf [3, 4, 31]
abbrev Fmt.elemUse : Use := .oneOf [0, 1, 2, 3, 4, 5, 31]
abbrev Fmt.sxUse : Use := .oneOf [6, 7, 8, 31]
abbrev Fmt.convUse : Use := .oneOf [0, 1, 2, 3, 4, 5, 6, 7, 8, 31]

@[simp] theorem Fmt.use_accepts (t : Fmt) : Fmt.use.accepts t.code = true := by cases t <;> rfl
@[simp] theorem Fmt.accepts_float {t : Fmt} : Fmt.floatUse.accepts t.code = isOrRaw t floatTypes := by cases t <;> rfl
@[simp] theorem Fmt.accepts_int {t : Fmt} : Fmt.intUse.accepts t.code = isOrRaw t intTypes := by cases t <;> rfl
@[simp] theorem Fmt.accepts_narrow {t : Fmt} : Fmt.narrowUse.accepts t.code = isOrRaw t narrowIntTypes := by cases t <;> rfl
@[simp] theorem Fmt.accepts_elem {t : Fmt} : Fmt.elemUse.accepts t.code = isOrRaw t elemTypes := by cases t <;> rfl
@[simp] theorem Fmt.accepts_sx {t : Fmt} : Fmt.sxUse.accepts t.code = isOrRaw t sxTypes := by cases t <;> rfl
@[simp] theorem Fmt.accepts_conv {t : Fmt} : Fmt.convUse.accepts t.code = isOrRaw t convTypes := by cases t <;> rfl
@[simp] theorem Fmt.accepts_array {t : Fmt} : Fmt.arrayUse.accepts t.code = decide (t ∈ mmaTypes) := by cases t <;> rfl

@[simp] theorem QSel.accepts_dabc (q : QSel) : (Use.oneOf [0, 1, 2, 3, 4]).accepts q.code = true := by cases q <;> rfl
@[simp] theorem QSel.accepts_dab {q : QSel} :
    (Use.oneOf [0, 1, 2, 3]).accepts q.code = decide (q ∈ [QSel.none, QSel.d, QSel.a, QSel.b]) := by cases q <;> rfl
@[simp] theorem QSel.accepts_ab {q : QSel} :
    (Use.oneOf [0, 2, 3]).accepts q.code = decide (q ∈ [QSel.none, QSel.a, QSel.b]) := by cases q <;> rfl
@[simp] theorem QSel.accepts_da {q : QSel} :
    (Use.oneOf [0, 1, 2]).accepts q.code = decide (q ∈ [QSel.none, QSel.d, QSel.a]) := by cases q <;> rfl
@[simp] theorem QSel.accepts_a {q : QSel} :
    (Use.oneOf [0, 2]).accepts q.code = decide (q ∈ [QSel.none, QSel.a]) := by cases q <;> rfl
@[simp] theorem QSel.accepts_none {q : QSel} : (Use.oneOf [0]).accepts q.code = decide (q ∈ [QSel.none]) := by cases q <;> rfl

@[simp] theorem TType.use_accepts (t : TType) : (Use.lt 3).accepts t.code = true := by cases t <;> rfl
@[simp] theorem TType.accepts_int {t : TType} : (Use.lt 1).accepts t.code = (t == .int32) := by cases t <;> rfl
@[simp] theorem TType.accepts_float {t : TType} : (Use.range 1 3).accepts t.code = (t != .int32) := by cases t <;> rfl
@[simp] theorem TType.accepts_fp32 {t : TType} : (Use.range 1 2).accepts t.code = (t == .fp32) := by cases t <;> rfl

@[simp] theorem Use.accepts_range_toNat {n k : Nat} {x : BitVec k} :
    (Use.range 1 (n + 1)).accepts x.toNat = true ↔ x ≠ 0 ∧ x.toNat ≤ n := by
  simp [Use.accepts, Nat.one_le_iff_ne_zero]

@[simp] theorem Use.accepts_oneOf_toNat {l : List Nat} {k : Nat} {x : BitVec k} :
    (Use.oneOf l).accepts x.toNat = true ↔ x.toNat ∈ l := accepts_oneOf

@[simp] theorem Kinds.use_accepts (k : Kinds) : (Use.range 1 8).accepts k.code = true ↔ k.code ≠ 0 := by
  have h : k.code < 8 := k.code_lt
  simp [Use.accepts, Nat.one_le_iff_ne_zero, h]

/-! ### The classes of types, by their codes -/

@[simp] theorem Fmt.isIntCode_code (t : Fmt) : isIntCode t.code = t.isInt := by cases t <;> rfl
@[simp] theorem Fmt.isSxCode_code (t : Fmt) : isSxCode t.code = t.isSx := by cases t <;> rfl
@[simp] theorem Fmt.isIntOrBlock_code (t : Fmt) : isIntOrBlock t.code = !(t.isFloat || t == .raw) := by cases t <;> rfl
@[simp] theorem Fmt.code_lt_three {t : Fmt} : t.code < 3 ↔ t.isFloat = true := by cases t <;> decide
@[simp] theorem Fmt.code_eq_raw {t : Fmt} : t.code = 31 ↔ t = .raw := by cases t <;> decide
@[simp] theorem Geo.code_eq_one {g : Geo} : g.code = 1 ↔ g = .planar := by cases g <;> decide
@[simp] theorem TType.code_inj {t u : TType} : t.code = u.code ↔ t = u := by cases t <;> cases u <;> decide

/-- With a float type every RND stands (R107). -/
@[simp] theorem rndOk_of_float {t : Fmt} {r : Rnd} (h : isOrRaw t floatTypes = true) : rndOk t r = true := by
  cases t <;> simp [isOrRaw, floatTypes] at h <;> rfl

/-! ### The checks between fields, by format -/

/-- RND stands with an integer or a block type alone as dynamic. -/
theorem Cross.rndInt_faults {v : List Nat} {t r lo : Nat} {T : Fmt} {R : Rnd} (ht : fv v t = T.code) (hr : fv v r = R.code) :
    (Cross.rndInt t r lo).faults v = [] ↔ rndOk T R = true := by
  simp [Cross.faults, rndOk, ht, hr, or_iff_not_imp_left]

/-- A store's modifiers stand with the types that it rounds to (R234). -/
theorem Cross.storeMods_faults {v : List Nat} {t r sat scl : Nat} {T : Fmt} {R : Rnd} {S : Bool} {L : Scl}
    (ht : fv v t = T.code) (hr : fv v r = R.code) (hs : fv v sat = S.toNat) (hl : fv v scl = L.code) :
    (Cross.storeMods t r sat scl).faults v = [] ↔ storeOk T R S L = true := by
  cases T <;> cases S <;> simp [Cross.faults, storeOk, ht, hr, hs, hl, Fmt.isFloat, Fmt.isInt, and_comm]

@[simp] theorem RG.acceptsAll_fields (us : List Use) (f : RG) : acceptsAll us f.fields =
    acceptsAll us [f.qsel.code, f.cond.code, f.scl.code, f.sat.toNat, f.rnd.code, f.t2.code, f.t.code, f.g.toNat, f.c.toNat,
      f.b.toNat, f.a.toNat, f.d.toNat] := rfl

@[simp] theorem RG.rndInt_faults (f : RG) : (Cross.rndInt 6 4 10).faults f.fields = [] ↔ rndOk f.t f.rnd = true :=
  Cross.rndInt_faults rfl rfl

@[simp] theorem RG.sclInt_faults (f : RG) :
    Cross.sclInt.faults f.fields = [] ↔ (!(f.t.isInt && f.t2.isInt) || f.scl == .none) = true := by
  simp [Cross.faults, fv, RG.fields, or_iff_not_imp_left]

@[simp] theorem RG.vcvtTypes_faults (f : RG) :
    Cross.vcvtTypes.faults f.fields = [] ↔ (!f.t2.isSx && (!f.t.isSx || f.t2 == .fp32 || f.t2 == .raw)) = true := by
  simp [Cross.faults, fv, RG.fields, or_iff_not_imp_left]

@[simp] theorem RG.condFloat_faults (f : RG) :
    Cross.condFloat.faults f.fields = [] ↔ (!f.t.isFloat || decide (f.cond.code < 6)) = true := by
  simp [Cross.faults, fv, RG.fields, or_iff_not_imp_left]

@[simp] theorem RG.bitRange_faults (f : RG) :
    Cross.bitRange.faults f.fields = [] ↔ decide (f.b.toNat + f.c.toNat + 1 ≤ 64) = true := by
  simp [Cross.faults, fv, RG.fields]

@[simp] theorem RG.qRange_faults (f : RG) : Cross.qRange.faults f.fields = [] ↔ qRangeOk f = true := by
  cases h : f.qsel <;> simp [Cross.faults, qRangeOk, fv, RG.fields, h, QSel.code]

@[simp] theorem IM.acceptsAll_fields (us : List Use) (f : IM) : acceptsAll us f.fields =
    acceptsAll us [f.imm.toNat, f.a.toNat, f.d.toNat] := rfl

@[simp] theorem IM.immBelow_faults (n : Nat) (f : IM) : (Cross.immBelow n).faults f.fields = [] ↔ f.imm.toNat < n := by
  simp [Cross.faults, fv, IM.fields]

@[simp] theorem MW.acceptsAll_fields (us : List Use) (f : MW) : acceptsAll us f.fields =
    acceptsAll us [f.imm.toNat, f.d.toNat] := rfl

@[simp] theorem MW.immBelow_faults (n : Nat) (f : MW) : (Cross.immBelow n).faults f.fields = [] ↔ f.imm.toNat < n := by
  simp [Cross.faults, fv, MW.fields]

@[simp] theorem VI.acceptsAll_fields (us : List Use) (f : VI) : acceptsAll us f.fields =
    acceptsAll us [f.imm.toNat, 0, f.t.code, f.g.toNat, f.d.toNat] := rfl

/-- An immediate stands in the width of its type (R90). -/
theorem VI.immWidth_faults {f : VI} (h : isOrRaw f.t elemTypes = true) :
    Cross.immWidth.faults f.fields = [] ↔ f.imm.toNat < 2 ^ (if f.t = .raw then 32 else f.t.width) := by
  cases ht : f.t <;> simp [ht, isOrRaw, elemTypes] at h <;> simp [Cross.faults, fv, VI.fields, ht, Fmt.code, Fmt.width]

@[simp] theorem MX.acceptsAll_fields (us : List Use) (f : MX) : acceptsAll us f.fields =
    acceptsAll us [0, f.scl.code, f.sat.toNat, f.rnd.code, f.t.code, f.a.toNat, f.acc.toNat] := rfl

@[simp] theorem MX.rndInt_faults (f : MX) : (Cross.rndInt 4 3 35).faults f.fields = [] ↔ rndOk f.t f.rnd = true :=
  Cross.rndInt_faults rfl rfl

@[simp] theorem MV.acceptsAll_fields (us : List Use) (f : MV) : acceptsAll us f.fields =
    acceptsAll us [f.off.toNat, f.q.toNat, f.ord.toNat, f.scl.code, f.sat.toNat, f.rnd.code, f.t.code,
      f.g.toNat, f.a.toNat, f.d.toNat] := rfl

@[simp] theorem MV.qDest_faults (f : MV) :
    (Cross.qDest 1 9).faults f.fields = [] ↔ (!f.q || decide (f.d.toNat ≤ 7)) = true := by
  simp [Cross.faults, fv, MV.fields, or_iff_not_imp_left]

@[simp] theorem MV.storeMods_faults (f : MV) :
    (Cross.storeMods 6 5 4 3).faults f.fields = [] ↔ storeOk f.t f.rnd f.sat f.scl = true :=
  Cross.storeMods_faults rfl rfl rfl rfl

@[simp] theorem MVX.acceptsAll_fields (us : List Use) (f : MVX) : acceptsAll us f.fields =
    acceptsAll us [f.off.toNat, f.b.toNat, f.q.toNat, 0, f.scl.code, f.sat.toNat, f.rnd.code, f.t.code,
      f.g.toNat, f.a.toNat, f.d.toNat] := rfl

@[simp] theorem MVX.qDest_faults (f : MVX) :
    (Cross.qDest 2 10).faults f.fields = [] ↔ (!f.q || decide (f.d.toNat ≤ 7)) = true := by
  simp [Cross.faults, fv, MVX.fields, or_iff_not_imp_left]

@[simp] theorem MVX.storeMods_faults (f : MVX) :
    (Cross.storeMods 7 6 5 4).faults f.fields = [] ↔ storeOk f.t f.rnd f.sat f.scl = true :=
  Cross.storeMods_faults rfl rfl rfl rfl

@[simp] theorem LF.acceptsAll_fields (us : List Use) (f : LF) : acceptsAll us f.fields =
    acceptsAll us [0, f.geo.code, f.t.code, f.b.toNat, f.a.toNat, 0] := rfl

@[simp] theorem LF.geoForm_faults (f : LF) : Cross.geoForm.faults f.fields = [] ↔ (f.geo == .packed || f.t.isSx) = true := by
  cases h : f.geo <;> simp [Cross.faults, fv, LF.fields, h]

@[simp] theorem EACopy.acceptsAll_fields (us : List Use) (f : EACopy) : acceptsAll us f.fields =
    acceptsAll us [0, f.scl.code, f.rnd.code, f.t.code, 0, f.c.toNat, f.b.toNat, f.a.toNat, f.d.toNat] := rfl

@[simp] theorem EACopy.rndRaw_faults (f : EACopy) :
    (Cross.rndRaw 3 2 15).faults f.fields = [] ↔
      (decide (f.t.isFloat ∨ f.rnd = .dyn) && decide (f.t ≠ .raw ∨ f.scl = .none)) = true := by
  cases h : f.t <;> simp [Cross.faults, fv, EACopy.fields, h, Fmt.code, Fmt.isFloat, isIntOrBlock, or_iff_not_imp_left]

@[simp] theorem EAAmo.acceptsAll_fields (us : List Use) (f : EAAmo) : acceptsAll us f.fields =
    acceptsAll us [0, f.w.code, f.op.code, 0, f.c.toNat, f.b.toNat, f.a.toNat, f.d.toNat] := rfl

@[simp] theorem EAAmo.amoForm_faults (f : EAAmo) :
    Cross.amoForm.faults f.fields = [] ↔
      (decide (f.w ∈ [Width.w32, Width.w64]) && decide (f.op ∈ [AmoOp.cas, AmoOp.addb] ∨ f.c = 0)) = true := by
  cases hw : f.w <;> cases ho : f.op <;> simp [Cross.faults, fv, EAAmo.fields, hw, ho, Width.code, AmoOp.code]

@[simp] theorem EARed.acceptsAll_fields (us : List Use) (f : EARed) : acceptsAll us f.fields =
    acceptsAll us [0, f.w.code, f.op.code, 0, f.b.toNat, f.a.toNat, 0] := rfl

@[simp] theorem EARed.redForm_faults (f : EARed) : Cross.redForm.faults f.fields = [] ↔ redOk f.op f.w = true := by
  cases hw : f.w <;> cases ho : f.op <;> simp [Cross.faults, fv, EARed.fields, hw, ho, Width.code, RedOp.code, redOk]

@[simp] theorem TR.acceptsAll_fields (us : List Use) (f : TR) : acceptsAll us f.fields =
    acceptsAll us [0, 0, f.bz.toNat, f.s.toNat, f.t.code, f.c.toNat, f.b.toNat, f.a.toNat, f.d.toNat] := rfl

@[simp] theorem TR.bzScalar_faults (f : TR) : (Cross.bzScalar 3 2).faults f.fields = [] ↔ (!(f.s && f.bz)) = true := by
  simp [Cross.faults, fv, TR.fields, or_iff_not_imp_left]

@[simp] theorem TRCmp.acceptsAll_fields (us : List Use) (f : TRCmp) : acceptsAll us f.fields =
    acceptsAll us [f.cond.code, 0, f.bz.toNat, f.s.toNat, f.t.code, 0, f.b.toNat, f.a.toNat, f.d.toNat] := rfl

@[simp] theorem TRCmp.bzScalar_faults (f : TRCmp) : (Cross.bzScalar 3 2).faults f.fields = [] ↔ (!(f.s && f.bz)) = true := by
  simp [Cross.faults, fv, TRCmp.fields, or_iff_not_imp_left]

@[simp] theorem TRCmp.thrCond_faults (f : TRCmp) :
    Cross.thrCond.faults f.fields = [] ↔ (f.t == .int32 || decide (f.cond.code < 6)) = true := by
  simp [Cross.faults, fv, TRCmp.fields, or_iff_not_imp_left]

@[simp] theorem TRCvt.acceptsAll_fields (us : List Use) (f : TRCvt) : acceptsAll us f.fields =
    acceptsAll us [0, f.t2.code, 0, f.s.toNat, f.t.code, 0, 0, f.a.toNat, f.d.toNat] := rfl

@[simp] theorem TRCvt.cvtDistinct_faults (f : TRCvt) : Cross.cvtDistinct.faults f.fields = [] ↔ (f.t != f.t2) = true := by
  simp [Cross.faults, fv, TRCvt.fields, eq_comm (a := f.t) (b := f.t2)]

end Sys2Proof
end

section
/-! Well-formed instructions are those whose fields their rows accept (R87 to R97, R429 to R431). -/
open Sys2Proof

namespace Sys2Proof

/-! ### What well-formedness asks, form by form

One lemma for each form of operands, under the name of its first instruction: the others of a form are well formed alike. Each takes
the one arm of `wellFormed` that it needs (`delta`): the equations of all 313 arms cost more than the lemmas. -/

theorem wellFormed_add (f : RG) : wellFormed (.add f) = true ↔
    Accepted [no, no, no, no, no, no, no, no, no, any, any, any] [] f.fields := by
  delta wellFormed
  simp [Accepted, and_comm, and_left_comm]

theorem wellFormed_addi (f : IM) : wellFormed (.addi f) = true ↔ Accepted [any, any, any] [] f.fields := by
  delta wellFormed
  simp [Accepted]

theorem wellFormed_shli (f : IM) : wellFormed (.shli f) = true ↔ Accepted [any, any, any] [.immBelow 64] f.fields := by
  delta wellFormed
  simp [Accepted]

theorem wellFormed_clz (f : RG) : wellFormed (.clz f) = true ↔
    Accepted [no, no, no, no, no, no, no, no, no, no, any, any] [] f.fields := by
  delta wellFormed
  simp [Accepted, and_comm, and_left_comm]

theorem wellFormed_cmp (f : RG) : wellFormed (.cmp f) = true ↔
    Accepted [no, .lt 10, no, no, no, no, no, no, no, any, any, any] [] f.fields := by
  delta wellFormed
  simp [Accepted, and_comm, and_left_comm]

theorem wellFormed_sel (f : RG) : wellFormed (.sel f) = true ↔
    Accepted [no, no, no, no, no, no, no, no, any, any, any, any] [] f.fields := by
  delta wellFormed
  simp [Accepted, and_comm, and_left_comm]

theorem wellFormed_extr (f : RG) : wellFormed (.extr f) = true ↔
    Accepted [no, no, no, no, no, no, no, no, any, any, any, any] [.bitRange] f.fields := by
  delta wellFormed
  simp [Accepted, and_assoc, and_comm, and_left_comm]

theorem wellFormed_movi (f : MW) : wellFormed (.movi f) = true ↔ Accepted [any, any] [] f.fields := by
  delta wellFormed
  simp [Accepted]

theorem wellFormed_movhi (f : MW) : wellFormed (.movhi f) = true ↔ Accepted [any, any] [.immBelow (2 ^ 18)] f.fields := by
  delta wellFormed
  simp [Accepted]

theorem wellFormed_fadd (f : RG) : wellFormed (.fadd f) = true ↔
    Accepted [no, no, no, any, Rnd.use, no, Fmt.floatUse, no, no, any, any, any] [.rndInt 6 4 10] f.fields := by
  delta wellFormed
  simp +contextual [Accepted, and_assoc, and_comm, and_left_comm]

theorem wellFormed_ffma (f : RG) : wellFormed (.ffma f) = true ↔
    Accepted [no, no, no, any, Rnd.use, no, Fmt.floatUse, no, any, any, any, any] [.rndInt 6 4 10] f.fields := by
  delta wellFormed
  simp +contextual [Accepted, and_assoc, and_comm, and_left_comm]

theorem wellFormed_fcmp (f : RG) : wellFormed (.fcmp f) = true ↔
    Accepted [no, .lt 6, no, no, no, no, Fmt.floatUse, no, no, any, any, any] [] f.fields := by
  delta wellFormed
  simp [Accepted, and_assoc, and_comm, and_left_comm]

theorem wellFormed_fcvt (f : RG) : wellFormed (.fcvt f) = true ↔
    Accepted [no, no, .lt 3, any, Rnd.use, Fmt.elemUse, Fmt.elemUse, no, no, no, any, any]
      [.rndInt 6 4 10, .sclInt] f.fields := by
  delta wellFormed
  simp [Accepted, and_assoc, and_comm, and_left_comm]

theorem wellFormed_br (f : BRF) : wellFormed (.br f) = true ↔ Accepted [any, no, no] [] f.fields := by
  delta wellFormed
  simp [Accepted, BRF.fields, and_comm]

theorem wellFormed_bc (f : BRF) : wellFormed (.bc f) = true ↔ Accepted [any, .lt 10, any] [] f.fields := by
  delta wellFormed
  simp [Accepted, BRF.fields]

theorem wellFormed_brl (f : BRF) : wellFormed (.brl f) = true ↔ Accepted [any, no, any] [] f.fields := by
  delta wellFormed
  simp [Accepted, BRF.fields, and_comm]

theorem wellFormed_ret (f : RG) : wellFormed (.ret f) = true ↔
    Accepted [no, no, no, no, no, no, no, no, no, no, any, no] [] f.fields := by
  delta wellFormed
  simp [Accepted, and_assoc, and_comm, and_left_comm]

theorem wellFormed_rep (f : RP) : wellFormed (.rep f) = true ↔
    Accepted [no, any, any] [] f.fields ∧ repRanges 0 0x46 f.fields = true := by
  delta wellFormed
  simp [Accepted, RP.fields, repRanges, fv, and_assoc, and_comm, and_left_comm]

theorem wellFormed_loopb (f : RP) : wellFormed (.loopb f) = true ↔
    Accepted [no, no, any] [] f.fields ∧ repRanges 0 0x47 f.fields = true := by
  delta wellFormed
  simp [Accepted, RP.fields, repRanges, fv, and_comm, and_left_comm]

theorem wellFormed_vadd (f : RG) : wellFormed (.vadd f) = true ↔
    Accepted [.oneOf [0, 1, 2, 3], no, no, no, Rnd.use, no, Fmt.elemUse, any, no, any, any, any]
      [.rndInt 6 4 10, .qRange] f.fields := by
  delta wellFormed
  simp [Accepted, and_assoc, and_comm, and_left_comm]

theorem wellFormed_vadds (f : RG) : wellFormed (.vadds f) = true ↔
    Accepted [.oneOf [0, 1, 2, 3], no, no, no, no, no, Fmt.intUse, any, no, any, any, any] [.qRange] f.fields := by
  delta wellFormed
  simp [Accepted, and_assoc, and_comm, and_left_comm]

theorem wellFormed_vmacw (f : RG) : wellFormed (.vmacw f) = true ↔
    Accepted [.oneOf [0, 2, 3], no, no, no, no, no, Fmt.narrowUse, any, no, any, any, any] [.qRange] f.fields := by
  delta wellFormed
  simp [Accepted, and_assoc, and_comm, and_left_comm]

theorem wellFormed_vfma (f : RG) : wellFormed (.vfma f) = true ↔
    Accepted [.oneOf [0, 1, 2, 3, 4], no, no, no, Rnd.use, no, Fmt.floatUse, any, any, any, any, any]
      [.rndInt 6 4 10, .qRange] f.fields := by
  delta wellFormed
  simp +contextual [Accepted, and_assoc, and_comm, and_left_comm]

theorem wellFormed_vneg (f : RG) : wellFormed (.vneg f) = true ↔
    Accepted [.oneOf [0, 1, 2], no, no, no, Rnd.use, no, Fmt.elemUse, any, no, no, any, any]
      [.rndInt 6 4 10, .qRange] f.fields := by
  delta wellFormed
  simp [Accepted, and_assoc, and_comm, and_left_comm]

theorem wellFormed_vnot (f : RG) : wellFormed (.vnot f) = true ↔
    Accepted [.oneOf [0, 1, 2], no, no, no, no, no, Fmt.intUse, any, no, no, any, any] [.qRange] f.fields := by
  delta wellFormed
  simp [Accepted, and_assoc, and_comm, and_left_comm]

theorem wellFormed_vcmp (f : RG) : wellFormed (.vcmp f) = true ↔
    Accepted [.oneOf [0, 2, 3], .lt 10, no, no, no, no, Fmt.elemUse, any, no, any, any, .lt 16]
      [.condFloat, .qRange] f.fields := by
  delta wellFormed
  simp [Accepted, and_assoc, and_comm, and_left_comm]

theorem wellFormed_vsel (f : RG) : wellFormed (.vsel f) = true ↔
    Accepted [.oneOf [0, 1, 2, 3], no, no, no, no, no, Fmt.elemUse, any, .lt 16, any, any, any] [.qRange] f.fields := by
  delta wellFormed
  simp [Accepted, and_assoc, and_comm, and_left_comm]

theorem wellFormed_vrcp (f : RG) : wellFormed (.vrcp f) = true ↔
    Accepted [.oneOf [0, 1, 2], no, no, no, Rnd.use, no, Fmt.floatUse, any, no, no, any, any]
      [.rndInt 6 4 10, .qRange] f.fields := by
  delta wellFormed
  simp +contextual [Accepted, and_assoc, and_comm, and_left_comm]

theorem wellFormed_vcvt (f : RG) : wellFormed (.vcvt f) = true ↔
    Accepted [.oneOf [0, 1, 2], no, .lt 3, any, Rnd.use, Fmt.convUse, Fmt.convUse, any, no, no, any, any]
      [.rndInt 6 4 10, .sclInt, .vcvtTypes, .qRange] f.fields := by
  delta wellFormed
  simp [Accepted, and_assoc, and_comm, and_left_comm]

theorem wellFormed_vredadd (f : RG) : wellFormed (.vredadd f) = true ↔
    Accepted [no, no, no, no, Rnd.use, no, Fmt.elemUse, any, no, no, any, any] [.rndInt 6 4 10] f.fields := by
  delta wellFormed
  simp [Accepted, and_assoc, and_comm, and_left_comm]

theorem wellFormed_vbcast (f : RG) : wellFormed (.vbcast f) = true ↔
    Accepted [.oneOf [0, 1, 2], no, no, no, no, no, Fmt.elemUse, any, no, any, any, any] [.qRange] f.fields := by
  delta wellFormed
  simp [Accepted, and_assoc, and_comm, and_left_comm]

theorem wellFormed_vext (f : RG) : wellFormed (.vext f) = true ↔
    Accepted [.oneOf [0, 2], no, no, no, no, no, Fmt.elemUse, any, no, any, any, any] [.qRange] f.fields := by
  delta wellFormed
  simp [Accepted, and_assoc, and_comm, and_left_comm]

theorem wellFormed_vins (f : RG) : wellFormed (.vins f) = true ↔
    Accepted [.oneOf [0], no, no, no, no, no, Fmt.elemUse, any, no, any, any, any] [.qRange] f.fields := by
  delta wellFormed
  simp [Accepted, and_assoc, and_comm, and_left_comm]

theorem wellFormed_vperm (f : RG) : wellFormed (.vperm f) = true ↔
    Accepted [.oneOf [0, 1, 2, 3], no, no, no, no, no, Fmt.elemUse, any, no, any, any, any] [.qRange] f.fields := by
  delta wellFormed
  simp [Accepted, and_assoc, and_comm, and_left_comm]

theorem wellFormed_viota (f : RG) : wellFormed (.viota f) = true ↔
    Accepted [no, no, no, no, no, no, Fmt.intUse, any, no, no, no, any] [] f.fields := by
  delta wellFormed
  simp [Accepted, and_assoc, and_comm, and_left_comm]

theorem wellFormed_vmov (f : RG) : wellFormed (.vmov f) = true ↔
    Accepted [.oneOf [0, 1, 2], no, no, no, no, no, Fmt.elemUse, any, no, no, any, any] [.qRange] f.fields := by
  delta wellFormed
  simp [Accepted, and_assoc, and_comm, and_left_comm]

theorem wellFormed_vmovi (f : VI) : wellFormed (.vmovi f) = true ↔
    Accepted [any, no, Fmt.elemUse, any, any] [.immWidth] f.fields := by
  delta wellFormed
  simp +contextual [VI.immWidth_faults, Accepted]

theorem wellFormed_vpacksx (f : RG) : wellFormed (.vpacksx f) = true ↔
    Accepted [no, no, no, any, Rnd.use, no, Fmt.sxUse, any, no, no, any, any] [.rndInt 6 4 10] f.fields := by
  delta wellFormed
  simp [Accepted, and_assoc, and_comm, and_left_comm]

theorem wellFormed_vunpksx (f : RG) : wellFormed (.vunpksx f) = true ↔
    Accepted [no, no, no, no, no, no, Fmt.sxUse, any, no, no, any, any] [] f.fields := by
  delta wellFormed
  simp [Accepted, and_assoc, and_comm, and_left_comm]

theorem wellFormed_pand (f : RG) : wellFormed (.pand f) = true ↔
    Accepted [no, no, no, no, no, no, no, no, no, .lt 16, .lt 16, .lt 16] [] f.fields := by
  delta wellFormed
  simp [Accepted, and_assoc, and_comm, and_left_comm]

theorem wellFormed_pnot (f : RG) : wellFormed (.pnot f) = true ↔
    Accepted [no, no, no, no, no, no, no, no, no, no, .lt 16, .lt 16] [] f.fields := by
  delta wellFormed
  simp [Accepted, and_assoc, and_comm, and_left_comm]

theorem wellFormed_plen (f : RG) : wellFormed (.plen f) = true ↔
    Accepted [no, no, no, no, no, no, Fmt.convUse, no, no, no, any, .lt 16] [] f.fields := by
  delta wellFormed
  simp [Accepted, and_assoc, and_comm, and_left_comm]

theorem wellFormed_pset (f : RG) : wellFormed (.pset f) = true ↔
    Accepted [no, no, no, no, no, no, no, no, no, no, any, .lt 16] [] f.fields := by
  delta wellFormed
  simp [Accepted, and_assoc, and_comm, and_left_comm]

theorem wellFormed_pcnt (f : RG) : wellFormed (.pcnt f) = true ↔
    Accepted [no, no, no, no, no, no, no, no, no, no, .lt 16, any] [] f.fields := by
  delta wellFormed
  simp [Accepted, and_assoc, and_comm, and_left_comm]

theorem wellFormed_mma (f : MM) : wellFormed (.mma f) = true ↔
    Accepted [any, any, any, any, Fmt.arrayUse, any, any, any] [] f.fields := by
  delta wellFormed
  simp [Accepted, MM.fields, and_comm]

theorem wellFormed_mzero (f : MX) : wellFormed (.mzero f) = true ↔ Accepted [no, no, no, no, no, no, any] [] f.fields := by
  delta wellFormed
  simp [Accepted, and_comm, and_left_comm]

theorem wellFormed_mdrain (f : MX) : wellFormed (.mdrain f) = true ↔
    Accepted [no, .lt 3, any, Rnd.use, Fmt.convUse, any, any] [.rndInt 4 3 35] f.fields := by
  delta wellFormed
  simp [Accepted]

theorem wellFormed_maccld (f : MX) : wellFormed (.maccld f) = true ↔ Accepted [no, no, no, no, no, any, any] [] f.fields := by
  delta wellFormed
  simp [Accepted, and_assoc, and_comm]

theorem wellFormed_epld (f : MXE) : wellFormed (.epld f) = true ↔ Accepted [no, .range 1 33, any, no] [] f.fields := by
  delta wellFormed
  simp [Accepted, MXE.fields, and_comm]

theorem wellFormed_ld (f : MS) : wellFormed (.ld f) = true ↔ Accepted [any, no, no, any, any, any, any] [] f.fields := by
  delta wellFormed
  simp [Accepted, MS.fields, and_comm]

theorem wellFormed_fld (f : MS) : wellFormed (.fld f) = true ↔ Accepted [any, no, any, any, any, any, any] [] f.fields := by
  delta wellFormed
  simp [Accepted, MS.fields]

theorem wellFormed_st (f : MS) : wellFormed (.st f) = true ↔ Accepted [any, no, no, no, any, any, any] [] f.fields := by
  delta wellFormed
  simp [Accepted, MS.fields, and_comm]

theorem wellFormed_fst (f : MS) : wellFormed (.fst f) = true ↔ Accepted [any, no, any, no, any, any, any] [] f.fields := by
  delta wellFormed
  simp [Accepted, MS.fields, and_comm]

theorem wellFormed_vld (f : MV) : wellFormed (.vld f) = true ↔
    Accepted [any, any, no, no, no, no, Fmt.use, any, any, any] [.qDest 1 9] f.fields := by
  delta wellFormed
  simp [Accepted, and_assoc, and_comm, and_left_comm]

theorem wellFormed_vfld (f : MV) : wellFormed (.vfld f) = true ↔
    Accepted [any, any, any, no, no, no, Fmt.use, any, any, any] [.qDest 1 9] f.fields := by
  delta wellFormed
  simp [Accepted, and_assoc, and_comm]

theorem wellFormed_vst (f : MV) : wellFormed (.vst f) = true ↔
    Accepted [any, any, no, .lt 3, any, Rnd.use, Fmt.use, any, any, any] [.qDest 1 9, .storeMods 6 5 4 3] f.fields := by
  delta wellFormed
  simp [Accepted, and_assoc]

theorem wellFormed_vfst (f : MV) : wellFormed (.vfst f) = true ↔
    Accepted [any, any, any, .lt 3, any, Rnd.use, Fmt.use, any, any, any] [.qDest 1 9, .storeMods 6 5 4 3] f.fields := by
  delta wellFormed
  simp [Accepted]

theorem wellFormed_vlds (f : MVX) : wellFormed (.vlds f) = true ↔
    Accepted [any, any, any, no, no, no, no, Fmt.use, any, any, any] [.qDest 2 10] f.fields := by
  delta wellFormed
  simp [Accepted, and_assoc, and_comm]

theorem wellFormed_vsts (f : MVX) : wellFormed (.vsts f) = true ↔
    Accepted [any, any, any, no, .lt 3, any, Rnd.use, Fmt.use, any, any, any] [.qDest 2 10, .storeMods 7 6 5 4] f.fields := by
  delta wellFormed
  simp [Accepted]

theorem wellFormed_lsfmt (f : LF) : wellFormed (.lsfmt f) = true ↔
    Accepted [no, .lt 2, Fmt.use, any, any, no] [.geoForm] f.fields := by
  delta wellFormed
  simp [Accepted]

theorem wellFormed_copy (f : EACopy) : wellFormed (.copy f) = true ↔
    Accepted [no, .lt 3, Rnd.use, Fmt.use, no, any, any, any, any] [.rndRaw 3 2 15] f.fields := by
  delta wellFormed
  simp [Accepted, and_comm]

theorem wellFormed_copya (f : EA) : wellFormed (.copya f) = true ↔ Accepted [no, no, no, no, any, any] [] f.fields := by
  delta wellFormed
  simp [Accepted, EA.fields, and_comm]

theorem wellFormed_strb (f : EAStrb) : wellFormed (.strb f) = true ↔
    Accepted [no, .lt 2, no, .lt 8, no, any, no] [] f.fields := by
  delta wellFormed
  simp [Accepted, EAStrb.fields, and_comm]

theorem wellFormed_stru (f : EA) : wellFormed (.stru f) = true ↔ Accepted [no, .lt 8, no, no, no, any] [] f.fields := by
  delta wellFormed
  simp [Accepted, EA.fields, and_assoc, and_comm]

theorem wellFormed_pusht (f : EAPush) : wellFormed (.pusht f) = true ↔
    Accepted [no, .range 1 257, any, .lt 3, no, Fmt.use, .lt 4, no, any, any, any] [] f.fields := by
  delta wellFormed
  simp [Accepted, EAPush.fields, and_comm]

theorem wellFormed_popt (f : EA) : wellFormed (.popt f) = true ↔ Accepted [no, .lt 4, no, any, any, any] [] f.fields := by
  delta wellFormed
  simp [Accepted, EA.fields, and_comm]

theorem wellFormed_markr (f : EA) : wellFormed (.markr f) = true ↔ Accepted [no, .lt 4, no, no, any, any] [] f.fields := by
  delta wellFormed
  simp [Accepted, EA.fields, and_comm]

theorem wellFormed_rickq (f : EA) : wellFormed (.rickq f) = true ↔ Accepted [no, .lt 4, no, .lt 8, any, any] [] f.fields := by
  delta wellFormed
  simp [Accepted, EA.fields, and_assoc, and_comm]

theorem wellFormed_amo (f : EAAmo) : wellFormed (.amo f) = true ↔
    Accepted [no, any, .lt 12, no, any, any, any, any] [.amoForm] f.fields := by
  delta wellFormed
  simp [Accepted]

theorem wellFormed_red (f : EARed) : wellFormed (.red f) = true ↔
    Accepted [no, any, .lt 10, no, any, any, no] [.redForm] f.fields := by
  delta wellFormed
  simp [Accepted]

theorem wellFormed_popq (f : EA) : wellFormed (.popq f) = true ↔ Accepted [no, no, no, no, no, any] [] f.fields := by
  delta wellFormed
  simp [Accepted, EA.fields, and_assoc, and_comm]

theorem wellFormed_claim (f : EAClaim) : wellFormed (.claim f) = true ↔
    Accepted [no, .range 1 12, no, .lt 8, no, any, any, any] [] f.fields := by
  delta wellFormed
  simp [Accepted, EAClaim.fields, and_comm]

theorem wellFormed_resolve (f : EAClaim) : wellFormed (.resolve f) = true ↔
    Accepted [no, .range 1 12, no, .lt 8, no, no, no, any] [] f.fields := by
  delta wellFormed
  simp [Accepted, EAClaim.fields, and_assoc, and_comm]

theorem wellFormed_qclaim (f : EA) : wellFormed (.qclaim f) = true ↔ Accepted [no, .lt 8, no, no, any, any] [] f.fields := by
  delta wellFormed
  simp [Accepted, EA.fields, and_assoc, and_comm]

theorem wellFormed_casn (f : EACasn) : wellFormed (.casn f) = true ↔
    Accepted [no, any, no, .lt 8, no, .lt 8, any, any] [] f.fields := by
  delta wellFormed
  simp [Accepted, EACasn.fields, and_comm]

theorem wellFormed_chopen (f : EA) : wellFormed (.chopen f) = true ↔ Accepted [no, .lt 8, no, no, .lt 8, any] [] f.fields := by
  delta wellFormed
  simp [Accepted, EA.fields, and_assoc, and_comm, and_left_comm]

theorem wellFormed_send (f : EA) : wellFormed (.send f) = true ↔ Accepted [no, no, any, any, any, any] [] f.fields := by
  delta wellFormed
  simp [Accepted, EA.fields, and_comm]

theorem wellFormed_ctl (f : CG) : wellFormed (.ctl f) = true ↔ Accepted [any, no, no, no, no] [] f.fields := by
  delta wellFormed
  simp [Accepted, CG.fields, and_assoc, and_comm]

theorem wellFormed_fence (f : CGFence) : wellFormed (.fence f) = true ↔ Accepted [any, .range 1 8, .lt 6, no] [] f.fields := by
  delta wellFormed
  simp [Accepted, CGFence.fields, and_comm]

theorem wellFormed_barg (f : CG) : wellFormed (.barg f) = true ↔ Accepted [any, no, no, .lt 8, any] [] f.fields := by
  delta wellFormed
  simp [Accepted, CG.fields, and_comm]

theorem wellFormed_spawn (f : CG) : wellFormed (.spawn f) = true ↔ Accepted [any, no, any, any, any] [] f.fields := by
  delta wellFormed
  simp [Accepted, CG.fields]

theorem wellFormed_susp (f : CG) : wellFormed (.susp f) = true ↔ Accepted [any, no, any, any, no] [] f.fields := by
  delta wellFormed
  simp [Accepted, CG.fields, and_comm]

theorem wellFormed_nextt (f : CG) : wellFormed (.nextt f) = true ↔ Accepted [any, no, no, no, any] [] f.fields := by
  delta wellFormed
  simp [Accepted, CG.fields, and_comm]

theorem wellFormed_trap (f : CGCode) : wellFormed (.trap f) = true ↔ Accepted [any, any, no, no, no] [] f.fields := by
  delta wellFormed
  simp [Accepted, CGCode.fields, and_comm]

theorem wellFormed_svc (f : CGCode) : wellFormed (.svc f) = true ↔ Accepted [any, any, no, any, any] [] f.fields := by
  delta wellFormed
  simp [Accepted, CGCode.fields]

theorem wellFormed_tstpsn (f : CG) : wellFormed (.tstpsn f) = true ↔ Accepted [any, no, no, any, any] [] f.fields := by
  delta wellFormed
  simp [Accepted, CG.fields, and_comm]

theorem wellFormed_rdsr (f : CGSr) : wellFormed (.rdsr f) = true ↔ Accepted [any, .oneOf srns, no, no, any] [] f.fields := by
  delta wellFormed
  simp [Accepted, CGSr.fields, and_comm]

theorem wellFormed_wrsr (f : CGSr) : wellFormed (.wrsr f) = true ↔ Accepted [any, .oneOf srns, no, any, no] [] f.fields := by
  delta wellFormed
  simp [Accepted, CGSr.fields, and_comm]

theorem wellFormed_bkpt (f : CGSr) : wellFormed (.bkpt f) = true ↔ Accepted [any, any, no, any, no] [] f.fields := by
  delta wellFormed
  simp [Accepted, CGSr.fields, and_comm]

theorem wellFormed_thrAdd (f : TR) : wellFormed (.thrAdd f) = true ↔
    Accepted [no, no, any, any, .lt 3, no, any, any, any] [.bzScalar 3 2] f.fields := by
  delta wellFormed
  simp [Accepted, and_comm]

theorem wellFormed_thrFma (f : TR) : wellFormed (.thrFma f) = true ↔
    Accepted [no, no, any, any, .range 1 3, any, any, any, any] [.bzScalar 3 2] f.fields := by
  delta wellFormed
  simp [Accepted]

theorem wellFormed_thrAbs (f : TR) : wellFormed (.thrAbs f) = true ↔
    Accepted [no, no, no, any, .lt 3, no, no, any, any] [] f.fields := by
  delta wellFormed
  simp [Accepted, and_comm]

theorem wellFormed_thrAnd (f : TR) : wellFormed (.thrAnd f) = true ↔
    Accepted [no, no, any, any, .lt 1, no, any, any, any] [.bzScalar 3 2] f.fields := by
  delta wellFormed
  simp [Accepted, and_comm, and_left_comm]

theorem wellFormed_thrCmp (f : TRCmp) : wellFormed (.thrCmp f) = true ↔
    Accepted [.lt 10, no, any, any, .lt 3, no, any, any, any] [.bzScalar 3 2, .thrCond] f.fields := by
  delta wellFormed
  simp [Accepted]

theorem wellFormed_thrSel (f : TR) : wellFormed (.thrSel f) = true ↔
    Accepted [no, no, any, any, .lt 3, any, any, any, any] [.bzScalar 3 2] f.fields := by
  delta wellFormed
  simp [Accepted]

theorem wellFormed_thrCvt (f : TRCvt) : wellFormed (.thrCvt f) = true ↔
    Accepted [no, .lt 3, no, any, .lt 3, no, no, any, any] [.cvtDistinct] f.fields := by
  delta wellFormed
  simp [Accepted]

theorem wellFormed_thrEx2 (f : TR) : wellFormed (.thrEx2 f) = true ↔
    Accepted [no, no, no, any, .range 1 2, no, no, any, any] [] f.fields := by
  delta wellFormed
  simp [Accepted, and_comm, and_left_comm]

theorem wellFormed_thrMovi (f : TIMov) : wellFormed (.thrMovi f) = true ↔ Accepted [any, any, any] [] f.fields := by
  delta wellFormed
  simp [Accepted, TIMov.fields]

theorem wellFormed_thrAddi (f : TIAdd) : wellFormed (.thrAddi f) = true ↔ Accepted [any, any, any] [] f.fields := by
  delta wellFormed
  simp [Accepted, TIAdd.fields]

theorem wellFormed_thrVext (f : TRLane) : wellFormed (.thrVext f) = true ↔ Accepted [any, no, any, any] [] f.fields := by
  delta wellFormed
  simp [Accepted, TRLane.fields]

theorem wellFormed_thrVbc (f : TRLane) : wellFormed (.thrVbc f) = true ↔ Accepted [no, no, any, any] [] f.fields := by
  delta wellFormed
  simp [Accepted, TRLane.fields, and_comm]

theorem wellFormed_thrPld (f : TM) : wellFormed (.thrPld f) = true ↔ Accepted [any, no, any, any, any] [] f.fields := by
  delta wellFormed
  simp [Accepted, TM.fields]

theorem wellFormed_thrHdr (f : TRLane) : wellFormed (.thrHdr f) = true ↔ Accepted [.lt 11, no, no, any] [] f.fields := by
  delta wellFormed
  simp [Accepted, TRLane.fields, and_comm]

theorem wellFormed_thrBamo (f : TRBamo) : wellFormed (.thrBamo f) = true ↔
    Accepted [.lt 10, no, any, any, any] [] f.fields := by
  delta wellFormed
  simp [Accepted, TRBamo.fields]

theorem wellFormed_thrBr (f : TC) : wellFormed (.thrBr f) = true ↔ Accepted [any, no, no, no] [] f.fields := by
  delta wellFormed
  simp [Accepted, TC.fields, and_comm]

theorem wellFormed_thrBc (f : TC) : wellFormed (.thrBc f) = true ↔ Accepted [any, no, any, .lt 6] [] f.fields := by
  delta wellFormed
  simp [Accepted, TC.fields, and_comm]

theorem wellFormed_thrLoopi (f : TC) : wellFormed (.thrLoopi f) = true ↔ Accepted [any, no, any, any] [] f.fields := by
  delta wellFormed
  simp [Accepted, TC.fields]

theorem wellFormed_thrFwd (f : TC) : wellFormed (.thrFwd f) = true ↔ Accepted [no, no, no, no] [] f.fields := by
  delta wellFormed
  simp [Accepted, TC.fields, and_assoc, and_comm]

theorem wellFormed_thrRedir (f : TC) : wellFormed (.thrRedir f) = true ↔ Accepted [no, no, any, no] [] f.fields := by
  delta wellFormed
  simp [Accepted, TC.fields, and_comm]

/-! ### Every instruction has its row -/

/-- An op whose operands stand in ranges that its row does not know. -/
theorem Coded.of_ranges {α : Type} (F : Format α) {mk : α → Instr} (f : α) {i : Instr} (hi : i = mk f) {slot opc : Nat}
    {us : List Use} {cs : List Cross} (hf : ∀ f, opFields (mk f) = some (slot, opc, F.widths, F.fields f))
    (ht : ∀ f, thrFields (mk f) = none) (hr : opRow slot opc = some ⟨F.widths, us, cs, fun vs => mk (F.ofFields vs)⟩)
    (hb : (slot < 8 ∧ opc < 256 ∧ F.widths.sum = 52) ∧ coversAll F.domain us = true)
    (hw : ∀ f, wellFormed (mk f) = true ↔ Accepted us cs (F.fields f) ∧ repRanges slot opc (F.fields f) = true) : Coded i :=
  .op F f hi hf ht hr hb.1 ⟨rfl, fun _ => rfl, hb.2, hw⟩

theorem Coded.of_op {α : Type} (F : Format α) {mk : α → Instr} (f : α) {i : Instr} (hi : i = mk f) {slot opc : Nat}
    {us : List Use} {cs : List Cross} (hf : ∀ f, opFields (mk f) = some (slot, opc, F.widths, F.fields f))
    (ht : ∀ f, thrFields (mk f) = none) (hr : opRow slot opc = some ⟨F.widths, us, cs, fun vs => mk (F.ofFields vs)⟩)
    (hb : (slot < 8 ∧ opc < 256 ∧ F.widths.sum = 52) ∧ coversAll F.domain us = true)
    (hx : ∀ vs, repRanges slot opc vs = true) (hw : ∀ f, wellFormed (mk f) = true ↔ Accepted us cs (F.fields f)) : Coded i :=
  .of_ranges F f hi hf ht hr hb fun f => (hw f).trans (and_iff_left (hx _)).symm

theorem Coded.of_thr {α : Type} (F : Format α) {mk : α → Instr} (f : α) {i : Instr} (hi : i = mk f) {opc : Nat}
    {us : List Use} {cs : List Cross} (ht : ∀ f, thrFields (mk f) = some (opc, F.widths, F.fields f))
    (hf : ∀ f, opFields (mk f) = none) (hr : thrRow opc = some ⟨F.widths, us, cs, fun vs => mk (F.ofFields vs)⟩)
    (hb : (opc < 64 ∧ F.widths.sum = 26) ∧ coversAll F.domain us = true)
    (hw : ∀ f, wellFormed (mk f) = true ↔ Accepted us cs (F.fields f)) : Coded i :=
  .thr F f hi ht hf hr hb.1 ⟨rfl, fun _ => rfl, hb.2, fun f => (hw f).trans (and_iff_left rfl).symm⟩

/-- Each op word's and each thresher word's instruction has a format, a row, and its form's lemma; the others are events. -/
theorem Instr.coded (i : Instr) : Coded i := by
  cases i with
  | add f | sub f | mul f | mulh f | mulhu f | div f | divu f | rem f | remu f | xor f | shl f | shr f | sra f
  | rotr f | min f | max f | minu f | maxu f | and f | or f =>
    exact .of_op RG.format f rfl (fun _ => rfl) (fun _ => rfl) rfl (by decide) (fun _ => rfl) wellFormed_add
  | addi f | andi f | ori f | xori f =>
    exact .of_op IM.format f rfl (fun _ => rfl) (fun _ => rfl) rfl (by decide) (fun _ => rfl) wellFormed_addi
  | shli f | shri f | srai f =>
    exact .of_op IM.format f rfl (fun _ => rfl) (fun _ => rfl) rfl (by decide) (fun _ => rfl) wellFormed_shli
  | clz f | popc f | jmpx f =>
    exact .of_op RG.format f rfl (fun _ => rfl) (fun _ => rfl) rfl (by decide) (fun _ => rfl) wellFormed_clz
  | cmp f =>
    exact .of_op RG.format f rfl (fun _ => rfl) (fun _ => rfl) rfl (by decide) (fun _ => rfl) wellFormed_cmp
  | sel f =>
    exact .of_op RG.format f rfl (fun _ => rfl) (fun _ => rfl) rfl (by decide) (fun _ => rfl) wellFormed_sel
  | extr f | insr f =>
    exact .of_op RG.format f rfl (fun _ => rfl) (fun _ => rfl) rfl (by decide) (fun _ => rfl) wellFormed_extr
  | movi f =>
    exact .of_op MW.format f rfl (fun _ => rfl) (fun _ => rfl) rfl (by decide) (fun _ => rfl) wellFormed_movi
  | movhi f =>
    exact .of_op MW.format f rfl (fun _ => rfl) (fun _ => rfl) rfl (by decide) (fun _ => rfl) wellFormed_movhi
  | fadd f | fsub f | fmul f | fmin f | fmax f =>
    exact .of_op RG.format f rfl (fun _ => rfl) (fun _ => rfl) rfl (by decide) (fun _ => rfl) wellFormed_fadd
  | ffma f =>
    exact .of_op RG.format f rfl (fun _ => rfl) (fun _ => rfl) rfl (by decide) (fun _ => rfl) wellFormed_ffma
  | fcmp f =>
    exact .of_op RG.format f rfl (fun _ => rfl) (fun _ => rfl) rfl (by decide) (fun _ => rfl) wellFormed_fcmp
  | fcvt f =>
    exact .of_op RG.format f rfl (fun _ => rfl) (fun _ => rfl) rfl (by decide) (fun _ => rfl) wellFormed_fcvt
  | br f =>
    exact .of_op BRF.format f rfl (fun _ => rfl) (fun _ => rfl) rfl (by decide) (fun _ => rfl) wellFormed_br
  | bc f =>
    exact .of_op BRF.format f rfl (fun _ => rfl) (fun _ => rfl) rfl (by decide) (fun _ => rfl) wellFormed_bc
  | brl f | call f =>
    exact .of_op BRF.format f rfl (fun _ => rfl) (fun _ => rfl) rfl (by decide) (fun _ => rfl) wellFormed_brl
  | ret f =>
    exact .of_op RG.format f rfl (fun _ => rfl) (fun _ => rfl) rfl (by decide) (fun _ => rfl) wellFormed_ret
  | rep f =>
    exact .of_ranges RP.format f rfl (fun _ => rfl) (fun _ => rfl) rfl (by decide) wellFormed_rep
  | loopb f =>
    exact .of_ranges RP.format f rfl (fun _ => rfl) (fun _ => rfl) rfl (by decide) wellFormed_loopb
  | vadd f | vsub f | vmul f | vmin f | vmax f =>
    exact .of_op RG.format f rfl (fun _ => rfl) (fun _ => rfl) rfl (by decide) (fun _ => rfl) wellFormed_vadd
  | vadds f | vsubs f | vmulh f | vmulw f | vand f | vor f | vxor f | vshl f | vshr f | vsra f =>
    exact .of_op RG.format f rfl (fun _ => rfl) (fun _ => rfl) rfl (by decide) (fun _ => rfl) wellFormed_vadds
  | vmacw f =>
    exact .of_op RG.format f rfl (fun _ => rfl) (fun _ => rfl) rfl (by decide) (fun _ => rfl) wellFormed_vmacw
  | vfma f | vfms f =>
    exact .of_op RG.format f rfl (fun _ => rfl) (fun _ => rfl) rfl (by decide) (fun _ => rfl) wellFormed_vfma
  | vneg f | vabs f =>
    exact .of_op RG.format f rfl (fun _ => rfl) (fun _ => rfl) rfl (by decide) (fun _ => rfl) wellFormed_vneg
  | vnot f =>
    exact .of_op RG.format f rfl (fun _ => rfl) (fun _ => rfl) rfl (by decide) (fun _ => rfl) wellFormed_vnot
  | vcmp f =>
    exact .of_op RG.format f rfl (fun _ => rfl) (fun _ => rfl) rfl (by decide) (fun _ => rfl) wellFormed_vcmp
  | vsel f =>
    exact .of_op RG.format f rfl (fun _ => rfl) (fun _ => rfl) rfl (by decide) (fun _ => rfl) wellFormed_vsel
  | vrcp f | vrsq f | vsqrt f | vexp2 f | vlog2 f =>
    exact .of_op RG.format f rfl (fun _ => rfl) (fun _ => rfl) rfl (by decide) (fun _ => rfl) wellFormed_vrcp
  | vcvt f =>
    exact .of_op RG.format f rfl (fun _ => rfl) (fun _ => rfl) rfl (by decide) (fun _ => rfl) wellFormed_vcvt
  | vredadd f | vredmax f | vredmin f =>
    exact .of_op RG.format f rfl (fun _ => rfl) (fun _ => rfl) rfl (by decide) (fun _ => rfl) wellFormed_vredadd
  | vbcast f | vslide f =>
    exact .of_op RG.format f rfl (fun _ => rfl) (fun _ => rfl) rfl (by decide) (fun _ => rfl) wellFormed_vbcast
  | vext f =>
    exact .of_op RG.format f rfl (fun _ => rfl) (fun _ => rfl) rfl (by decide) (fun _ => rfl) wellFormed_vext
  | vins f =>
    exact .of_op RG.format f rfl (fun _ => rfl) (fun _ => rfl) rfl (by decide) (fun _ => rfl) wellFormed_vins
  | vperm f =>
    exact .of_op RG.format f rfl (fun _ => rfl) (fun _ => rfl) rfl (by decide) (fun _ => rfl) wellFormed_vperm
  | viota f =>
    exact .of_op RG.format f rfl (fun _ => rfl) (fun _ => rfl) rfl (by decide) (fun _ => rfl) wellFormed_viota
  | vmov f =>
    exact .of_op RG.format f rfl (fun _ => rfl) (fun _ => rfl) rfl (by decide) (fun _ => rfl) wellFormed_vmov
  | vmovi f =>
    exact .of_op VI.format f rfl (fun _ => rfl) (fun _ => rfl) rfl (by decide) (fun _ => rfl) wellFormed_vmovi
  | vpacksx f =>
    exact .of_op RG.format f rfl (fun _ => rfl) (fun _ => rfl) rfl (by decide) (fun _ => rfl) wellFormed_vpacksx
  | vunpksx f =>
    exact .of_op RG.format f rfl (fun _ => rfl) (fun _ => rfl) rfl (by decide) (fun _ => rfl) wellFormed_vunpksx
  | pand f | por f | pxor f =>
    exact .of_op RG.format f rfl (fun _ => rfl) (fun _ => rfl) rfl (by decide) (fun _ => rfl) wellFormed_pand
  | pnot f | pmov f =>
    exact .of_op RG.format f rfl (fun _ => rfl) (fun _ => rfl) rfl (by decide) (fun _ => rfl) wellFormed_pnot
  | plen f =>
    exact .of_op RG.format f rfl (fun _ => rfl) (fun _ => rfl) rfl (by decide) (fun _ => rfl) wellFormed_plen
  | pset f =>
    exact .of_op RG.format f rfl (fun _ => rfl) (fun _ => rfl) rfl (by decide) (fun _ => rfl) wellFormed_pset
  | pcnt f =>
    exact .of_op RG.format f rfl (fun _ => rfl) (fun _ => rfl) rfl (by decide) (fun _ => rfl) wellFormed_pcnt
  | mma f =>
    exact .of_op MM.format f rfl (fun _ => rfl) (fun _ => rfl) rfl (by decide) (fun _ => rfl) wellFormed_mma
  | mzero f =>
    exact .of_op MX.format f rfl (fun _ => rfl) (fun _ => rfl) rfl (by decide) (fun _ => rfl) wellFormed_mzero
  | mdrain f =>
    exact .of_op MX.format f rfl (fun _ => rfl) (fun _ => rfl) rfl (by decide) (fun _ => rfl) wellFormed_mdrain
  | maccld f | maccst f =>
    exact .of_op MX.format f rfl (fun _ => rfl) (fun _ => rfl) rfl (by decide) (fun _ => rfl) wellFormed_maccld
  | epld f =>
    exact .of_op MXE.format f rfl (fun _ => rfl) (fun _ => rfl) rfl (by decide) (fun _ => rfl) wellFormed_epld
  | ld f =>
    exact .of_op MS.format f rfl (fun _ => rfl) (fun _ => rfl) rfl (by decide) (fun _ => rfl) wellFormed_ld
  | fld f =>
    exact .of_op MS.format f rfl (fun _ => rfl) (fun _ => rfl) rfl (by decide) (fun _ => rfl) wellFormed_fld
  | st f =>
    exact .of_op MS.format f rfl (fun _ => rfl) (fun _ => rfl) rfl (by decide) (fun _ => rfl) wellFormed_st
  | fst f =>
    exact .of_op MS.format f rfl (fun _ => rfl) (fun _ => rfl) rfl (by decide) (fun _ => rfl) wellFormed_fst
  | vld f =>
    exact .of_op MV.format f rfl (fun _ => rfl) (fun _ => rfl) rfl (by decide) (fun _ => rfl) wellFormed_vld
  | vfld f =>
    exact .of_op MV.format f rfl (fun _ => rfl) (fun _ => rfl) rfl (by decide) (fun _ => rfl) wellFormed_vfld
  | vst f =>
    exact .of_op MV.format f rfl (fun _ => rfl) (fun _ => rfl) rfl (by decide) (fun _ => rfl) wellFormed_vst
  | vfst f =>
    exact .of_op MV.format f rfl (fun _ => rfl) (fun _ => rfl) rfl (by decide) (fun _ => rfl) wellFormed_vfst
  | vlds f | vldx f =>
    exact .of_op MVX.format f rfl (fun _ => rfl) (fun _ => rfl) rfl (by decide) (fun _ => rfl) wellFormed_vlds
  | vsts f | vstx f =>
    exact .of_op MVX.format f rfl (fun _ => rfl) (fun _ => rfl) rfl (by decide) (fun _ => rfl) wellFormed_vsts
  | lsfmt f =>
    exact .of_op LF.format f rfl (fun _ => rfl) (fun _ => rfl) rfl (by decide) (fun _ => rfl) wellFormed_lsfmt
  | copy f =>
    exact .of_op EACopy.format f rfl (fun _ => rfl) (fun _ => rfl) rfl (by decide) (fun _ => rfl) wellFormed_copy
  | copya f =>
    exact .of_op EA.format f rfl (fun _ => rfl) (fun _ => rfl) rfl (by decide) (fun _ => rfl) wellFormed_copya
  | strb f =>
    exact .of_op EAStrb.format f rfl (fun _ => rfl) (fun _ => rfl) rfl (by decide) (fun _ => rfl) wellFormed_strb
  | stru f | retire f | chcommit f =>
    exact .of_op EA.format f rfl (fun _ => rfl) (fun _ => rfl) rfl (by decide) (fun _ => rfl) wellFormed_stru
  | pusht f =>
    exact .of_op EAPush.format f rfl (fun _ => rfl) (fun _ => rfl) rfl (by decide) (fun _ => rfl) wellFormed_pusht
  | popt f | splitr f | joinr f =>
    exact .of_op EA.format f rfl (fun _ => rfl) (fun _ => rfl) rfl (by decide) (fun _ => rfl) wellFormed_popt
  | markr f =>
    exact .of_op EA.format f rfl (fun _ => rfl) (fun _ => rfl) rfl (by decide) (fun _ => rfl) wellFormed_markr
  | rickq f =>
    exact .of_op EA.format f rfl (fun _ => rfl) (fun _ => rfl) rfl (by decide) (fun _ => rfl) wellFormed_rickq
  | amo f =>
    exact .of_op EAAmo.format f rfl (fun _ => rfl) (fun _ => rfl) rfl (by decide) (fun _ => rfl) wellFormed_amo
  | red f =>
    exact .of_op EARed.format f rfl (fun _ => rfl) (fun _ => rfl) rfl (by decide) (fun _ => rfl) wellFormed_red
  | popq f =>
    exact .of_op EA.format f rfl (fun _ => rfl) (fun _ => rfl) rfl (by decide) (fun _ => rfl) wellFormed_popq
  | claim f =>
    exact .of_op EAClaim.format f rfl (fun _ => rfl) (fun _ => rfl) rfl (by decide) (fun _ => rfl) wellFormed_claim
  | resolve f =>
    exact .of_op EAClaim.format f rfl (fun _ => rfl) (fun _ => rfl) rfl (by decide) (fun _ => rfl) wellFormed_resolve
  | qclaim f =>
    exact .of_op EA.format f rfl (fun _ => rfl) (fun _ => rfl) rfl (by decide) (fun _ => rfl) wellFormed_qclaim
  | casn f =>
    exact .of_op EACasn.format f rfl (fun _ => rfl) (fun _ => rfl) rfl (by decide) (fun _ => rfl) wellFormed_casn
  | chopen f =>
    exact .of_op EA.format f rfl (fun _ => rfl) (fun _ => rfl) rfl (by decide) (fun _ => rfl) wellFormed_chopen
  | send f | recv f | coll f =>
    exact .of_op EA.format f rfl (fun _ => rfl) (fun _ => rfl) rfl (by decide) (fun _ => rfl) wellFormed_send
  | ctl f | exit f | yield f | rett f | lsstep f =>
    exact .of_op CG.format f rfl (fun _ => rfl) (fun _ => rfl) rfl (by decide) (fun _ => rfl) wellFormed_ctl
  | fence f =>
    exact .of_op CGFence.format f rfl (fun _ => rfl) (fun _ => rfl) rfl (by decide) (fun _ => rfl) wellFormed_fence
  | barg f | joing f | leaveg f =>
    exact .of_op CG.format f rfl (fun _ => rfl) (fun _ => rfl) rfl (by decide) (fun _ => rfl) wellFormed_barg
  | spawn f =>
    exact .of_op CG.format f rfl (fun _ => rfl) (fun _ => rfl) rfl (by decide) (fun _ => rfl) wellFormed_spawn
  | susp f =>
    exact .of_op CG.format f rfl (fun _ => rfl) (fun _ => rfl) rfl (by decide) (fun _ => rfl) wellFormed_susp
  | nextt f | rdeng f | rdcyc f =>
    exact .of_op CG.format f rfl (fun _ => rfl) (fun _ => rfl) rfl (by decide) (fun _ => rfl) wellFormed_nextt
  | trap f =>
    exact .of_op CGCode.format f rfl (fun _ => rfl) (fun _ => rfl) rfl (by decide) (fun _ => rfl) wellFormed_trap
  | svc f =>
    exact .of_op CGCode.format f rfl (fun _ => rfl) (fun _ => rfl) rfl (by decide) (fun _ => rfl) wellFormed_svc
  | tstpsn f =>
    exact .of_op CG.format f rfl (fun _ => rfl) (fun _ => rfl) rfl (by decide) (fun _ => rfl) wellFormed_tstpsn
  | rdsr f =>
    exact .of_op CGSr.format f rfl (fun _ => rfl) (fun _ => rfl) rfl (by decide) (fun _ => rfl) wellFormed_rdsr
  | wrsr f =>
    exact .of_op CGSr.format f rfl (fun _ => rfl) (fun _ => rfl) rfl (by decide) (fun _ => rfl) wellFormed_wrsr
  | bkpt f =>
    exact .of_op CGSr.format f rfl (fun _ => rfl) (fun _ => rfl) rfl (by decide) (fun _ => rfl) wellFormed_bkpt
  | thrAdd f | thrSub f | thrMul f | thrMin f | thrMax f =>
    exact .of_thr TR.format f rfl (fun _ => rfl) (fun _ => rfl) rfl (by decide) wellFormed_thrAdd
  | thrFma f =>
    exact .of_thr TR.format f rfl (fun _ => rfl) (fun _ => rfl) rfl (by decide) wellFormed_thrFma
  | thrAbs f | thrNeg f =>
    exact .of_thr TR.format f rfl (fun _ => rfl) (fun _ => rfl) rfl (by decide) wellFormed_thrAbs
  | thrAnd f | thrOr f | thrXor f | thrShl f | thrShr f | thrSra f | thrAdds f =>
    exact .of_thr TR.format f rfl (fun _ => rfl) (fun _ => rfl) rfl (by decide) wellFormed_thrAnd
  | thrCmp f =>
    exact .of_thr TRCmp.format f rfl (fun _ => rfl) (fun _ => rfl) rfl (by decide) wellFormed_thrCmp
  | thrSel f =>
    exact .of_thr TR.format f rfl (fun _ => rfl) (fun _ => rfl) rfl (by decide) wellFormed_thrSel
  | thrCvt f =>
    exact .of_thr TRCvt.format f rfl (fun _ => rfl) (fun _ => rfl) rfl (by decide) wellFormed_thrCvt
  | thrEx2 f | thrLg2 f =>
    exact .of_thr TR.format f rfl (fun _ => rfl) (fun _ => rfl) rfl (by decide) wellFormed_thrEx2
  | thrMovi f =>
    exact .of_thr TIMov.format f rfl (fun _ => rfl) (fun _ => rfl) rfl (by decide) wellFormed_thrMovi
  | thrAddi f =>
    exact .of_thr TIAdd.format f rfl (fun _ => rfl) (fun _ => rfl) rfl (by decide) wellFormed_thrAddi
  | thrVext f =>
    exact .of_thr TRLane.format f rfl (fun _ => rfl) (fun _ => rfl) rfl (by decide) wellFormed_thrVext
  | thrVbc f =>
    exact .of_thr TRLane.format f rfl (fun _ => rfl) (fun _ => rfl) rfl (by decide) wellFormed_thrVbc
  | thrPld f | thrPst f | thrBld f | thrBst f =>
    exact .of_thr TM.format f rfl (fun _ => rfl) (fun _ => rfl) rfl (by decide) wellFormed_thrPld
  | thrHdr f =>
    exact .of_thr TRLane.format f rfl (fun _ => rfl) (fun _ => rfl) rfl (by decide) wellFormed_thrHdr
  | thrBamo f =>
    exact .of_thr TRBamo.format f rfl (fun _ => rfl) (fun _ => rfl) rfl (by decide) wellFormed_thrBamo
  | thrBr f | thrTrap f =>
    exact .of_thr TC.format f rfl (fun _ => rfl) (fun _ => rfl) rfl (by decide) wellFormed_thrBr
  | thrBc f =>
    exact .of_thr TC.format f rfl (fun _ => rfl) (fun _ => rfl) rfl (by decide) wellFormed_thrBc
  | thrLoopi f =>
    exact .of_thr TC.format f rfl (fun _ => rfl) (fun _ => rfl) rfl (by decide) wellFormed_thrLoopi
  | thrFwd f | thrDrop f | thrEnd f =>
    exact .of_thr TC.format f rfl (fun _ => rfl) (fun _ => rfl) rfl (by decide) wellFormed_thrFwd
  | thrRedir f =>
    exact .of_thr TC.format f rfl (fun _ => rfl) (fun _ => rfl) rfl (by decide) wellFormed_thrRedir
  | _ => exact .event rfl rfl

end Sys2Proof
end

section
/-! Decode and encode (R87 to R97, R429 to R431). -/
open Sys2Proof

namespace Sys2Proof

/-! ### Words by their slot, opcode and fields -/

theorem wordSlot_lt (w : Nat) : wordSlot w < 8 := Nat.mod_lt _ (by decide)

theorem wordOpc_lt (w : Nat) : wordOpc w < 256 := Nat.mod_lt _ (by decide)

theorem encode_op {i : Instr} {slot opc : Nat} {ws vs : List Nat} (ht : thrFields i = none)
    (ho : opFields i = some (slot, opc, ws, vs)) : encode i = [pack ws vs + 2 ^ 52 * opc + 2 ^ 60 * slot + 2 ^ 63] := by
  simp [encode, ht, ho, encodeOp]

theorem encode_thr {i : Instr} {opc : Nat} {ws vs : List Nat} (ht : thrFields i = some (opc, ws, vs)) :
    encode i = [pack ws vs + 2 ^ 26 * opc] := by
  simp [encode, ht, encodeThr]

/-- The slot, the opcode and the fields of an op word. -/
theorem op_word {x slot opc w : Nat} (hx : x < 2 ^ 52) (ho : opc < 256) (hs : slot < 8)
    (hw : w = x + 2 ^ 52 * opc + 2 ^ 60 * slot + 2 ^ 63) :
    w < 2 ^ 64 ∧ wordSlot w = slot ∧ wordOpc w = opc ∧ w % 2 ^ 52 = x := by
  simp only [wordSlot, wordOpc]; omega

/-- An op word with STOP, put together again, with VA's slot for VB's. -/
theorem op_word_eq (w : Nat) : w % 2 ^ 52 + 2 ^ 52 * wordOpc w + 2 ^ 60 * slotVA (wordSlot w) + 2 ^ 63 =
    if wordSlot w = 2 then w % 2 ^ 60 + 2 ^ 60 + 2 ^ 63 else w % 2 ^ 63 + 2 ^ 63 := by
  simp only [slotVA]
  split <;> simp only [wordSlot, wordOpc] at * <;> omega

/-- The op word of fields that their row accepts decodes to what the row builds of them. -/
theorem decodeTableWord_op_pack {slot opc : Nat} {r : OpRow} {vs : List Nat} (hr : opRow slot opc = some r) (hs : slot < 8)
    (ho : opc < 256) (hsum : r.widths.sum = 52) (hf : Fits r.widths vs) (ha : Accepted r.uses r.cross vs)
    (hx : repRanges slot opc vs = true) :
    ∃ w, w = pack r.widths vs + 2 ^ 52 * opc + 2 ^ 60 * slot + 2 ^ 63 ∧ w < 2 ^ 64 ∧
      decodeTableWord 64 w = some (r.build vs) := by
  obtain ⟨h64, hslot, hopc, hfields⟩ := op_word (hsum ▸ pack_lt hf) ho hs rfl
  refine ⟨_, rfl, h64, (decodeTableWord_op h64).mpr ⟨r, ?_⟩⟩
  rw [hslot, hopc, hfields, unpack_pack hf]
  exact ⟨hr, ha, hx, rfl⟩

/-- The thresher word of fields that their row accepts decodes to what the row builds of them. -/
theorem decodeTableWord_thr_pack {opc : Nat} {r : OpRow} {vs : List Nat} (hr : thrRow opc = some r) (ho : opc < 64)
    (hsum : r.widths.sum = 26) (hf : Fits r.widths vs) (ha : Accepted r.uses r.cross vs) :
    ∃ w, w = pack r.widths vs + 2 ^ 26 * opc ∧ w < 2 ^ 32 ∧ decodeTableWord 32 w = some (r.build vs) := by
  have hp : pack r.widths vs < 2 ^ 26 := hsum ▸ pack_lt hf
  have h32 : pack r.widths vs + 2 ^ 26 * opc < 2 ^ 32 := by omega
  have hopc : (pack r.widths vs + 2 ^ 26 * opc) / 2 ^ 26 % 64 = opc := by omega
  have hfields : (pack r.widths vs + 2 ^ 26 * opc) % 2 ^ 26 = pack r.widths vs := by omega
  refine ⟨_, rfl, h32, (decodeTableWord_thr h32).mpr (decodeThr_ok.mpr ⟨r, ?_⟩)⟩
  rw [hopc, hfields, unpack_pack hf]
  exact ⟨hr, ha, rfl⟩

/-! ### The rows by their instructions -/

/-- A row of the opcode map builds the instructions of one format, encoded in its own slot and opcode. -/
theorem opRow_coded {slot opc : Nat} {r : OpRow} (hs : slot < 8) (ho : opc < 256) (h : opRow slot opc = some r) :
    ∃ (α : Type) (F : Format α) (mk : α → Instr), Codes F mk r (repRanges slot opc) ∧ F.widths.sum = 52 ∧
      ∀ f, opFields (mk f) = some (slotVA slot, opc, F.widths, F.fields f) ∧ thrFields (mk f) = none := by
  have hb := opRow_build slot hs opc ho r h
  have hva : opRow (slotVA slot) opc = opRow slot opc ∧ repRanges (slotVA slot) opc = repRanges slot opc := by
    rw [slotVA]; split
    · subst slot; exact ⟨rfl, rfl⟩
    · exact ⟨rfl, rfl⟩
  cases (r.build []).coded with
  | @op α F mk f hi slot' opc' r' hf ht hr hsum hc =>
    rw [hi, hf] at hb
    simp only [Option.map_some, Option.some.injEq, Prod.mk.injEq] at hb
    obtain ⟨rfl, rfl⟩ := hb
    rw [hva.1, h] at hr
    cases hr
    exact ⟨α, F, mk, hva.2 ▸ hc, hsum.2.2, fun f => ⟨hf f, ht f⟩⟩
  | thr F f hi ht hf => rw [hi, hf] at hb; cases hb
  | event hf ht => rw [hf] at hb; cases hb

theorem thrRow_coded {opc : Nat} {r : OpRow} (ho : opc < 64) (h : thrRow opc = some r) :
    ∃ (α : Type) (F : Format α) (mk : α → Instr), Codes F mk r (fun _ => true) ∧ F.widths.sum = 26 ∧
      ∀ f, thrFields (mk f) = some (opc, F.widths, F.fields f) := by
  have hb := thrRow_build opc ho r h
  cases (r.build []).coded with
  | op F f hi hf ht => rw [hi, ht] at hb; cases hb
  | @thr α F mk f hi opc' r' ht hf hr hsum hc =>
    rw [hi, ht] at hb
    simp only [Option.map_some, Option.some.injEq] at hb
    subst hb
    rw [h] at hr
    cases hr
    exact ⟨α, F, mk, hc, hsum.2, ht⟩
  | event hf ht => rw [ht] at hb; cases hb

/-! ### A decoded word is well formed and its instruction's own -/

theorem encode_of_decode_op {w : Nat} {i : Instr} (hw : w < 2 ^ 64) (h : decodeTableWord 64 w = some i) :
    wellFormed i = true ∧
      encode i = [if wordSlot w = 2 then w % 2 ^ 60 + 2 ^ 60 + 2 ^ 63 else w % 2 ^ 63 + 2 ^ 63] := by
  obtain ⟨r, hr, ha, hx, rfl⟩ := (decodeTableWord_op hw).mp h
  obtain ⟨α, F, mk, hc, hsum, hf⟩ := opRow_coded (wordSlot_lt w) (wordOpc_lt w) hr
  obtain ⟨hwf, hv⟩ := hc.of_accepted (hc.widths ▸ fits_unpack _ _) ha hx
  obtain ⟨ho, ht⟩ := hf (F.ofFields (unpack r.widths (w % 2 ^ 52)))
  refine ⟨hwf, ?_⟩
  rw [hc.build, encode_op ht ho, hv, hc.widths, pack_unpack, hsum, Nat.mod_mod, op_word_eq]

theorem encode_of_decode_thr {w : Nat} {i : Instr} (hw : w < 2 ^ 32) (h : decodeTableWord 32 w = some i) :
    wellFormed i = true ∧ encode i = [w] := by
  obtain ⟨r, hr, ha, rfl⟩ := decodeThr_ok.mp ((decodeTableWord_thr hw).mp h)
  obtain ⟨α, F, mk, hc, hsum, ht⟩ := thrRow_coded (Nat.mod_lt _ (by decide)) hr
  obtain ⟨hwf, hv⟩ := hc.of_accepted (hc.widths ▸ fits_unpack _ _) ha rfl
  refine ⟨hwf, ?_⟩
  rw [hc.build, encode_thr (ht _), hv, hc.widths, pack_unpack, hsum, Nat.mod_mod]
  congr 1
  omega

/-! ### The obligations -/

/-- Settles O4: an instruction's fields fit and its row accepts them, so its word unpacks to them and the row builds it again. -/
theorem decodeEncode : Obligations.DecodeEncode := by
  unfold Obligations.DecodeEncode
  intro i hw
  cases i.coded with
  | @op α F mk f hi slot opc r hf ht hr hb hc =>
    subst hi
    obtain ⟨hs, ho, hsum⟩ := hb
    obtain ⟨hfit, ha, hx, hbuild⟩ := hc.of_wellFormed hw
    rw [← hc.widths] at hfit hsum
    obtain ⟨w, hwd, h64, hd⟩ := decodeTableWord_op_pack hr hs ho hsum hfit ha hx
    have he : encode (mk f) = [w] := by rw [hwd, hc.widths]; exact encode_op (ht f) (hf f)
    simp only [ht, hf, Option.isSome_none, Option.isSome_some]
    exact ⟨fun _ => ⟨w, he, h64, hbuild ▸ hd⟩, by simp⟩
  | @thr α F mk f hi opc r ht hf hr hb hc =>
    subst hi
    obtain ⟨ho, hsum⟩ := hb
    obtain ⟨hfit, ha, -, hbuild⟩ := hc.of_wellFormed hw
    rw [← hc.widths] at hfit hsum
    obtain ⟨w, hwd, h32, hd⟩ := decodeTableWord_thr_pack hr ho hsum hfit ha
    have he : encode (mk f) = [w] := by rw [hwd, hc.widths]; exact encode_thr (ht f)
    simp only [ht, hf, Option.isSome_none, Option.isSome_some]
    exact ⟨fun _ => ⟨w, he, h32, hbuild ▸ hd⟩, by simp⟩
  | event hf ht => simp [ht, hf, encode]

/-- Settles O5: the row that decodes a word accepts its fields, and they are those of the instruction that it builds. -/
theorem encodeDecode : Obligations.EncodeDecode := by
  unfold Obligations.EncodeDecode
  exact fun w i => ⟨encode_of_decode_op, encode_of_decode_thr⟩

/-- Settles O3: fixed words, decoded one by one. -/
theorem wordsDecode : Obligations.WordsDecode := by
  unfold Obligations.WordsDecode
  decide +kernel

end Sys2Proof
end

section
/-! The scalar integer ops and their values (R110 to R115). -/
open Sys2Proof Sys2Proof.Machine Sys2Proof.Claims

namespace Sys2Proof.Machine

/-! ### The forms of the scalar ops -/

/-- An op of two X sources sends the value that `op` gives. -/
theorem sendsX_scalar2 {i : Instr} {f : RG} {s : State} {lat : Nat} {op : X64 → X64 → X64} {P : X64 → Prop}
    (hi : exec i s = scalar2 f lat op s) (h : P (op (s.rdX f.a) (s.rdX f.b))) :
    SendsX i s f.d lat (s.poisonX f.a || s.poisonX f.b) P := ⟨_, h, hi⟩

theorem sendsX_scalar1 {i : Instr} {f : RG} {s : State} {lat : Nat} {op : X64 → X64} {P : X64 → Prop}
    (hi : exec i s = scalar1 f lat op s) (h : P (op (s.rdX f.a))) : SendsX i s f.d lat (s.poisonX f.a) P := ⟨_, h, hi⟩

/-- The immediate form sends the value of the same `op` on IMM (R111). -/
theorem sendsX_scalarImm {i : Instr} {f : IM} {s : State} {op : X64 → X64 → X64} {P : X64 → Prop}
    (hi : exec i s = scalarImm f op s) (h : P (op (s.rdX f.a) (f.imm.signExtend 64))) :
    SendsX i s f.d 1 (s.poisonX f.a) P := ⟨_, h, hi⟩

/-! ### Shifts and rotation (R111) -/

theorem shlX_toNat (a b : X64) : (shlX a b).toNat = a.toNat * 2 ^ (b.toNat % 64) % 2 ^ 64 := by
  rw [shlX, BitVec.toNat_shiftLeft, Nat.shiftLeft_eq]

theorem shrX_toNat (a b : X64) : (shrX a b).toNat = a.toNat / 2 ^ (b.toNat % 64) := by
  rw [shrX, BitVec.toNat_ushiftRight, Nat.shiftRight_eq_div_pow]

theorem sraX_toInt (a b : X64) : (sraX a b).toInt = a.toInt / 2 ^ (b.toNat % 64) := by
  rw [sraX, BitVec.toInt_sshiftRight, Int.shiftRight_eq_div_pow]; norm_cast

theorem rotrX_getLsbD (a b : X64) {k : Nat} (hk : k < 64) :
    (rotrX a b).getLsbD k = a.getLsbD ((k + b.toNat % 64) % 64) := by
  have hr : b.toNat % 64 < 64 := Nat.mod_lt _ (by decide)
  rw [rotrX, BitVec.getLsbD_rotateRight, Nat.mod_eq_of_lt hr]
  generalize b.toNat % 64 = r at hr ⊢
  by_cases h : k < 64 - r
  · rw [decide_eq_true h, cond_true, Nat.mod_eq_of_lt (by omega), Nat.add_comm]
  · rw [decide_eq_false h, cond_false, decide_eq_true hk, Bool.true_and, show (k + r) % 64 = k - (64 - r) by omega]

/-- A shift count within 6 bits is itself, sign-extended from IMM or not. -/
theorem signExtend_count {m : BitVec 40} (h : m.toNat < 64) : (m.signExtend 64).toNat % 64 = m.toNat := by
  have hm : m.msb = false := by rw [BitVec.msb_eq_false_iff_two_mul_lt]; omega
  rw [BitVec.toNat_signExtend, hm, BitVec.toNat_setWidth, if_neg Bool.false_ne_true]; omega

/-- A bit of IMM sign-extended: bit 39 and all above are its sign. -/
theorem signExtend_getLsbD (m : BitVec 40) {k : Nat} (hk : k < 64) :
    (m.signExtend 64).getLsbD k = m.getLsbD (min k 39) := by
  rw [BitVec.getLsbD_signExtend, decide_eq_true hk, Bool.true_and]
  split
  · congr 1; omega
  · rw [BitVec.msb_eq_getLsbD_last]; congr 1; omega

/-! ### The smaller and the larger (R111) -/

theorem minX_toInt (a b : X64) : (minX a b).toInt = min a.toInt b.toInt := by
  simp only [minX, BitVec.slt_iff_toInt_lt]; split <;> omega

theorem maxX_toInt (a b : X64) : (maxX a b).toInt = max a.toInt b.toInt := by
  simp only [maxX, BitVec.slt_iff_toInt_lt]; split <;> omega

theorem minuX_toNat (a b : X64) : (minuX a b).toNat = min a.toNat b.toNat := by
  simp only [minuX, BitVec.lt_def]; split <;> omega

theorem maxuX_toNat (a b : X64) : (maxuX a b).toNat = max a.toNat b.toNat := by
  simp only [maxuX, BitVec.lt_def]; split <;> omega

/-! ### Bit fields (R114, R115) -/

/-- A run of `n` ones from bit `pos` up. -/
theorem testBit_ones_mul (n pos k : Nat) : ((2 ^ n - 1) * 2 ^ pos).testBit k = (decide (pos ≤ k) && decide (k - pos < n)) := by
  rw [Nat.testBit_mul_two_pow, Nat.testBit_two_pow_sub_one]

/-- INSR replaces a field and keeps the bits around it. -/
theorem insrX_getLsbD (old a : X64) (pos w1 : Nat) {k : Nat} (hk : k < 64) :
    (insrX old a pos w1).getLsbD k = if pos ≤ k ∧ k ≤ pos + w1 then a.getLsbD (k - pos) else old.getLsbD k := by
  have hm : ((BitVec.ofNat 64 ((2 ^ (w1 + 1) - 1) * 2 ^ pos)) : X64).getLsbD k = decide (pos ≤ k ∧ k ≤ pos + w1) := by
    rw [BitVec.getLsbD_ofNat, testBit_ones_mul, decide_eq_true hk, Bool.true_and, Bool.decide_and]
    by_cases hp : pos ≤ k <;> simp [hp]; omega
  simp only [insrX, BitVec.getLsbD_or, BitVec.getLsbD_and, BitVec.getLsbD_not, BitVec.getLsbD_shiftLeft, hm, hk, decide_true,
    Bool.true_and]
  by_cases h : pos ≤ k ∧ k ≤ pos + w1
  · simp [h, show ¬ k < pos by omega]
  · simp [h]

theorem extrX_getLsbD (a : X64) {pos w1 : Nat} (h : pos + w1 + 1 ≤ 64) (k : Nat) :
    (extrX a pos w1).getLsbD k = (decide (k ≤ w1) && a.getLsbD (pos + k)) := by
  rw [extrX, BitVec.getLsbD_ofNat, Nat.testBit_mod_two_pow, Nat.testBit_div_two_pow, BitVec.getLsbD, Nat.add_comm pos]
  by_cases hk : k ≤ w1
  · simp [hk, show k < 64 by omega, show k < w1 + 1 by omega]
  · simp [hk]

/-- MOVHI writes IMM's low 18 bits to bits 63:46. -/
theorem movhi_getLsbD (old : X64) (m : BitVec 46) {k : Nat} (hk : k < 64) :
    (insrX old (m.zeroExtend 64) 46 17).getLsbD k = if 46 ≤ k then m.getLsbD (k - 46) else old.getLsbD k := by
  rw [insrX_getLsbD _ _ _ _ hk]
  by_cases h : 46 ≤ k
  · simp [h, show k ≤ 46 + 17 by omega, BitVec.zeroExtend, show k - 46 < 64 by omega]
  · simp [h]

/-! ### The obligation -/

/-- Settles O9: every op has the form of two sources, of an immediate or of a move, and its value is the one above. -/
theorem scalarIntegers : Obligations.ScalarIntegers := by
  unfold Obligations.ScalarIntegers
  refine ⟨fun f s => ⟨?_, ?_, ?_, ?_, ?_, ?_, ?_, ?_, ?_, ?_, ?_, ?_, ?_⟩, fun f s => ⟨?_, ?_, ?_, ?_, fun h => ?_⟩, fun f s => ⟨?_, ?_⟩⟩
  · exact sendsX_scalar2 (op := (· + ·)) rfl (BitVec.toNat_add _ _)
  · exact sendsX_scalar2 (op := (· - ·)) rfl BitVec.toInt_sub
  · exact sendsX_scalar2 (op := (· &&& ·)) rfl (fun k => BitVec.getLsbD_and)
  · exact sendsX_scalar2 (op := (· ||| ·)) rfl (fun k => BitVec.getLsbD_or)
  · exact sendsX_scalar2 (op := (· ^^^ ·)) rfl (fun k => BitVec.getLsbD_xor)
  · exact sendsX_scalar2 (op := shlX) rfl (shlX_toNat _ _)
  · exact sendsX_scalar2 (op := shrX) rfl (shrX_toNat _ _)
  · exact sendsX_scalar2 (op := sraX) rfl (sraX_toInt _ _)
  · exact sendsX_scalar2 (op := rotrX) rfl (fun k hk => rotrX_getLsbD _ _ hk)
  · exact sendsX_scalar2 (op := minX) rfl (minX_toInt _ _)
  · exact sendsX_scalar2 (op := maxX) rfl (maxX_toInt _ _)
  · exact sendsX_scalar2 (op := minuX) rfl (minuX_toNat _ _)
  · exact sendsX_scalar2 (op := maxuX) rfl (maxuX_toNat _ _)
  · exact sendsX_scalarImm (op := (· + ·)) rfl (by rw [BitVec.toInt_add, BitVec.toInt_signExtend_of_le (by decide)])
  · exact sendsX_scalarImm (op := (· &&& ·)) rfl (fun k hk => by rw [BitVec.getLsbD_and, signExtend_getLsbD _ hk])
  · exact sendsX_scalarImm (op := (· ||| ·)) rfl (fun k hk => by rw [BitVec.getLsbD_or, signExtend_getLsbD _ hk])
  · exact sendsX_scalarImm (op := (· ^^^ ·)) rfl (fun k hk => by rw [BitVec.getLsbD_xor, signExtend_getLsbD _ hk])
  · refine ⟨sendsX_scalarImm (op := shlX) rfl ?_, sendsX_scalarImm (op := shrX) rfl ?_, sendsX_scalarImm (op := sraX) rfl ?_⟩
    · rw [shlX_toNat, signExtend_count h]
    · rw [shrX_toNat, signExtend_count h]
    · rw [sraX_toInt, signExtend_count h]
  · exact ⟨_, BitVec.toInt_signExtend_of_le (by decide), rfl⟩
  · exact ⟨_, fun k hk => movhi_getLsbD _ _ hk, rfl⟩

/-! ### Products, quotients and remainders (R111, R112) -/

theorem toInt_ofInt_64 {v : Int} (hl : -2 ^ 63 ≤ v) (hh : v < 2 ^ 63) : (BitVec.ofInt 64 v).toInt = v := by
  rw [BitVec.toInt_ofInt, Int.bmod_def]; omega

theorem toInt_bounds (a : X64) : -2 ^ 63 ≤ a.toInt ∧ a.toInt < 2 ^ 63 := by
  have h1 := BitVec.le_toInt a
  have h2 := BitVec.toInt_lt (x := a)
  constructor <;> simpa using by assumption

theorem mulHigh_toInt (a b : X64) : (mulHigh a b).toInt = a.toInt * b.toInt / 2 ^ 64 := by
  obtain ⟨al, ah⟩ := toInt_bounds a
  obtain ⟨bl, bh⟩ := toInt_bounds b
  have hp : |a.toInt * b.toInt| ≤ 2 ^ 63 * 2 ^ 63 := by
    rw [abs_mul]; exact mul_le_mul (abs_le.2 ⟨al, ah.le⟩) (abs_le.2 ⟨bl, bh.le⟩) (abs_nonneg _) (by decide)
  rw [abs_le] at hp
  exact toInt_ofInt_64 (by omega) (by omega)

theorem mulHighU_toNat (a b : X64) : (mulHighU a b).toNat = a.toNat * b.toNat / 2 ^ 64 := by
  rw [mulHighU, BitVec.toNat_ofNat]
  refine Nat.mod_eq_of_lt (Nat.div_lt_of_lt_mul ?_)
  exact Nat.mul_lt_mul'' a.isLt b.isLt

/-- The signed quotient; −2^63 by −1 wraps. -/
theorem divS_quotient (a b : X64) : if b = 0 then (divS a b).1 = 0xFFFFFFFFFFFFFFFF
    else if a.toInt = -2 ^ 63 ∧ b.toInt = -1 then (divS a b).1.toInt = -2 ^ 63 else (divS a b).1.toInt = a.toInt.tdiv b.toInt := by
  by_cases hb : b = 0
  · simp [divS, hb]
  · have hq : (divS a b).1 = a.sdiv b := by
      simp only [divS, hb, if_false]
      exact BitVec.eq_of_toInt_eq (by rw [BitVec.toInt_ofInt, BitVec.toInt_sdiv])
    rw [if_neg hb, hq]
    split
    · next h => rw [BitVec.toInt_sdiv, h.1, h.2]; rfl
    · next h =>
      refine BitVec.toInt_sdiv_of_ne_or_ne _ _ (not_and_or.1 fun e => h ?_)
      rw [e.1, e.2]; decide

theorem divS_remainder (a b : X64) : if b = 0 then (divS a b).2 = a
    else (divS a b).2.toInt = a.toInt - a.toInt.tdiv b.toInt * b.toInt := by
  by_cases hb : b = 0
  · simp [divS, hb]
  · have hr : (divS a b).2 = a.srem b := by
      simp only [divS, hb, if_false]
      rw [← BitVec.toInt_srem, BitVec.ofInt_toInt]
    rw [if_neg hb, hr, BitVec.toInt_srem, Int.tmod_def, Int.mul_comm]

theorem divU_quotient (a b : X64) : if b = 0 then (divU a b).1 = 0xFFFFFFFFFFFFFFFF else (divU a b).1.toNat = a.toNat / b.toNat := by
  by_cases hb : b = 0
  · simp [divU, hb]
  · simp only [divU, hb, if_false]; exact BitVec.toNat_udiv

theorem divU_remainder (a b : X64) : if b = 0 then (divU a b).2 = a else (divU a b).2.toNat = a.toNat % b.toNat := by
  by_cases hb : b = 0
  · simp [divU, hb]
  · simp only [divU, hb, if_false]; exact BitVec.toNat_umod

/-! ### Compare and count (R111, R113) -/

theorem signedOf_toNat (a : X64) : signedOf 64 a.toNat = a.toInt := by
  rw [signedOf, BitVec.toInt_eq_toNat_cond]
  have := a.isLt
  simp only [Nat.mod_eq_of_lt a.isLt]
  split <;> split <;> omega

theorem intCond_toNat (c : Cond) (a b : X64) : intCond c 64 a.toNat b.toNat = CondHolds c a b := by
  have he : (a.toNat == b.toNat) = (a == b) := by rw [Bool.eq_iff_iff, beq_iff_eq, beq_iff_eq, BitVec.toNat_inj]
  cases c <;> simp only [intCond, CondHolds, signedOf_toNat, gt_iff_lt, ge_iff_le, bne, he]

/-- The leading zeros of a nonzero number lie above its highest bit. -/
theorem clzX_spec (a : X64) : (clzX a).toNat ≤ 64 ∧ a.toNat < 2 ^ (64 - (clzX a).toNat) ∧ (a ≠ 0 → 2 ^ (63 - (clzX a).toNat) ≤ a.toNat) := by
  by_cases ha : a = 0
  · subst ha; decide
  · have hn : a.toNat ≠ 0 := fun e => ha (BitVec.eq_of_toNat_eq (by simpa using e))
    have hl : Nat.log2 a.toNat < 64 := (Nat.log2_lt hn).2 a.isLt
    have hv : (clzX a).toNat = 63 - Nat.log2 a.toNat := by
      rw [clzX, if_neg ha, BitVec.toNat_ofNat]; exact Nat.mod_eq_of_lt (by omega)
    rw [hv, show 64 - (63 - Nat.log2 a.toNat) = Nat.log2 a.toNat + 1 by omega, show 63 - (63 - Nat.log2 a.toNat) = Nat.log2 a.toNat by omega]
    exact ⟨by omega, Nat.lt_log2_self, fun _ => Nat.log2_self_le hn⟩

/-- The sum of a number's bits is the number of its ones. -/
theorem sum_lanesOf_one (n : Nat) : ∀ x : Nat, (lanesOf 1 n x).sum = ((List.range n).filter (fun k => x.testBit k)).length := by
  induction n with
  | zero => exact fun _ => rfl
  | succ n ih =>
    intro x
    rw [lanesOf, List.sum_cons, ih, List.range_succ_eq_map, List.filter_cons, List.filter_map, apply_ite List.length, List.length_cons,
      List.length_map]
    have hs : (fun k => x.testBit k) ∘ Nat.succ = fun k => (x / 2 ^ 1).testBit k := by
      funext k; simp [Nat.testBit_succ]
    rw [hs, Nat.testBit_zero]
    rcases Nat.mod_two_eq_zero_or_one x with h | h <;> simp [h, Nat.add_comm]

/-- A count of the ones of up to 256 bits fits its register. -/
theorem popcount_toNat {n : Nat} (hn : n ≤ 256) (x : BitVec n) :
    (BitVec.ofNat 64 (lanesOf 1 n x.toNat).sum).toNat = ((List.range n).filter (fun k => x.getLsbD k)).length := by
  have hl : ((List.range n).filter (fun k => x.getLsbD k)).length ≤ n := by
    simpa using List.length_filter_le (fun k => x.getLsbD k) (List.range n)
  rw [BitVec.toNat_ofNat, sum_lanesOf_one]
  exact Nat.mod_eq_of_lt (hl.trans_lt (by omega))

/-- Settles O10: each value is the one that its op's own lemma gives. -/
theorem multiplyDivideCompare : Obligations.MultiplyDivideCompare := by
  unfold Obligations.MultiplyDivideCompare
  refine ⟨fun f s => ⟨?_, ?_, ?_, ?_, ?_, ?_, ?_⟩, fun f s => ⟨?_, ?_, ?_, ?_, fun h => ⟨?_, ?_⟩⟩⟩
  · exact sendsX_scalar2 (op := (· * ·)) rfl (BitVec.toNat_mul _ _)
  · exact sendsX_scalar2 (op := mulHigh) rfl (mulHigh_toInt _ _)
  · exact sendsX_scalar2 (op := mulHighU) rfl (mulHighU_toNat _ _)
  · exact sendsX_scalar2 (op := (fun a b => (divS a b).1)) rfl (divS_quotient _ _)
  · exact sendsX_scalar2 (op := (fun a b => (divS a b).2)) rfl (divS_remainder _ _)
  · exact sendsX_scalar2 (op := (fun a b => (divU a b).1)) rfl (divU_quotient _ _)
  · exact sendsX_scalar2 (op := (fun a b => (divU a b).2)) rfl (divU_remainder _ _)
  · exact sendsX_scalar2 (op := (fun a b => flagX (intCond f.cond 64 a.toNat b.toNat))) rfl (by rw [intCond_toNat]; rfl)
  · exact ⟨_, by simp [ite_not], rfl⟩
  · exact sendsX_scalar1 (op := clzX) rfl (clzX_spec _)
  · exact sendsX_scalar1 (op := popcX) rfl (popcount_toNat (by decide) _)
  · exact sendsX_scalar1 (op := (fun a => extrX a f.b.toNat f.c.toNat)) rfl (fun k => extrX_getLsbD _ h k)
  · exact ⟨_, fun k hk => insrX_getLsbD _ _ _ _ hk, rfl⟩

end Sys2Proof.Machine
end

section
/-! The scalar float ops, their conditions and conversions (R116 to R118). -/
open Sys2Proof Sys2Proof.Machine Sys2Proof.Claims

namespace Sys2Proof.Machine

/-! ### RAW as an element type (R45) -/

theorem needTyped_ok {t : Fmt} (h : t ≠ .raw) : needTyped t = .ok := by simp [needTyped, need, h]

theorem needTyped_raw : needTyped .raw = .trap 0x08 0 := rfl

/-! ### Reads do not look at SEQ (R56) -/

theorem Dest.apply_with_seq (d : Dest) (r : Regs) (n : Nat) : d.apply { r with seq := n } = { d.apply r with seq := n } := by
  cases d with
  | x i v po => by_cases h : i = 0 <;> simp [Dest.apply, h]
  | p i v m po => by_cases h : i = 0 <;> simp [Dest.apply, h]
  | ovfs set => cases set <;> rfl
  | v | a | name | ch | k | loaded | brk | uninject => rfl

theorem foldl_apply_with_seq (n : Nat) : ∀ (l : List PWrite) (r : Regs),
    l.foldl (fun r w => w.dest.apply r) { r with seq := n } = { l.foldl (fun r w => w.dest.apply r) r with seq := n }
  | [], _ => rfl
  | w :: l, r => by simp only [List.foldl_cons, Dest.apply_with_seq, foldl_apply_with_seq n l]

theorem State.takeSeq_seen (s : State) : s.takeSeq.seen = { s.seen with seq := s.core.regs.seq + 1 } :=
  foldl_apply_with_seq _ _ _

theorem State.takeSeq_poisonX (s : State) (n : Reg) : s.takeSeq.poisonX n = s.poisonX n := by
  rw [State.poisonX, State.takeSeq_seen]; rfl

/-! ### The form of the float ops (R107, R116) -/

/-- The result of a scalar float op, sent in the state `t`: `x` rounded once in its type and mode, with the draw of element 0. -/
def State.roundX (s : State) (f : RG) (lat : Nat) (x : Machine.Num) (po : Bool) (t : State) : State :=
  t.putX f.d lat (BitVec.ofNat 64 (roundFloat f.t (modeOf s f.rnd) f.sat (drawOf s f.rnd 0) x).bits) po

/-- A float op of a type other than RAW rounds the value of `op` on its operands. -/
theorem scalarF_typed {f : RG} {s : State} (lat : Nat) (three : Bool) (op : RMode → Machine.Num → Machine.Num → Machine.Num → Machine.Num)
    (seq : Bool) (h : f.t ≠ .raw) :
    scalarF f lat three op seq s = .next (s.roundX f lat (op (modeOf s f.rnd) (fx s f.t f.a) (fx s f.t f.b) (fx s f.t f.c))
      (bif three then s.poisonX f.a || s.poisonX f.b || s.poisonX f.c else s.poisonX f.a || s.poisonX f.b)
      (bif seq then s.takeSeq else s)) := by
  rw [scalarF, needTyped_ok h, issueOp_go]
  cases three <;> cases seq <;> simp only [Bool.true_and, Bool.false_and, Bool.or_false, if_true, Bool.false_eq_true, if_false,
    State.takeSeq_poisonX] <;> rfl

theorem scalarF_raw {f : RG} {s : State} (lat : Nat) (three : Bool) (op : RMode → Machine.Num → Machine.Num → Machine.Num → Machine.Num)
    (seq : Bool) (h : f.t = .raw) : scalarF f lat three op seq s = .next (s.issueTrap 0x08 0) := by
  rw [scalarF, h, needTyped_raw, issueOp_trap]

/-- FCMP writes 1 or 0. -/
theorem execFcmp_typed {f : RG} {s : State} (h : f.t ≠ .raw) :
    execFcmp f s = .next (s.writeAfter 2 (.x (s.px f.d) (if condElem f.cond f.t ((s.rdX f.a).toNat % 2 ^ f.t.width)
      ((s.rdX f.b).toNat % 2 ^ f.t.width) then 1 else 0) (s.poisonX f.a || s.poisonX f.b))) := by
  rw [execFcmp, needTyped_ok h, issueOp_go]; rfl

theorem execFcmp_raw {f : RG} {s : State} (h : f.t = .raw) : execFcmp f s = .next (s.issueTrap 0x08 0) := by
  rw [execFcmp, h, needTyped_raw, issueOp_trap]

/-! ### Conditions on NaN and on zeros (R117) -/

theorem floatCond_nan {c : Cond} {x y : Machine.Num} (h : x = .nan ∨ y = .nan) : floatCond c x y = decide (c = .ne) := by
  have hn : (x.isNan || y.isNan) = true := by rcases h with rfl | rfl <;> simp [Num.isNan]
  cases c <;> simp only [floatCond, hn, if_true] <;> rfl

/-- Zeros of either sign are equal. -/
theorem floatCond_zero {c : Cond} (h : c.code < 6) (p q : Bool) :
    floatCond c (Num.zero p) (Num.zero q) = decide (c = .eq ∨ c = .le ∨ c = .ge) := by
  have hl : ∀ p q, ltNum (Num.zero p) (Num.zero q) = false := by decide
  have hn : ∀ p, (Num.zero p).isNan = false := fun _ => rfl
  cases c <;> simp [floatCond, eqNum, hl, hn]

/-! ### Integer values in a register (R110) -/

/-- The bits of an integer type, read as signed, are a signed number of 64 bits. -/
theorem toInt_ofInt_signedOf {w : Nat} (hw : 0 < w) (hw' : w ≤ 64) (v : Nat) : (BitVec.ofInt 64 (signedOf w v)).toInt = signedOf w v := by
  have hp : 2 ^ w = 2 * 2 ^ (w - 1) := by rw [← pow_succ']; congr 1; omega
  have hle : 2 ^ (w - 1) ≤ 2 ^ 63 := Nat.pow_le_pow_right (by decide) (by omega)
  have hu := Nat.mod_lt v (Nat.two_pow_pos w)
  refine toInt_ofInt_64 ?_ ?_ <;> simp only [signedOf] <;> split <;> omega

theorem width_pos (t : Fmt) : 0 < t.width := by cases t <;> decide
theorem width_le (t : Fmt) : t.width ≤ 32 := by cases t <;> decide

/-- FCVT converts the element of T2 that its source holds, and writes it to the whole register (R110, R118). -/
theorem execFcvt_typed {f : RG} {s : State} (h : f.t ≠ .raw) (h2 : f.t2 ≠ .raw) :
    let w := (s.rdX f.a).toNat % 2 ^ f.t2.width
    let r := (convSpec f.t f.t2 f.sat f.scl (s.snap f.rnd)).elem w (drawOf s f.rnd 0) (decodeElem f.t2 w)
    execFcvt f s = .next ((s.takeSeq.writeAfter 3 (.x (s.px f.d) (if f.t.isInt then BitVec.ofInt 64 (signedOf f.t.width r.bits)
      else BitVec.ofNat 64 r.bits) (s.poisonX f.a))).putOvfs 3 f.scl r.ovf) := by
  intro w r
  rw [execFcvt, needTyped_ok h, needTyped_ok h2, Chk.ok_and, issueOp_go]; rfl

/-! ### The obligation -/

/-- Settles O11: the float ops have one form, FCMP and FCVT their own; with T = RAW the check of the type fails. -/
theorem scalarFloats : Obligations.ScalarFloats := by
  unfold Obligations.ScalarFloats
  refine ⟨fun f s => ⟨fun h => ⟨?_, ?_, ?_, ?_, ?_, ?_, ?_⟩, fun h => ⟨?_, ?_, ?_, ?_, ?_, ?_, ?_⟩⟩,
    fun c hc => ⟨fun x y => floatCond_nan, floatCond_zero hc⟩, fun f s h h2 => ?_⟩
  · exact scalarF_typed 5 false (fun m a b _ => addNum m a b) true h
  · exact scalarF_typed 5 false (fun m a b _ => subNum m a b) true h
  · exact scalarF_typed 5 false (fun _ a b _ => mulNum a b) true h
  · exact scalarF_typed 5 true fmaNum true h
  · exact scalarF_typed 2 false (fun _ a b _ => minNum a b) false h
  · exact scalarF_typed 2 false (fun _ a b _ => maxNum a b) false h
  · exact execFcmp_typed h
  · exact scalarF_raw 5 false (fun m a b _ => addNum m a b) true h
  · exact scalarF_raw 5 false (fun m a b _ => subNum m a b) true h
  · exact scalarF_raw 5 false (fun _ a b _ => mulNum a b) true h
  · exact scalarF_raw 5 true fmaNum true h
  · exact scalarF_raw 2 false (fun _ a b _ => minNum a b) false h
  · exact scalarF_raw 2 false (fun _ a b _ => maxNum a b) false h
  · exact execFcmp_raw h
  · refine ⟨_, fun hi => ?_, fun hi => ?_, execFcvt_typed h h2⟩
    · rw [hi, if_neg Bool.false_ne_true, BitVec.toNat_ofNat]
    · rw [if_pos hi]; exact toInt_ofInt_signedOf (width_pos _) ((width_le _).trans (by decide)) _

end Sys2Proof.Machine
end

section
/-! Branches, REP and LOOPB (R35, R36, R119 to R121). -/
open Sys2Proof Sys2Proof.Machine Sys2Proof.Claims

namespace Sys2Proof.Machine

/-! ### Control uses of an X register (R359) -/

theorem needCtl_poisoned {s : State} {r : Reg} (h : s.poisonX r = true) :
    s.needCtl r = .trap 0x0B (BitVec.ofNat 64 (s.core.iss.cur.slot * 2 ^ 16 + r.toNat)) := by
  simp [State.needCtl, need, h, State.slotVal]

theorem condZero_eq (c : Cond) (x : X64) : condZero c x = CondHolds c x 0 := intCond_toNat c x 0

/-! ### BRL's counter (R15) -/

theorem chkBrl_static {f : BRF} (s : State) (h : f.d.toNat < 48) : chkBrl f s = s.needCtl f.d := by
  simp [chkBrl, need, h]

theorem chkBrl_rotating {f : BRF} (s : State) (h : 48 ≤ f.d.toNat) : chkBrl f s = .trap 0x10 0 := by
  simp [chkBrl, need, Nat.not_lt.2 h]

/-- BRL counts down, turns the register files, and branches until the counter is 0. -/
theorem execBrl_counts {f : BRF} {s : State} (hr : f.d.toNat < 48) (hp : s.poisonX f.d = false) :
    execBrl f s = .next
      (let t := (s.putX f.d 1 (s.rdX f.d - 1) false).mapRegs (fun r => { r with rrb := rrbStep s.core.nV r.rrb })
       if s.rdX f.d = 1 then t else t.branchTo (s.target f.off)) := by
  rw [execBrl, chkBrl_static s hr, needCtl_clean hp, issueOp_go]
  by_cases h : s.rdX f.d = 1
  · simp [h]
  · have hv : s.rdX f.d - 1 ≠ 0 := fun e => h (sub_eq_zero.1 e)
    simp only [h, hv, if_false, if_true, ne_eq, not_false_eq_true]

/-! ### The obligation -/

/-- Settles O12: each op's check passes or fails by its register's poison, and its effect sets the next bundle. -/
theorem controlFlow : Obligations.ControlFlow := by
  unfold Obligations.ControlFlow
  refine ⟨fun f g s => ⟨rfl, rfl, fun h => ?_, fun h => ?_, fun hr h => execBrl_counts hr h, fun hr h => ?_, fun hr => ?_,
    fun h => ⟨?_, ?_⟩, fun h => ⟨?_, ?_⟩⟩, fun f s => ⟨rfl, rfl⟩⟩
  · show execBc f s = _
    rw [execBc, needCtl_clean h, issueOp_go, condZero_eq]; rfl
  · show execBc f s = _
    rw [execBc, needCtl_poisoned h, issueOp_trap]
  · show execBrl f s = _
    rw [execBrl, chkBrl_static s hr, needCtl_poisoned h, issueOp_trap]
  · show execBrl f s = _
    rw [execBrl, chkBrl_rotating s hr, issueOp_trap]
  · show execRet g s = _
    rw [execRet, needCtl_clean h, issueOp_go]; rfl
  · show execJmpx g s = _
    rw [execJmpx, needCtl_clean h, issueOp_go]; rfl
  · show execRet g s = _
    rw [execRet, needCtl_poisoned h, issueOp_trap]
  · show execJmpx g s = _
    rw [execJmpx, needCtl_poisoned h, issueOp_trap]

end Sys2Proof.Machine
end

section
/-! Lanes of a vector register: fields of a number, lists over the elements, masks and guarded results (R10, R11, R108). -/
open Sys2Proof Sys2Proof.Machine Sys2Proof.Claims

namespace Sys2Proof.Machine

/-! ### Lists over the elements 0 to n − 1 -/

theorem zipIdx_map_range {α : Type} (f : Nat → α) (n : Nat) :
    ((List.range n).map f).zipIdx = (List.range n).map (fun e => (f e, e)) := by
  rw [List.zipIdx_eq_zip_range', List.length_map, List.length_range, ← List.range_eq_range']
  exact (congrArg _ (List.map_id _).symm).trans List.zip_map'

theorem getD_map_range {α : Type} (f : Nat → α) {n e : Nat} (h : e < n) (d : α) : ((List.range n).map f).getD e d = f e := by
  simp [h]

theorem replicate_eq_map_range {α : Type} (n : Nat) (x : α) : List.replicate n x = (List.range n).map (fun _ => x) := by
  rw [List.map_const', List.length_range]

theorem take_map_range {α : Type} (f : Nat → α) {k n : Nat} (h : k ≤ n) : ((List.range n).map f).take k = (List.range k).map f := by
  rw [← List.map_take, List.take_range, Nat.min_eq_left h]

theorem orAll_map_range (p : Nat → Bool) (n : Nat) : orAll ((List.range n).map p) = true ↔ ∃ e, e < n ∧ p e = true := by
  simp [orAll]

/-! ### Fields of a number (R10) -/

theorem lanesOf_eq_map (w n : Nat) : ∀ x, lanesOf w n x = (List.range n).map (fun e => x / 2 ^ (w * e) % 2 ^ w) := by
  induction n with
  | zero => exact fun _ => rfl
  | succ n ih =>
    intro x
    rw [lanesOf, ih, List.range_succ_eq_map, List.map_cons, List.map_map]
    congr 1
    · simp
    · refine List.map_congr_left fun e _ => ?_
      rw [Function.comp, Nat.div_div_eq_div_mul, ← pow_add, Nat.mul_succ, Nat.add_comm]

/-- Bit `k` of a number made of fields lies in field k / w. -/
theorem ofLanes_testBit {w : Nat} (hw : 0 < w) : ∀ (xs : List Nat) (k : Nat),
    (ofLanes w xs).testBit k = (xs.getD (k / w) 0).testBit (k % w)
  | [], k => by simp [ofLanes]
  | x :: xs, k => by
    rw [ofLanes, Nat.add_comm, Nat.testBit_two_pow_mul_add _ (Nat.mod_lt _ (Nat.two_pow_pos w))]
    by_cases h : k < w
    · rw [if_pos h, Nat.testBit_mod_two_pow, Nat.div_eq_of_lt h, Nat.mod_eq_of_lt h]; simp [h]
    · have hd : k / w = (k - w) / w + 1 := by rw [Nat.div_eq_sub_div hw (Nat.not_lt.1 h)]
      rw [if_neg h, ofLanes_testBit hw xs, hd, List.getD_cons_succ, ← Nat.mod_eq_sub_mod (Nat.not_lt.1 h)]

/-- Bit `j` of element `e` of a value. -/
theorem lane_testBit (w : Nat) (q : VBits × BitVec 64) (e j : Nat) :
    (lane w q e).testBit j = (decide (j < w) && q.1.getLsbD (w * e + j)) := by
  rw [lane, Nat.testBit_mod_two_pow, Nat.testBit_div_two_pow, BitVec.getLsbD, Nat.add_comm]

theorem lane_lt (w : Nat) (q : VBits × BitVec 64) (e : Nat) : lane w q e < 2 ^ w := Nat.mod_lt _ (Nat.two_pow_pos w)

/-! ### Widths -/

/-- The widths of the element types. -/
theorem width_cases (t : Fmt) : t.width = 8 ∨ t.width = 16 ∨ t.width = 32 := by cases t <;> decide

/-! ### The elements of a source (R10, R107, R358) -/

theorem elems_congr {n : Nat} {v v' : Nat → Nat} {p p' : Nat → Bool} (hv : ∀ e, e < n → v e = v' e) (hp : ∀ e, e < n → p e = p' e) :
    elems n v p = elems n v' p' :=
  List.map_congr_left fun e he => by rw [hv e (List.mem_range.1 he), hp e (List.mem_range.1 he)]

theorem elemAt_elems {n e : Nat} (h : e < n) (v : Nat → Nat) (p : Nat → Bool) : elemAt (elems n v p) e = (v e, p e) :=
  getD_map_range _ h _

theorem replicate_eq_elems (n v : Nat) (p : Bool) : List.replicate n (v, p) = elems n (fun _ => v) (fun _ => p) :=
  replicate_eq_map_range n (v, p)

/-- The elements of a register are its lanes; one narrower than 64 bits has the poison of the lane it lies in. -/
theorem elemsOf_eq {w : Nat} (h : w ≠ 64) (q : VBits × BitVec 64) : elemsOf w q = elems (2048 / w) (lane w q) (laneBad w q) := by
  rw [elemsOf, lanesOf_eq_map, zipIdx_map_range, List.map_map]
  simp only [h, if_false]; rfl

theorem srcA_eq (s : State) (f : RG) {w : Nat} (h : w ≠ 64) :
    s.srcA f w = elems (2048 / w) (lane w (s.vecSrc f .a f.a)) (laneBad w (s.vecSrc f .a f.a)) := elemsOf_eq h _
theorem srcB_eq (s : State) (f : RG) {w : Nat} (h : w ≠ 64) :
    s.srcB f w = elems (2048 / w) (lane w (s.vecSrc f .b f.b)) (laneBad w (s.vecSrc f .b f.b)) := elemsOf_eq h _
theorem guardBits_eq (s : State) (g : BitVec 4) (w : Nat) :
    guardBits w (s.guard g).1 = (List.range (2048 / w)).map (fun e => enabled s g w e) := rfl

/-! ### Functions of the elements -/

theorem map2_elems (g : Nat → Nat → Nat → Nat) (n : Nat) (a b : Nat → Nat) (p q : Nat → Bool) :
    map2 g (elems n a p) (elems n b q) = elems n (fun e => g e (a e) (b e)) (fun e => p e || q e) := by
  rw [map2, elems, elems, List.zip_map', zipIdx_map_range, List.map_map]; rfl

/-! ### Masks (R11) -/

/-- A field of `n` ones or zeros. -/
theorem testBit_ite_ones {n j : Nat} (h : j < n) (b : Bool) : (if b then 2 ^ n - 1 else 0).testBit j = b := by
  cases b <;> simp [Nat.testBit_two_pow_sub_one, h]

/-- A byte lane of a mask is set where its element's flag is. -/
theorem maskOf_getLsbD {w : Nat} (hw : 0 < w / 8) (en : List Bool) {i : Nat} (hi : i < 256) :
    (maskOf w en).getLsbD i = en.getD (i / (w / 8)) false := by
  rw [maskOf, BitVec.getLsbD_ofNat, decide_eq_true hi, Bool.true_and, ofLanes_testBit hw, List.getD_eq_getElem?_getD,
    List.getD_eq_getElem?_getD, List.getElem?_map]
  cases en[i / (w / 8)]? with
  | none => simp
  | some b => exact testBit_ite_ones (Nat.mod_lt _ hw) b

theorem maskOf_map_getLsbD {w n : Nat} (hw : 0 < w / 8) (p : Nat → Bool) {i : Nat} (hi : i < 256) (hn : i / (w / 8) < n) :
    (maskOf w ((List.range n).map p)).getLsbD i = p (i / (w / 8)) := by
  rw [maskOf_getLsbD hw _ hi, getD_map_range _ hn]

/-- A bit of a register is written where its byte lane is. -/
theorem byteMask_getLsbD (m : PBits) {k : Nat} (hk : k < 2048) : (byteMask m).getLsbD k = m.getLsbD (k / 8) := by
  have hb : k / 8 < 256 := by omega
  rw [byteMask, BitVec.getLsbD_ofNat, decide_eq_true hk, Bool.true_and, ofLanes_testBit (by decide), lanesOf_eq_map, List.map_map,
    getD_map_range _ hb, Function.comp, Nat.one_mul, Nat.pow_one]
  exact (testBit_ite_ones (n := 8) (Nat.mod_lt _ (by decide)) _).trans Nat.testBit_eq_decide_div_mod_eq.symm

/-! ### A result under a guard (R108) -/

/-- The image of a result of `n` elements that fill a register: disabled elements are 0 and not written. -/
theorem image_elems {w n : Nat} (hn : n ≤ 2048 / w) (val : Nat → Nat) (po : Nat → Bool) (g : PBits × Bool) :
    (VRes.mk w (elems n val po)).image g =
      (BitVec.ofNat 2048 (ofLanes w ((List.range n).map (fun e => if g.1.getLsbD (e * w / 8) then val e else 0))),
       maskOf w ((List.range n).map (fun e => g.1.getLsbD (e * w / 8))),
       lanePoison w ((List.range n).map (fun e => g.1.getLsbD (e * w / 8) && (po e || g.2)))) := by
  simp only [VRes.image, guardBits, elems, List.length_map, List.length_range, take_map_range _ hn, List.zip_map', List.map_map]
  rfl

end Sys2Proof.Machine
end

section
/-! What a register holds after a guarded vector result (R108). -/
open Sys2Proof Sys2Proof.Machine Sys2Proof.Claims

namespace Sys2Proof.Machine

/-! ### The bits of element `e` -/

/-- Bit `j` of element `e` lies in field `e` of a number made of fields. -/
theorem ofLanes_map_testBit {w n e j : Nat} (he : e < n) (hj : j < w) (v : Nat → Nat) :
    (ofLanes w ((List.range n).map v)).testBit (w * e + j) = (v e).testBit j := by
  have hd : (w * e + j) / w = e := by rw [Nat.mul_add_div (by omega), Nat.div_eq_of_lt hj, Nat.add_zero]
  rw [ofLanes_testBit (by omega), hd, getD_map_range _ he, Nat.mul_add_mod, Nat.mod_eq_of_lt hj]

/-- Element `e` is written where its flag is set. -/
theorem byteMask_maskOf_getLsbD {w n e j : Nat} (h8 : 8 ∣ w) (hn : w * n = 2048) (he : e < n) (hj : j < w) (g : Nat → Bool) :
    (byteMask (maskOf w ((List.range n).map g))).getLsbD (w * e + j) = g e := by
  obtain ⟨b, rfl⟩ := h8
  have hk : 8 * b * e + j < 2048 := by
    calc 8 * b * e + j < 8 * b * e + 8 * b := by omega
      _ = 8 * b * (e + 1) := by ring
      _ ≤ 8 * b * n := Nat.mul_le_mul_left _ he
      _ = 2048 := hn
  have hd : (8 * b * e + j) / 8 / b = e := by
    rw [Nat.div_div_eq_div_mul, Nat.mul_add_div (by omega), Nat.div_eq_of_lt hj, Nat.add_zero]
  have hb : 8 * b / 8 = b := Nat.mul_div_cancel_left b (by decide)
  rw [byteMask_getLsbD _ hk, maskOf_map_getLsbD (by omega) g (by omega) (by rw [hb, hd]; exact he), hb, hd]

/-- A masked write of a register: an element takes the result where it is enabled and keeps its value elsewhere. -/
theorem merged_lane {w n e : Nat} (h8 : 8 ∣ w) (hn : w * n = 2048) (he : e < n) {val : Nat → Nat} (hv : ∀ e, val e < 2 ^ w) (g : Nat → Bool)
    (old : VBits) (po : BitVec 64) :
    let mask := byteMask (maskOf w ((List.range n).map g))
    let v : VBits := BitVec.ofNat 2048 (ofLanes w ((List.range n).map (fun e => if g e then val e else 0)))
    lane w ((v &&& mask) ||| (old &&& ~~~mask), po) e = if g e then val e else lane w (old, po) e := by
  intro mask v
  refine Nat.eq_of_testBit_eq fun j => ?_
  by_cases hj : j < w
  · have hk : w * e + j < 2048 := by
      calc w * e + j < w * (e + 1) := by rw [Nat.mul_succ]; omega
        _ ≤ w * n := Nat.mul_le_mul_left _ he
        _ = 2048 := hn
    have hm : mask.getLsbD (w * e + j) = g e := byteMask_maskOf_getLsbD h8 hn he hj g
    have hb : v.getLsbD (w * e + j) = (if g e then val e else 0).testBit j := by
      rw [BitVec.getLsbD_ofNat, decide_eq_true hk, Bool.true_and, ofLanes_map_testBit he hj]
    rw [lane_testBit, decide_eq_true hj, Bool.true_and, BitVec.getLsbD_or, BitVec.getLsbD_and, BitVec.getLsbD_and, BitVec.getLsbD_not,
      hm, hb, decide_eq_true hk]
    cases hg : g e <;> simp [lane_testBit, hj]
  · have hz : ∀ x, x < 2 ^ w → x.testBit j = false := fun x hx =>
      Nat.testBit_lt_two_pow (hx.trans_le (Nat.pow_le_pow_right (by decide) (Nat.not_lt.1 hj)))
    rw [hz _ (lane_lt _ _ _), hz]
    split
    · exact hv e
    · exact lane_lt _ _ _

/-! ### The obligation -/

/-- Settles O14: the image of the result is a masked write of its register, and no other register changes. -/
theorem guardedResult : Obligations.GuardedResult := by
  unfold Obligations.GuardedResult
  intro r i w n val po g hi hw hn hv
  have h8 : 8 ∣ w := by rcases hw with rfl | rfl | rfl | rfl <;> decide
  have hle : n ≤ 2048 / w := (Nat.le_div_iff_mul_le (by omega)).2 (by rw [Nat.mul_comm]; omega)
  rw [image_elems hle]
  refine ⟨fun e he => ?_, fun j hj => ⟨vget_vset_other _ _ _ _ _ hj, vget_vset_other _ _ _ _ _ hj⟩, rfl, rfl, rfl, rfl⟩
  simp only [Dest.apply, vget_vset_same _ _ _ _ hi]
  exact merged_lane h8 hn he hv (fun e => g.1.getLsbD (e * w / 8)) _ _

end Sys2Proof.Machine
end

section
/-! The forms of the vector ops: their checks, their stream, and the result that they send (R13, R45, R98, R109, R122). -/
open Sys2Proof Sys2Proof.Machine Sys2Proof.Claims

namespace Sys2Proof.Machine

/-! ### The checks and waits (R98) -/

theorem needAlloc_ok {s : State} {l : List (Nat × Bool)} (h : ∀ q ∈ l, q.2 = true) : s.needAlloc l = .ok := by
  have : l.filter (fun q => !q.2) = [] := by simpa using h
  rw [State.needAlloc, this]

theorem foldl_needTyped_ok {ts : List Fmt} (h : ∀ t ∈ ts, t ≠ .raw) :
    ts.foldl (fun (k : Chk) t => k.and (needTyped t)) Chk.ok = .ok := by
  induction ts with
  | nil => rfl
  | cons t ts ih =>
    rw [List.foldl_cons, Chk.ok_and, needTyped_ok (h t (by simp))]
    exact ih fun u hu => h u (by simp [hu])

theorem needRead_ready {s : State} {q : Nat} (h : ReadReady s q) : s.needRead q = .ok := by
  obtain ⟨⟨t, ht, hd, hn⟩, -⟩ := h
  simp [State.needRead, ht, hd, hn]

theorem needWrite_ready {s : State} {q : Nat} (h : WriteReady s q) : s.needWrite q = .ok := by
  obtain ⟨⟨t, ht, hd, hn⟩, -⟩ := h
  simp [State.needWrite, ht, hd, hn]

theorem needGate_room {s : State} (h : s.core.gate.length < 64) : s.needGate = .ok := by
  simp [State.needGate, gateSize, h]

/-- The last of a vector op's checks: its stream, and the gate entry of an appended image (R295, R345). -/
def State.chkStream (s : State) (f : RG) : Chk :=
  match streamReg f with
  | none => .ok
  | some q => if f.qsel = .d then (s.needWrite q).and s.needGate else s.needRead q

theorem State.chkV_eq (s : State) (f : RG) (v : VFields) (ts : List Fmt) :
    s.chkV f v ts = (s.needAlloc [(46, !(v.d && f.qsel ≠ .d) || s.hasV f.d), (40, !(v.a && f.qsel ≠ .a) || s.hasV f.a),
      (34, !(v.b && f.qsel ≠ .b) || s.hasV f.b), (28, !(v.c && f.qsel ≠ .c) || s.hasV f.c)]).and
      ((ts.foldl (fun (k : Chk) t => k.and (needTyped t)) Chk.ok).and (s.chkStream f)) := rfl

/-- The stream that QSEL names passes its check and need not be waited for. -/
theorem chkStream_ready {f : RG} {s : State} (h : StreamReady f s) : s.chkStream f = .ok ∧ s.readyV f = .go := by
  unfold StreamReady at h
  cases hq : f.qsel <;> simp only [hq] at h <;> simp only [State.chkStream, streamReg, State.readyV, hq]
  case none => exact ⟨trivial, trivial⟩
  case d => simp [needWrite_ready h, needGate_room h.2.2, h.2.1]
  all_goals simp [needRead_ready h, h.2]

/-- A vector op whose registers, types and stream are ready passes its checks and does not wait. -/
theorem chkV_ready {f : RG} {v : VFields} {ts : List Fmt} {s : State} (h : VecReady f v ts s) : s.chkV f v ts = .ok ∧ s.readyV f = .go := by
  obtain ⟨hd, ha, hb, hc, ht, hs⟩ := h
  obtain ⟨hq, hr⟩ := chkStream_ready hs
  have hreg : ∀ (use : Bool) (n : QSel) (r : Reg), (use = true → f.qsel ≠ n → r.toNat < s.core.nV) →
      (!(use && decide (f.qsel ≠ n)) || s.hasV r) = true := by
    intro use n r hu
    cases use with
    | false => rfl
    | true =>
      by_cases hn : f.qsel = n
      · simp [hn]
      · simpa [hn, State.hasV] using hu rfl hn
  refine ⟨?_, hr⟩
  rw [State.chkV_eq, needAlloc_ok, Chk.ok_and, foldl_needTyped_ok ht, Chk.ok_and]
  · exact hq
  · simp only [List.forall_mem_cons]
    exact ⟨hreg _ _ _ hd, hreg _ _ _ ha, hreg _ _ _ hb, hreg _ _ _ hc, by simp⟩

/-! ### The forms -/

theorem vectorOp_ready {f : RG} {v : VFields} {ts : List Fmt} {s : State} (h : VecReady f v ts s) (lat : Nat) (seq : Bool)
    (res : State → VRes) :
    vectorOp f v ts lat seq res s = .next (let t := (s.putV f lat (res s)).useStream f; if seq then t.takeSeq else t) := by
  rw [vectorOp, (chkV_ready h).1, (chkV_ready h).2, issueOp_go]

/-- A ready vector op sends its result's elements. -/
theorem vectorOp_elems {f : RG} {v : VFields} {ts : List Fmt} {s : State} {lat : Nat} {seq : Bool} {res : State → VRes} {w n : Nat}
    {val : Nat → Nat} {po : Nat → Bool} (hr : VecReady f v ts s) (he : res s = ⟨w, elems n val po⟩) :
    vectorOp f v ts lat seq res s =
      .next (let t := (s.putV f lat ⟨w, elems n val po⟩).useStream f; if seq then t.takeSeq else t) := by
  rw [vectorOp_ready hr, he]

theorem width_ne_64 (t : Fmt) : t.width ≠ 64 := by have := width_le t; omega

/-- An op of two sources: its value element by element; an element is poisoned where a source's is. -/
theorem sendsV_binary {i : Instr} {f : RG} {s : State} {lat : Nat} {seq : Bool} {g : Snap → Nat → Nat → Nat → Nat} {val : Nat → Nat}
    (hi : exec i s = binary f lat seq g s) (hr : VecReady f vf2 [f.t] s)
    (hv : ∀ e, g (s.snap f.rnd) e (lane f.t.width (s.vecSrc f .a f.a) e) (lane f.t.width (s.vecSrc f .b f.b) e) = val e) :
    SendsV i f s lat seq f.t.width (2048 / f.t.width) val
      (fun e => laneBad f.t.width (s.vecSrc f .a f.a) e || laneBad f.t.width (s.vecSrc f .b f.b) e) := by
  refine hi.trans (vectorOp_elems hr (congrArg _ ?_))
  rw [srcA_eq s f (width_ne_64 _), srcB_eq s f (width_ne_64 _), map2_elems]
  exact elems_congr (fun e _ => hv e) (fun _ _ => rfl)

/-- An op that rounds a float result once, and wraps an integer one. -/
theorem sendsV_arith {i : Instr} {f : RG} {s : State} {lat : Nat} {fl : RMode → Machine.Num → Machine.Num → Machine.Num} {it : Int → Int → Int}
    (hi : exec i s = arith f lat fl it s) (hr : VecReady f vf2 [f.t] s) :
    let w := f.t.width
    let a := fun e => lane w (s.vecSrc f .a f.a) e
    let b := fun e => lane w (s.vecSrc f .b f.b) e
    SendsV i f s lat true w (2048 / w)
      (fun e => if f.t.isFloat then
          (roundFloat f.t (modeOf s f.rnd) false (drawOf s f.rnd e) (fl (modeOf s f.rnd) (decodeFloat f.t (a e)) (decodeFloat f.t (b e)))).bits
        else wrapInt w (it (signedOf w (a e)) (signedOf w (b e))))
      (fun e => laneBad w (s.vecSrc f .a f.a) e || laneBad w (s.vecSrc f .b f.b) e) :=
  sendsV_binary hi hr fun _ => rfl

/-- An op on signed integers. -/
theorem sendsV_intOp {i : Instr} {f : RG} {s : State} {lat : Nat} {it : Int → Int → Int} {val : Nat → Nat}
    (hi : exec i s = intOp f lat it s) (hr : VecReady f vf2 [f.t] s)
    (hv : ∀ e, wrapInt f.t.width (it (signedOf f.t.width (lane f.t.width (s.vecSrc f .a f.a) e))
      (signedOf f.t.width (lane f.t.width (s.vecSrc f .b f.b) e))) = val e) :
    SendsV i f s lat false f.t.width (2048 / f.t.width) val
      (fun e => laneBad f.t.width (s.vecSrc f .a f.a) e || laneBad f.t.width (s.vecSrc f .b f.b) e) :=
  sendsV_binary hi hr hv

/-- An op on bits: its value is taken modulo 2^w. -/
theorem sendsV_bitOp {i : Instr} {f : RG} {s : State} {op : Nat → Nat → Nat} {val : Nat → Nat} (hi : exec i s = bitOp f op s)
    (hr : VecReady f vf2 [f.t] s)
    (hv : ∀ e, op (lane f.t.width (s.vecSrc f .a f.a) e) (lane f.t.width (s.vecSrc f .b f.b) e) % 2 ^ f.t.width = val e) :
    SendsV i f s 2 false f.t.width (2048 / f.t.width) val
      (fun e => laneBad f.t.width (s.vecSrc f .a f.a) e || laneBad f.t.width (s.vecSrc f .b f.b) e) :=
  sendsV_binary hi hr hv

/-! ### Integers of `w` bits (R50) -/

theorem satInt_eq (w : Nat) (i : Int) : satInt w i = max (-2 ^ (w - 1) : Int) (min i (2 ^ (w - 1) - 1)) := by
  have hp : ((2 ^ (w - 1) : Nat) : Int) = 2 ^ (w - 1) := by push_cast; rfl
  have : (0 : Int) < 2 ^ (w - 1) := by positivity
  simp only [satInt, hp]
  generalize (2 : Int) ^ (w - 1) = h at *
  split
  · omega
  · split <;> omega

theorem wrapInt_lt (w : Nat) (i : Int) : wrapInt w i < 2 ^ w := by
  have hp : (0 : Int) < ((2 ^ w : Nat) : Int) := by exact_mod_cast Nat.two_pow_pos w
  have := Int.emod_lt_of_pos i hp
  have := Int.emod_nonneg i hp.ne'
  rw [wrapInt]; omega

/-! ### Traps (R13, R45, R295) -/

/-- A vector op whose check fails traps. -/
theorem vectorOp_traps {f : RG} {v : VFields} {ts : List Fmt} {s : State} {cause : Nat} {val : X64} (hc : s.chkV f v ts = .trap cause val)
    (lat : Nat) (seq : Bool) (res : State → VRes) : vectorOp f v ts lat seq res s = .next (s.issueTrap cause val) := by
  rw [vectorOp, hc, issueOp_trap]

/-- VADD traps as its check says. -/
theorem traps_vadd {f : RG} {s : State} {cause : Nat} {val : X64} (hc : s.chkV f vf2 [f.t] = .trap cause val) :
    Traps (.vadd f) s cause val := by
  show execVadd f s = _
  rw [execVadd, arith, binary, vectorOp_traps hc]

/-- With its registers allocated, an op of two sources of type RAW fails the check of its type. -/
theorem chkV_raw {f : RG} {s : State} (hq : f.qsel = .none)
    (h : f.d.toNat < s.core.nV ∧ f.a.toNat < s.core.nV ∧ f.b.toNat < s.core.nV) (ht : f.t = .raw) :
    s.chkV f vf2 [f.t] = .trap 0x08 0 := by
  obtain ⟨hd, ha, hb⟩ := h
  rw [State.chkV_eq, needAlloc_ok (by simp [vf2, hq, State.hasV, hd, ha, hb]), ht]; rfl

/-- A destination beyond the allocation fails the first check, with D's lowest bit in TRAPVAL (log 15). -/
theorem chkV_unallocated {f : RG} {s : State} (hq : f.qsel = .none) (hd : ¬ f.d.toNat < s.core.nV) (ha : f.a.toNat < s.core.nV)
    (hb : f.b.toNat < s.core.nV) :
    s.chkV f vf2 [f.t] = .trap 0x03 (BitVec.ofNat 64 (s.core.iss.cur.slot * 2 ^ 16 + 46 * 2 ^ 8)) := by
  simp [State.chkV_eq, State.needAlloc, vf2, hq, State.hasV, hd, ha, hb, State.slotVal]

/-- A source stream that is not bound fails the check of the stream. -/
theorem chkV_unbound {f : RG} {s : State} (hq : f.qsel = .a) (hd : f.d.toNat < s.core.nV) (hb : f.b.toNat < s.core.nV) (ht : f.t ≠ .raw)
    (hn : s.rdQ f.a.toNat = none) : s.chkV f vf2 [f.t] = .trap 0x0E 0 := by
  rw [State.chkV_eq, needAlloc_ok (by simp [vf2, hq, State.hasV, hd, hb]), foldl_needTyped_ok (by simpa using ht)]
  simp [State.chkStream, streamReg, hq, State.needRead, hn]

/-! ### The obligation -/

/-- Settles O15: the ops have the forms above, and each check that fails is the first. -/
theorem vectorBinary : Obligations.VectorBinary := by
  unfold Obligations.VectorBinary
  refine ⟨fun f s _ hr => ⟨?_, ?_, ?_, ?_, ?_, ?_, ?_, ?_⟩, fun f s _ hr => ⟨?_, ?_, ?_, ?_, ?_, ?_⟩, fun f s =>
    ⟨fun hq h ht => ⟨?_, ?_, ?_⟩, fun hq hd ha hb => ?_, fun hq hd hb ht hn => ?_⟩⟩
  · exact sendsV_arith (fl := addNum) (it := (· + ·)) rfl hr
  · exact sendsV_arith (fl := subNum) (it := (· - ·)) rfl hr
  · exact sendsV_arith (fl := fun _ x y => mulNum x y) (it := (· * ·)) rfl hr
  · exact sendsV_binary (g := fun _ _ => pickElem f.t minNum min) rfl hr fun _ => rfl
  · exact sendsV_binary (g := fun _ _ => pickElem f.t maxNum max) rfl hr fun _ => rfl
  · exact sendsV_intOp (it := fun x y => satInt f.t.width (x + y)) rfl hr fun _ => congrArg _ (satInt_eq _ _)
  · exact sendsV_intOp (it := fun x y => satInt f.t.width (x - y)) rfl hr fun _ => congrArg _ (satInt_eq _ _)
  · exact sendsV_intOp (it := fun x y => x * y / (2 ^ f.t.width : Nat)) rfl hr fun _ => by push_cast; rfl
  · exact sendsV_bitOp (op := (· &&& ·)) rfl hr fun _ => Nat.mod_eq_of_lt (Nat.and_lt_two_pow _ (lane_lt _ _ _))
  · exact sendsV_bitOp (op := (· ||| ·)) rfl hr fun _ => Nat.mod_eq_of_lt (Nat.or_lt_two_pow (lane_lt _ _ _) (lane_lt _ _ _))
  · exact sendsV_bitOp (op := (· ^^^ ·)) rfl hr fun _ => Nat.mod_eq_of_lt (Nat.xor_lt_two_pow (lane_lt _ _ _) (lane_lt _ _ _))
  · exact sendsV_bitOp (op := fun x y => x * 2 ^ (y % f.t.width)) rfl hr fun _ => rfl
  · exact sendsV_bitOp (op := fun x y => x / 2 ^ (y % f.t.width)) rfl hr fun _ =>
      Nat.mod_eq_of_lt ((Nat.div_le_self _ _).trans_lt (lane_lt _ _ _))
  · exact sendsV_bitOp (op := fun x y => wrapInt f.t.width (signedOf f.t.width x / (2 ^ (y % f.t.width) : Nat))) rfl hr fun _ => by
      rw [Nat.mod_eq_of_lt (wrapInt_lt _ _)]; push_cast; rfl
  · exact traps_vadd (chkV_raw hq h ht)
  · show execVand f s = _
    rw [execVand, bitOp, binary, vectorOp_traps (chkV_raw hq h ht)]
  · show execVperm f s = _
    rw [execVperm, vectorOp_traps (chkV_raw hq h ht)]
  · exact traps_vadd (chkV_unallocated hq hd ha hb)
  · exact traps_vadd (chkV_unbound hq hd hb ht hn)

end Sys2Proof.Machine
end

section
/-! The predicate ops (R132). -/
open Sys2Proof Sys2Proof.Machine Sys2Proof.Claims

namespace Sys2Proof.Machine

/-! ### Values -/

/-- The bits of the first min(a, n) elements of width `w` are the lowest ones. -/
theorem lenMask_getLsbD (w : Nat) (a : X64) {k : Nat} (hk : k < 256) :
    (lenMask w a).getLsbD k = decide (k < min a.toNat (2048 / w) * (w / 8)) := by
  rw [lenMask, BitVec.getLsbD_ofNat, decide_eq_true hk, Bool.true_and, Nat.testBit_two_pow_sub_one]

/-- PSET repeats the 64 bits four times. -/
theorem fourTimes_getLsbD (a : X64) {k : Nat} (hk : k < 256) :
    ((BitVec.ofNat 256 (ofLanes 64 [a.toNat, a.toNat, a.toNat, a.toNat])) : PBits).getLsbD k = a.getLsbD (k % 64) := by
  have h4 : k / 64 < 4 := by omega
  rw [BitVec.getLsbD_ofNat, decide_eq_true hk, Bool.true_and, ofLanes_testBit (by decide),
    show [a.toNat, a.toNat, a.toNat, a.toNat] = (List.range 4).map (fun _ => a.toNat) from rfl, getD_map_range _ h4, BitVec.getLsbD]

/-- PLEN of a type other than RAW writes its mask. -/
theorem sends_plen {f : RG} {s : State} (h : f.t ≠ .raw) :
    Sends (.plen f) s 2 (.p (s.pp f.d.toNat) (lenMask f.t.width (s.rdX f.a)) (BitVec.allOnes 256) (s.poisonX f.a)) := by
  show execPlen f s = _
  rw [execPlen, needTyped_ok h, issueOp_go]; rfl

/-! ### The obligation -/

/-- Settles O20: an op of two predicates or of one writes its bits whole; PSET, PLEN and PCNT have the values above. -/
theorem predicateOps : Obligations.PredicateOps := by
  unfold Obligations.PredicateOps
  intro f s
  refine ⟨⟨_, fun k _ => BitVec.getLsbD_and, rfl⟩, ⟨_, fun k _ => BitVec.getLsbD_or, rfl⟩, ⟨_, fun k _ => BitVec.getLsbD_xor, rfl⟩,
    ⟨~~~s.rdP f.a.toNat, fun k hk => ?_, rfl⟩, ⟨_, fun _ _ => rfl, rfl⟩, ⟨_, fun k hk => fourTimes_getLsbD _ hk, rfl⟩,
    fun h => ⟨_, fun k hk => lenMask_getLsbD _ _ hk, sends_plen h⟩, ⟨_, popcount_toNat (Nat.le_refl 256) _, rfl⟩⟩
  rw [BitVec.getLsbD_not, decide_eq_true hk, Bool.true_and]

end Sys2Proof.Machine
end

section
/-! A product of 32-bit elements accumulates into lanes of 64 bits, whose poison is that of two 32-bit lanes (R123, R358). -/
open Sys2Proof Sys2Proof.Machine Sys2Proof.Claims

namespace Sys2Proof.Machine

/-! ### A VMACW of INT32 whose accumulator is poisoned in its upper half -/

/-- The lane poison of the vector result that is the only one in flight. -/
def State.sentPoison (s : State) : BitVec 64 :=
  match s.core.iss.pend with
  | [w] => match w.dest with
    | .v _ _ _ po => po
    | _ => 0
  | _ => 0

/-- `vmacw.int32 v1, v2, v3`: no word encodes it (R123: types 3 and 4), but the statement ranges over it. -/
def wideMac : RG := ⟨1, 2, 3, 0, 0, .int32, .fp32, .dyn, false, .none, .eq, .none⟩

/-- All V registers are allocated, and lane 1 of V1, the upper half of its element 0 of 64 bits, is poisoned. -/
def upperHalfBad : State :=
  (State.reset.mapCore (fun c => { c with nV := 64 })).mapRegs (fun r => { r with vPoison := vset r.vPoison 1 2 })

theorem wideMac_ready : VecReady wideMac vf2 [.int32] upperHalfBad := by
  refine ⟨?_, ?_, ?_, ?_, ?_, trivial⟩ <;> decide +kernel

/-- The model's result is poisoned in both lanes of element 0: a poisoned source lane poisons the element (R358). -/
theorem wideMac_sends : ∃ t, exec (.vmacw wideMac) upperHalfBad = .next t ∧ t.sentPoison = 3 := by
  have h : (match exec (.vmacw wideMac) upperHalfBad with | .next t => t.sentPoison == 3 | _ => false) = true := by decide +kernel
  revert h
  cases exec (.vmacw wideMac) upperHalfBad with
  | next t => exact fun h => ⟨t, rfl, by simpa using h⟩
  | fault _ => intro h; cases h
  | refused _ => intro h; cases h

/-- Refutes O16: its last clause takes the poison of the accumulator's 64-bit element `e` from lane 2e alone (`laneBad` is for widths up
to 32). With T = INT32, of which the clause speaks too, a poisoned lane 2e + 1 poisons the model's result and not the stated one. -/
theorem not_vectorUnaryFused : ¬ Obligations.VectorUnaryFused := by
  unfold Obligations.VectorUnaryFused
  rintro ⟨-, h⟩
  obtain ⟨-, hmac⟩ := (h wideMac upperHalfBad).2 rfl wideMac_ready
  obtain ⟨t, ht, hbad⟩ := wideMac_sends
  have he := Host.Outcome.next.inj (ht.symm.trans hmac)
  rw [he] at hbad
  revert hbad
  decide +kernel

end Sys2Proof.Machine
end

section
/-! Reductions: the enabled elements of a source, folded from lane 0 up (R129). -/
open Sys2Proof Sys2Proof.Machine Sys2Proof.Claims

namespace Sys2Proof.Machine

/-! ### The enabled elements -/

/-- The elements that the guard enables, in ascending order. -/
def onLanes (s : State) (g : BitVec 4) (w : Nat) : List Nat := (List.range (2048 / w)).filter (fun e => enabled s g w e)

theorem filterMap_enabled {α : Type} (x : Nat → α) (p : Nat → Bool) (l : List Nat) :
    (l.map (fun e => ((x e, e), p e))).filterMap (fun q => if q.2 then some q.1 else none) = (l.filter p).map (fun e => (x e, e)) := by
  induction l with
  | nil => rfl
  | cons e l ih => cases h : p e <;> simp [h, ih]

/-- The elements that a reduction meets. -/
theorem enabledElems (s : State) (f : RG) {w : Nat} (h : w ≠ 64) :
    ((s.srcA f w).zipIdx.zip (guardBits w (s.guard f.g).1)).filterMap (fun q => if q.2 then some q.1 else none) =
      (onLanes s f.g w).map (fun e => ((lane w (s.vecSrc f .a f.a) e, laneBad w (s.vecSrc f .a f.a) e), e)) := by
  rw [srcA_eq s f h, guardBits_eq, elems, zipIdx_map_range, List.zip_map']
  exact filterMap_enabled _ _ _

/-! ### The fold -/

/-- A fold over a list with its first element as the start, and `z` without one. -/
def foldFrom {α β : Type} (z : α) (x : β → α) (step : β → α → α → α) : List β → α
  | [] => z
  | e :: l => l.foldl (fun acc e => step e acc (x e)) (x e)

theorem foldElems_some {α : Type} (step : Nat → α → α → α) (x : Nat → α) (l : List Nat) : ∀ a : α,
    foldElems step (l.map (fun e => (e, x e))) (some a) = some (l.foldl (fun acc e => step e acc (x e)) a) := by
  induction l with
  | nil => exact fun _ => rfl
  | cons e l ih => exact fun a => ih _

theorem foldElems_eq {α : Type} (step : Nat → α → α → α) (x : Nat → α) (z : α) (l : List Nat) :
    (foldElems step (l.map (fun e => (e, x e))) none).getD z = foldFrom z x step l := by
  cases l with
  | nil => rfl
  | cons e l => exact congrArg (Option.getD · z) (foldElems_some step x l (x e))

/-! ### The result -/

theorem ofLanes_zeros (w n : Nat) : ofLanes w (List.replicate n 0) = 0 := by
  induction n with
  | zero => rfl
  | succ n ih => rw [List.replicate_succ, ofLanes, ih]; simp

/-- A reduction writes lane 0 and zeros, whole (R129). -/
theorem image_lane0 (v : Nat) (po : Bool) :
    (VRes.mk 32 ((v, po) :: List.replicate 63 (0, false))).image (BitVec.allOnes 256, false) =
      (BitVec.ofNat 2048 (v % 2 ^ 32), BitVec.allOnes 256, if po then 1 else 0) := by
  have hg : guardBits 32 (BitVec.allOnes 256) = List.replicate 64 true := by decide
  have hv : ofLanes 32 (v :: List.replicate 63 0) = v % 2 ^ 32 := by rw [ofLanes, ofLanes_zeros, Nat.mul_zero, Nat.add_zero]
  have hm : maskOf 32 (List.replicate 64 true) = BitVec.allOnes 256 := by decide +kernel
  have hp : lanePoison 32 (po :: List.replicate 63 false) = if po then 1 else 0 := by cases po <;> decide +kernel
  have hl : ((v, po) :: List.replicate 63 (0, false)).zip (List.replicate 64 true) = ((v, po), true) :: List.replicate 63 ((0, false), true) := by
    show ((v, po) :: List.replicate 63 (0, false)).zip (true :: List.replicate 63 true) = _
    rw [List.zip_cons_cons, List.zip_replicate']
  have ht : (List.replicate 64 true).take ((v, po) :: List.replicate 63 ((0 : Nat), false)).length = List.replicate 64 true := by
    simp
  simp only [VRes.image, hg, ht, hl, hm, List.map_cons, List.map_replicate, if_true, Bool.or_false, Bool.true_and, hv, hp]

/-- What a reduction of a ready op leaves: its value in lane 0, poisoned where an enabled element or the guard is. -/
theorem reduction_ready {f : RG} {s : State} (hq : f.qsel = .none) (hr : VecReady f vf1 [f.t] s) (seq : Bool)
    (fl : Snap → Nat → Machine.Num → Machine.Num → Machine.Num) (it : Int → Int → Int) (fid : Machine.Num) (iid : Int) :
    let w := f.t.width
    let q := s.vecSrc f .a f.a
    let on := onLanes s f.g w
    let po := decide (∃ e ∈ on, (laneBad w q e || s.poisonP f.g.toNat) = true)
    let v := if f.t.isFloat then (roundFloat .fp32 .rne false 0
        (foldFrom fid (fun e => decodeFloat f.t (lane w q e)) (fl (s.snap f.rnd)) on)).bits
      else wrapInt 32 (foldFrom iid (fun e => signedOf w (lane w q e)) (fun _ => it) on)
    let t := s.writeAfter 12 (.v (s.pv f.d) (BitVec.ofNat 2048 (v % 2 ^ 32)) (BitVec.allOnes 256) (if po then 1 else 0))
    reduction f seq (reduceWith f fl it fid iid) s = .next (if seq then t.takeSeq else t) := by
  intro w q on po v t
  have hpo : orAll ((on.map (fun e => ((lane w q e, laneBad w q e), e))).map (fun q => q.1.2 || (s.guard f.g).2)) = po := by
    rw [List.map_map, Bool.eq_iff_iff, decide_eq_true_iff]
    simp [orAll, State.guard]
  have hres : reduceWith f fl it fid iid s = ⟨32, (v, po) :: List.replicate 63 (0, false)⟩ := by
    simp only [reduceWith, enabledElems s f (width_ne_64 f.t)]
    rw [hpo]
    simp only [List.map_map, Function.comp_def]
    rw [foldElems_eq (fl (s.snap f.rnd)), foldElems_eq (fun _ => it)]
  rw [reduction, (chkV_ready hr).1, issueOp_go, hres, State.putVWith, image_lane0, hq]
  rfl

/-! ### The obligation -/

/-- Settles O18: a reduction's value is the fold over the enabled elements, each float step rounded to FP32. -/
theorem vectorReductions : Obligations.VectorReductions := by
  unfold Obligations.VectorReductions
  intro f s _ hq hr w q on x i fp foldF foldI step po res
  have hF : ∀ op z, foldF op z = fp (foldFrom z x op on) := fun op z => by
    simp only [foldF]; cases on <;> rfl
  have hI : ∀ op z, foldI op z = wrapInt 32 (foldFrom z i (fun _ => op) on) := fun op z => by
    simp only [foldI]; cases on <;> rfl
  simp only [hF, hI]
  refine ⟨?_, ?_, ?_⟩
  · exact reduction_ready hq hr true (fun n e a x => decodeFloat .fp32 (roundElem .fp32 n e (addNum n.mode a x)))
      (fun a x => signedOf 32 (wrapInt 32 (a + x))) (Num.zero false) 0
  · have h := reduction_ready hq hr false (fun _ _ a x => maxNum a x) max (.inf true) (-((2 ^ (f.t.width - 1) : Nat) : Int))
    push_cast at h
    exact h
  · have h := reduction_ready hq hr false (fun _ _ a x => minNum a x) min (.inf false) ((2 ^ (f.t.width - 1) : Nat) - 1)
    push_cast at h
    exact h

end Sys2Proof.Machine
end

section
/-! Vector compare, select and the moves of elements (R124, R125, R130, R131). -/
open Sys2Proof Sys2Proof.Machine Sys2Proof.Claims

namespace Sys2Proof.Machine

/-! ### The number of elements -/

theorem eight_dvd_width (t : Fmt) : 8 ∣ t.width := by rcases width_cases t with h | h | h <;> rw [h] <;> decide

theorem elems_pos (t : Fmt) : 0 < 2048 / t.width := by rcases width_cases t with h | h | h <;> rw [h] <;> decide

theorem elems_mul_bytes (t : Fmt) : 2048 / t.width * (t.width / 8) = 256 := by rcases width_cases t with h | h | h <;> rw [h]

theorem isElem_ne_raw {t : Fmt} (h : isElem t = true) : t ≠ .raw := fun e => by rw [e] at h; exact absurd h (by decide)

/-- The byte lanes of element `e` are set where its flag is. -/
theorem maskOf_element (t : Fmt) {e k : Nat} (he : e < 2048 / t.width) (hk : k < t.width / 8) (p : Nat → Bool) :
    (maskOf t.width ((List.range (2048 / t.width)).map p)).getLsbD (e * t.width / 8 + k) = p e := by
  have hi : e * t.width / 8 + k = t.width / 8 * e + k := by rw [Nat.mul_div_assoc _ (eight_dvd_width t), Nat.mul_comm]
  have hd : (t.width / 8 * e + k) / (t.width / 8) = e := by rw [Nat.mul_add_div (by omega), Nat.div_eq_of_lt hk, Nat.add_zero]
  have hlt : t.width / 8 * e + k < 256 := by
    calc t.width / 8 * e + k < t.width / 8 * (e + 1) := by rw [Nat.mul_succ]; omega
      _ ≤ t.width / 8 * (2048 / t.width) := Nat.mul_le_mul_left _ he
      _ = 256 := by rw [Nat.mul_comm, elems_mul_bytes]
  rw [hi, maskOf_map_getLsbD (by omega) p hlt (by rwa [hd]), hd]

/-! ### Compare and select (R124, R125) -/

/-- Some element of a source is poisoned. -/
theorem orAll_elems (n : Nat) (v : Nat → Nat) (p : Nat → Bool) :
    orAll ((elems n v p).map (·.2)) = true ↔ ∃ e, e < n ∧ p e = true := by
  rw [elems, List.map_map]; exact orAll_map_range p n

/-- VCMP of a ready op writes the conditions of the elements that the guard enables, and poisons the whole of pd. -/
theorem vcmp_ready {f : RG} {s : State} (hr : VecReady f { d := false, a := true, b := true, c := false } [f.t] s) :
    let w := f.t.width
    let qa := s.vecSrc f .a f.a
    let qb := s.vecSrc f .b f.b
    ∃ po : Bool, (po = true ↔ s.poisonP f.g.toNat = true ∨ ∃ e, e < 2048 / w ∧ (laneBad w qa e || laneBad w qb e) = true) ∧
      exec (.vcmp f) s = .next ((s.writeAfter 2 (.p (s.pp f.d.toNat)
        (maskOf w ((List.range (2048 / w)).map (fun e => condElem f.cond f.t (lane w qa e) (lane w qb e))))
        (maskOf w ((List.range (2048 / w)).map (fun e => enabled s f.g w e))) po)).useStream f) := by
  intro w qa qb
  refine ⟨orAll ((elems (2048 / w) (lane w qa) (laneBad w qa)).map (·.2)) || orAll ((elems (2048 / w) (lane w qb) (laneBad w qb)).map (·.2)) ||
    s.poisonP f.g.toNat, ?_, ?_⟩
  · simp only [Bool.or_eq_true, orAll_elems, and_or_left, exists_or]
    rw [or_comm]
  · show execVcmp f s = _
    rw [execVcmp, (chkV_ready hr).1, (chkV_ready hr).2, issueOp_go]
    simp only [srcA_eq s f (width_ne_64 f.t), srcB_eq s f (width_ne_64 f.t), guardBits_eq, elems, List.zip_map', List.map_map]
    rfl

/-- VSEL copies each element from the source that its predicate names (R125). -/
theorem vsel_ready {f : RG} {s : State} (hr : VecReady f vf2 [f.t] s) :
    let w := f.t.width
    let qa := s.vecSrc f .a f.a
    let qb := s.vecSrc f .b f.b
    SendsV (.vsel f) f s 2 false w (2048 / w)
      (fun e => if (s.rdP f.c.toNat).getLsbD (e * w / 8) then lane w qa e else lane w qb e)
      (fun e => (if (s.rdP f.c.toNat).getLsbD (e * w / 8) then laneBad w qa e else laneBad w qb e) || s.poisonP f.c.toNat) := by
  intro w qa qb
  show execVsel f s = _
  rw [execVsel]
  refine vectorOp_elems hr (congrArg _ ?_)
  simp only [srcA_eq s f (width_ne_64 f.t), srcB_eq s f (width_ne_64 f.t), guardBits, elems, List.zip_map', List.map_map]
  refine List.map_congr_left fun e _ => ?_
  cases h : (s.rdP f.c.toNat).getLsbD (e * w / 8) <;> simp [Function.comp, w, qa, qb, h]

/-! ### Moves (R130) -/

theorem vbcast_ready {f : RG} {s : State} (hr : VecReady f vf1 [f.t] s) :
    let w := f.t.width
    let q := s.vecSrc f .a f.a
    let k := (s.rdX f.b).toNat % (2048 / w)
    SendsV (.vbcast f) f s 2 false w (2048 / w) (fun _ => lane w q k) (fun _ => laneBad w q k || s.poisonX f.b) := by
  intro w q k
  show execVbcast f s = _
  rw [execVbcast]
  refine vectorOp_elems hr (congrArg _ ?_)
  rw [srcA_eq s f (width_ne_64 f.t), elemAt_elems (Nat.mod_lt _ (elems_pos f.t))]
  exact replicate_eq_elems _ _ _

/-- VSLIDE takes element i + b, and 0 where there is none. -/
theorem vslide_ready {f : RG} {s : State} (hr : VecReady f vf1 [f.t] s) :
    let w := f.t.width
    let n := 2048 / w
    let q := s.vecSrc f .a f.a
    let b := s.rdX f.b
    SendsV (.vslide f) f s 2 false w n
      (fun e => if 0 ≤ (e : Int) + b.toInt ∧ (e : Int) + b.toInt < n then lane w q ((e : Int) + b.toInt).toNat else 0)
      (fun e => (decide (0 ≤ (e : Int) + b.toInt ∧ (e : Int) + b.toInt < n) && laneBad w q ((e : Int) + b.toInt).toNat) ||
        s.poisonX f.b) := by
  dsimp only
  show execVslide f s = _
  rw [execVslide]
  refine vectorOp_elems hr (congrArg _ (List.map_congr_left fun e _ => ?_))
  rw [srcA_eq s f (width_ne_64 f.t)]
  by_cases h : 0 ≤ (e : Int) + (s.rdX f.b).toInt ∧ (e : Int) + (s.rdX f.b).toInt < ((2048 / f.t.width : Nat) : Int)
  · have hj : ((e : Int) + (s.rdX f.b).toInt).toNat < 2048 / f.t.width := by omega
    simp only [h, and_self, if_true, decide_true, Bool.true_and, elemAt_elems hj]
  · simp only [h, if_false, decide_false, Bool.false_and]

theorem vperm_ready {f : RG} {s : State} (hr : VecReady f vf2 [f.t] s) :
    let w := f.t.width
    let qa := s.vecSrc f .a f.a
    let qb := s.vecSrc f .b f.b
    SendsV (.vperm f) f s 2 false w (2048 / w) (fun e => lane w qa (lane w qb e % (2048 / w)))
      (fun e => laneBad w qa (lane w qb e % (2048 / w)) || laneBad w qb e) := by
  intro w qa qb
  show execVperm f s = _
  rw [execVperm]
  refine vectorOp_elems hr (congrArg _ ?_)
  rw [srcA_eq s f (width_ne_64 f.t), srcB_eq s f (width_ne_64 f.t)]
  refine List.map_map.trans (List.map_congr_left fun e _ => ?_)
  simp only [Function.comp, elemAt_elems (Nat.mod_lt _ (elems_pos f.t))]
  rfl

theorem viota_ready {f : RG} {s : State} (hr : VecReady f { d := true, a := false, b := false, c := false } [f.t] s) :
    SendsV (.viota f) f s 2 false f.t.width (2048 / f.t.width) (fun e => e % 2 ^ f.t.width) (fun _ => false) := by
  show execViota f s = _
  rw [execViota, vectorOp_ready hr]; rfl

/-- VEXT writes element b mod n to a register where the guard enables it, an integer sign-extended (R110). -/
theorem vext_ready {f : RG} {s : State} (hr : VecReady f { d := false, a := true, b := false, c := false } [f.t] s) :
    let w := f.t.width
    let q := s.vecSrc f .a f.a
    let k := (s.rdX f.b).toNat % (2048 / w)
    exec (.vext f) s = .next ((if enabled s f.g w k then s.writeAfter 2 (.x (s.px f.d)
      (if f.t.isInt then BitVec.ofInt 64 (signedOf w (lane w q k)) else BitVec.ofNat 64 (lane w q k))
      (laneBad w q k || s.poisonX f.b || s.poisonP f.g.toNat)) else s).useStream f) := by
  intro w q k
  have hk : k < 2048 / w := Nat.mod_lt _ (elems_pos f.t)
  show execVext f s = _
  rw [execVext, (chkV_ready hr).1, (chkV_ready hr).2, issueOp_go]
  simp only [srcA_eq s f (width_ne_64 f.t), guardBits_eq]
  rw [elemAt_elems hk, getD_map_range _ hk]; rfl

/-- VINS writes element b mod n alone. -/
theorem vins_ready {f : RG} {s : State} (hr : VecReady f { d := true, a := false, b := false, c := false } [f.t] s) :
    let w := f.t.width
    let n := 2048 / w
    let one := maskOf w ((List.range n).map (fun i => i == (s.rdX f.b).toNat % n))
    exec (.vins f) s = .next (s.putVWith f 2 (s.rdP f.g.toNat &&& one, s.poisonP f.g.toNat)
      ⟨w, elems n (fun _ => (s.rdX f.a).toNat % 2 ^ w) (fun _ => s.poisonX f.a || s.poisonX f.b)⟩) := by
  intro w n one
  show execVins f s = _
  rw [execVins, (chkV_ready hr).1, issueOp_go, ← replicate_eq_elems]; rfl

/-- The mask of VINS: the guard's bits in the bytes of one element. -/
theorem insMask_getLsbD (t : Fmt) (g : PBits) (k : Nat) {i : Nat} (hi : i < 256) :
    (g &&& maskOf t.width ((List.range (2048 / t.width)).map (fun e => e == k))).getLsbD i =
      (decide (i / (t.width / 8) = k) && g.getLsbD i) := by
  have hb : 0 < t.width / 8 := by rcases width_cases t with h | h | h <;> rw [h] <;> decide
  have hn : i / (t.width / 8) < 2048 / t.width := Nat.div_lt_of_lt_mul (by rwa [Nat.mul_comm, elems_mul_bytes])
  rw [BitVec.getLsbD_and, maskOf_map_getLsbD hb _ hi hn, Bool.and_comm]
  rfl

/-- VMOVI writes bits w − 1 to 0 of IMM to every enabled element. -/
theorem vmovi_ready {g : VI} {s : State} (ht : isElem g.t = true) (hd : g.d.toNat < s.core.nV) :
    let m := (VRes.mk g.t.width (elems (2048 / g.t.width) (fun _ => g.imm.toNat % 2 ^ g.t.width) (fun _ => false))).image (s.guard g.g)
    Sends (.vmovi g) s 2 (.v (s.pv g.d) m.1 m.2.1 m.2.2) := by
  have hc : chkVmovi g s = .ok := by
    rw [chkVmovi, needAlloc_ok (by simp [State.hasV, hd]), needTyped_ok (isElem_ne_raw ht), Chk.ok_and]
  show execVmovi g s = _
  rw [execVmovi, hc, issueOp_go, ← replicate_eq_elems]

/-! ### The obligation -/

/-- Settles O19: each move's result is its function of the sources' elements. -/
theorem vectorMoves : Obligations.VectorMoves := by
  unfold Obligations.VectorMoves
  refine ⟨fun f s _ => ⟨fun hr => ?_, fun hr => vsel_ready hr⟩, fun f g s _ => ⟨fun hr => ⟨vbcast_ready hr, vslide_ready hr⟩,
    fun hr => vperm_ready hr, fun hr => viota_ready hr, fun hr => ?_, fun _ hr => ?_, fun ht hd => vmovi_ready ht hd⟩⟩
  · obtain ⟨po, hpo, hx⟩ := vcmp_ready hr
    exact ⟨_, _, po, fun e k he hk => maskOf_element f.t he hk _, fun e k he hk => maskOf_element f.t he hk _, hpo, hx⟩
  · refine ⟨_, fun hi => ?_, fun hi => ?_, vext_ready hr⟩
    · rw [if_pos hi]; exact toInt_ofInt_signedOf (width_pos _) ((width_le _).trans (by decide)) _
    · rw [hi, if_neg Bool.false_ne_true, BitVec.toNat_ofNat]
      exact Nat.mod_eq_of_lt ((lane_lt _ _ _).trans_le (Nat.pow_le_pow_right (by decide) ((width_le _).trans (by decide))))
  · exact ⟨_, fun i hi => insMask_getLsbD f.t _ _ hi, vins_ready hr⟩

end Sys2Proof.Machine
end

section
/-! Vector conversion, and the SX blocks of a vector register (R127, R128). -/
open Sys2Proof Sys2Proof.Machine Sys2Proof.Claims

namespace Sys2Proof.Machine

/-! ### Lists in groups -/

theorem range_mul_succ (n m : Nat) : List.range (n * (m + 1)) = List.range (n * m) ++ (List.range n).map (n * m + ·) := by
  rw [Nat.mul_succ, List.range_add]

/-- The groups of `n`, one after another, are one list. -/
theorem flatten_map_range {α : Type} {n : Nat} (hn : 0 < n) (F : Nat → Nat → α) (m : Nat) :
    ((List.range m).map (fun h => (List.range n).map (fun j => F h j))).flatten = (List.range (n * m)).map (fun e => F (e / n) (e % n)) := by
  induction m with
  | zero => simp
  | succ m ih =>
    rw [List.range_succ, List.map_append, List.flatten_append, ih, range_mul_succ, List.map_append, List.map_map]
    simp only [List.map_cons, List.map_nil, List.flatten_cons, List.flatten_nil, List.append_nil]
    refine congrArg _ (List.map_congr_left fun j hj => ?_)
    have hj' : j < n := List.mem_range.1 hj
    rw [Function.comp, Nat.mul_add_div hn, Nat.div_eq_of_lt hj', Nat.add_zero, Nat.mul_add_mod, Nat.mod_eq_of_lt hj']

/-- A list in groups of `n`. -/
theorem groupsOf_map_range {α : Type} {n : Nat} (hn : 0 < n) (m : Nat) : ∀ F : Nat → α,
    groupsOf n m ((List.range (n * m)).map F) = (List.range m).map (fun h => (List.range n).map (fun j => F (n * h + j))) := by
  induction m with
  | zero => exact fun _ => rfl
  | succ m ih =>
    intro F
    have hne : ((List.range (n * (m + 1))).map F).isEmpty = false := by
      rw [List.isEmpty_map, Bool.eq_false_iff, ne_eq, List.isEmpty_iff, List.range_eq_nil]
      exact Nat.mul_ne_zero hn.ne' (Nat.succ_ne_zero m)
    have hr : List.range (n * (m + 1)) = List.range n ++ (List.range (n * m)).map (n + ·) := by
      rw [Nat.mul_succ, Nat.add_comm, List.range_add]
    rw [groupsOf, hne, hr, List.map_append, List.map_map]
    have hl : ((List.range n).map F).length = n := by rw [List.length_map, List.length_range]
    rw [if_neg Bool.false_ne_true, List.take_left' hl, List.drop_left' hl, ih, List.range_succ_eq_map, List.map_cons, List.map_map]
    refine congrArg₂ _ (List.map_congr_left fun j _ => by simp) (List.map_congr_left fun h _ => List.map_congr_left fun j _ => ?_)
    simp only [Function.comp, Nat.mul_succ]
    congr 1; omega

theorem append_replicate_map_range {α : Type} (f : Nat → α) (z : α) {m n : Nat} (h : m ≤ n) :
    (List.range m).map f ++ List.replicate (n - m) z = (List.range n).map (fun i => if i < m then f i else z) := by
  obtain ⟨k, rfl⟩ := Nat.exists_eq_add_of_le h
  rw [List.range_add, List.map_append, List.map_map, Nat.add_sub_cancel_left, replicate_eq_map_range]
  refine congrArg₂ _ (List.map_congr_left fun i hi => (if_pos (List.mem_range.1 hi)).symm) (List.map_congr_left fun i _ => ?_)
  simp

theorem take_drop_map_range {α : Type} (f : Nat → α) {a m n : Nat} (h : a + m ≤ n) :
    (((List.range n).map f).drop a).take m = (List.range m).map (fun i => f (a + i)) := by
  obtain ⟨k, rfl⟩ := Nat.exists_eq_add_of_le h
  rw [Nat.add_assoc, List.range_add, List.map_append, List.drop_left' (by simp), List.map_map]
  exact take_map_range _ (Nat.le_add_right m k)

theorem zip_map_range {α β : Type} (f : Nat → α) (g : Nat → β) {k n : Nat} (h : k ≤ n) :
    ((List.range k).map f).zip ((List.range n).map g) = (List.range k).map (fun e => (f e, g e)) := by
  rw [List.zip_eq_zip_take_min]
  simp only [List.length_map, List.length_range, Nat.min_eq_left h]
  rw [take_map_range f (Nat.le_refl k), take_map_range g h, List.zip_map']

theorem ofLanes_lanesOf (w n : Nat) : ∀ x, ofLanes w (lanesOf w n x) = x % 2 ^ (w * n) := by
  induction n with
  | zero => exact fun x => by simp [lanesOf, ofLanes, Nat.mod_one]
  | succ n ih => exact fun x => by rw [lanesOf, ofLanes, ih, Nat.mod_mod, show w * (n + 1) = w + w * n by ring, pow_add, Nat.mod_mul]

/-! ### Conversion between element types (R127) -/

/-- Element `e` of VCVT's source, converted by R118 with its draw. -/
def cvtElem (f : RG) (s : State) (e : Nat) : Rounded :=
  let w := lane f.t2.width (s.vecSrc f .a f.a) e
  (convSpec f.t f.t2 f.sat f.scl (s.snap f.rnd)).elem w (drawOf s f.rnd e) (decodeElem f.t2 w)

/-- The elements that both types have room for, and whether one that the guard enables saturates (log 17). -/
theorem vcvtResult_elem {f : RG} (s : State) (h : f.t.isSx = false) :
    let n := 2048 / max f.t.width f.t2.width
    vcvtResult f s =
      (⟨f.t.width, elems n (fun e => (cvtElem f s e).bits) (laneBad f.t2.width (s.vecSrc f .a f.a))⟩,
        orAll ((List.range n).map (fun e => (cvtElem f s e).ovf && enabled s f.g f.t.width e))) := by
  intro n
  have ht2 : n ≤ 2048 / f.t2.width := Nat.div_le_div_left (le_max_right _ _) (width_pos _)
  have ht : n ≤ 2048 / f.t.width := Nat.div_le_div_left (le_max_left _ _) (width_pos _)
  simp only [vcvtResult, h, Bool.false_eq_true, if_false, srcA_eq s f (width_ne_64 f.t2), guardBits_eq]
  rw [elems, take_map_range _ ht2, zipIdx_map_range]
  simp only [List.map_map, zip_map_range _ _ ht]
  rfl

/-- VCVT of a ready op sends its result, and OVFS where it is scaled, and takes a SEQ. -/
theorem vcvt_ready {f : RG} {s : State} (hr : VecReady f vf1 [f.t, f.t2] s) :
    exec (.vcvt f) s = .next ((((s.putV f 3 (vcvtResult f s).1).useStream f).putOvfs 3 f.scl (vcvtResult f s).2).takeSeq) := by
  show execVcvt f s = _
  rw [execVcvt, (chkV_ready hr).1, (chkV_ready hr).2, issueOp_go]

theorem isSx_of_isElem {t : Fmt} (h : isElem t = true) : t.isSx = false := by
  revert h; cases t <;> decide

/-! ### SX blocks (R127, R128) -/

/-- Element `e` of an encoding: one that the guard disables enters as +0. -/
def sxElem (f : RG) (s : State) (e : Nat) : Machine.Num :=
  if enabled s f.g 32 e then decodeFloat .fp32 (lane 32 (s.vecSrc f .a f.a) e) else Num.zero false

/-- Block `h` of the source, encoded in the mode `r` with the scale `c`. -/
def sxBlockOf (f : RG) (s : State) (r : Rnd) (c : Scl) (h : Nat) : SxBlock × Bool :=
  (convSpec f.t .fp32 f.sat c (s.snap r)).block ((List.range 16).map (fun j => sxElem f s (16 * h + j))) (fun j => drawOf s r (16 * h + j))

/-- Element `j` of a block as FP32 bits. -/
def sxValue (t : Fmt) (b : SxBlock) (j : Nat) : Nat := (roundFloat .fp32 .rne false 0 (sxDecode (sxMag t) b j)).bits

/-- The four groups of sixteen source elements, each with its poison. -/
theorem sxGroups_eq (s : State) (f : RG) :
    sxGroups (s.srcA f 32) (guardBits 32 (s.guard f.g).1) = (List.range 4).map (fun h => (List.range 16).map (fun j =>
      (sxElem f s (16 * h + j), enabled s f.g 32 (16 * h + j) && laneBad 32 (s.vecSrc f .a f.a) (16 * h + j)))) := by
  rw [sxGroups, srcA_eq s f (by decide), guardBits_eq, elems, List.zip_map', List.map_map]
  refine (groupsOf_map_range (by decide) 4 _).trans (List.map_congr_left fun h _ => List.map_congr_left fun j _ => ?_)
  cases he : enabled s f.g 32 (16 * h + j) <;> simp [Function.comp, sxElem, he]

/-- Some element of group `h` is poisoned. -/
def sxBad (f : RG) (s : State) (h : Nat) : Bool :=
  orAll ((List.range 16).map (fun j => enabled s f.g 32 (16 * h + j) && laneBad 32 (s.vecSrc f .a f.a) (16 * h + j)))

/-- VCVT to an SX type quantises each group of sixteen FP32 elements. -/
theorem vcvtResult_sx {f : RG} (s : State) (h : f.t.isSx = true) (h2 : f.t2 = .fp32) :
    vcvtResult f s =
      (⟨32, elems 64 (fun e => sxValue f.t (sxBlockOf f s f.rnd f.scl (e / 16)).1 (e % 16)) (fun e => sxBad f s (e / 16))⟩,
        orAll ((List.range 4).map (fun h => (sxBlockOf f s f.rnd f.scl h).2))) := by
  simp only [vcvtResult, h, if_true, sxGroups_eq, zipIdx_map_range, List.map_map, Function.comp_def, h2]
  rw [flatten_map_range (by decide)]
  rfl

/-- The bytes of an SX type's four blocks fit a register. -/
theorem blockBytes_sx {t : Fmt} (h : t.isSx = true) : 0 < blockBytes t ∧ 4 * blockBytes t ≤ 256 := by
  revert h; cases t <;> decide

/-- The bytes of block `h` are poisoned: one of its elements is, or a poisoned guard speaks of one (R358). -/
def packBad (f : RG) (s : State) (h : Nat) : Bool :=
  sxBad f s h || (s.poisonP f.g.toNat && orAll (((guardBits 32 (s.guard f.g).1).drop (16 * h)).take 16))

/-- VPACKSX: the bytes of four blocks, then zeros (R128). -/
theorem packResult_eq {f : RG} (s : State) (h : f.t.isSx = true) :
    packResult f s = ⟨8, elems 256 (fun i => if i < 4 * blockBytes f.t then
        sxPack (sxMag f.t) (sxBlockOf f s .dyn .none (i / blockBytes f.t)).1 / 2 ^ (8 * (i % blockBytes f.t)) % 256 else 0)
      (fun i => decide (i < 4 * blockBytes f.t) && packBad f s (i / blockBytes f.t))⟩ := by
  obtain ⟨hp, hle⟩ := blockBytes_sx h
  simp only [packResult, sxGroups_eq, zipIdx_map_range, List.map_map, Function.comp_def, lanesOf_eq_map]
  rw [flatten_map_range hp, Nat.mul_comm, append_replicate_map_range _ _ hle]
  refine congrArg _ (List.map_congr_left fun i _ => ?_)
  by_cases hi : i < 4 * blockBytes f.t
  · simp only [if_pos hi, decide_eq_true hi, Bool.true_and]; rfl
  · simp only [if_neg hi, decide_eq_false hi, Bool.false_and]

/-- The integer that the bytes of block `g` hold. -/
theorem blockWord (q : VBits × BitVec 64) {bs g : Nat} (h : g * bs + bs ≤ 256) :
    ofLanes 8 ((((elems 256 (lane 8 q) (laneBad 8 q)).drop (g * bs)).take bs).map (·.1)) = q.1.toNat / 2 ^ (8 * bs * g) % 2 ^ (8 * bs) := by
  rw [elems, take_drop_map_range _ h, List.map_map, ← ofLanes_lanesOf, lanesOf_eq_map]
  refine congrArg _ (List.map_congr_left fun i _ => ?_)
  rw [Function.comp, lane, Nat.div_div_eq_div_mul, ← pow_add]
  ring_nf

/-- VUNPKSX: the elements of the four blocks that the register's lowest bytes hold (R128). -/
theorem unpackResult_eq {f : RG} (s : State) (h : f.t.isSx = true) :
    let bs := blockBytes f.t
    let q := s.vecSrc f .a f.a
    unpackResult f s = ⟨32, elems 64 (fun e =>
        sxValue f.t (sxUnpack (sxMag f.t) (q.1.toNat / 2 ^ (8 * bs * (e / 16)) % 2 ^ (8 * bs))) (e % 16))
      (fun e => orAll ((((elems 256 (lane 8 q) (laneBad 8 q)).drop (e / 16 * bs)).take bs).map (·.2)))⟩ := by
  dsimp only
  obtain ⟨-, hle⟩ := blockBytes_sx h
  simp only [unpackResult, srcA_eq s f (show 8 ≠ 64 by decide)]
  rw [flatten_map_range (by decide)]
  refine congrArg _ (List.map_congr_left fun e he => ?_)
  have hg : e / 16 * blockBytes f.t + blockBytes f.t ≤ 256 := by
    have h4 : e / 16 + 1 ≤ 4 := by have := List.mem_range.1 he; omega
    calc e / 16 * blockBytes f.t + blockBytes f.t = (e / 16 + 1) * blockBytes f.t := by ring
      _ ≤ 4 * blockBytes f.t := Nat.mul_le_mul_right _ h4
      _ ≤ 256 := hle
  dsimp only
  rw [← blockWord _ hg]
  rfl

/-! ### The obligation -/

/-- Settles O17: the results are those above, under the guard, and OVFS is the OR over their parts. -/
theorem vectorConversions : Obligations.VectorConversions := by
  unfold Obligations.VectorConversions
  refine ⟨fun f s ht _ hr => ?_, fun f s ht => ⟨fun h2 hr => ?_, fun hr => ⟨?_, ?_⟩⟩⟩
  · have hv := vcvt_ready hr
    rw [vcvtResult_elem s (isSx_of_isElem ht)] at hv
    refine ⟨_, ?_, hv⟩
    rw [orAll_map_range]
    simp only [Bool.and_eq_true]; rfl
  · have hv := vcvt_ready hr
    rw [vcvtResult_sx s ht h2] at hv
    exact ⟨_, _, orAll_map_range _ 4, hv⟩
  · refine ⟨fun i => decide (i < 4 * blockBytes f.t) && packBad f s (i / blockBytes f.t), ?_⟩
    show execVpacksx f s = _
    rw [execVpacksx, (chkV_ready hr).1, (chkV_ready hr).2, issueOp_go, packResult_eq s ht]; rfl
  · exact ⟨_, vectorOp_elems (seq := false) hr (unpackResult_eq s ht)⟩

end Sys2Proof.Machine
end

section
/-! Words and bytes of a number, and the bits of an FP32 result (R46, R53, R54). -/
open Sys2Proof Sys2Proof.Machine Sys2Proof.Claims

namespace Sys2Proof.Machine

/-! ### Words and bytes of a number -/

theorem bytesOfNat_eq_map (n : Nat) : ∀ x, bytesOfNat n x = (List.range n).map (fun i => BitVec.ofNat 8 (x / 256 ^ i)) := by
  induction n with
  | zero => exact fun _ => rfl
  | succ n ih =>
    intro x
    rw [bytesOfNat, ih, List.range_succ_eq_map, List.map_cons, List.map_map]
    refine congrArg₂ _ (by simp) (List.map_congr_left fun i _ => ?_)
    rw [Function.comp, Nat.div_div_eq_div_mul, Nat.succ_eq_add_one, Nat.pow_succ']

theorem natOfBytes_lt : ∀ bs : List Byte, natOfBytes bs < 256 ^ bs.length
  | [] => by simp [natOfBytes]
  | b :: bs => by
    have hb : b.toNat < 256 := b.isLt
    have ht := natOfBytes_lt bs
    rw [natOfBytes, List.length_cons, Nat.pow_succ']
    omega

theorem Memory.num_lt (m : Memory) (a n : Nat) : m.num a n < 256 ^ n := by
  have h := natOfBytes_lt (m.bytes a n)
  rwa [Memory.bytes, List.length_map, List.length_range] at h

/-- Field `e` of a bit vector made of fields. -/
theorem ofNat_ofLanes_field {b w n e : Nat} (hb : b = w * n) (he : e < n) (v : Nat → Nat) :
    (BitVec.ofNat b (ofLanes w ((List.range n).map v))).toNat / 2 ^ (w * e) % 2 ^ w = v e % 2 ^ w := by
  subst hb
  refine Nat.eq_of_testBit_eq fun j => ?_
  rw [BitVec.toNat_ofNat, Nat.testBit_mod_two_pow, Nat.testBit_mod_two_pow, Nat.testBit_div_two_pow, Nat.testBit_mod_two_pow]
  by_cases hj : j < w
  · have hk : j + w * e < w * n := by
      calc j + w * e < w * (e + 1) := by rw [Nat.mul_succ]; omega
        _ ≤ w * n := Nat.mul_le_mul_left _ he
    rw [decide_eq_true hk, Bool.true_and, Nat.add_comm j, ofLanes_map_testBit he hj]
  · simp [hj]

/-- Cell `e` of an accumulator made of cells (R8). -/
theorem accumulator_cell {v : Nat → Nat} {e : Nat} (he : e < 16384) (hv : v e < 2 ^ 32) :
    (BitVec.ofNat 524288 (ofLanes 32 ((List.range 16384).map v)) : ABits).toNat / 2 ^ (32 * e) % 2 ^ 32 = v e := by
  rw [ofNat_ofLanes_field (by rfl) he, Nat.mod_eq_of_lt hv]

/-! ### The bits of an FP32 result (R46, R54) -/

theorem infBits_fp32 : infBits .fp32 = 0x7F800000 := rfl

theorem signed_fp32_le (n : Bool) : (if n then signBit .fp32 else 0) ≤ 0x80000000 := by cases n <;> decide

theorem overflowBits_fp32_lt (mode : RMode) (n sat : Bool) : overflowBits .fp32 mode n sat < 2 ^ 32 := by
  have hs := signed_fp32_le n
  have hm : ∀ b : Bool, (if b then infBits .fp32 - 1 else infBits .fp32) ≤ 0x7F800000 := fun b => by cases b <;> decide
  exact (Nat.add_le_add (hm _) hs).trans_lt (by decide)

/-- A result rounded to FP32 fills 32 bits. -/
theorem roundFloat_fp32_lt (mode : RMode) (sat : Bool) (r : Nat) (v : Num) : (roundFloat .fp32 mode sat r v).bits < 2 ^ 32 := by
  cases v with
  | nan => exact (by decide : canonNan .fp32 < 2 ^ 32)
  | inf n => exact (Nat.add_le_add_left (signed_fp32_le n) _).trans_lt (by decide)
  | fin n m e st =>
    have hs := signed_fp32_le n
    simp only [roundFloat]
    split
    · exact hs.trans_lt (by decide)
    · split
      · exact overflowBits_fp32_lt mode n sat
      · next hb =>
        rw [infBits_fp32] at hb
        dsimp only
        omega

end Sys2Proof.Machine
end

section
/-! An MMA: its cells, and what its issue leaves (R142, R149). -/
open Sys2Proof Sys2Proof.Machine Sys2Proof.Claims

namespace Sys2Proof.Machine

/-! ### The cells (R142) -/

theorem cellRun_lt (t : Fmt) (n : Snap) (pat : BitVec 32) (i j c : Nat) (la lb : List MElem) : cellRun t n pat i j c la lb < 2 ^ 32 := by
  unfold cellRun
  dsimp only
  split
  · exact wrapInt_lt _ _
  · exact roundFloat_fp32_lt _ _ _ _

/-- The accumulator in rows of 128 cells. -/
theorem accRows_eq (x : Nat) :
    groupsOf 128 128 (lanesOf 32 16384 x) =
      (List.range 128).map (fun i => (List.range 128).map (fun j => x / 2 ^ (32 * (128 * i + j)) % 2 ^ 32)) := by
  rw [lanesOf_eq_map]
  exact groupsOf_map_range (by decide) 128 _

/-- Cell (i, j) after an MMA is the run of its two lines from the cell before it. -/
theorem mmaResult_cell (f : MM) (n : Snap) (acc : ABits × Bool) (m : OperandMem) (qa qb : Operand) {i j : Nat} (hi : i < 128) (hj : j < 128) :
    (mmaResult f n acc m qa qb).1.toNat / 2 ^ (32 * (128 * i + j)) % 2 ^ 32 =
      cellRun f.t n f.pat i j (acc.1.toNat / 2 ^ (32 * (128 * i + j)) % 2 ^ 32) (qa.line (qa.elems m) i) (qb.line (qb.elems m) j) := by
  simp only [mmaResult, accRows_eq, zip_map_range _ _ (Nat.le_refl 128), List.map_map, Function.comp_def]
  rw [flatten_map_range (by decide), accumulator_cell (by omega) (cellRun_lt _ _ _ _ _ _ _ _), Nat.mul_add_div (by decide), Nat.div_eq_of_lt hj,
    Nat.add_zero, Nat.mul_add_mod, Nat.mod_eq_of_lt hj]

/-- The result is poisoned where the accumulator or an element of either operand is (R358). -/
theorem mmaResult_poison (f : MM) (n : Snap) (acc : ABits × Bool) (m : OperandMem) (qa qb : Operand) :
    (mmaResult f n acc m qa qb).2 = true ↔ acc.2 = true ∨ ∃ e ∈ qa.elems m ++ qb.elems m, e.poison = true := by
  simp only [mmaResult, orAll, Bool.or_eq_true, List.any_map, List.any_eq_true, List.mem_append, Function.comp_apply, id_eq, or_assoc,
    or_and_right, exists_or]

/-! ### The steps of a cell (R142) -/

theorem cellInt_cases (c a b : Int) :
    cellInt 0 c a b = signedOf 32 (wrapInt 32 (c + a * b)) ∧ cellInt 1 c a b = signedOf 32 (wrapInt 32 (c + |a - b|)) ∧
      cellInt 2 c a b = signedOf 32 (wrapInt 32 (max c (a + b))) ∧ cellInt 3 c a b = signedOf 32 (wrapInt 32 (min c (a + b))) := by
  refine ⟨rfl, ?_, rfl, rfl⟩
  rw [← Int.natCast_natAbs]; rfl

theorem patStep_eq (pat : BitVec 32) (k : Nat) : patStep pat k = pat.toNat / 2 ^ (2 * (k % 16)) % 4 := by
  rw [patStep, show 4 = 2 ^ 2 from rfl, ← pow_mul]

/-! ### The issue (R134, R149) -/

/-- Operand A of an MMA: it takes the first unreserved slots of its chute. -/
def mmaOperandA (f : MM) (ca : Chute) : Operand := { chute := ca, first := ca.firstFree, col := f.oa, t := f.t, k := MM.steps f }

/-- Operand B: of one chute for both, the slots behind A's (R149). -/
def mmaOperandB (f : MM) (s : State) (ca cb : Chute) : Operand :=
  { chute := cb, first := if MM.same f s then ca.firstFree + ca.need f.t (MM.steps f) else cb.firstFree, col := f.ob, t := f.t,
    k := MM.steps f }

/-- The accumulator that an MMA computes at its issue, with its poison. -/
def State.mmaValue (s : State) (f : MM) (ca cb : Chute) : ABits × Bool :=
  mmaResult f (s.snap .dyn) (s.rdA f.acc.toNat, s.poisonA f.acc.toNat) (s.operandMem s.core.iss.cur.bundle) (mmaOperandA f ca)
    (mmaOperandB f s ca cb)

/-- The state with the slots of both operands of an MMA reserved (R149). -/
def State.mmaReserved (s : State) (f : MM) (ca cb : Chute) : State :=
  let t := s.setChute (ca.reserve (ca.need f.t (MM.steps f)))
  match t.chute? cb.name with
  | some c => t.setChute (c.reserve (cb.need f.t (MM.steps f)))
  | none => t

@[simp] theorem State.mmaReserved_core (s : State) (f : MM) (ca cb : Chute) : (s.mmaReserved f ca cb).core = s.core := by
  unfold State.mmaReserved; dsimp only; split <;> rfl

@[simp] theorem State.mmaReserved_mem (s : State) (f : MM) (ca cb : Chute) : (s.mmaReserved f ca cb).mem = s.mem := by
  unfold State.mmaReserved; dsimp only; split <;> rfl

/-- Beside the reservation and the matrix unit, an MMA adds its result in flight, its pop in the gate and its target. -/
theorem State.doMma_eq {f : MM} {s : State} {ca cb : Chute} (ha : s.chuteOf f.cha.toNat = some ca) (hb : s.chuteOf f.chb.toNat = some cb) :
    ∃ mx : Core → Matrix, s.doMma f =
      ((((s.mmaReserved f ca cb).writeAfter (feedCycles f.t (MM.steps f) + 140)
        (.a f.acc.toNat (s.mmaValue f ca cb).1 (s.mmaValue f ca cb).2)).gatePush (.pop s.core.opId)).mapCore
          (fun c => { c with accs := f.acc.toNat :: c.accs, opId := c.opId + 1, mx := mx c })).bump := by
  simp only [State.doMma, ha, hb]
  exact ⟨_, rfl⟩

/-- A SEQ changes the registers' counter alone. -/
@[simp] theorem State.takeSeq_regs (s : State) : s.takeSeq.core.regs = { s.core.regs with seq := s.core.regs.seq + 1 } := rfl

/-- An MMA with its slots and its feed free issues, and takes a SEQ. -/
theorem exec_mma_issues {f : MM} {s : State} (hc : chkMma f s = .ok) (hr : readyMma f s = .go) (hv : MM.void f s = false) :
    exec (.mma f) s = .next (s.doMma f).takeSeq := by
  show execMma f s = _
  rw [execMma, hc, hr, issueOp_go, hv]; rfl

end Sys2Proof.Machine

namespace Sys2Proof

/-! ### The obligation -/

/-- Settles O26: the result in flight is `mmaValue`, and its cells are the runs of their two lines. -/
theorem mmaResult : Obligations.MmaResult := by
  unfold Obligations.MmaResult
  refine ⟨fun f s ca cb hc hr hv ha hb => ?_, cellInt_cases, fun m r c a b => ⟨rfl, rfl, rfl, rfl⟩, patStep_eq⟩
  obtain ⟨mx, hd⟩ := State.doMma_eq ha hb
  obtain ⟨w, hdest, hdue, hbun, -, -, hmem⟩ := (s.mmaReserved f ca cb).writeAfter_adds (feedCycles f.t (MM.steps f) + 140)
    (.a f.acc.toNat (s.mmaValue f ca cb).1 (s.mmaValue f ca cb).2)
  rw [State.mmaReserved_core] at hdue hbun
  refine ⟨_, exec_mma_issues hc hr hv, ?_⟩
  rw [hd]
  refine ⟨⟨w, (hmem w).2 (.inl rfl), hdue, hbun, _, _, hdest, fun i j hi hj => mmaResult_cell f _ _ _ _ _ hi hj,
    mmaResult_poison f _ _ _ _ _⟩, ⟨_, List.mem_append_right _ (List.mem_singleton.2 rfl), rfl⟩, List.mem_cons_self, ?_⟩
  simp

end Sys2Proof
end

section
/-! MZERO, MACCLD, MACCST and EPLD (R150, R156). -/
open Sys2Proof Sys2Proof.Machine Sys2Proof.Claims

namespace Sys2Proof.Machine

/-! ### The checks -/

theorem needAcc_ok {s : State} {n : Nat} (h : n < s.core.nA) : s.needAlloc [(50, s.hasA n)] = .ok :=
  needAlloc_ok (by simpa [State.hasA] using h)

theorem chkAccAddr_ok {a : Nat} (h4 : a % 4 = 0) (hr : a + 65536 ≤ lsSize) : chkAccAddr a = .ok := by
  simp [chkAccAddr, need, h4, hr, show a < lsSize by omega]

theorem chkAccAddr_misplaced {a : Nat} (h : a % 4 ≠ 0 ∨ lsSize ≤ a) : chkAccAddr a = .trap 0x08 (BitVec.ofNat 64 a) := by
  have hb : (a % 4 == 0 && decide (a < lsSize)) = false := by
    rcases h with h | h <;> simp [h]
  rw [chkAccAddr, hb]; rfl

theorem chkAccAddr_beyond {a : Nat} (h4 : a % 4 = 0) (hl : a < lsSize) (hr : lsSize < a + 65536) :
    chkAccAddr a = .trap 0x06 (BitVec.ofNat 64 lsSize) := by
  simp [chkAccAddr, need, h4, hl, show ¬ a + 65536 ≤ lsSize by omega]

/-- Up to the address, the checks of MACCLD and MACCST pass where the accumulator is allocated and the operand is clean. -/
theorem chkMaccld_eq {f : MX} {s : State} (hA : f.acc.toNat < s.core.nA) (hp : s.poisonX f.a = false) :
    chkMaccld f s = chkAccAddr (s.rdX f.a).toNat := by
  rw [chkMaccld, needAcc_ok hA, needCtl_clean hp]; rfl

theorem chkMaccst_eq {f : MX} {s : State} (hA : f.acc.toNat < s.core.nA) (hp : s.poisonX f.a = false) :
    chkMaccst f s = (chkAccAddr (s.rdX f.a).toNat).and s.needGate := by
  rw [chkMaccst, needAcc_ok hA, needCtl_clean hp]; rfl

/-- An address that fails its check traps either op. -/
theorem traps_accAddr {f : MX} {s : State} {cause : Nat} {val : X64} (hA : f.acc.toNat < s.core.nA) (hp : s.poisonX f.a = false)
    (hc : chkAccAddr (s.rdX f.a).toNat = .trap cause val) : Traps (.maccld f) s cause val ∧ Traps (.maccst f) s cause val := by
  constructor
  · show execMaccld f s = _
    rw [execMaccld, chkMaccld_eq hA hp, hc, issueOp_trap]
  · show execMaccst f s = _
    rw [execMaccst, chkMaccst_eq hA hp, hc, Chk.trap_and, issueOp_trap]

/-! ### The accumulator's words in the local store (R150) -/

/-- Word `i` that MACCLD reads at `a`, a poisoned one as 0 (R360). -/
def State.accWord (s : State) (a i : Nat) : Nat := if s.viewM.poisoned (ownLs (a + 4 * i)) then 0 else s.viewM.num (ownLs (a + 4 * i)) 4

theorem State.accWord_lt (s : State) (a i : Nat) : s.accWord a i < 2 ^ 32 := by
  unfold State.accWord
  split
  · exact Nat.two_pow_pos _
  · exact s.viewM.num_lt _ 4

theorem ownLs_add (a b : Nat) : ownLs (a + b) = ownLs a + b := (Nat.add_assoc _ _ _).symm

/-- MACCLD of an aligned place sends the words there, and counts a poisoned one. -/
theorem exec_maccld {f : MX} {s : State} (hA : f.acc.toNat < s.core.nA) (hp : s.poisonX f.a = false) (h4 : (s.rdX f.a).toNat % 4 = 0)
    (hr : (s.rdX f.a).toNat + 65536 ≤ lsSize) :
    let bad := (List.range 16384).any (fun i => s.viewM.poisoned (ownLs ((s.rdX f.a).toNat + 4 * i)))
    exec (.maccld f) s = .next (
      let t := s.writeAfter 72 (.a f.acc.toNat (BitVec.ofNat 524288 (ofLanes 32 ((List.range 16384).map (s.accWord (s.rdX f.a).toNat)))) bad)
      if bad then t.writeAfter 72 .loaded else t) := by
  intro bad
  show execMaccld f s = _
  rw [execMaccld, chkMaccld_eq hA hp, chkAccAddr_ok h4 hr, issueOp_go]
  simp only [List.map_map, orAll, List.any_map, Function.comp_def, id_eq, ← ownLs_add]
  rfl

/-- What MACCST stores at `a`: the accumulator's bytes, all of them poisoned where it is (R358). -/
def State.accOutput (s : State) (n a : Nat) : StoreData :=
  { cells := (List.range 65536).map (fun i => (ownLs a + i, BitVec.ofNat 8 ((s.rdA n).toNat / 256 ^ i))),
    poisoned := if s.poisonA n then (List.range 65536).map (fun i => ownLs a + i) else [], ovfs := false }

theorem State.accOutput_cells (s : State) (n a : Nat) : (s.accOutput n a).cells =
    (List.range 65536).map (fun i => (ownLs a + i, BitVec.ofNat 8 ((s.rdA n).toNat / 256 ^ i))) := by
  simp only [State.accOutput]

theorem State.accOutput_clean {s : State} {n : Nat} (a : Nat) (h : s.poisonA n = false) : (s.accOutput n a).poisoned = [] := by
  simp [State.accOutput, h]

/-- MACCST of an aligned place gates the accumulator's bytes. -/
theorem exec_maccst {f : MX} {s : State} (hA : f.acc.toNat < s.core.nA) (hp : s.poisonX f.a = false) (h4 : (s.rdX f.a).toNat % 4 = 0)
    (hr : (s.rdX f.a).toNat + 65536 ≤ lsSize) (hg : s.core.gate.length < 64) :
    exec (.maccst f) s = .next (s.gatePush (.output (s.accOutput f.acc.toNat (s.rdX f.a).toNat))) := by
  show execMaccst f s = _
  rw [execMaccst, chkMaccst_eq hA hp, chkAccAddr_ok h4 hr, needGate_room hg, Chk.ok_and, issueOp_go]
  simp only [bytesOfNat_eq_map, zip_map_range _ _ (Nat.le_refl 65536)]
  rfl

/-! ### EPLD (R156) -/

/-- What the check of the words says: the first failing word traps with its index. -/
def epldVerdict : Option (Nat × Nat) → Chk
  | some (c, i) => .trap c (epldVal i)
  | none => .ok

/-- EPLD of an aligned range in bounds is checked by its words. -/
theorem chkEpld_words {f : MXE} {s : State} (hp : s.poisonX f.a = false) (h4 : (s.rdX f.a).toNat % 4 = 0)
    (hr : (s.rdX f.a).toNat + 4 * f.n.toNat ≤ lsSize) : chkEpld f s = epldVerdict (epiCheck f.n.toNat (epldWords f s) [] 0) := by
  have hb : ((s.rdX f.a).toNat % 4 == 0 && decide ((s.rdX f.a).toNat + 4 * f.n.toNat ≤ lsSize)) = true := by simp [h4, hr]
  simp only [chkEpld, needCtl_clean hp, Chk.ok_and, hb, need]; rfl

theorem chkEpld_range {f : MXE} {s : State} (hp : s.poisonX f.a = false)
    (h : (s.rdX f.a).toNat % 4 ≠ 0 ∨ lsSize < (s.rdX f.a).toNat + 4 * f.n.toNat) : chkEpld f s = .trap 0x08 (epldVal 0) := by
  have hb : ((s.rdX f.a).toNat % 4 == 0 && decide ((s.rdX f.a).toNat + 4 * f.n.toNat ≤ lsSize)) = false := by
    rcases h with h | h <;> simp [h]
  simp only [chkEpld, needCtl_clean hp, Chk.ok_and, hb, need]; rfl

theorem epld_traps {f : MXE} {s : State} {cause : Nat} {val : X64} (hc : chkEpld f s = .trap cause val) : Traps (.epld f) s cause val := by
  show execEpld f s = _
  rw [execEpld, hc, issueOp_trap]

/-! ### The obligation -/

/-- Settles O27: each op by its checks, and MACCLD's accumulator by its words. -/
theorem accumulatorMoves : Obligations.AccumulatorMoves := by
  unfold Obligations.AccumulatorMoves
  refine ⟨fun f s hA => ⟨?_, fun hp h4 hr => ⟨?_, fun hg =>
      ⟨_, exec_maccst hA hp h4 hr hg, _, rfl, s.accOutput_cells _ _, State.accOutput_clean _⟩⟩,
      fun hp h => ?_, fun hp h4 hl hr => ?_⟩,
    fun f s hp => ⟨fun h4 hr hw => ?_, fun h4 hr c i hw => ?_, fun h => ?_⟩⟩
  · show execMzero f s = _
    rw [execMzero, chkMzero, needAcc_ok hA, issueOp_go]
  · exact ⟨_, fun i hi => accumulator_cell hi (s.accWord_lt _ i), exec_maccld hA hp h4 hr⟩
  · have := traps_accAddr hA hp (chkAccAddr_misplaced h)
    rwa [BitVec.ofNat_toNat, BitVec.setWidth_eq] at this
  · exact traps_accAddr hA hp (chkAccAddr_beyond h4 hl hr)
  · have hc : chkEpld f s = .ok := by rw [chkEpld_words hp h4 hr, epldWords, hw]; rfl
    show execEpld f s = _
    rw [execEpld, hc, issueOp_go]; rfl
  · exact epld_traps (by rw [chkEpld_words hp h4 hr, epldWords, hw]; rfl)
  · exact epld_traps (chkEpld_range hp h)

end Sys2Proof.Machine
end

section
/-! MDRAIN to the local store without a program (R152, R154). -/
open Sys2Proof Sys2Proof.Machine Sys2Proof.Claims

namespace Sys2Proof.Machine

/-! ### The rows of a drain without a program (R153) -/

/-- Cell (r, j) of an accumulator (R8). -/
def cellOf (x r j : Nat) : Nat := x / 2 ^ (32 * (128 * r + j)) % 2 ^ 32

theorem program_nil {s : State} (h : s.core.regs.epi = []) : s.program = [] := by rw [State.program, h]; rfl

/-- A row without a program, of FP32 or INT32, is the accumulator's cells. -/
theorem DrainSpec.row_plain {d : DrainSpec} (hp : d.prog = []) (ht : d.t = .fp32 ∨ d.t = .int32) (r : Nat) (cells : List Nat) :
    d.row r cells = { elems := cells.map (fun c => (c, d.poison)), blocks := [], ovfs := false, red := (Num.zero false, false) } := by
  rw [DrainSpec.row, hp]
  rcases ht with ht | ht <;> rw [ht] <;> rfl

theorem drainRows_plain {f : MX} {s : State} (he : s.core.regs.epi = []) (ht : f.t = .fp32 ∨ f.t = .int32) :
    drainRows f s = (List.range 128).map (fun r =>
      { elems := (List.range 128).map (fun j => (cellOf (s.rdA f.acc.toNat).toNat r j, s.poisonA f.acc.toNat)), blocks := [], ovfs := false,
        red := (Num.zero false, false) }) := by
  simp only [drainRows, accRows_eq, zipIdx_map_range, List.map_map]
  refine List.map_congr_left fun r _ => ?_
  rw [Function.comp, DrainSpec.row_plain (program_nil he) ht, List.map_map]
  rfl

/-- Byte `k` of a cell is a byte of the accumulator. -/
theorem cellOf_byte (x r i : Nat) :
    BitVec.ofNat 8 (cellOf x r (i / 4) / 256 ^ (i % 4)) = BitVec.ofNat 8 (x / 256 ^ (512 * r + i)) := by
  refine BitVec.eq_of_getLsbD_eq fun k hk => ?_
  have h8 : ∀ n, 256 ^ n = 2 ^ (8 * n) := fun n => by rw [pow_mul, show 2 ^ 8 = 256 from rfl]
  have hb : k + 8 * (i % 4) < 32 := by omega
  rw [BitVec.getLsbD_ofNat, BitVec.getLsbD_ofNat, cellOf, h8, h8, Nat.testBit_div_two_pow, Nat.testBit_mod_two_pow,
    Nat.testBit_div_two_pow, Nat.testBit_div_two_pow, decide_eq_true hb, Bool.true_and]
  congr 2
  omega

/-- The 512 bytes of such a row. -/
theorem plainRow_bytes {t : Fmt} (ht : t = .fp32 ∨ t = .int32) (x r : Nat) (po : Bool) (bl : List (SxBlock × Bool)) (ov : Bool) (rd : WVal) :
    (DrainRow.mk ((List.range 128).map (fun j => (cellOf x r j, po))) bl ov rd).bytes t =
      (List.range 512).map (fun i => (BitVec.ofNat 8 (x / 256 ^ (512 * r + i)), po)) := by
  have hx : t.isSx = false := by rcases ht with rfl | rfl <;> rfl
  have hw : elemBytes t = 4 := by rcases ht with rfl | rfl <;> rfl
  simp only [DrainRow.bytes, hx, Bool.false_eq_true, if_false, hw, bytesOfNat_eq_map, List.map_map, Function.comp_def]
  rw [flatten_map_range (by decide)]
  exact List.map_congr_left fun i _ => Prod.ext (cellOf_byte x r i) rfl

/-! ### Its output (R154) -/

theorem rowBytes_word {t : Fmt} (ht : t = .fp32 ∨ t = .int32) : rowBytes t = 512 := by rcases ht with rfl | rfl <;> rfl

/-- Without a program a drain to the local store takes one gate entry. -/
theorem State.doDrain_plain {f : MX} {s : State} (he : s.core.regs.epi = []) : s.doDrain f =
    s.gatePush (.output (outputData ((outAddrs (s.rdX f.a) f.t).zip ((drainRows f s).map (fun r => r.bytes f.t)).flatten)
      (orAll ((drainRows f s).map (·.ovfs))) (f.scl ≠ .none))) := by
  rw [State.doDrain, program_nil he]
  simp only [outputOf, redOutput, List.getLast?_nil, List.find?_nil, List.append_nil, List.map_id']

/-- The bytes that it writes: row by row, those of the accumulator. -/
theorem drainCells_plain {f : MX} {s : State} (he : s.core.regs.epi = []) (ht : f.t = .fp32 ∨ f.t = .int32) :
    ((outAddrs (s.rdX f.a) f.t).zip ((drainRows f s).map (fun r => r.bytes f.t)).flatten).map (fun q => (ownLs q.1, q.2.1)) =
      ((List.range 128).map (fun r => (List.range 512).map (fun i => (ownLs (outBase (s.rdX f.a) + r * outPitch (s.rdX f.a) f.t + i),
        BitVec.ofNat 8 ((s.rdA f.acc.toNat).toNat / 256 ^ (512 * r + i)))))).flatten := by
  simp only [outAddrs, rowBytes_word ht, drainRows_plain he ht, List.map_map, Function.comp_def, plainRow_bytes ht]
  simp only [flatten_map_range (show 0 < 512 by decide), zip_map_range _ _ (Nat.le_refl (512 * 128)), List.map_map, Function.comp_def]

theorem drainOvfs_plain {f : MX} {s : State} (he : s.core.regs.epi = []) (ht : f.t = .fp32 ∨ f.t = .int32) :
    orAll ((drainRows f s).map (·.ovfs)) = false := by
  rw [drainRows_plain he ht, orAll, List.any_eq_false]
  simp

/-! ### The obligation -/

/-- Settles O28: the drain is one gate entry, and its bytes are the accumulator's. -/
theorem drainOutput : Obligations.DrainOutput := by
  unfold Obligations.DrainOutput
  intro f s hc hr he ht base pitch
  have hp : pitch = outPitch (s.rdX f.a) f.t := by rw [outPitch, rowBytes_word ht]; rfl
  refine ⟨(s.doDrain f).startDrain.takeSeq, ?_, ?_⟩
  · show execMdrain f s = _
    rw [execMdrain, hc, hr, issueOp_go]
  · rw [State.doDrain_plain he]
    exact ⟨⟨_, _, rfl, rfl, by rw [hp]; exact drainCells_plain he ht, drainOvfs_plain he ht⟩, rfl, rfl, rfl, rfl, rfl, rfl⟩

end Sys2Proof.Machine
end

section
/-! CHOPEN and CHCOMMIT (R145, R146, R199). -/
open Sys2Proof Sys2Proof.Machine Sys2Proof.Claims

namespace Sys2Proof.Machine

/-! ### CHOPEN (R145) -/

/-- A chute that takes no more commits, or has room for one, is not waited for. -/
theorem Chute.not_full {k : Chute} (h : k.final = true ∨ k.room = true) : k.full = false := by
  rcases h with h | h <;> simp [Chute.full, h]

theorem chkChopen_member {f : EA} {s : State} {c : Claim} {k : Chute} (hn : s.chuteNamed (s.rdN f.a.toNat) = some (c, some k))
    (ht : c.ty = .chute) (hm : k.ownMember ≠ none) (hf : k.full = false) : chkChopen f s = .ok := by
  have hs : k.ownMember.isSome = true := Option.isSome_iff_ne_none.2 hm
  simp [chkChopen, hn, ht, hs, hf, need, State.needOwn]

theorem readyChopen_member {f : EA} {s : State} {c : Claim} {k : Chute} (hn : s.chuteNamed (s.rdN f.a.toNat) = some (c, some k))
    (hf : k.full = false) : readyChopen f s = .go := by
  simp [readyChopen, hn, hf]

/-- CHOPEN of a chute that is not full gives the handle, and the tail slot's address or BROKEN. -/
theorem chopen_opens {f : EA} {s : State} {c : Claim} {k : Chute} (hn : s.chuteNamed (s.rdN f.a.toNat) = some (c, some k))
    (ht : c.ty = .chute) (hm : k.ownMember ≠ none) (hf : k.full = false) :
    exec (.chopen f) s = .next (((s.fillCache (s.rdN f.a.toNat)).writeAfter 1 (.ch f.h.toNat (.valid (s.rdN f.a.toNat)))).sendCmd
      (s.px f.d) (.chopen (s.rdN f.a.toNat))
      (some (if k.final then token 6 0 else BitVec.ofNat 64 (k.slotOff k.tail)))).bump := by
  show execChopen f s = _
  rw [execChopen, chkChopen_member hn ht hm hf, readyChopen_member hn hf, issueOp_go]
  simp only [hn]

/-- CHOPEN of a name that resolves to nothing answers GONE. -/
theorem chopen_gone {f : EA} {s : State} (hn : s.chuteNamed (s.rdN f.a.toNat) = none) :
    exec (.chopen f) s = .next (((s.learn (s.rdN f.a.toNat)).writeAfter 1 (.ch f.h.toNat .invalid)).sendCmd (s.px f.d)
      (.chopen (s.rdN f.a.toNat)) (some (token 1 0))).bump := by
  have hc : chkChopen f s = .ok := by rw [chkChopen, hn]
  have hr : readyChopen f s = .go := by rw [readyChopen, hn]
  show execChopen f s = _
  rw [execChopen, hc, hr, issueOp_go]
  simp only [hn]

/-! ### CHCOMMIT (R146) -/

theorem chcommit_commands {f : EA} {s : State} (hh : s.needChute f.h.toNat = .ok) (hg : s.core.gate.length < 64)
    (hv : commitOk (s.rdX f.d) = true) :
    Commands (.chcommit f) s f.d (.chcommit (match s.rdCh f.h.toNat with
      | .valid n => n
      | _ => 0) (s.rdX f.d)) := by
  have hc : chkChcommit f s = .ok := by rw [chkChcommit, hh, hv, needGate_room hg]; rfl
  show execChcommit f s = _
  rw [execChcommit, hc, issueOp_go]
  cases s.rdCh f.h.toNat <;> rfl

theorem chcommit_traps {f : EA} {s : State} {cause : Nat} {val : X64} (hc : chkChcommit f s = .trap cause val) :
    Traps (.chcommit f) s cause val := by
  show execChcommit f s = _
  rw [execChcommit, hc, issueOp_trap]

theorem chkChcommit_reserved {f : EA} {s : State} (hh : s.needChute f.h.toNat = .ok) (hv : commitOk (s.rdX f.d) = false) :
    chkChcommit f s = .trap 0x08 (s.rdX f.d) := by
  rw [chkChcommit, hh, hv]; rfl

theorem chkChcommit_invalid {f : EA} {s : State} (h : s.rdCh f.h.toNat = .invalid) : chkChcommit f s = .trap 0x0F 0 := by
  rw [chkChcommit, State.needChute, h]; rfl

/-! ### The obligation -/

/-- Settles O33: CHOPEN by what the name resolves to, CHCOMMIT by its handle and value. -/
theorem chuteOps : Obligations.ChuteOps := by
  unfold Obligations.ChuteOps
  refine ⟨fun f s c k hn ht hm hk => chopen_opens hn ht hm (Chute.not_full hk), fun f s hn => chopen_gone hn,
    fun f s hh hg => ⟨chcommit_commands hh hg, fun hv => chcommit_traps (chkChcommit_reserved hh hv)⟩,
    fun f s h => chcommit_traps (chkChcommit_invalid h)⟩

end Sys2Proof.Machine
end

section
/-! Bytes of memory after a store of clean bytes (R245, R360). -/
open Sys2Proof Sys2Proof.Machine Sys2Proof.Claims

namespace Sys2Proof.Machine

/-! ### A list of cells (log 1) -/

/-- A list in canonical form from `lo` holds no cell below it. -/
theorem cellsGet_below : ∀ {l : List Host.Cell} {lo a : Nat}, cellsWf lo l = true → a < lo → cellsGet l a = 0
  | [], _, _, _, _ => rfl
  | (k, v) :: t, lo, a, hw, h => by
    simp only [cellsWf, Bool.and_eq_true, decide_eq_true_eq] at hw
    obtain ⟨⟨hk, -⟩, -⟩ := hw
    simp only [cellsGet]
    rw [if_neg (by omega), if_pos (by omega)]

/-- A write of one cell: its byte is the new one, and every other is as before. -/
theorem cellsGet_cellsPut (b : Byte) (a c : Nat) : ∀ {l : List Host.Cell} {lo : Nat}, cellsWf lo l = true →
    cellsGet (cellsPut l a b) c = if c = a then b else cellsGet l c
  | [], _, _ => by
    simp only [cellsPut]
    split <;> grind [cellsGet]
  | (k, v) :: t, lo, hw => by
    simp only [cellsWf, Bool.and_eq_true, decide_eq_true_eq] at hw
    obtain ⟨⟨hk, hv⟩, ht⟩ := hw
    have hlow : ∀ x, x < k + 1 → cellsGet t x = 0 := fun x hx => cellsGet_below ht hx
    have ih := cellsGet_cellsPut b a c ht
    simp only [cellsPut]
    split
    · split <;> grind [cellsGet]
    · split
      · split <;> grind [cellsGet]
      · grind [cellsGet]

/-! ### Bytes of memory -/

theorem Memory.byte_setByte {m : Memory} (h : m.wf = true) (a : Nat) (b : Byte) (c : Nat) :
    (m.setByte a b).byte c = if c = a then b else m.byte c :=
  cellsGet_cellsPut b a c (m.wf_iff.1 h).1

@[simp] theorem Memory.byte_mark (m : Memory) (a c : Nat) : (m.mark a).byte c = m.byte c := by
  unfold Memory.mark; split <;> rfl

@[simp] theorem Memory.byte_unmark (m : Memory) (a c : Nat) : (m.unmark a).byte c = m.byte c := rfl

/-- A fold of steps that each keep a byte keeps it. -/
theorem Memory.byte_foldl {α : Type} {f : Memory → α → Memory} {c : Nat} (hf : ∀ m x, (f m x).byte c = m.byte c) (l : List α) :
    ∀ m : Memory, (l.foldl f m).byte c = m.byte c := by
  induction l with
  | nil => exact fun _ => rfl
  | cons x l ih => exact fun m => (ih _).trans (hf m x)

/-- The poison that a store marks and clears changes no byte: a clean store writes its cells. -/
theorem Memory.byte_store_clean (m : Memory) (cells : List Host.Cell) (c : Nat) :
    (m.store cells []).byte c = (cells.foldl (fun m q => m.setByte q.1 q.2) m).byte c := by
  unfold Memory.store
  rw [Memory.byte_foldl]
  · simp
  · intro m g
    dsimp only
    split
    · exact m.byte_mark g c
    · split
      · exact m.byte_unmark g c
      · rfl

/-- A clean store of `n` bytes from `d` up. -/
theorem Memory.byte_store_range {m : Memory} (h : m.wf = true) (d : Nat) (v : Nat → Byte) (n c : Nat) :
    (m.store ((List.range n).map (fun i => (d + i, v i))) []).byte c = if d ≤ c ∧ c < d + n then v (c - d) else m.byte c := by
  rw [Memory.byte_store_clean]
  induction n with
  | zero => rw [if_neg (by omega)]; rfl
  | succ n ih =>
    rw [List.range_succ, List.map_append, List.foldl_append, List.map_cons, List.map_nil, List.foldl_cons, List.foldl_nil,
      Memory.byte_setByte (Memory.foldl_wf _ (fun m q hm => Memory.setByte_wf q.1 q.2 hm) _ m h), ih]
    by_cases hc : c = d + n
    · rw [if_pos hc, if_pos (by omega), hc, Nat.add_sub_cancel_left]
    · rw [if_neg hc]
      exact if_congr (by omega) rfl rfl

end Sys2Proof.Machine
end

section
/-! Chute copies and the matrix array's events (R140, R149, R152, R160, R161, R198). -/
open Sys2Proof Sys2Proof.Machine Sys2Proof.Claims

namespace Sys2Proof.Machine

/-! ### Chutes by name -/

theorem State.name_of_chute? {s : State} {nm : ClaimName} {c : Chute} (h : s.chute? nm = some c) : c.name = nm :=
  eq_of_beq (List.find?_some (p := fun c : Chute => c.name == nm) h)

/-- A chute that is replaced by one of its own name is the new one. -/
theorem State.chute?_setChute {s : State} {nm : ClaimName} {c d : Chute} (h : s.chute? nm = some c) (hd : d.name = nm) :
    (s.setChute d).chute? nm = some d := by
  have hp : (fun o : Chute => (if o.name == d.name then d else o).name == nm) = fun o => o.name == nm := by
    funext o
    by_cases ho : o.name = nm <;> simp [ho, hd]
  show (s.dev.chutes.map (fun o => if o.name == d.name then d else o)).find? (fun o => o.name == nm) = some d
  rw [List.find?_map, Function.comp_def, hp, show s.dev.chutes.find? (fun o => o.name == nm) = some c from h, Option.map_some,
    State.name_of_chute? h, hd, beq_self_eq_true, if_pos rfl]

@[simp] theorem State.mapCore_chute? (s : State) (f : Core → Core) (nm : ClaimName) : (s.mapCore f).chute? nm = s.chute? nm := rfl

/-! ### A copy lands (R198) -/

/-- A copy of a clean slot stores the committing core's bytes in the member's slot; beside memory it changes the chute's record alone. -/
theorem State.landCopy_clean {s : State} {nm : ClaimName} {core : Nat} {c : Chute} {m : ChuteMember} (hc : s.chute? nm = some c)
    (hm : c.members.find? (fun m => m.core == core) = some m)
    (hp : ∀ i, i < c.slotBytes → s.mem.poisoned (ownLs (c.slotOff m.landed + i)) = false) :
    let d := lsBase + core * lsSize + c.slotOff m.landed
    ∃ k : Chute, s.landCopy nm core = (s.mapMem (fun mm => mm.store ((List.range c.slotBytes).map (fun i =>
      (d + i, s.mem.byte (ownLs (c.slotOff m.landed + i))))) [])).setChute k := by
  have hn : (List.range c.slotBytes).filter (fun i => s.mem.poisoned (ownLs (c.slotOff m.landed) + i)) = [] :=
    List.filter_eq_nil_iff.2 fun i hi => by rw [← ownLs_add, hp i (List.mem_range.1 hi)]; exact Bool.false_ne_true
  simp only [State.landCopy, hc, hm, hn, List.map_nil, ownLs_add]
  exact ⟨_, rfl⟩

theorem landCopy_bytes {s : State} {nm : ClaimName} {core : Nat} {c : Chute} {m : ChuteMember} (hc : s.chute? nm = some c)
    (hm : c.members.find? (fun m => m.core == core) = some m) (hw : s.mem.wf = true)
    (hp : ∀ i, i < c.slotBytes → s.mem.poisoned (ownLs (c.slotOff m.landed + i)) = false) :
    let d := lsBase + core * lsSize + c.slotOff m.landed
    (∀ i, i < c.slotBytes → (s.landCopy nm core).mem.byte (d + i) = s.mem.byte (ownLs (c.slotOff m.landed + i))) ∧
      (∀ a, ¬ (d ≤ a ∧ a < d + c.slotBytes) → (s.landCopy nm core).mem.byte a = s.mem.byte a) ∧
      (s.landCopy nm core).core = s.core := by
  intro d
  obtain ⟨k, hk⟩ := State.landCopy_clean hc hm hp
  have hb : ∀ a, (s.landCopy nm core).mem.byte a =
      if d ≤ a ∧ a < d + c.slotBytes then s.mem.byte (ownLs (c.slotOff m.landed + (a - d))) else s.mem.byte a := by
    intro a
    rw [hk]
    exact Memory.byte_store_range hw d (fun i => s.mem.byte (ownLs (c.slotOff m.landed + i))) _ a
  refine ⟨fun i hi => ?_, fun a ha => ?_, by rw [hk]; rfl⟩
  · rw [hb, if_pos (by omega), Nat.add_sub_cancel_left]
  · rw [hb, if_neg ha]

/-! ### An MMA retires (R149) -/

/-- The chutes with the slots of an MMA popped. -/
def State.popSlots (s : State) (l : List (ClaimName × Nat × Nat)) : State :=
  l.foldl (fun (t : State) q => match t.chute? q.1 with
    | some c => t.setChute (c.pop q.2.2)
    | none => t) s

/-- Pops change the chutes alone. -/
theorem State.popSlots_frame (l : List (ClaimName × Nat × Nat)) : ∀ s : State,
    (s.popSlots l).core = s.core ∧ (s.popSlots l).mem = s.mem := by
  induction l with
  | nil => exact fun _ => ⟨rfl, rfl⟩
  | cons q l ih =>
    intro s
    obtain ⟨hc, hm⟩ := ih (s.popSlots [q])
    refine ⟨hc.trans ?_, hm.trans ?_⟩ <;> simp only [State.popSlots, List.foldl_cons, List.foldl_nil] <;> split <;> rfl

theorem State.popSlots_one {s : State} {nm : ClaimName} {c : Chute} (first k : Nat) (h : s.chute? nm = some c) :
    (s.popSlots [(nm, first, k)]).chute? nm = some (c.pop k) := by
  have hn : (c.pop k).name = nm := (State.name_of_chute? h :)
  simp only [State.popSlots, List.foldl_cons, List.foldl_nil, h]
  exact State.chute?_setChute h hn

/-- A released MMA whose time has come pops its slots and leaves the array. -/
theorem exec_mmaRetire {s : State} {m : MmaFlight} {ms : List MmaFlight} (h : s.core.mx.mmas = m :: ms) (hr : m.released = true)
    (hd : m.due ≤ s.core.now) : exec .mmaRetire s =
      .next ((s.popSlots m.chutes).mapCore (fun c => { c with mx := { c.mx with mmas := c.mx.mmas.drop 1 } })) := by
  have hm : s.retiring = some m := by simp [State.retiring, h, hr, hd]
  show execMmaRetire s = _
  rw [execMmaRetire, hm]; rfl

theorem mmaRetire_pops {s : State} {m : MmaFlight} {ms : List MmaFlight} (h : s.core.mx.mmas = m :: ms) (hr : m.released = true)
    (hd : m.due ≤ s.core.now) :
    Runs .mmaRetire s (fun t => t.core.mx.mmas = ms ∧ t.core.regs = s.core.regs ∧ t.mem = s.mem ∧
      (∀ nm first k, m.chutes = [(nm, first, k)] → ∀ c, s.chute? nm = some c →
        t.chute? nm = some { c with members := c.members.map (fun x => if x.core = ownCore then
          { x with head := x.head + k, reserved := x.reserved - k } else x) })) := by
  obtain ⟨hc, hm⟩ := s.popSlots_frame m.chutes
  refine ⟨_, exec_mmaRetire h hr hd, ?_, ?_, hm, fun nm first k hs c hk => ?_⟩
  · simp [hc, h]
  · simp [hc]
  · rw [hs]
    simpa [Chute.pop] using State.popSlots_one first k hk

/-! ### The feed and the duty (R160, R161) -/

theorem arrayFeedFree_ballast {s : State} (hf : s.core.mx.feeding = true) (hn : s.core.mx.feedUntil ≤ s.core.now)
    (hw : s.mmaWaits = false) :
    exec .arrayFeedFree s = .next (s.mapCore (fun c => { c with mx := c.mx.ballast s.dev.set.rampt })) := by
  show execArrayFeedFree s = _
  simp [execArrayFeedFree, hf, hn, hw]

theorem rampDutyStep_down {s : State} (hn : s.core.mx.dutyAt + s.core.mx.ramp ≤ s.core.now) (hf : s.core.mx.feeding = false) :
    exec .rampDutyStep s = .next (s.mapCore (fun c => { c with mx := { c.mx with
      duty := s.core.mx.duty - 1, dutyAt := s.core.mx.dutyAt + s.core.mx.ramp, ramp := s.dev.set.rampt } })) := by
  show execRampDutyStep s = _
  simp [execRampDutyStep, hf, hn]

theorem rampDutyStep_up {s : State} (hn : s.core.mx.dutyAt + s.core.mx.ramp ≤ s.core.now) (hf : s.core.mx.feeding = true)
    (hu : s.core.mx.dutyAt + s.core.mx.ramp ≤ s.core.mx.feedUntil) :
    exec .rampDutyStep s = .next (s.mapCore (fun c => { c with mx := { c.mx with
      duty := min 8 (max 1 s.core.mx.duty + 1), dutyAt := s.core.mx.dutyAt + s.core.mx.ramp, ramp := s.dev.set.rampt } })) := by
  show execRampDutyStep s = _
  simp [execRampDutyStep, hf, hn, hu]

/-! ### The obligation -/

/-- Settles O51: each event by its equation; a copy by the bytes that its store writes. -/
theorem arrayEvents : Obligations.ArrayEvents := by
  unfold Obligations.ArrayEvents
  intro s
  refine ⟨fun k q h => ?_, fun nm core c m hc hm hw hp => landCopy_bytes hc hm hw hp, fun nm h => ?_,
    fun m ms h hr hd => mmaRetire_pops h hr hd, fun h => ?_, fun hf hn hw => ?_, fun hn hf => ?_, fun hn hf hu => ?_⟩
  · show execChuteCommitLands k s = _
    rw [execChuteCommitLands, h]
  · show execColStagingDone s = _
    rw [execColStagingDone, h]
  · show execDrainComplete s = _
    rw [execDrainComplete, if_pos h]
  · exact ⟨_, arrayFeedFree_ballast hf hn hw, rfl, Nat.min_le_left _ _, rfl, rfl, rfl, rfl⟩
  · exact ⟨_, rampDutyStep_down hn hf, rfl, rfl, rfl, rfl, rfl⟩
  · exact ⟨_, rampDutyStep_up hn hf hu, rfl, rfl, rfl⟩

end Sys2Proof.Machine
end

section
/-! The group ops and the phases of a group (R179 to R182). -/
open Sys2Proof Sys2Proof.Machine Sys2Proof.Claims

namespace Sys2Proof.Machine

/-! ### The checks of a group op -/

theorem State.chkGroup_ok {s : State} {nm : ClaimName} (misuse : Group → Bool) (h : s.resolve s.core.tenant nm = none) :
    s.chkGroup nm misuse = .ok := by
  rw [State.chkGroup, h]

theorem State.chkGroup_misused {s : State} {nm : ClaimName} {misuse : Group → Bool} {c : Claim} {g : Group}
    (hr : s.resolve s.core.tenant nm = some c) (ht : c.ty = .group) (hg : s.dev.group? nm = some g) (hm : misuse g = true) :
    s.chkGroup nm misuse = .trap 0x11 0 := by
  simp [State.chkGroup, hr, ht, hg, hm, need]

/-! ### A name that resolves to none -/

@[simp] theorem State.learn_core (s : State) (nm : ClaimName) : (s.learn nm).core = s.core := by
  unfold State.learn; split <;> rfl

/-- The answer of a group op whose name resolves to none (R180, R209). -/
def State.groupGone (s : State) (f : CG) : State := (s.learn (groupName f s)).writeAfter 1 (.x (s.px f.d) (token 1 0) false)

theorem State.learn_putX (s : State) (f : CG) : (s.learn (groupName f s)).putX f.d 1 gone false = s.groupGone f := by
  simp [State.groupGone, State.putX, State.px, State.rrb, gone]

section
variable {f : CG} {s : State} (hg : s.serialPoint.liveGroup (groupName f s.serialPoint) = none)
include hg

theorem joing_gone (h : chkJoing f s = .ok) : exec (.joing f) s = .next (s.serialPoint.groupGone f) := by
  show execJoing f s = _
  rw [execJoing, h, issueSerial_go s _ _ rfl, hg, State.learn_putX]

theorem leaveg_gone (h : chkMember f s = .ok) : exec (.leaveg f) s = .next (s.serialPoint.groupGone f) := by
  show execLeaveg f s = _
  rw [execLeaveg, h, issueSerial_go s _ _ rfl, hg, State.learn_putX]

theorem barg_gone (h : chkMember f s = .ok) (hr : readyBarg s.serialPoint = .go) :
    exec (.barg f) s = .next (s.serialPoint.groupGone f) := by
  show execBarg f s = _
  rw [execBarg, h, issueSerial_go s _ _ hr, hg, State.learn_putX]
end

/-! ### A group that lives -/

/-- BARG waits for the accesses of earlier bundles (R262). -/
theorem readyBarg_quiet {s : State} (hl : s.core.loads = []) (hf : s.core.fars = []) : readyBarg s = .go := by
  simp [readyBarg, hl, hf]

section
variable {f : CG} {s : State} {g : Group} (hg : s.serialPoint.liveGroup (groupName f s.serialPoint) = some g)
include hg

theorem joing_joins (h : chkJoing f s = .ok) : exec (.joing f) s = .next
    ((s.serialPoint.mapDev (fun d => (d.setGroup { g with members := g.members + 1 }).setStrand s.serialPoint.strandIdx
      (fun t => { t with groups := t.groups ++ [(g.name, (g.phase + 1) % 2 ^ 56)] }))).putX f.d 1
        (BitVec.ofNat 64 ((g.phase + 1) % 2 ^ 56)) false) := by
  show execJoing f s = _
  rw [execJoing, h, issueSerial_go s _ _ rfl, hg]

theorem leaveg_leaves (h : chkMember f s = .ok) : exec (.leaveg f) s = .next
    ((s.serialPoint.putX f.d 1 (BitVec.ofNat 64 g.phase) false).leaveGroup s.serialPoint.strandIdx g.name) := by
  show execLeaveg f s = _
  rw [execLeaveg, h, issueSerial_go s _ _ rfl, hg]

theorem barg_arrives (h : chkMember f s = .ok) (hr : readyBarg s.serialPoint = .go) :
    let a := g.arrive s.serialPoint.strandIdx ((s.serialPoint.joinedPhase g.name).getD 0)
    exec (.barg f) s = .next ((s.serialPoint.mapIss (fun i => { i with
      waits := some (.barg g.name a.2), waitReg := s.serialPoint.px f.d })).checkGroup a.1) := by
  show execBarg f s = _
  rw [execBarg, h, issueSerial_go s _ _ hr, hg]
end

/-! ### Group misuse -/

theorem traps_of_chkMember {f : CG} {s : State} (h : chkMember f s = .trap 0x11 0) :
    Traps (.leaveg f) s 0x11 0 ∧ Traps (.barg f) s 0x11 0 := by
  constructor
  · show execLeaveg f s = _
    rw [execLeaveg, h, issueSerial_trap]
  · show execBarg f s = _
    rw [execBarg, h, issueSerial_trap]

theorem traps_of_chkJoing {f : CG} {s : State} (h : chkJoing f s = .trap 0x11 0) : Traps (.joing f) s 0x11 0 := by
  show execJoing f s = _
  rw [execJoing, h, issueSerial_trap]

/-! ### The phase completes -/

/-- A complete phase steps once; the next one waits for a member that has not arrived (R180). -/
theorem Group.check_one {g : Group} (n : Nat) (he : g.expected = g.arrived) (ha : 0 < g.arrived) (hn : g.arrnext < g.members) :
    Group.check (n + 2) g = (g.turn, g.waiters.filter (fun w => w.2 == g.phase)) := by
  have hc : g.complete = true := by simp [Group.complete, he, ha]
  have ht : g.turn.complete = false := by
    have hne : g.members ≠ g.arrnext := by omega
    simp [Group.complete, Group.turn, hne]
  simp [Group.check, hc, ht]

/-! ### The obligation -/

/-- Settles O41: each op by its check and by what its name resolves to; of a complete phase `check` takes one turn. -/
theorem groupOps : Obligations.GroupOps := by
  unfold Obligations.GroupOps
  refine ⟨fun f s => ⟨fun g hc hg => ?_, fun g hc hg => ?_, fun hn => ?_, fun hr => ?_, fun c g hr ht hg hj => ?_,
    fun c g j hr ht hg hj => ?_⟩, fun g he ha hn => ?_⟩
  · exact ⟨_, joing_joins hg hc, rfl⟩
  · exact ⟨leaveg_leaves hg hc, fun hl hf => barg_arrives hg hc (readyBarg_quiet hl hf)⟩
  · exact ⟨joing_gone hn, fun hc => ⟨leaveg_gone hn hc, fun hl hf => barg_gone hn hc (readyBarg_quiet hl hf)⟩⟩
  · exact ⟨State.chkGroup_ok _ hr, State.chkGroup_ok _ hr⟩
  · exact traps_of_chkMember (State.chkGroup_misused hr ht hg (by simp [hj]))
  · exact traps_of_chkJoing (State.chkGroup_misused hr ht hg (by simp [hj]))
  · rw [Group.check_one 2 he ha hn]
    exact ⟨rfl, rfl, rfl, rfl, rfl, rfl, rfl⟩

end Sys2Proof.Machine
end

section
/-! SPAWN of a record that breaks the rules, while the strand's own store to it is under way (R173, R344, R347). -/
open Sys2Proof Sys2Proof.Machine Sys2Proof.Claims

namespace Sys2Proof.Machine

/-! ### A SPAWN that waits -/

theorem spawn_waits {f : CG} {s : State} {w : Option WaitFor} (h : chkSpawn f s = .ok) (hr : readySpawn f s.serialPoint = .wait w) :
    exec (.spawn f) s = .next (s.serialPoint.hold w) := by
  show execSpawn f s = _
  rw [execSpawn, h, issueSerial_wait s _ _ w hr]

/-- `spawn x0, x0, x0`: the record lies at virtual 0. -/
def spawnAtZero : CG := ⟨0, 0, 0, Ctl.none⟩

/-- The strand's store of 8 bytes at the start of GDDR7, released by the gate and not yet performed. -/
def recordStoreUnderWay : FarOp :=
  { id := 1, strand := 0, bundle := 0, slot := 5, rel := false, parts := [{ addr := 0, len := 8, kind := .so, lost := false }],
    data := { cells := [], poisoned := [], ovfs := false }, atom := none, bytes := 8, tok := 0 }

/-- A strand runs. Virtual 0 maps the start of GDDR7, which holds zeros, so the record's CORES is 0; a store to the record is under way. -/
def emptyRecordStored : State :=
  State.reset.withStrand.mapCore (fun c => { c with table := [{ fetchEntry 0 with vbase := 0 }], fars := [recordStoreUnderWay] })

theorem emptyRecordStored_checks : chkSpawn spawnAtZero emptyRecordStored = .ok := by decide +kernel

theorem emptyRecordStored_waits : readySpawn spawnAtZero emptyRecordStored.serialPoint = .wait (some .other) := by decide +kernel

theorem emptyRecordStored_bad :
    spawnBad (emptyRecordStored.serialPoint.spawnWords (emptyRecordStored.serialPoint.rdX spawnAtZero.a).toNat)
      ((emptyRecordStored.serialPoint.self.map (·.cls)).getD 0) = true := by decide +kernel

/-! ### The obligation -/

/-- Refutes O42: its clause for a record that breaks the rules does not ask that the SPAWN need not wait (`readySpawn`), as its other two
clauses do. While the strand's own far store to the record is under way, the SPAWN of such a record waits and answers nothing yet. -/
theorem not_strandOps : ¬ Obligations.StrandOps := by
  unfold Obligations.StrandOps
  rintro ⟨-, -, hbad, -⟩
  have habort := hbad spawnAtZero emptyRecordStored emptyRecordStored_checks emptyRecordStored_bad
  have hwait := spawn_waits emptyRecordStored_checks emptyRecordStored_waits
  have hs := Host.Outcome.next.inj (hwait.symm.trans habort)
  have hheld : emptyRecordStored.serialPoint.core.iss.held = some .other :=
    (congrArg (fun t : State => t.core.iss.held) hs).symm
  revert hheld
  decide +kernel

end Sys2Proof.Machine
end

section
/-! What stores by any agent leave of the core and the device, and what a change of one strand leaves. -/
open Sys2Proof Sys2Proof.Machine Sys2Proof.Claims

namespace Sys2Proof.Machine

/-! ### Stores -/

/-- Stores lead from `s` to `t`: of the core only the engines and the results in flight differ, of the device only the chutes and the host
writes on their way. -/
structure State.StoresTo (s t : State) : Prop where
  core : t.core = { s.core with
    engs := t.core.engs, iss := { s.core.iss with pend := t.core.iss.pend },
    shadow := { s.core.shadow with pend := t.core.shadow.pend } }
  dev : t.dev = { s.dev with chutes := t.dev.chutes, pieces := t.dev.pieces, ingress := t.dev.ingress }

theorem State.StoresTo.refl (s : State) : s.StoresTo s := ⟨rfl, rfl⟩

theorem State.StoresTo.trans {s t u : State} (h : s.StoresTo t) (k : t.StoresTo u) : s.StoresTo u :=
  ⟨k.core.trans (by rw [h.core]), k.dev.trans (by rw [h.dev])⟩

theorem State.StoresTo.running {s t : State} (h : s.StoresTo t) : t.core.running = s.core.running :=
  (congrArg Core.running h.core :)

theorem State.StoresTo.strands {s t : State} (h : s.StoresTo t) : t.dev.strands = s.dev.strands :=
  (congrArg Dev.strands h.dev :)

theorem State.StoresTo.blocks {s t : State} (h : s.StoresTo t) : t.dev.blocks = s.dev.blocks :=
  (congrArg Dev.blocks h.dev :)

theorem State.StoresTo.msix {s t : State} (h : s.StoresTo t) : t.dev.msix = s.dev.msix :=
  (congrArg Dev.msix h.dev :)

theorem State.StoresTo.page {s t : State} (h : s.StoresTo t) (n : Nat) : t.dev.page n = s.dev.page n :=
  (congrArg (fun d => d.page n) h.dev :)

theorem State.storeAt_stores (s : State) (cells : List Host.Cell) (pois : List Nat) : s.StoresTo (s.storeAt cells pois) := by
  unfold State.storeAt State.redoMmas
  dsimp only
  split <;> exact ⟨rfl, rfl⟩

theorem State.foldl_stores {α : Type} {f : State → α → State} (hf : ∀ (s : State) x, s.StoresTo (f s x)) (l : List α) :
    ∀ s : State, s.StoresTo (l.foldl f s) := by
  induction l with
  | nil => exact State.StoresTo.refl
  | cons x l ih => exact fun s => (hf s x).trans (ih (f s x))

theorem State.landPieces_stores (s : State) : s.StoresTo s.landPieces :=
  (State.foldl_stores (fun t _ => t.storeAt_stores _ _) s.dev.pieces s).trans ⟨rfl, rfl⟩

theorem State.flushUnmapped_stores (s : State) : s.StoresTo s.flushUnmapped := by
  have hdrop : s.landPieces.StoresTo (s.landPieces.mapDev (fun d => { d with ingress := d.ingress.filter s.landPieces.mapsWindow })) :=
    ⟨rfl, rfl⟩
  exact (s.landPieces_stores.trans hdrop).trans (State.foldl_stores (fun t _ => t.storeAt_stores _ _) _ _)

theorem State.tenantStore_stores (s : State) (t v : Nat) (bs : List Byte) : s.StoresTo ((s.tenantStore t v bs).getD s) := by
  unfold State.tenantStore
  cases s.tenantParts t [.store] v bs.length with
  | none => exact .refl s
  | some ps => exact s.storeAt_stores _ _

/-! ### One strand -/

theorem Dev.setStrand_get (d : Dev) {k : Nat} {u : Strand} (f : Strand → Strand) (h : d.strands[k]? = some u) :
    (d.setStrand k f).strands[k]? = some (f u) := by
  simp [Dev.setStrand, h]

@[simp] theorem Dev.setBlock_strands (d : Dev) (b : Nat) (f : Block → Block) : (d.setBlock b f).strands = d.strands := rfl

theorem State.writeRecord_stores (s : State) (k : Nat) : s.StoresTo (s.writeRecord k) := by
  unfold State.writeRecord
  split
  · exact .refl s
  · split
    · exact .refl s
    · dsimp only
      split
      · exact s.tenantStore_stores _ _ _
      · exact (s.tenantStore_stores _ _ _).trans (State.tenantStore_stores _ _ _ _)

@[simp] theorem State.scrambleSave_running (s : State) (k : Nat) : (s.scrambleSave k).core.running = s.core.running := by
  unfold State.scrambleSave
  split
  · rfl
  · split
    · rfl
    · rw [State.bump_core, State.mapDev_core, (State.tenantStore_stores _ _ _ _).running]

/-- A save draws the bytes of the save area anew; of the strand's entry it changes nothing else. -/
theorem State.scrambleSave_get {s : State} {k : Nat} {u : Strand} (h : s.dev.strands[k]? = some u) :
    ∃ n, (s.scrambleSave k).dev.strands[k]? = some { u with saved := n } := by
  simp only [State.scrambleSave, h]
  split
  · exact ⟨u.saved, h⟩
  · refine ⟨s.freeCtr, ?_⟩
    rw [State.bump_dev, State.mapDev_dev]
    exact Dev.setStrand_get _ _ (by rw [(State.tenantStore_stores _ _ _ _).strands, h])

/-- A full save of a strand whose entry has been changed by `f`: the record is written, and the save area drawn. -/
theorem State.saved_get {s : State} {k : Nat} {u : Strand} (f : Strand → Strand) (h : s.dev.strands[k]? = some u) :
    ∃ n, (((s.mapDev (fun d => d.setStrand k f)).writeRecord k).scrambleSave k).dev.strands[k]? = some { f u with saved := n } :=
  State.scrambleSave_get (by rw [(State.writeRecord_stores _ k).strands]; exact Dev.setStrand_get _ f h)

end Sys2Proof.Machine
end

section
/-! The scheduler's events (R168, R170, R177, R178, R193 to R195, R364 to R367). -/
open Sys2Proof Sys2Proof.Machine Sys2Proof.Claims

namespace Sys2Proof.Machine

/-! ### A strand leaves the core -/

theorem Strand.saveFrom_full {t : Strand} (c : Core) {st : StrandState} (pc : Nat) (h : t.saves st = true) :
    (t.saveFrom c st pc).full = true := by
  simp [Strand.saveFrom, h]

theorem State.leaveCore_running (s : State) (st : StrandState) (pc : Nat) : (s.leaveCore st pc).core.running = none := by
  unfold State.leaveCore
  split
  · assumption
  · rfl

theorem State.leaveCore_get {s : State} {k : Nat} {u : Strand} (st : StrandState) (pc : Nat) (hr : s.core.running = some k)
    (h : s.dev.strands[k]? = some u) : ∃ c, (s.leaveCore st pc).dev.strands[k]? = some (u.saveFrom c st pc) := by
  exact ⟨((s.mapCore Core.dropQueue).tick (max 1 (s.core.landWait st))).core.landAll, by simp [State.leaveCore, hr, h]⟩

/-- A halted core saves its strand in full, in the state `st` at the last committed restart point (R364, R365). -/
theorem State.saveHalted_saves {s : State} {k : Nat} {u : Strand} {st : StrandState} (w : Option WaitFor)
    (hr : s.core.running = some k) (h : s.dev.strands[k]? = some u) (hs : u.saves st = true) :
    (s.saveHalted st w).core.running = none ∧ ∃ t, (s.saveHalted st w).dev.strands[k]? = some t ∧ t.state = st ∧
      t.pc = s.core.shadow.pc ∧ t.full = true := by
  obtain ⟨c, hc⟩ := State.leaveCore_get st s.core.shadow.pc hr h
  simp only [State.saveHalted, hr]
  refine ⟨?_, ?_⟩
  · rw [State.scrambleSave_running, (State.writeRecord_stores _ _).running, State.mapDev_core, State.leaveCore_running]
  · exact (State.saved_get _ hc).elim (fun _ hn => ⟨_, hn, rfl, rfl, Strand.saveFrom_full c s.core.shadow.pc hs⟩)

/-! ### Pickup (R170) -/

/-- The core holds the context of the strand `k`, whose entry was `u`, with the registers `r` and the table. -/
def Core.Resumes (c : Core) (k : Nat) (u : Strand) (table : List Entry) (r : Regs) : Prop :=
  c.running = some k ∧ c.iss.pc = u.pc ∧ c.regs = { r with q := c.regs.q } ∧ c.nV = u.nV ∧ c.nA = u.nA ∧ c.table = table ∧
    c.tableOf = some u.tenant ∧ c.tenant = u.tenant ∧ c.number = u.number ∧ c.gate = [] ∧ (u.issuing = [] → c.iss.iq = []) ∧
    c.shadow.pc = u.pc

theorem State.StoresTo.resumes {s t : State} {k : Nat} {u : Strand} {table : List Entry} {r : Regs} (h : s.StoresTo t)
    (hc : s.core.Resumes k u table r) : t.core.Resumes k u table r := by
  rw [h.core]; exact hc

/-- A pickup: the context is placed and the entry is running, then the window writes that no table maps are performed, and the register
clear takes its cycles. -/
theorem State.startStrand_steps {s : State} {k : Nat} {u : Strand} (table : List Entry) (h : s.dev.strands[k]? = some u) :
    ∃ v : State, s.startStrand k u table = v.flushUnmapped.tick (2 + u.nV / 8 + 64 * u.nA) ∧
      v.core.Resumes k u table (s.resumedRegs u) ∧ v.core.now = s.core.now ∧
      ∃ w, v.dev.strands[k]? = some w ∧ w.state = .running := by
  refine ⟨_, rfl, ⟨rfl, rfl, rfl, rfl, rfl, rfl, rfl, rfl, rfl, rfl, fun hi => by rw [hi]; rfl, rfl⟩, rfl, ?_⟩
  cases u.block with
  | none => exact ⟨_, Dev.setStrand_get s.dev _ h, rfl⟩
  | some b => simp only [Dev.setBlock_strands]; exact ⟨_, Dev.setStrand_get s.dev _ h, rfl⟩

theorem State.startStrand_runs {s : State} {k : Nat} {u : Strand} (table : List Entry) (h : s.dev.strands[k]? = some u) :
    let t := s.startStrand k u table
    t.core.Resumes k u table (s.resumedRegs u) ∧ t.core.now = s.core.now + (2 + u.nV / 8 + 64 * u.nA) ∧
      ∃ w, t.dev.strands[k]? = some w ∧ w.state = .running := by
  obtain ⟨v, hv, hc, hn, w, hw, hs⟩ := State.startStrand_steps table h
  have hf := v.flushUnmapped_stores
  rw [hv]
  refine ⟨hf.resumes hc, ?_, w, ?_, hs⟩
  · rw [State.tick_core_now, hf.core, ← hn]
  · rw [State.tick_dev, hf.strands, hw]

theorem exec_pickup {s : State} {k : Nat} {u : Strand} {table : List Entry} (hm : s.mayPick = true) (hk : s.dev.pick.1 = some k)
    (hu : s.dev.pick.2.strands[k]? = some u) (hl : State.saveLost { s with dev := s.dev.pick.2 } u = false)
    (ht : State.loadTable { s with dev := s.dev.pick.2 } u = some table) :
    exec .pickup s = .next (State.startStrand { s with dev := s.dev.pick.2 } k u table) := by
  show execPickup s = _
  simp [execPickup, hm, hk, hu, hl, ht]

/-! ### Pre-emption (R193, R194, R364 to R366) -/

theorem exec_preempt {s : State} {k : Nat} (hr : s.core.running = some k) (hh : s.core.iss.halted = false) :
    exec .preempt s = .next s.halt.requeue := by
  show execPreempt s = _
  simp [execPreempt, hr, hh]

theorem contextSave_saves {s : State} {k : Nat} {u : Strand} (hr : s.core.running = some k) (hh : s.core.iss.halted = true)
    (h : s.dev.strands[k]? = some u) :
    Runs .contextSave s (fun t => t.core.running = none ∧
      ∃ w, t.dev.strands[k]? = some w ∧ w.state = .runnable ∧ w.pc = s.core.shadow.pc ∧ w.full = true) := by
  refine ⟨s.saveHalted .runnable s.core.iss.waits, ?_, State.saveHalted_saves _ hr h rfl⟩
  show execContextSave s = _
  simp [execContextSave, hr, hh]

theorem exec_sliceExpiry {s : State} (h : s.sliceDue = true) : exec .sliceExpiry s = .next s.halt.requeue := by
  show execSliceExpiry s = _
  rw [execSliceExpiry, if_pos h]

theorem exec_classPreemption {s : State} (h : s.classDue = true) : exec .classPreemption s = .next s.halt := by
  show execClassPreemption s = _
  rw [execClassPreemption, if_pos h]

theorem exec_deschedule {s : State} (h : s.descheduleDue = true) :
    exec .deschedule s = .next (s.halt.saveHalted .waiting s.longWait) := by
  show execDeschedule s = _
  rw [execDeschedule, if_pos h]

/-! ### Waits and tokens (R177, R366) -/

section
variable {s : State} {k : Nat} {u : Strand} (h : s.dev.strands[k]? = some u)
include h

theorem waitEventOccurred_wakes (hw : u.state = .waiting) (he : s.eventHolds u = true) :
    Runs (.waitEventOccurred k) s (fun t => t.dev.strands[k]? = some { u with state := .runnable, waits := none, since := s.core.now } ∧
      t.mem = s.mem ∧ t.core = s.core) := by
  have hk : s.wakes k = true := by simp [State.wakes, h, hw, he]
  refine ⟨s.mapDev (fun d => d.setStrand k (fun t => { t with state := .runnable, waits := none, since := s.core.now })), ?_,
    Dev.setStrand_get s.dev _ h, rfl, rfl⟩
  show execWaitEventOccurred k s = _
  rw [execWaitEventOccurred, if_pos hk]

theorem exec_pendingTokenArrival {r : Reg} {v : X64} {i : Inter} (hr : s.core.running ≠ some k)
    (hi : u.pending.find? (fun i => i.reg == .x r.toNat) = some i) (hl : ∀ l ∈ s.core.loads, l.id ≠ i.id)
    (hf : ∀ f ∈ s.core.fars, f.id ≠ i.id) (he : ∀ e ∈ s.core.engs, e.id ≠ i.id) :
    exec (.pendingTokenArrival k r v) s = .next (s.deliverTok r.toNat i.id v false) := by
  have hload : s.core.loads.any (fun l => l.id == i.id) = false := by simpa using hl
  have hfar : s.core.fars.any (fun f => f.id == i.id) = false := by simpa using hf
  have heng : s.core.engs.find? (fun e => e.id == i.id) = none := by simpa using he
  show execPendingTokenArrival k r v s = _
  simp [execPendingTokenArrival, hr, h, hi, hload, hfar, heng]

/-! ### The owner runtime and strands (R168, R178, R367) -/

theorem park_parks (hr : s.core.running ≠ some k) (hs : u.state = .runnable ∨ u.state = .waiting) :
    Runs (.park k) s (fun t => t.dev.strands[k]? = some { u with state := .parked, wasWaiting := decide (u.state = .waiting) } ∧
      t.core = s.core) := by
  refine ⟨_, rfl, ?_, ?_⟩
  · rw [if_neg hr]
    exact (Dev.setStrand_get s.dev _ h).trans (congrArg some (if_pos hs))
  · rw [if_neg hr]; rfl

theorem unpark_resumes (hs : u.state = .parked) :
    Runs (.unpark k) s (fun t => t.core = s.core ∧ t.dev.strands[k]? = some { u with
      state := if u.wasWaiting && u.waits.isSome then .waiting else .runnable, since := s.core.now, byFence := false }) :=
  ⟨_, rfl, rfl, (Dev.setStrand_get { s.dev with quiesced := false } _ h).trans (congrArg some (if_pos hs))⟩

theorem kill_kills (hr : s.core.running ≠ some k) (hs : u.state = .parked ∨ u.state = .waiting ∨ u.state = .trapped) :
    Runs (.kill k) s (fun t => t.core = s.core ∧ ∃ w, t.dev.strands[k]? = some w ∧ w.state = .killed ∧ w.ending = true) := by
  have hl : (u.live && u.state != .runnable) = true := by
    rcases hs with hs | hs | hs <;> simp [Strand.live, hs]
  refine ⟨_, rfl, ?_⟩
  rw [State.killStrand, if_neg hr]
  exact ⟨rfl, _, (Dev.setStrand_get s.dev _ h).trans (congrArg some (if_pos hl)), rfl, rfl⟩

theorem resume_resumes (hs : u.state = .trapped) (hd : u.debugHold = true) :
    Runs (.resume k) s (fun t => t.core = s.core ∧ ∃ w, t.dev.strands[k]? = some w ∧ w.state = .runnable ∧
      w.pc = u.regs.sys.trappc.toNat ∧ w.rett = true ∧ w.regs.sys.trapc.getLsbD 8 = false ∧ w.regs.x = u.regs.x) := by
  have ht : (decide (u.state = .trapped) && u.debugHold) = true := by simp [hs, hd]
  have hin : (u.regs.sys.trapc &&& ~~~(0x100#64)).getLsbD 8 = false := by simp
  exact ⟨_, rfl, rfl, _, (Dev.setStrand_get s.dev _ h).trans (congrArg some (if_pos ht)), rfl, rfl, rfl, hin, rfl⟩

theorem changeAffinity_changes {c : Nat} {cores : BitVec 8} (hs : u.state = .parked) (hn : cores ≠ 0) (hc : c < 32)
    (hf : u.fresh = true ∨ c = u.cluster) :
    Runs (.changeAffinity k c cores) s (fun t => t.core = s.core ∧
      t.dev.strands[k]? = some { u with cluster := c, cores := cores }) := by
  have hok : (decide (u.state = .parked) && cores != 0 && decide (c < 32) && (u.fresh || c == u.cluster)) = true := by
    rw [decide_eq_true hs, bne_iff_ne.mpr hn, decide_eq_true hc]
    simpa using hf
  exact ⟨_, rfl, rfl, (Dev.setStrand_get s.dev _ h).trans (congrArg some (if_pos hok))⟩

theorem exec_strandEnd (he : s.endingStrand = some k) : exec .strandEnd s = .next (s.endStrand k u.state) := by
  show execStrandEnd s = _
  simp [execStrandEnd, he, h]
end

/-! ### The obligation -/

/-- Settles O48: each event by its equation, a pickup and a save by what they leave in the core and the strand's entry. -/
theorem strandEvents : Obligations.StrandEvents := by
  unfold Obligations.StrandEvents
  intro s k u h
  refine ⟨fun table hm hk hu hl ht => ?_, exec_preempt, fun hr hh => contextSave_saves hr hh h, exec_sliceExpiry, exec_classPreemption,
    exec_deschedule, waitEventOccurred_wakes h, fun r v i hr hi hl hf he => exec_pendingTokenArrival h hr hi hl hf he, park_parks h,
    unpark_resumes h, kill_kills h, resume_resumes h, fun c cores hs hn hc hf => changeAffinity_changes h hs hn hc hf, exec_strandEnd h⟩
  obtain ⟨⟨hrun, hpc, hregs, hnv, hna, htab, hof, hten, hnum, hgate, hiq, hshadow⟩, hnow, hstate⟩ :=
    State.startStrand_runs (s := { s with dev := s.dev.pick.2 }) table hu
  exact ⟨_, exec_pickup hm hk hu hl ht, hrun, hpc, hregs, hnv, hna, htab, hof, hten, hnum, hgate, hiq, hshadow, hnow, hstate⟩

end Sys2Proof.Machine
end

section
/-! The tenant queue, its blocks and their strands (R183 to R192, R397). -/
open Sys2Proof Sys2Proof.Machine Sys2Proof.Claims

namespace Sys2Proof.Machine

/-! ### Tenant pages -/

theorem Dev.mapPage_other (d : Dev) {t o : Nat} (f : Page → Page) (h : o ≠ t) : (d.mapPage t f).page o = d.page o :=
  vget_vset_other _ _ _ _ _ h

/-- A change of a page that keeps a part of it keeps that part of every page. -/
theorem Dev.mapPage_keeps {α : Type} (d : Dev) (t n : Nat) {f : Page → Page} {g : Page → α} (hg : ∀ p, g (f p) = g p) :
    g ((d.mapPage t f).page n) = g (d.page n) := by
  by_cases h : n = t
  · subst h
    by_cases hn : n < 64
    · rw [Dev.mapPage_page d f hn, hg]
    · simp [Dev.page, Dev.mapPage, Dev.setPage, vget, vset, Vector.getD, hn]
  · rw [Dev.mapPage_other d f h]

@[simp] theorem Dev.mapPage_msix (d : Dev) (t : Nat) (f : Page → Page) : (d.mapPage t f).msix = d.msix := rfl

@[simp] theorem Dev.mapPage_blocks (d : Dev) (t : Nat) (f : Page → Page) : (d.mapPage t f).blocks = d.blocks := rfl

theorem Dev.raiseError_msix (d : Dev) (t : Nat) : (d.raiseError t).msix = d.msix ++ (if (d.page t).errint then [(t, 1)] else []) := by
  unfold Dev.raiseError
  split
  · rfl
  · simp

@[simp] theorem Dev.raiseError_blocks (d : Dev) (t : Nat) : (d.raiseError t).blocks = d.blocks := by
  unfold Dev.raiseError; split <;> rfl

/-! ### TAIL_WRITE (R397) -/

section
variable {s : State} {t : Nat} {v : BitVec 32} (l : Bool) (ha : (s.dev.page t).active = true)
include ha

theorem exec_tailWrite_held (hv : (v - (s.dev.page t).head).toNat ≤ 2 ^ (s.dev.page t).qsize) :
    exec (.tailWrite ⟨t, l⟩ v) s = .next (s.landPieces.mapDev (fun d => d.mapPage t (fun p =>
      { (if l then p.newLaunch else p) with tail := v }))) := by
  show execTailWrite ⟨t, l⟩ v s = _
  simp only [execTailWrite, State.landPieces_page, ha, hv, Bool.not_true, Bool.false_eq_true, if_false, if_true]

theorem exec_tailWrite_beyond (hv : 2 ^ (s.dev.page t).qsize < (v - (s.dev.page t).head).toNat) :
    exec (.tailWrite ⟨t, l⟩ v) s = .next (s.landPieces.mapDev (fun d =>
      (d.mapPage t (fun p => { p with badtail := min (p.badtail + 1) (2 ^ 32 - 1) })).raiseError t)) := by
  have hn : ¬ (v - (s.dev.page t).head).toNat ≤ 2 ^ (s.dev.page t).qsize := Nat.not_le.mpr hv
  show execTailWrite ⟨t, l⟩ v s = _
  simp only [execTailWrite, State.landPieces_page, ha, hn, Bool.not_true, Bool.false_eq_true, if_false]

theorem tailWrite_sets (ht : t < 64) (hv : (v - (s.dev.page t).head).toNat ≤ 2 ^ (s.dev.page t).qsize) :
    Runs (.tailWrite ⟨t, l⟩ v) s (fun u =>
      u.dev.page t = { (if l then (s.dev.page t).newLaunch else s.dev.page t) with tail := v } ∧
      (∀ o, o ≠ t → u.dev.page o = s.dev.page o) ∧ u.dev.msix = s.dev.msix ∧ u.core = s.landPieces.core ∧ u.mem = s.landPieces.mem) := by
  refine ⟨_, exec_tailWrite_held l ha hv, ?_, fun o ho => ?_, s.landPieces_stores.msix, rfl, rfl⟩
  · rw [State.mapDev_dev, Dev.mapPage_page _ _ ht, State.landPieces_page]
  · rw [State.mapDev_dev, Dev.mapPage_other _ _ ho, State.landPieces_page]

theorem tailWrite_counts (ht : t < 64) (hv : 2 ^ (s.dev.page t).qsize < (v - (s.dev.page t).head).toNat) :
    Runs (.tailWrite ⟨t, l⟩ v) s (fun u =>
      u.dev.page t = { s.dev.page t with badtail := min ((s.dev.page t).badtail + 1) (2 ^ 32 - 1) } ∧
      u.dev.msix = s.dev.msix ++ (if (s.dev.page t).errint then [(t, 1)] else []) ∧ u.core = s.landPieces.core ∧
      u.mem = s.landPieces.mem) := by
  refine ⟨_, exec_tailWrite_beyond l ha hv, ?_, ?_, rfl, rfl⟩
  · rw [State.mapDev_dev, Dev.raiseError_page, Dev.mapPage_page _ _ ht, State.landPieces_page]
  · rw [State.mapDev_dev, Dev.raiseError_msix, Dev.mapPage_page _ _ ht, Dev.mapPage_msix, State.landPieces_page, s.landPieces_stores.msix]
end

/-! ### BLOCK_READ (R185, R397) -/

/-- The next block of tenant `t`'s queue, by its place. -/
def Page.blockPlace (p : Page) : Nat := p.qbase.toNat + 256 * (p.head.toNat % 2 ^ p.qsize)

/-- A block that cannot be read is dropped, and HEAD passes it. -/
theorem blockRead_drops {s : State} {t : Nat} (ht : t < 64) (hb : (s.dev.page t).hasBlock = true)
    (hl : s.landPieces.loadBy (s.landPieces.listEntries t) (s.dev.page t).blockPlace 256 = none) :
    Runs (.blockRead t) s (fun u => u.dev.page t = { s.dev.page t with
      head := (s.dev.page t).head + 1, dropped := min ((s.dev.page t).dropped + 1) 65535 } ∧ u.dev.blocks = s.dev.blocks) := by
  rw [Page.blockPlace] at hl
  refine ⟨s.landPieces.dropBlock t, ?_, ?_, ?_⟩
  · show execBlockRead t s = _
    simp [execBlockRead, State.landPieces_page, hb, hl]
  · rw [State.dropBlock, State.mapDev_dev, Dev.raiseError_page, Dev.mapPage_page _ _ ht, State.landPieces_page, satUp16]
  · rw [State.dropBlock, State.mapDev_dev, Dev.raiseError_blocks, Dev.mapPage_blocks, s.landPieces_stores.blocks]

theorem wordAt_lt (bs : List Byte) (o : Nat) : wordAt bs o < 2 ^ 64 :=
  calc natOfBytes ((bs.drop o).take 8) < 256 ^ ((bs.drop o).take 8).length := natOfBytes_lt _
    _ ≤ 256 ^ 8 := Nat.pow_le_pow_right (by omega) (List.length_take_le _ _)

/-- What the bytes `bs` of an operator block of tenant `t`, whose page is `p`, say of the block that is read (R184, R185). -/
def Block.ReadFrom (b : Block) (bs : List Byte) (t : Nat) (p : Page) : Prop :=
  b.tenant = t ∧ b.placed = 0 ∧ b.complete = false ∧ b.seq.toNat = wordAt bs 24 ∧ b.sheaves = b.sheafCount ∧
    b.cls = wordAt bs 8 / 2 ^ 4 % 4 ∧ (p.launchBad = true ∨ blockGood bs b = false → b.rejected = some 0x03)

theorem blockOfBytes_readFrom (bs : List Byte) (t : Nat) (tpl : Template) (p : Page) (home : List Part) {cause : Option Nat}
    (h : p.launchBad = true ∨ blockGood bs (blockOfBytes bs t tpl p) = false → cause = some 0x03) :
    Block.ReadFrom { blockOfBytes bs t tpl p with
      sheaves := (blockOfBytes bs t tpl p).sheafCount, rejected := cause, home := home } bs t p :=
  ⟨rfl, rfl, rfl, Nat.mod_eq_of_lt (wordAt_lt bs 24), rfl, rfl, h⟩

section
variable {s : State} {t : Nat} {data : List (Byte × Bool)} {home : List Part} (hb : (s.dev.page t).hasBlock = true)
  (hl : s.landPieces.loadBy (s.landPieces.listEntries t) (s.dev.page t).blockPlace 256 = some data)
  (hh : s.landPieces.partsBy (s.landPieces.listEntries t) [.store] (wordAt (data.map (·.1)) 16) 64 = some home)
  (hp : ∀ q ∈ data, q.2 = false) (ha : wordAt (data.map (·.1)) 16 % 64 = 0)
include hb hl hh hp ha

/-- A block that can be read joins the device's blocks, and HEAD passes it. -/
theorem exec_blockRead : ∃ b : Block, b.ReadFrom (data.map (·.1)) t (s.dev.page t) ∧
    exec (.blockRead t) s = .next (s.landPieces.mapDev (fun d =>
      { d.mapPage t (fun p => { p with head := p.head + 1, launched := true }) with blocks := d.blocks ++ [b] })) := by
  rw [Page.blockPlace] at hl
  have hclean : data.any (·.2) = false := by simpa using hp
  show ∃ b : Block, _ ∧ execBlockRead t s = _
  simp only [execBlockRead, State.landPieces_page, hb, hl, hh, hclean, ha, Bool.not_true, Bool.false_eq_true, if_false, bne_self_eq_false,
    Bool.or_self]
  refine ⟨_, blockOfBytes_readFrom _ t _ _ home (fun h => ?_), rfl⟩
  rw [if_pos]
  rcases h with h | h <;> simp [h]

theorem blockRead_reads (ht : t < 64) :
    Runs (.blockRead t) s (fun u => (u.dev.page t).head = (s.dev.page t).head + 1 ∧
      (u.dev.page t).dropped = (s.dev.page t).dropped ∧ u.mem = s.landPieces.mem ∧ u.core = s.landPieces.core ∧
      ∃ b, u.dev.blocks = s.dev.blocks ++ [b] ∧ b.ReadFrom (data.map (·.1)) t (s.dev.page t)) := by
  obtain ⟨b, hread, he⟩ := exec_blockRead hb hl hh hp ha
  have hpage : (s.landPieces.dev.mapPage t (fun p => { p with head := p.head + 1, launched := true })).page t =
      { s.dev.page t with head := (s.dev.page t).head + 1, launched := true } := by
    rw [Dev.mapPage_page _ _ ht, State.landPieces_page]
  refine ⟨_, he, (congrArg Page.head hpage :), (congrArg Page.dropped hpage :), rfl, rfl, b, ?_, hread⟩
  rw [State.mapDev_dev, s.landPieces_stores.blocks]
end

/-! ### BLOCK_COMPLETE (R189 to R192) -/

theorem State.recordStore_stores (s : State) (b : Block) (off : Nat) (bs : List Byte) : s.StoresTo (s.recordStore b off bs) := by
  unfold State.recordStore State.tenantStore
  cases s.tenantParts b.tenant [.store] (b.completion.toNat + off) bs.length <;> exact s.storeAt_stores _ _

/-- The completion record, then its sequence number. -/
def State.recordStored (s : State) (b : Block) : State :=
  (s.recordStore b 8 (wordsBytes (b.completionWords.drop 1))).recordStore b 0 (wordsBytes (b.completionWords.take 1))

theorem State.recordStored_stores (s : State) (b : Block) : s.StoresTo (s.recordStored b) :=
  (s.recordStore_stores b _ _).trans (State.recordStore_stores _ b _ _)

/-- Block `k` is complete, its launch charged for the ballast of `b`. -/
def Dev.completed (d : Dev) (k : Nat) (b : Block) : Dev :=
  (d.setBlock k (fun b => { b with complete := true })).mapPage b.tenant (fun p => { p with tenergy := p.tenergy + BitVec.ofNat 64 b.ballast })

theorem exec_blockComplete {s : State} {k : Nat} {b : Block} (hb : s.dev.blocks[k]? = some b) (hd : s.blockDone k = true) :
    exec (.blockComplete k) s = .next ((s.recordStored b).mapDev (fun d =>
      if b.scope = 5 && ((d.completed k b).page b.tenant).inten then (d.completed k b).raise b.tenant 0 else d.completed k b)) := by
  show execBlockComplete k s = _
  simp only [execBlockComplete, hb, hd, Bool.not_true, Bool.false_eq_true, if_false]
  rfl

theorem Dev.completed_get {d : Dev} {k : Nat} {b : Block} (h : d.blocks[k]? = some b) :
    (d.completed k b).blocks[k]? = some { b with complete := true } :=
  Dev.setBlock_get d (fun b => { b with complete := true }) h

theorem Dev.completed_inten (d : Dev) (k : Nat) (b : Block) : ((d.completed k b).page b.tenant).inten = (d.page b.tenant).inten :=
  Dev.mapPage_keeps (d.setBlock k _) b.tenant b.tenant (g := Page.inten) (fun _ => rfl)

theorem blockComplete_writes {s : State} {k : Nat} {b : Block} (hb : s.dev.blocks[k]? = some b) (hd : s.blockDone k = true) :
    Runs (.blockComplete k) s (fun u => u.dev.blocks[k]?.map (·.complete) = some true ∧ u.mem = (s.recordStored b).mem ∧
      u.dev.msix.length = s.dev.msix.length + (if b.scope = 5 ∧ (s.dev.page b.tenant).inten = true then 1 else 0)) := by
  have hs := s.recordStored_stores b
  have hk := Dev.completed_get (d := (s.recordStored b).dev) (k := k) (b := b) (by rw [hs.blocks, hb])
  have hm : ((s.recordStored b).dev.completed k b).msix = s.dev.msix := hs.msix
  refine ⟨_, exec_blockComplete hb hd, ?_, rfl, ?_⟩
  · rw [State.mapDev_dev]
    split <;> exact congrArg (Option.map (·.complete)) hk
  · rw [State.mapDev_dev, Dev.completed_inten, hs.page]
    by_cases h : b.scope = 5 ∧ (s.dev.page b.tenant).inten = true
    · rw [if_pos h, if_pos (by simp [h])]
      simp [Dev.raise, hm]
    · rw [if_neg h, if_neg (by simpa using h), hm]; rfl

end Sys2Proof.Machine
end

section
/-! The strands that a block places (R186, R187, R470). -/
open Sys2Proof Sys2Proof.Machine Sys2Proof.Claims

namespace Sys2Proof.Machine

/-! ### The indices of a sheaf (R186) -/

theorem length_sheafIdx (ls : List Level) (n : Nat) : (sheafIdx ls n).length = ls.length := by
  induction ls with
  | nil => rfl
  | cons lv ls ih => exact congrArg (· + 1) ih

/-- The index of level `l`: the sheaf's number counts the levels from the innermost out. -/
theorem sheafIdx_get {ls : List Level} {l : Nat} {lv : Level} (n : Nat) (h : ls[l]? = some lv) :
    (sheafIdx ls n)[l]? = some (n / ((ls.drop (l + 1)).map (·.bound)).prod % lv.bound) := by
  induction ls generalizing l with
  | nil => simp at h
  | cons hd tl ih =>
    cases l with
    | zero =>
      obtain rfl : hd = lv := by simpa using h
      simp [sheafIdx, List.prod_eq_foldl]
    | succ l => exact ih (by simpa using h)

/-! ### The values of X1 to X14 (R187) -/

/-- START + index · STRIDE of each level, and none for a persistent strand. -/
def Block.coords (b : Block) (n : Nat) : List X64 :=
  if b.persist then [] else (b.levels.zip (sheafIdx b.levels n)).map (fun q => q.1.start + BitVec.ofInt 64 (q.2 * q.1.stride))

theorem Block.start_eq (b : Block) (n : Nat) :
    b.start n = (b.coords n ++ List.replicate (6 - (b.coords n).length) 0) ++ b.args := rfl

theorem Block.coords_persistent {b : Block} (n : Nat) (h : b.persist = true) : b.coords n = [] := by simp [Block.coords, h]

theorem Block.length_coords {b : Block} (n : Nat) (h : b.persist = false) : (b.coords n).length = b.levels.length := by
  simp [Block.coords, h, length_sheafIdx]

theorem Block.coords_get {b : Block} {l : Nat} {lv : Level} (n : Nat) (h : b.persist = false) (hl : b.levels[l]? = some lv) :
    (b.coords n)[l]? = some (lv.start + BitVec.ofInt 64
      (((n / ((b.levels.drop (l + 1)).map (·.bound)).prod % lv.bound : Nat) : Int) * lv.stride)) := by
  simp [Block.coords, h, List.getElem?_zip_eq_some, hl, sheafIdx_get n hl]

/-- The coordinates fit X1 to X6, which R185 has checked of a block that runs. -/
theorem Block.coords_fit {b : Block} (n : Nat) (h : b.persist = true ∨ b.levels.length ≤ 6) : (b.coords n).length ≤ 6 := by
  cases hp : b.persist with
  | true => simp [Block.coords_persistent n hp]
  | false => rw [Block.length_coords n hp]; exact h.resolve_left (by simp [hp])

/-- Filled up with zeros, the coordinates take six places. -/
theorem Block.length_filled {b : Block} {n : Nat} (hc : (b.coords n).length ≤ 6) :
    (b.coords n ++ List.replicate (6 - (b.coords n).length) 0).length = 6 := by
  simp; omega

theorem Block.start_coord {b : Block} {n m : Nat} (hm : m < 6) (hc : (b.coords n).length ≤ 6) :
    (b.start n).getD m 0 = (b.coords n).getD m 0 := by
  rw [Block.start_eq, List.getD_append _ _ _ _ (by rw [Block.length_filled hc]; exact hm)]
  by_cases h : m < (b.coords n).length
  · rw [List.getD_append _ _ _ _ h]
  · rw [List.getD_append_right _ _ _ _ (by omega), List.getD_replicate _ (by omega), List.getD_eq_default _ _ (by omega)]

theorem Block.start_arg {b : Block} {n : Nat} (i : Nat) (hc : (b.coords n).length ≤ 6) :
    (b.start n).getD (6 + i) 0 = b.args.getD i 0 := by
  have hlen := Block.length_filled hc
  rw [Block.start_eq, List.getD_append_right _ _ _ _ (by omega), hlen, Nat.add_sub_cancel_left]

/-! ### Registers placed one by one -/

theorem setX_x (r : Regs) {n : Nat} (v : X64) (h : n ≠ 0) : (setX n v r).x = vset r.x n v := by
  simp [setX, Dest.apply, h]

@[simp] theorem setX_sys (r : Regs) (n : Nat) (v : X64) : (setX n v r).sys = r.sys := by
  unfold setX Dest.apply; dsimp only; split <;> rfl

/-- The values `vs` go to the X registers after X`j`. -/
def Regs.placeX (r : Regs) (vs : List X64) (j : Nat) : Regs := (vs.zipIdx j).foldl (fun r q => setX (q.2 + 1) q.1 r) r

@[simp] theorem Regs.placeX_sys (vs : List X64) : ∀ (r : Regs) (j : Nat), (r.placeX vs j).sys = r.sys := by
  induction vs with
  | nil => exact fun _ _ => rfl
  | cons v vs ih => exact fun r j => (ih (setX (j + 1) v r) (j + 1)).trans (setX_sys r _ v)

theorem Regs.placeX_get {i : Nat} (hi : i < 64) (vs : List X64) : ∀ (r : Regs) (j : Nat),
    vget (r.placeX vs j).x i 0 = if j < i ∧ i ≤ j + vs.length then vs.getD (i - j - 1) 0 else vget r.x i 0 := by
  induction vs with
  | nil => intro r j; rw [if_neg (by simp)]; rfl
  | cons v vs ih =>
    intro r j
    have hstep : vget (r.placeX (v :: vs) j).x i 0 = _ := ih (setX (j + 1) v r) (j + 1)
    rw [hstep, setX_x r v (Nat.succ_ne_zero j)]
    by_cases he : i = j + 1
    · subst he
      simp [vget_vset_same _ _ _ _ hi]
    · rw [vget_vset_other _ _ _ _ _ he, List.length_cons]
      by_cases hin : j + 1 < i ∧ i ≤ j + 1 + vs.length
      · rw [if_pos hin, if_pos (by omega), show i - j - 1 = (i - (j + 1) - 1) + 1 by omega, List.getD_cons_succ]
      · rw [if_neg hin, if_neg (by omega)]

/-! ### The strand that a block places -/

theorem Regs.foldl_killHandles (l : List ClaimName) :
    ∀ r : Regs, (l.foldl Regs.killHandles r).x = r.x ∧ (l.foldl Regs.killHandles r).sys = r.sys := by
  induction l with
  | nil => exact fun _ => ⟨rfl, rfl⟩
  | cons nm l ih => exact fun r => ih (r.killHandles nm)

/-- What a launch places before the values of the sheaf: X registers of zeros, and the template's system registers. -/
theorem Regs.launched_frame (d : Dev) (y : SysRegs) (names ricks : List ClaimName) :
    ((Regs.launched y names ricks).withoutDead d ricks).x = Vector.replicate 64 0 ∧
      ((Regs.launched y names ricks).withoutDead d ricks).sys = y :=
  Regs.foldl_killHandles _ _

section
variable (d : Dev) (k : Nat) (b : Block) (n now : Nat)

theorem Dev.blockStrand_regs : (d.blockStrand k b n now).regs =
    ((Regs.launched b.template.sys b.names b.ricks).withoutDead d b.ricks).placeX (b.start n) 0 := rfl

theorem Dev.blockStrand_sys : (d.blockStrand k b n now).regs.sys = b.template.sys := by
  rw [Dev.blockStrand_regs, Regs.placeX_sys, (Regs.launched_frame d _ _ _).2]

theorem Dev.blockStrand_x0 : vget (d.blockStrand k b n now).regs.x 0 0 = 0 := by
  rw [Dev.blockStrand_regs, Regs.placeX_get (by omega), (Regs.launched_frame d _ _ _).1, if_neg (by omega), vget_replicate]

theorem Dev.blockStrand_x {m : Nat} (hm : m < 63) : vget (d.blockStrand k b n now).regs.x (m + 1) 0 = (b.start n).getD m 0 := by
  rw [Dev.blockStrand_regs, Regs.placeX_get (by omega), (Regs.launched_frame d _ _ _).1, vget_replicate]
  by_cases h : m < (b.start n).length
  · rw [if_pos (by omega)]; rfl
  · rw [if_neg (by omega), List.getD_eq_default _ _ (by omega)]
end

theorem Dev.openClusters_of_mayPlace {d : Dev} {k : Nat} {b : Block} (hp : d.mayPlace k = true) (hb : d.blocks[k]? = some b) :
    d.openClusters b ≠ [] := by
  simp only [Dev.mayPlace, hb, Bool.and_eq_true] at hp
  obtain ⟨-, hopen⟩ := hp
  simpa using hopen

/-- With no cluster fenced, the strand's cluster is the next of the block's set bits in turn (R187). -/
theorem Dev.blockStrand_cluster {d : Dev} {k : Nat} {b : Block} (now : Nat) (hp : d.mayPlace k = true) (hb : d.blocks[k]? = some b)
    (hf : d.links.fenced = []) (hg : d.links.fencing = []) :
    let cs := (List.range 16).filter (fun i => b.clusters.getLsbD i)
    (d.blockStrand k b b.placed now).cluster = 16 * b.die + cs.getD (b.placed % cs.length) 0 := by
  intro cs
  have hopen : d.openClusters b = cs.map (fun i => 16 * b.die + i) := by simp [Dev.openClusters, hf, hg, cs]
  have hne : cs ≠ [] := by simpa [hopen] using Dev.openClusters_of_mayPlace hp hb
  have hlt := Nat.mod_lt b.placed (List.length_pos_iff.mpr hne)
  show (d.openClusters b).getD (b.placed % (d.openClusters b).length) 0 = _
  rw [hopen, List.length_map, List.getD_eq_getElem _ _ (by simpa using hlt), List.getD_eq_getElem _ _ hlt, List.getElem_map]

/-! ### SHEAF_RELEASE (R186, R187) -/

theorem exec_sheafRelease {s : State} {k : Nat} {b : Block} (hb : s.dev.blocks[k]? = some b) (hp : s.dev.mayPlace k = true) :
    exec (.sheafRelease k) s = .next (s.mapDev (fun d => { d.setBlock k (fun b => { b with placed := b.placed + 1 }) with
      strands := d.strands ++ [d.blockStrand k b b.placed s.core.now] })) := by
  show execSheafRelease k s = _
  simp only [execSheafRelease, hb, hp, if_true]

/-- A level's register holds START + index · STRIDE (R187). -/
theorem Dev.blockStrand_level (d : Dev) (k : Nat) {b : Block} (n now : Nat) (hp : b.persist = false) (hlen : b.levels.length ≤ 6) {l : Nat}
    {lv : Level} (hl : b.levels[l]? = some lv) : vget (d.blockStrand k b n now).regs.x (l + 1) 0 = lv.start + BitVec.ofInt 64
      (((n / ((b.levels.drop (l + 1)).map (·.bound)).prod % lv.bound : Nat) : Int) * lv.stride) := by
  have hlt : l < b.levels.length := (List.getElem?_eq_some_iff.mp hl).1
  rw [Dev.blockStrand_x d k b n now (by omega), Block.start_coord (by omega) (Block.coords_fit n (.inr hlen)), List.getD_eq_getElem?_getD,
    Block.coords_get n hp hl, Option.getD_some]

/-- Past the coordinates, X1 to X6 hold zeros. -/
theorem Dev.blockStrand_zero (d : Dev) (k : Nat) {b : Block} (n now : Nat) {i : Nat} (hi : i ≤ 6) (hc : (b.coords n).length < i ∨ i = 0)
    (hfit : (b.coords n).length ≤ 6) : vget (d.blockStrand k b n now).regs.x i 0 = 0 := by
  cases i with
  | zero => exact Dev.blockStrand_x0 d k b n now
  | succ m =>
    rw [Dev.blockStrand_x d k b n now (by omega), Block.start_coord (by omega) hfit, List.getD_eq_default _ _ (by omega)]

theorem Dev.blockStrand_arg (d : Dev) (k : Nat) {b : Block} (n now : Nat) (h : b.persist = true ∨ b.levels.length ≤ 6) {i : Nat}
    (hi : i < 8) : vget (d.blockStrand k b n now).regs.x (7 + i) 0 = b.args.getD i 0 := by
  rw [show 7 + i = 6 + i + 1 by omega, Dev.blockStrand_x d k b n now (by omega), Block.start_arg i (Block.coords_fit n h)]

/-! ### The obligation -/

/-- Settles O49: each event by its equation; the registers of a placed strand are its block's values, placed one by one. -/
theorem blockEvents : Obligations.BlockEvents := by
  unfold Obligations.BlockEvents
  intro t k s ht
  refine ⟨fun v l ha hv => tailWrite_sets l ha ht hv, fun v l ha hv => tailWrite_counts l ha ht hv,
    fun data home hb hl hh hp ha => blockRead_reads hb hl hh hp ha ht, fun hb hl => blockRead_drops ht hb hl, fun b hb hp => ?_,
    fun b hb hd => blockComplete_writes hb hd⟩
  have hsys := s.dev.blockStrand_sys k b b.placed s.core.now
  refine ⟨_, exec_sheafRelease hb hp, rfl, rfl, Dev.setBlock_get s.dev (fun b => { b with placed := b.placed + 1 }) hb,
    s.dev.blockStrand k b b.placed s.core.now, rfl, rfl, rfl, rfl, rfl, rfl, rfl, rfl, congrArg SysRegs.srseed hsys, rfl, rfl, rfl, rfl,
    fun hf hlen => ⟨fun l lv hl => ?_, fun i hi hi6 => ?_⟩, fun hf i hi => ?_,
    fun _ h i hi => s.dev.blockStrand_arg k b.placed s.core.now h hi, Dev.blockStrand_cluster s.core.now hp hb⟩
  · exact s.dev.blockStrand_level k b.placed s.core.now hf hlen hl
  · exact s.dev.blockStrand_zero k b.placed s.core.now hi6 (.inl (by rw [Block.length_coords b.placed hf]; exact hi))
      (Block.coords_fit b.placed (.inr hlen))
  · have hnone := Block.coords_persistent b.placed hf
    exact s.dev.blockStrand_zero k b.placed s.core.now hi (by rw [hnone, List.length_nil]; omega) (Block.coords_fit b.placed (.inl hf))

end Sys2Proof.Machine
end

section
/-! Words stored in the local store, and numbers read back (R4, R212). -/
open Sys2Proof Sys2Proof.Machine Sys2Proof.Claims

namespace Sys2Proof.Machine

/-! ### The bytes of words -/

/-- Byte `i` of little-endian words of 8 bytes. -/
def wordByte (ws : List Nat) (i : Nat) : Byte := BitVec.ofNat 8 (ws.getD (i / 8) 0 / 256 ^ (i % 8))

theorem eq_map_range_getD (ws : List Nat) : ws = (List.range ws.length).map (ws.getD · 0) :=
  List.ext_getElem (by simp) fun i hi _ => by simp [hi]

theorem wordBytes_eq_map (ws : List Nat) : (ws.map (bytesOfNat 8)).flatten = (List.range (8 * ws.length)).map (wordByte ws) := by
  have hw : ws.map (bytesOfNat 8) =
      (List.range ws.length).map (fun h => (List.range 8).map (fun j => BitVec.ofNat 8 (ws.getD h 0 / 256 ^ j))) := by
    conv_lhs => rw [eq_map_range_getD ws]
    rw [List.map_map]
    exact List.map_congr_left fun h _ => bytesOfNat_eq_map 8 _
  rw [hw, flatten_map_range (by omega)]
  rfl

theorem cellsAt_map_range (a : Nat) (f : Nat → Byte) (n : Nat) :
    cellsAt a ((List.range n).map f) = (List.range n).map (fun i => (a + i, f i)) := by
  rw [cellsAt, zipIdx_map_range, List.map_map]; rfl

theorem wordCells_eq_map (off : Nat) (ws : List Nat) :
    wordCells off ws = (List.range (8 * ws.length)).map (fun i => (ownLs off + i, wordByte ws i)) := by
  rw [wordCells, wordBytes_eq_map, cellsAt_map_range]

/-! ### Numbers from their bytes -/

theorem sum_digits (x n : Nat) : ((List.range n).map (fun i => x / 256 ^ i % 256 * 256 ^ i)).sum = x % 256 ^ n := by
  induction n with
  | zero => simp [Nat.mod_one]
  | succ n ih => rw [List.range_succ, List.map_append, List.sum_append, ih, Nat.mod_pow_succ]; simp [Nat.mul_comm]

/-- A number whose bytes stand at its places is read there. -/
theorem numAt_of_bytes {m : Memory} {place : Nat → Nat} {n x : Nat} (hx : x < 256 ^ n)
    (h : ∀ i, i < n → m.byte (place i) = BitVec.ofNat 8 (x / 256 ^ i)) : numAt m place n = x := by
  have hb : (List.range n).map (fun i => (m.byte (place i)).toNat * 256 ^ i) =
      (List.range n).map (fun i => x / 256 ^ i % 256 * 256 ^ i) :=
    List.map_congr_left fun i hi => by rw [h i (List.mem_range.1 hi), BitVec.toNat_ofNat]
  rw [numAt, hb, sum_digits, Nat.mod_eq_of_lt hx]

/-! ### A store of words by an engine -/

theorem State.redoMmas_mem (s : State) (l : List MmaFlight) : (s.redoMmas l).mem = s.mem := by
  unfold State.redoMmas; split <;> rfl

theorem State.engineStore_mem (s : State) (cells : List Host.Cell) (pois : List Nat) :
    (s.engineStore cells pois).mem = s.mem.store cells pois :=
  State.redoMmas_mem _ _

theorem State.engineStore_regs (s : State) (cells : List Host.Cell) (pois : List Nat) :
    (s.engineStore cells pois).core.regs = s.core.regs :=
  (congrArg Core.regs (s.storeAt_stores cells pois).core :)

/-- Each byte of memory after a store of words in the own local store. -/
theorem State.engineStore_words_byte {s : State} (h : s.mem.wf = true) (off : Nat) (ws : List Nat) (a : Nat) :
    (s.engineStore (wordCells off ws) []).mem.byte a =
      if ownLs off ≤ a ∧ a < ownLs off + 8 * ws.length then wordByte ws (a - ownLs off) else s.mem.byte a := by
  rw [State.engineStore_mem, wordCells_eq_map, Memory.byte_store_range h]

theorem State.engineStore_words_only {s : State} (h : s.mem.wf = true) (off : Nat) (ws : List Nat) :
    OnlyAt s.mem (s.engineStore (wordCells off ws) []).mem (fun i => ownLs (off + i)) (8 * ws.length) := by
  intro a ha
  rw [State.engineStore_words_byte h, if_neg]
  rintro ⟨hl, hu⟩
  exact ha (a - ownLs off) (by omega) (by dsimp only; rw [ownLs_add]; omega)

/-- Word `i` of the words stored is read at its place. -/
theorem State.engineStore_words_num {s : State} (h : s.mem.wf = true) (off : Nat) {ws : List Nat} {i : Nat} (hi : i < ws.length)
    (hw : ws.getD i 0 < 2 ^ 64) :
    numAt (s.engineStore (wordCells off ws) []).mem (fun j => ownLs (off + 8 * i + j)) 8 = ws.getD i 0 := by
  refine numAt_of_bytes hw fun j hj => ?_
  have hat : ownLs (off + 8 * i + j) - ownLs off = 8 * i + j := by rw [Nat.add_assoc, ownLs_add]; omega
  rw [State.engineStore_words_byte h, hat, if_pos (by rw [Nat.add_assoc, ownLs_add]; omega), wordByte,
    show (8 * i + j) / 8 = i by omega, show (8 * i + j) % 8 = j by omega]

end Sys2Proof.Machine
end

section
/-! Claims by their names, and the record of a QCLAIM (R201, R204, R212). -/
open Sys2Proof Sys2Proof.Machine Sys2Proof.Claims

namespace Sys2Proof.Machine

/-! ### Entries by name -/

theorem Dev.name_of_claim? {d : Dev} {nm : ClaimName} {c : Claim} (h : d.claim? nm = some c) : c.name = nm :=
  eq_of_beq (List.find?_some (p := fun c : Claim => c.name == nm) h)

theorem State.remoteEntry_name (s : State) (nm : ClaimName) : (s.remoteEntry nm).name = nm := by
  unfold State.remoteEntry
  dsimp only
  split
  · next h => exact (Dev.name_of_claim? h :)
  · rfl
  · rfl

theorem State.name_of_atTable {s : State} {nm : ClaimName} {c : Claim} (h : s.atTable nm = some c) : c.name = nm := by
  unfold State.atTable at h
  split at h
  · exact Dev.name_of_claim? h
  · rw [← Option.some.inj h, s.remoteEntry_name]

/-- What QCLAIM reports is an entry of the name, LIVE or RETIRING. -/
theorem State.queried_some {s : State} {tenant : Nat} {nm : ClaimName} {c : Claim} (h : s.queried tenant nm = some c) :
    c.name = nm ∧ c.state ≠ .gone := by
  unfold State.queried at h
  split at h
  · cases h
  · obtain ⟨ht, hv⟩ := Option.filter_eq_some_iff.1 h
    simp only [Bool.and_eq_true, bne_iff_ne] at hv
    exact ⟨State.name_of_atTable ht, hv.2⟩

@[simp] theorem State.noteQueried_core (s : State) (nm : ClaimName) : (s.noteQueried nm).core = s.core := by
  unfold State.noteQueried; split <;> rfl

@[simp] theorem State.noteQueried_mem (s : State) (nm : ClaimName) : (s.noteQueried nm).mem = s.mem := by
  unfold State.noteQueried; split <;> rfl

/-! ### The words of a record -/

theorem claimType_code_lt (t : ClaimType) : t.code < 16 := by cases t <;> decide

/-- A state other than GONE, by its code. -/
theorem ClaimState.code_of_ne_gone {st : ClaimState} (h : st ≠ .gone) : st.code = if st = .live then 0 else 1 := by
  cases st
  case live => rfl
  case retiring => rfl
  case gone => exact absurd rfl h

/-- The third word of a record: USES, HOLDERS, OWNER, STATE and TYPE (R212). -/
def Claim.fieldsWord (c : Claim) (counts : Nat × Nat) : Nat :=
  min counts.1 (2 ^ 32 - 1) * 2 ^ 32 + min counts.2 65535 * 2 ^ 16 + c.owner * 2 ^ 8 + c.state.code * 16 + c.ty.code

/-- Each field of the third word. -/
theorem Claim.fieldsWord_fields {c : Claim} (counts : Nat × Nat) (ho : c.owner < 64) (hs : c.state ≠ .gone) :
    let w := c.fieldsWord counts
    w < 2 ^ 64 ∧ w / 2 ^ 32 = min counts.1 (2 ^ 32 - 1) ∧ w / 2 ^ 16 % 2 ^ 16 = min counts.2 65535 ∧ w / 2 ^ 8 % 2 ^ 8 = c.owner ∧
      w / 2 ^ 4 % 2 ^ 4 = (if c.state = .live then 0 else 1) ∧ w % 2 ^ 4 = c.ty.code := by
  have ht := claimType_code_lt c.ty
  have hst := ClaimState.code_of_ne_gone hs
  have hlt : c.state.code < 2 := by rw [hst]; split <;> omega
  rw [← hst]
  simp only [Claim.fieldsWord]
  omega

/-- The eight words of the record of an entry: BASE only for a type that has one. -/
theorem Claim.record_eq (c : Claim) (counts : Nat × Nat) (attr : X64) :
    c.record counts attr = [c.name.toNat % 2 ^ 64, c.name.toNat / 2 ^ 64, c.fieldsWord counts, c.home,
      if c.ty = .tensor ∨ c.ty = .strand ∨ c.ty = .coll ∨ c.ty = .cword then c.base.toNat else 0, c.size.toNat, attr.toNat, 0] := by
  unfold Claim.record Claim.fieldsWord
  cases c.ty <;> rfl

/-- The words that a QCLAIM stores: the record of what it has found, else the name and zeros (R212). -/
def State.queriedWords (s : State) (nm : ClaimName) (found : Option Claim) : List Nat :=
  match found with
  | some c => c.record (s.countsOf c) (s.attrOf c)
  | none => [nm.toNat % 2 ^ 64, nm.toNat / 2 ^ 64, 0, 0, 0, 0, 0, 0]

theorem State.length_queriedWords (s : State) (nm : ClaimName) (found : Option Claim) : (s.queriedWords nm found).length = 8 := by
  cases found <;> rfl

/-- The words that hold the same for every answer: the name's two, and the last. -/
theorem State.queriedWords_name {s : State} {nm : ClaimName} {found : Option Claim} (h : ∀ c, found = some c → c.name = nm) :
    (s.queriedWords nm found).getD 0 0 = nm.toNat % 2 ^ 64 ∧ (s.queriedWords nm found).getD 1 0 = nm.toNat / 2 ^ 64 ∧
      (s.queriedWords nm found).getD 7 0 = 0 := by
  cases found with
  | none => exact ⟨rfl, rfl, rfl⟩
  | some c => rw [← h c rfl]; exact ⟨rfl, rfl, rfl⟩

/-! ### What a QCLAIM's engine does -/

/-- The state after the engine of a QCLAIM has stored its record. -/
def State.recorded (s : State) (tenant : Nat) (nm : ClaimName) (dst : Nat) : State :=
  ((s.noteQueried nm).engineStore (wordCells dst (s.queriedWords nm (s.queried tenant nm))) []).bump

theorem State.performQclaim_eq (s : State) (tenant : Nat) (nm : ClaimName) (dst : Nat) :
    s.performQclaim tenant nm dst = (s.recorded tenant nm dst, token (if (s.queried tenant nm).isSome then 0 else 1) 0) := by
  unfold State.performQclaim State.recorded State.queriedWords
  cases s.queried tenant nm <;> rfl

/-- The engine of a QCLAIM stores the record past the earlier gated stores, then writes its token. -/
theorem exec_engineTokenWrite_qclaim {s : State} {k : Nat} {e : Engine} {nm : ClaimName} {dst : Nat} (hk : s.core.engs[k]? = some e)
    (hd : e.done = none) (hc : e.cmd = .qclaim nm dst) :
    let u := s.shieldGate e (span (ownLs dst) 64)
    exec (.engineTokenWrite k) s = .next ((u.recorded (u.tenantOf e.strand) nm dst).finishEngine e
      (token (if (u.queried (u.tenantOf e.strand) nm).isSome then 0 else 1) 0)) := by
  have hr : s.engineReady e = true := by simp [State.engineReady, hd, hc]
  show execEngineTokenWrite k s = _
  simp only [execEngineTokenWrite, hk, hd, hr, hc, State.runEngine, Bool.not_true, Bool.false_eq_true, if_false, State.performQclaim_eq]
  rfl

section
variable {s : State} (h : s.mem.wf = true) (tenant : Nat) (nm : ClaimName) (dst : Nat)

theorem State.recorded_regs : (s.recorded tenant nm dst).core.regs = s.core.regs := by
  rw [State.recorded, State.bump_core, State.engineStore_regs, State.noteQueried_core]

include h

theorem State.recorded_only : OnlyAt s.mem (s.recorded tenant nm dst).mem (fun i => ownLs (dst + i)) 64 := by
  have hw : (s.noteQueried nm).mem.wf = true := by rw [State.noteQueried_mem, h]
  have ho := State.engineStore_words_only hw dst (s.queriedWords nm (s.queried tenant nm))
  rwa [State.noteQueried_mem, State.length_queriedWords] at ho

theorem State.recorded_num {i : Nat} (hi : i < 8) (hx : (s.queriedWords nm (s.queried tenant nm)).getD i 0 < 2 ^ 64) :
    numAt (s.recorded tenant nm dst).mem (fun j => ownLs (dst + 8 * i + j)) 8 =
      (s.queriedWords nm (s.queried tenant nm)).getD i 0 := by
  have hw : (s.noteQueried nm).mem.wf = true := by rw [State.noteQueried_mem, h]
  exact State.engineStore_words_num hw dst (by rw [State.length_queriedWords]; exact hi) hx

/-- The name and the last word of the record. -/
theorem State.recorded_name :
    let word := fun (i : Nat) => numAt (s.recorded tenant nm dst).mem (fun j => ownLs (dst + 8 * i + j)) 8
    word 0 + 2 ^ 64 * word 1 = nm.toNat ∧ word 7 = 0 := by
  have hn : nm.toNat < 2 ^ 128 := nm.isLt
  obtain ⟨h0, h1, h7⟩ := State.queriedWords_name (s := s) fun c hc => (State.queried_some (tenant := tenant) (nm := nm) hc).1
  dsimp only
  rw [s.recorded_num h tenant nm dst (by omega) (by rw [h0]; omega), s.recorded_num h tenant nm dst (by omega) (by rw [h1]; omega),
    s.recorded_num h tenant nm dst (by omega) (by rw [h7]; omega), h0, h1, h7]
  exact ⟨by omega, rfl⟩

/-- Beyond the name, the record of a name that QCLAIM does not find is 0. -/
theorem State.recorded_gone (hq : s.queried tenant nm = none) {i : Nat} (hl : 2 ≤ i) (hu : i < 8) :
    numAt (s.recorded tenant nm dst).mem (fun j => ownLs (dst + 8 * i + j)) 8 = 0 := by
  have hz : (s.queriedWords nm (s.queried tenant nm)).getD i 0 = 0 := by
    rw [hq]
    interval_cases i <;> rfl
  rw [s.recorded_num h tenant nm dst hu (by rw [hz]; omega), hz]

/-- The fields of the record of an entry that QCLAIM finds. -/
theorem State.recorded_found {c : Claim} (hq : s.queried tenant nm = some c) (ho : c.owner < 64) (hh : c.home < 2 ^ 64) :
    let word := fun (i : Nat) => numAt (s.recorded tenant nm dst).mem (fun j => ownLs (dst + 8 * i + j)) 8
    word 2 = c.fieldsWord (s.countsOf c) ∧ word 3 = c.home ∧
      word 4 = (if c.ty = .tensor ∨ c.ty = .strand ∨ c.ty = .coll ∨ c.ty = .cword then c.base.toNat else 0) ∧
      word 5 = c.size.toNat ∧ word 6 = (s.attrOf c).toNat := by
  have hr : s.queriedWords nm (s.queried tenant nm) = c.record (s.countsOf c) (s.attrOf c) := by rw [hq]; rfl
  have hn : ∀ i, i < 8 → (c.record (s.countsOf c) (s.attrOf c)).getD i 0 < 2 ^ 64 →
      numAt (s.recorded tenant nm dst).mem (fun j => ownLs (dst + 8 * i + j)) 8 = (c.record (s.countsOf c) (s.attrOf c)).getD i 0 :=
    fun i hi hx => by rw [← hr] at hx ⊢; exact s.recorded_num h tenant nm dst hi hx
  rw [Claim.record_eq] at hn
  obtain ⟨hw, -⟩ := Claim.fieldsWord_fields (s.countsOf c) ho (State.queried_some hq).2
  refine ⟨hn 2 (by omega) hw, hn 3 (by omega) hh, hn 4 (by omega) ?_, hn 5 (by omega) c.size.isLt, hn 6 (by omega) (s.attrOf c).isLt⟩
  show (if _ then _ else _) < _
  split
  · exact c.base.isLt
  · omega
end

end Sys2Proof.Machine
end

section
/-! CLAIM, RESOLVE, QCLAIM and RETIRE (R210 to R213). -/
open Sys2Proof Sys2Proof.Machine Sys2Proof.Claims

namespace Sys2Proof.Machine

/-! ### CLAIM and RETIRE (R210, R213) -/

theorem exec_claim {f : EAClaim} {s : State} (h : chkClaim f s = .ok) :
    exec (.claim f) s = .next ((s.gateCmd (s.px f.d) (.claim f.h.toNat f.ty (s.rdX f.a) (s.rdX f.b) (s.claimHome f))).interlock
      (.n f.h.toNat) s.core.opId true) := by
  show execClaim f s = _
  rw [execClaim, h, issueOp_go]; rfl

theorem retire_commands {f : EA} {s : State} (h : s.core.gate.length < 64) :
    Commands (.retire f) s f.d (.retire (s.rdN f.h.toNat)) := by
  show execRetire f s = _
  rw [execRetire, needGate_room h, issueOp_go]

/-! ### RESOLVE (R211) -/

section
variable {f : EAClaim} {s : State}

/-- RESOLVE of a live name of its type gives the type's value. -/
theorem resolve_value {c : Claim} (hr : s.resolve s.core.tenant (s.rdN f.h.toNat) = some c) (ht : c.ty = f.ty) :
    exec (.resolve f) s = .next ((s.fillCache (s.rdN f.h.toNat)).sendCmd (s.px f.d) (.resolve (s.rdN f.h.toNat) f.ty)
      (some (c.value &&& 0x00FFFFFFFFFFFFFF))).bump := by
  have hc : chkResolve f s = .ok := by simp [chkResolve, hr, ht]
  show execResolve f s = _
  rw [execResolve, hc, issueOp_go]
  simp only [hr]

/-- RESOLVE of a live name of another type traps. -/
theorem resolve_traps {c : Claim} (hr : s.resolve s.core.tenant (s.rdN f.h.toNat) = some c) (ht : c.ty ≠ f.ty) :
    Traps (.resolve f) s 0x0F 0 := by
  have hc : chkResolve f s = .trap 0x0F 0 := by simp [chkResolve, hr, ht, need]
  show execResolve f s = _
  rw [execResolve, hc, issueOp_trap]

/-- RESOLVE of a name that resolves to none answers GONE, whatever its type. -/
theorem resolve_gone (hr : s.resolve s.core.tenant (s.rdN f.h.toNat) = none) :
    exec (.resolve f) s = .next ((s.learn (s.rdN f.h.toNat)).sendCmd (s.px f.d) (.resolve (s.rdN f.h.toNat) f.ty)
      (some (token 1 0))).bump := by
  have hc : chkResolve f s = .ok := by rw [chkResolve, hr]
  show execResolve f s = _
  rw [execResolve, hc, issueOp_go]
  simp only [hr]
end

/-! ### QCLAIM (R212) -/

section
variable {f : EA} {s : State} (hp : s.poisonX f.a = false)
include hp

theorem chkQclaim_eq : chkQclaim f s =
    need ((s.rdX f.a).toNat % 64 == 0 && decide ((s.rdX f.a).toNat + 64 ≤ lsSize)) 0x08 (s.rdX f.a) := by
  rw [chkQclaim, needCtl_clean hp, Chk.ok_and]

/-- QCLAIM of an aligned place in the local store goes to its engine. -/
theorem exec_qclaim (ha : (s.rdX f.a).toNat % 64 = 0) (hr : (s.rdX f.a).toNat + 64 ≤ lsSize) :
    exec (.qclaim f) s = .next (s.sendCmd (s.px f.d) (.qclaim (s.rdN f.h.toNat) (s.rdX f.a).toNat) none) := by
  show execQclaim f s = _
  rw [execQclaim, chkQclaim_eq hp, (need_ok_iff _ _ _).2 (by simp [ha, hr]), issueOp_go]

theorem qclaim_traps (h : (s.rdX f.a).toNat % 64 ≠ 0 ∨ lsSize < (s.rdX f.a).toNat + 64) : Traps (.qclaim f) s 0x08 (s.rdX f.a) := by
  have hn : ((s.rdX f.a).toNat % 64 == 0 && decide ((s.rdX f.a).toNat + 64 ≤ lsSize)) = false := by
    rcases h with h | h
    · simp [h]
    · simp [Nat.not_le.2 h]
  show execQclaim f s = _
  rw [execQclaim, chkQclaim_eq hp, hn, need, if_neg Bool.false_ne_true, issueOp_trap]
end

/-! ### The obligation -/

/-- Settles O32: each op by its check, and QCLAIM's engine by the eight words of its record. -/
theorem claimOps : Obligations.ClaimOps := by
  unfold Obligations.ClaimOps
  refine ⟨fun f s => exec_claim, fun f s c => resolve_value, fun f s c => resolve_traps, fun f s => resolve_gone,
    fun f s => exec_qclaim, fun f s => qclaim_traps, fun f s => retire_commands, fun s k e nm dst hk hd hc hw _ => ?_⟩
  intro u found
  have hu : u.mem.wf = true := hw
  refine ⟨u.recorded (u.tenantOf e.strand) nm dst, exec_engineTokenWrite_qclaim hk hd hc, u.recorded_regs _ nm dst,
    u.recorded_only hu _ nm dst, ?_⟩
  intro word
  obtain ⟨hname, hlast⟩ := u.recorded_name hu (u.tenantOf e.strand) nm dst
  refine ⟨hname, hlast, fun hf i => u.recorded_gone hu _ nm dst hf, fun c hf ho hh => ?_⟩
  obtain ⟨h2, h3, h4, h5, h6⟩ := u.recorded_found hu _ nm dst hf ho hh
  obtain ⟨-, huses, hholders, howner, hstate, htype⟩ := Claim.fieldsWord_fields (u.countsOf c) ho (State.queried_some hf).2
  rw [← h2] at huses hholders howner hstate htype
  exact ⟨huses, hholders, howner, hstate, htype, h3, h4, h5, h6⟩

end Sys2Proof.Machine
end

section
/-! The claim table's events: claims of the owner runtime, recalls and answered lookups (R202 to R216). -/
open Sys2Proof Sys2Proof.Machine Sys2Proof.Claims

namespace Sys2Proof.Machine

/-! ### A change of an entry -/

/-- A change of the entries of a name that keeps their names changes what the name finds. -/
theorem Dev.claim?_setClaim (d : Dev) (nm : ClaimName) {f : Claim → Claim} (hf : ∀ c, (f c).name = c.name := by exact fun _ => rfl) :
    (d.setClaim nm f).claim? nm = (d.claim? nm).map f := by
  have hp : (fun c : Claim => (if c.name == nm then f c else c).name == nm) = fun c => c.name == nm := by
    funext c
    by_cases hc : c.name = nm <;> simp [hc, hf]
  show (d.claims.map (fun c => if c.name == nm then f c else c)).find? (fun c => c.name == nm) = _
  rw [List.find?_map, Function.comp_def, hp]
  show (d.claim? nm).map _ = _
  refine Option.map_congr fun c hc => ?_
  rw [Dev.name_of_claim? hc, beq_self_eq_true, if_pos rfl]

theorem State.claim?_setClaim {s : State} {nm : ClaimName} {c : Claim} {f : Claim → Claim} (hc : s.dev.claim? nm = some c)
    (hf : ∀ c, (f c).name = c.name := by exact fun _ => rfl) :
    (s.mapDev (fun d => d.setClaim nm f)).dev.claim? nm = some (f c) :=
  (s.dev.claim?_setClaim nm hf).trans (by rw [hc]; rfl)

/-- The uses that this core holds of a name do not depend on the rest of its entry. -/
theorem State.usesOf_setClaim (s : State) (nm : ClaimName) {f : Claim → Claim}
    (hf : ∀ c, (f c).name = c.name := by exact fun _ => rfl) (hs : ∀ c, (f c).state = c.state := by exact fun _ => rfl) :
    (s.mapDev (fun d => d.setClaim nm f)).usesOf nm = s.usesOf nm := by
  have hl : ((s.dev.setClaim nm f).claim? nm).any (fun c => c.state == .live) = (s.dev.claim? nm).any (fun c => c.state == .live) := by
    rw [Dev.claim?_setClaim _ _ hf, Option.any_map]
    simp only [hs]
  unfold State.usesOf
  rw [State.mapDev_dev, hl]
  rfl

/-! ### Claims of the owner runtime (R202, R204) -/

/-- A tensor region or a group has no object of its own beside what its entry makes. -/
theorem State.newObject_plain {s : State} {c : NewClaim} (ht : c.ty = .tensor ∨ c.ty = .group) :
    s.newObject c = some (fun _ d => d) := by
  rcases ht with ht | ht <;> rw [State.newObject, ht]

theorem exec_ownerRuntimeCreatesClaim {s : State} {c : NewClaim} (ha : (s.dev.page c.owner).active = true)
    (ht : c.ty = .tensor ∨ c.ty = .group) (hl : c.launch = false) (hh : s.homeOk c = true) (hm : s.mayEnter c.home = true) :
    exec (.ownerRuntimeCreatesClaim c) s =
      .next (s.enterClaim c.ty c.owner c.home (BitVec.ofNat 64 c.base) (BitVec.ofNat 64 c.size) c.attr).1 := by
  have hn : (s.newObject c).filter (fun _ => s.homeOk c && s.mayEnter c.home) = some (fun _ d => d) := by
    rw [State.newObject_plain ht, hh, hm]; rfl
  show execOwnerRuntimeCreatesClaim c s = _
  simp only [execOwnerRuntimeCreatesClaim, ha, hl, hn, Bool.not_true, Bool.false_eq_true, if_false]
  rfl

/-! ### A recall begins (R214) -/

theorem State.answerGone_of_no_group {s : State} {nm : ClaimName} (h : s.dev.groups.find? (fun g => g.name == nm) = none) :
    s.answerGone nm = s := by
  rw [State.answerGone, h]

/-- A recall of which an acknowledgement is owed does not end. -/
theorem State.tryEnd_of_holders {s : State} {nm : ClaimName} {c : Claim} (hc : s.dev.claim? nm = some c) (hh : c.holders ≠ []) :
    s.tryEnd nm = s := by
  have hd : s.recallDone c = false := by simp [State.recallDone, hh]
  simp [State.tryEnd, hc, hd]

theorem State.startRecall_claim? {s : State} {nm : ClaimName} {c : Claim} (id : Option Nat) (hc : s.dev.claim? nm = some c) :
    (s.startRecall nm id).dev.claim? nm =
      some { c with state := .retiring, token := id, holders := (if s.handled nm then [ownCache] else []) ++ c.holders } :=
  State.claim?_setClaim (f := fun c => { c with
    state := .retiring, token := id, holders := (if s.handled nm then [ownCache] else []) ++ c.holders }) hc

theorem exec_ownerRuntimeRetiresClaim {s : State} {nm : ClaimName} {c : Claim} (hc : s.dev.claim? nm = some c) (hl : c.state = .live)
    (hh : c.holders ≠ []) (hg : s.dev.groups.find? (fun g => g.name == nm) = none) :
    exec (.ownerRuntimeRetiresClaim nm) s = .next (s.startRecall nm none) := by
  have hr : s.recall nm none = s.startRecall nm none := by
    simp only [State.recall, hc, hl, if_true]
    exact State.answerGone_of_no_group hg
  show execOwnerRuntimeRetiresClaim nm s = _
  rw [execOwnerRuntimeRetiresClaim, hr, State.tryEnd_of_holders (State.startRecall_claim? none hc) (List.append_ne_nil_of_right_ne_nil _ hh)]

/-! ### The shoot-down (R214, R215) -/

theorem Handle.kill_ne (h : Handle) (nm : ClaimName) : h.kill nm ≠ .valid nm := by
  cases h with
  | invalid => exact Handle.noConfusion
  | dead n => exact Handle.noConfusion
  | valid n => by_cases hn : n = nm <;> simp [Handle.kill, hn]

/-- No handle of a register file names a claim whose handles have been killed. -/
theorem vget_kill_ne {n : Nat} (v : Vector Handle n) (nm : ClaimName) {i : Nat} (hi : i < n) :
    vget (v.map (fun h => h.kill nm)) i .invalid ≠ .valid nm := by
  have hg : vget (v.map (fun h => h.kill nm)) i .invalid = v[i].kill nm := by simp [vget, Vector.getD, hi]
  rw [hg]
  exact Handle.kill_ne _ nm

theorem exec_claimShootDown {s : State} {nm : ClaimName} {c : Claim} (hc : s.dev.claim? nm = some c) (hr : c.state = .retiring) :
    exec (.claimShootDown nm) s = .next (s.dropCached nm) := by
  show execClaimShootDown nm s = _
  simp only [execClaimShootDown, hc, hr, if_true]

/-- The core that has been shot down has the name neither in its cache nor in a handle register. -/
theorem State.dropCached_drops (s : State) (nm : ClaimName) :
    nm ∉ (s.dropCached nm).core.cache ∧ (∀ i, i < 8 → vget (s.dropCached nm).core.regs.ch i .invalid ≠ .valid nm) ∧
      (∀ i, i < 4 → vget (s.dropCached nm).core.regs.k i .invalid ≠ .valid nm) :=
  ⟨fun h => by simpa using (List.mem_filter.1 h).2, fun _ hi => vget_kill_ne _ nm hi, fun _ hi => vget_kill_ne _ nm hi⟩

/-! ### The recall ends (R214) -/

theorem State.deliver_frame (s : State) (id : Nat) (r : RegName) (d : Dest) :
    (s.deliver id r d).mem = s.mem ∧ ∃ ss, (s.deliver id r d).dev = { s.dev with strands := ss } := by
  unfold State.deliver
  split
  · exact ⟨rfl, s.dev.strands, rfl⟩
  · exact ⟨rfl, _, rfl⟩

theorem State.endToken_frame (s : State) (id : Nat) (v : X64) :
    (s.endToken id v).mem = s.mem ∧ ∃ ss, (s.endToken id v).dev = { s.dev with strands := ss } := by
  unfold State.endToken State.deliverTok
  dsimp only
  split
  · exact ⟨rfl, s.dev.strands, rfl⟩
  · exact s.deliver_frame id _ _

/-- The device once the recall of a claim has ended: its entry is GONE, and its object is freed. -/
def Dev.ended (d : Dev) (nm : ClaimName) : Dev :=
  { (d.setClaim nm (fun c => { c with state := .gone, token := none })) with
    groups := d.groups.filter (fun g => g.name != nm), chutes := d.chutes.filter (fun g => g.name != nm),
    ricks := d.ricks.filter (fun g => g.name != nm), kernels := d.kernels.filter (fun g => g.name != nm) }

/-- The token of the RETIRE, if one is owed, changes of the device the saved contexts alone. -/
theorem State.endRecall_frame (s : State) (c : Claim) :
    (s.endRecall c).mem = s.mem ∧ ∃ ss, (s.endRecall c).dev = { s.dev.ended c.name with strands := ss } := by
  unfold State.endRecall
  dsimp only
  split
  · exact ⟨rfl, s.dev.strands, rfl⟩
  · next id _ => exact (s.mapDev (fun d => d.ended c.name)).endToken_frame id (token 0 0)

theorem State.finishRecall_plain {s : State} {c : Claim} (hc : c.ty ≠ .coll) (hl : c.ty ≠ .lease) : s.finishRecall c = s.endRecall c := by
  unfold State.finishRecall
  dsimp only
  split
  · next h => exact absurd h hc
  · next h => exact absurd h hl
  · rfl

/-- A recall ends where every acknowledgement is in and no use is held. -/
theorem State.tryEnd_done {s : State} {nm : ClaimName} {c : Claim} (hc : s.dev.claim? nm = some c) (hr : c.state = .retiring)
    (hh : c.holders = []) (hu : c.uses = []) (ho : s.usesOf nm = 0) : s.tryEnd nm = s.finishRecall c := by
  have hd : s.recallDone c = true := by simp [State.recallDone, hr, hh, hu, Dev.name_of_claim? hc, ho]
  simp only [State.tryEnd, hc, hd, if_true]

/-- The own cache's acknowledgement is in. -/
def State.acked (s : State) (nm : ClaimName) : State :=
  s.mapDev (fun d => d.setClaim nm (fun c => { c with holders := c.holders.filter (fun h => h != ownCache) }))

section
variable {s : State} {nm : ClaimName} {c : Claim} (hc : s.dev.claim? nm = some c) (hr : c.state = .retiring) (hn : s.handled nm = false)
include hc hr hn

/-- This core acknowledges once it has dropped the name. -/
theorem exec_recallAck_own : exec (.recallAck nm ownCache) s = .next ((s.acked nm).tryEnd nm) := by
  show execRecallAck nm ownCache s = _
  simp only [execRecallAck, hc, hr, hn, bne_self_eq_false, Bool.and_false, Bool.or_self, Bool.false_eq_true, if_false]
  rfl

variable (hh : c.holders = [ownCache]) (hu : c.uses = []) (ho : s.usesOf nm = 0) (ht : c.ty ≠ .coll) (hl : c.ty ≠ .lease)
include hh hu ho ht hl

/-- The acknowledgement of the last holder ends a recall of which no use is held. -/
theorem exec_recallAck_last :
    exec (.recallAck nm ownCache) s = .next ((s.acked nm).endRecall { c with holders := [] }) := by
  have hc' : (s.acked nm).dev.claim? nm = some { c with holders := [] } :=
    (State.claim?_setClaim hc).trans (by rw [hh]; rfl)
  have ho' : (s.acked nm).usesOf nm = 0 := (s.usesOf_setClaim nm).trans ho
  rw [exec_recallAck_own hc hr hn, State.tryEnd_done hc' hr rfl hu ho', State.finishRecall_plain (c := { c with holders := [] }) ht hl]

theorem recallAck_ends :
    Runs (.recallAck nm ownCache) s (fun t => (t.dev.claim? nm).map (·.state) = some .gone ∧ t.dev.groups.all (fun g => g.name != nm) = true ∧
      t.dev.chutes.all (fun g => g.name != nm) = true ∧ t.mem = s.mem) := by
  obtain ⟨hmem, ss, hdev⟩ := (s.acked nm).endRecall_frame { c with holders := [] }
  have hname : c.name = nm := Dev.name_of_claim? hc
  have hgone : ((s.acked nm).dev.ended nm).claim? nm =
      some { c with holders := c.holders.filter (fun h => h != ownCache), state := .gone, token := none } :=
    State.claim?_setClaim (s := s.acked nm) (f := fun c => { c with state := .gone, token := none }) (State.claim?_setClaim hc)
  refine ⟨_, exec_recallAck_last hc hr hn hh hu ho ht hl, ?_, ?_, ?_, hmem⟩
  all_goals rw [hdev, hname]
  · show (((s.acked nm).dev.ended nm).claim? nm).map _ = _
    rw [hgone]; rfl
  · exact List.all_eq_true.2 fun g hg => (List.mem_filter.1 hg).2
  · exact List.all_eq_true.2 fun g hg => (List.mem_filter.1 hg).2
end

/-! ### Answered lookups (R205, R206, R214) -/

@[simp] theorem State.learn_mem (s : State) (nm : ClaimName) : (s.learn nm).mem = s.mem := by
  unfold State.learn; split <;> rfl

/-- A filled cache holds the name, and 64 at most. -/
theorem State.fillCache_cache (s : State) (nm : ClaimName) :
    nm ∈ (s.fillCache nm).core.cache ∧ (s.fillCache nm).core.cache.length ≤ 64 :=
  ⟨List.mem_cons_self .., List.length_take_le _ _⟩

theorem claimLookup_fills {s : State} {nm : ClaimName} {e : Engine} {c : Claim} (he : e ∈ s.core.engs) (hl : e.cmd.looked = some nm)
    (hn : nm ∉ s.core.cache) (hr : s.resolve s.core.tenant nm = some c) :
    Runs (.claimLookup ⟨nm, .own⟩) s (fun t => nm ∈ t.core.cache ∧ t.core.cache.length ≤ 64 ∧ t.core.regs = s.core.regs ∧ t.mem = s.mem) := by
  have ha : s.core.engs.any (fun e => e.cmd.looked == some nm) = true := List.any_eq_true.2 ⟨e, he, by simp [hl]⟩
  have hx : exec (.claimLookup ⟨nm, .own⟩) s = .next (s.fillCache nm).bump := by
    show execClaimLookup ⟨nm, .own⟩ s = _
    simp [execClaimLookup, ha, hn, hr]
  obtain ⟨hmem, hlen⟩ := s.fillCache_cache nm
  refine ⟨_, hx, hmem, hlen, ?_, ?_⟩
  · simp [State.fillCache]
  · simp [State.fillCache]

section
variable {s : State} {tenant : Nat} {nm : ClaimName} {c : Claim} (h : s.lookup tenant nm = some c)
include h

theorem State.claim?_of_lookup : s.dev.claim? nm = some c := by
  unfold State.lookup at h
  split at h
  · cases h
  · exact (Option.filter_eq_some_iff.1 h).1

/-- A cache that is not yet a holder becomes one. -/
theorem claimLookup_holds (dev core : Nat)
    (ho : (if dev = s.dev.ident.index then core else 1024 * (dev + 1) + core) ≠ ownCache)
    (hn : (if dev = s.dev.ident.index then core else 1024 * (dev + 1) + core) ∉ c.holders) :
    Runs (.claimLookup ⟨nm, .cache dev core tenant⟩) s (fun t => t.dev.claim? nm = some { c with
      holders := c.holders ++ [if dev = s.dev.ident.index then core else 1024 * (dev + 1) + core] } ∧ t.core = s.core ∧ t.mem = s.mem) := by
  refine ⟨s.mapDev (fun d => d.setClaim nm (fun c => { c with
    holders := c.holders ++ [if dev = s.dev.ident.index then core else 1024 * (dev + 1) + core] })), ?_, ?_, rfl, rfl⟩
  · show execClaimLookup ⟨nm, .cache dev core tenant⟩ s = _
    simp only [execClaimLookup, h, decide_eq_false ho, Bool.false_or, List.contains_eq_mem, decide_eq_false hn, Bool.false_eq_true, if_false]
  · exact State.claim?_setClaim (State.claim?_of_lookup h)

/-- An operation of another device takes a use. -/
theorem claimLookup_uses (dev : Nat) :
    Runs (.claimLookup ⟨nm, .use dev tenant⟩) s (fun t => t.dev.claim? nm = some { c with uses := c.uses ++ [dev] } ∧
      t.core = s.core ∧ t.mem = s.mem) := by
  refine ⟨s.mapDev (fun d => d.setClaim nm (fun c => { c with uses := c.uses ++ [dev] })), ?_, ?_, rfl, rfl⟩
  · show execClaimLookup ⟨nm, .use dev tenant⟩ s = _
    simp only [execClaimLookup, h]
  · exact State.claim?_setClaim (State.claim?_of_lookup h)
end

/-! ### The obligation -/

/-- Settles O53: each event by its equation, and what it leaves of the entry by one lemma about a change of an entry. -/
theorem claimEvents : Obligations.ClaimEvents := by
  unfold Obligations.ClaimEvents
  intro s nm
  refine ⟨fun c ha ht hl hh hm => ?_, fun c hc hl hh hg => ?_, fun c hc hr => ?_, fun c => recallAck_ends, fun e c => claimLookup_fills,
    fun dev core tenant c h => claimLookup_holds h dev core, fun dev tenant c h => claimLookup_uses h dev⟩
  · exact ⟨_, exec_ownerRuntimeCreatesClaim ha ht hl hh hm, rfl, rfl, rfl, _, rfl, rfl, rfl, rfl, rfl, rfl, rfl, rfl, rfl⟩
  · exact ⟨_, exec_ownerRuntimeRetiresClaim hc hl hh hg, State.startRecall_claim? none hc, rfl, rfl⟩
  · obtain ⟨hcache, hch, hk⟩ := s.dropCached_drops nm
    exact ⟨_, exec_claimShootDown hc hr, hcache, hch, hk, rfl, rfl⟩

end Sys2Proof.Machine
end

section
/-! The laws of memory's three lists, each a list of rows by rising number without default rows (log 1; R40, R220, R360). -/
open Sys2Proof Sys2Proof.Machine Sys2Proof.Claims

namespace Sys2Proof.Machine

/-! ### Rows by rising number -/

variable {α : Type}

/-- The value at a number; `d` where no row is: the shape of `cellsGet`, `tagsGet` and `setHas`. -/
def rowGet (d : α) : List (Nat × α) → Nat → α
  | [], _ => d
  | (k, v) :: t, a => if k = a then v else if a < k then d else rowGet d t a

/-- The rows after one value is set: the shape of `cellsPut`, `tagsPut`, `setAdd` and `setDel`. -/
def rowPut [DecidableEq α] (d : α) : List (Nat × α) → Nat → α → List (Nat × α)
  | [], a, b => if b = d then [] else [(a, b)]
  | (k, v) :: t, a, b =>
    if a < k then (if b = d then (k, v) :: t else (a, b) :: (k, v) :: t)
    else if a = k then (if b = d then t else (k, b) :: t)
    else (k, v) :: rowPut d t a b

/-- Strictly rising numbers from `lo` on, and no row of the default. -/
def rowWf [DecidableEq α] (d : α) : Nat → List (Nat × α) → Bool
  | _, [] => true
  | lo, (k, v) :: t => decide (lo ≤ k) && decide (v ≠ d) && rowWf d (k + 1) t

theorem rowWf_cons [DecidableEq α] {d : α} {lo k : Nat} {v : α} {t : List (Nat × α)} :
    rowWf d lo ((k, v) :: t) = true ↔ lo ≤ k ∧ v ≠ d ∧ rowWf d (k + 1) t = true := by
  simp [rowWf, and_assoc]

theorem rowGet_below [DecidableEq α] {d : α} {l : List (Nat × α)} {lo a : Nat} (hw : rowWf d lo l = true) (h : a < lo) :
    rowGet d l a = d := by
  match l, hw with
  | [], _ => rfl
  | (k, v) :: t, hw =>
    have hk := (rowWf_cons.1 hw).1
    rw [rowGet, if_neg (by omega), if_pos (by omega)]

theorem rowGet_head {d : α} {k : Nat} {v : α} {t : List (Nat × α)} : rowGet d ((k, v) :: t) k = v := by
  simp [rowGet]

theorem rowGet_tail {d : α} {k a : Nat} {v : α} {t : List (Nat × α)} (h : k < a) : rowGet d ((k, v) :: t) a = rowGet d t a := by
  rw [rowGet, if_neg (by omega), if_neg (by omega)]

/-- A value set is read at its number, and every other as before. -/
theorem rowGet_rowPut [DecidableEq α] (d b : α) (a c : Nat) : ∀ {l : List (Nat × α)} {lo : Nat}, rowWf d lo l = true →
    rowGet d (rowPut d l a b) c = if c = a then b else rowGet d l c
  | [], _, _ => by
    simp only [rowPut]
    split <;> grind [rowGet]
  | (k, v) :: t, lo, hw => by
    have ht := (rowWf_cons.1 hw).2.2
    have hlow : ∀ x, x < k + 1 → rowGet d t x = d := fun x hx => rowGet_below ht hx
    have ih := rowGet_rowPut d b a c ht
    simp only [rowPut]
    split
    · split <;> grind [rowGet]
    · split
      · split <;> grind [rowGet]
      · grind [rowGet]

/-- Two lists that read alike are one: the first rows agree, as neither holds the default. -/
theorem rowWf_ext [DecidableEq α] {d : α} : ∀ {l m : List (Nat × α)} {lo lo' : Nat}, rowWf d lo l = true → rowWf d lo' m = true →
    (∀ a, rowGet d l a = rowGet d m a) → l = m
  | [], [], _, _, _, _, _ => rfl
  | [], (k, v) :: t, _, _, _, hm, h => absurd ((h k).trans rowGet_head).symm (rowWf_cons.1 hm).2.1
  | (k, v) :: t, [], _, _, hl, _, h => absurd (rowGet_head.symm.trans (h k)) (rowWf_cons.1 hl).2.1
  | (k, v) :: t, (j, w) :: u, _, _, hl, hm, h => by
    obtain ⟨-, hv, ht⟩ := rowWf_cons.1 hl
    obtain ⟨-, hw, hu⟩ := rowWf_cons.1 hm
    have hkj : k = j := by
      rcases Nat.lt_trichotomy k j with hlt | heq | hgt
      · exact absurd (rowGet_head.symm.trans ((h k).trans (by rw [rowGet, if_neg (by omega), if_pos hlt]))) hv
      · exact heq
      · exact absurd (rowGet_head.symm.trans ((h j).symm.trans (by rw [rowGet, if_neg (by omega), if_pos hgt]))) hw
    subst hkj
    have hvw : v = w := rowGet_head.symm.trans ((h k).trans rowGet_head)
    have htu : t = u := rowWf_ext ht hu fun a => by
      rcases Nat.lt_or_ge k a with hlt | hge
      · rw [← rowGet_tail (v := v) hlt, h, rowGet_tail hlt]
      · rw [rowGet_below ht (by omega), rowGet_below hu (by omega)]
    rw [hvw, htu]

/-! ### Memory's lists as rows -/

theorem cellsGet_eq_rowGet : ∀ (l : List Host.Cell) (a : Nat), cellsGet l a = rowGet 0 l a
  | [], _ => rfl
  | (k, v) :: t, a => by rw [cellsGet, rowGet, cellsGet_eq_rowGet t a]

theorem cellsWf_eq_rowWf : ∀ (lo : Nat) (l : List Host.Cell), cellsWf lo l = rowWf 0 lo l
  | _, [] => rfl
  | lo, (k, v) :: t => by rw [cellsWf, rowWf, cellsWf_eq_rowWf (k + 1) t]

theorem tagsGet_eq_rowGet : ∀ (l : List (Nat × (Fmt × Geo))) (a : Nat), tagsGet l a = rowGet (.raw, .packed) l a
  | [], _ => rfl
  | (k, v) :: t, a => by rw [tagsGet, rowGet, tagsGet_eq_rowGet t a]

theorem tagsPut_eq_rowPut : ∀ (l : List (Nat × (Fmt × Geo))) (a : Nat) (b : Fmt × Geo), tagsPut l a b = rowPut (.raw, .packed) l a b
  | [], _, _ => rfl
  | (k, v) :: t, a, b => by rw [tagsPut, rowPut, tagsPut_eq_rowPut t a b]

theorem tagsWf_eq_rowWf : ∀ (lo : Nat) (l : List (Nat × (Fmt × Geo))), tagsWf lo l = rowWf (.raw, .packed) lo l
  | _, [] => rfl
  | lo, (k, v) :: t => by rw [tagsWf, rowWf, tagsWf_eq_rowWf (k + 1) t]

/-- A set as rows: each of its numbers holds `true`. -/
def setRows (l : List Nat) : List (Nat × Bool) := l.map (fun a => (a, true))

theorem setHas_eq_rowGet : ∀ (l : List Nat) (a : Nat), setHas l a = rowGet false (setRows l) a
  | [], _ => rfl
  | k :: t, a => by rw [setHas, setHas_eq_rowGet t a]; rfl

theorem setRows_setAdd : ∀ (l : List Nat) (a : Nat), setRows (setAdd l a) = rowPut false (setRows l) a true
  | [], _ => rfl
  | k :: t, a => by
    have ih := setRows_setAdd t a
    simp only [setRows, setAdd, List.map_cons, rowPut] at ih ⊢
    split
    · rfl
    · split
      · rfl
      · rw [List.map_cons, ih]

theorem setRows_setDel : ∀ (l : List Nat) (a : Nat), setRows (setDel l a) = rowPut false (setRows l) a false
  | [], _ => rfl
  | k :: t, a => by
    have ih := setRows_setDel t a
    simp only [setRows, setDel, List.map_cons, rowPut] at ih ⊢
    split
    · rfl
    · split
      · rfl
      · rw [List.map_cons, ih]

theorem setWf_eq_rowWf : ∀ (lo : Nat) (l : List Nat), setWf lo l = rowWf false lo (setRows l)
  | _, [] => rfl
  | lo, k :: t => by
    rw [setWf, setWf_eq_rowWf (k + 1) t]
    simp [setRows, rowWf]

theorem setHas_setAdd {l : List Nat} (h : setWf 0 l = true) (a c : Nat) : setHas (setAdd l a) c = if c = a then true else setHas l c := by
  rw [setWf_eq_rowWf] at h
  rw [setHas_eq_rowGet, setRows_setAdd, rowGet_rowPut false true a c h, setHas_eq_rowGet]

theorem setHas_setDel {l : List Nat} (h : setWf 0 l = true) (a c : Nat) : setHas (setDel l a) c = if c = a then false else setHas l c := by
  rw [setWf_eq_rowWf] at h
  rw [setHas_eq_rowGet, setRows_setDel, rowGet_rowPut false false a c h, setHas_eq_rowGet]

/-- A number once in a set stays there while others are added. -/
theorem setHas_setAdds (c : Nat) : ∀ (ws l : List Nat), setWf 0 l = true → (setHas l c = true ∨ c ∈ ws) →
    setHas (ws.foldl setAdd l) c = true
  | [], _, _, hc => by simpa using hc
  | w :: ws, l, h, hc => by
    refine setHas_setAdds c ws _ (setAdd_wf l 0 w (by omega) h) ?_
    rw [setHas_setAdd h]
    simp only [List.mem_cons] at hc
    split <;> grind

theorem setHas_setDels (c : Nat) : ∀ (ws l : List Nat), setWf 0 l = true → (setHas l c = false ∨ c ∈ ws) →
    setHas (ws.foldl setDel l) c = false
  | [], _, _, hc => by simpa using hc
  | w :: ws, l, h, hc => by
    refine setHas_setDels c ws _ (setDel_wf l 0 w h) ?_
    rw [setHas_setDel h]
    simp only [List.mem_cons] at hc
    split <;> grind

/-! ### Memory -/

/-- A byte's own word is among those whose poison it shares (R360). -/
theorem mem_granule (a : Nat) : a / 4 ∈ granule a := by
  unfold granule
  split
  · exact List.mem_map.2 ⟨a / 4 % 8, List.mem_range.2 (by omega), by omega⟩
  · exact List.mem_singleton.2 rfl

theorem Memory.poisoned_mark {m : Memory} (h : m.wf = true) {a : Nat} (ha : homeOf (physOf a) ≠ .host) : (m.mark a).poisoned a = true := by
  rw [Memory.poisoned, Memory.mark, if_neg ha]
  exact setHas_setAdds _ _ _ (m.wf_iff.1 h).2.1 (.inr (mem_granule a))

theorem Memory.poisoned_unmark {m : Memory} (h : m.wf = true) (a : Nat) : (m.unmark a).poisoned a = false :=
  setHas_setDels _ _ _ (m.wf_iff.1 h).2.1 (.inr (mem_granule a))

theorem Memory.tag_setTag {m : Memory} (h : m.wf = true) (r : Nat) (f : Fmt) (g : Geo) (q : Nat) :
    (m.setTag r f g).tag q = if q = r then (f, g) else m.tag q := by
  have ht := (m.wf_iff.1 h).2.2
  rw [tagsWf_eq_rowWf] at ht
  rw [Memory.tag, Memory.setTag, tagsGet_eq_rowGet, tagsPut_eq_rowPut, rowGet_rowPut _ _ _ _ ht, Memory.tag, tagsGet_eq_rowGet]

/-- Equal memories are equal data (log 1). -/
theorem Memory.wf_ext {m n : Memory} (hm : m.wf = true) (hn : n.wf = true) (hb : ∀ a, m.byte a = n.byte a)
    (hp : ∀ w, setHas m.poison w = setHas n.poison w) (ht : ∀ r, m.tag r = n.tag r) : m = n := by
  obtain ⟨mc, mp, mt⟩ := m
  obtain ⟨nc, np, nt⟩ := n
  obtain ⟨hmc, hmp, hmt⟩ := Memory.wf_iff _ |>.1 hm
  obtain ⟨hnc, hnp, hnt⟩ := Memory.wf_iff _ |>.1 hn
  have hc : mc = nc := rowWf_ext ((cellsWf_eq_rowWf _ _).symm.trans hmc) ((cellsWf_eq_rowWf _ _).symm.trans hnc)
    fun a => by simpa only [Memory.byte, cellsGet_eq_rowGet] using hb a
  have hrows : setRows mp = setRows np := rowWf_ext ((setWf_eq_rowWf _ _).symm.trans hmp) ((setWf_eq_rowWf _ _).symm.trans hnp)
    fun a => by simpa only [setHas_eq_rowGet] using hp a
  have hpo : mp = np := List.map_injective_iff.2 (fun _ _ e => congrArg Prod.fst e) hrows
  have hta : mt = nt := rowWf_ext ((tagsWf_eq_rowWf _ _).symm.trans hmt) ((tagsWf_eq_rowWf _ _).symm.trans hnt)
    fun a => by simpa only [Memory.tag, tagsGet_eq_rowGet] using ht a
  rw [hc, hpo, hta]

end Sys2Proof.Machine
end

section
/-! The obligation about memory's laws. -/
open Sys2Proof Sys2Proof.Machine Sys2Proof.Claims

namespace Sys2Proof.Machine

/-- Settles O7: each of memory's lists reads back what was set, and is the only one that reads so. -/
theorem memoryLaws : Obligations.MemoryLaws := by
  unfold Obligations.MemoryLaws
  refine ⟨fun m a b h => ⟨Memory.setByte_wf a b h, ?_, fun c hc => ?_, Memory.mark_wf a h, Memory.unmark_wf a h,
    fun c => Memory.byte_mark m a c, Memory.poisoned_mark h, Memory.poisoned_unmark h a, fun r f g => ⟨Memory.setTag_wf r f g h, ?_,
      fun q hq => ?_, fun c => rfl⟩⟩, fun m n => Memory.wf_ext⟩
  · rw [Memory.byte_setByte h, if_pos rfl]
  · rw [Memory.byte_setByte h, if_neg hc]
  · rw [Memory.tag_setTag h, if_pos rfl]
  · rw [Memory.tag_setTag h, if_neg hq]

end Sys2Proof.Machine
end

section
/-! Operations that leave memory as it is, whatever they do: one lemma each. -/
open Sys2Proof Sys2Proof.Machine Sys2Proof.Claims

namespace Sys2Proof.Machine

/-! ### The core -/

@[simp] theorem State.keepSys_mem (s : State) (f : SysRegs → SysRegs) : (s.keepSys f).mem = s.mem := rfl
@[simp] theorem State.keepSrc_mem (s : State) (k b e : Nat) (l : List Nat) : (s.keepSrc k b e l).mem = s.mem := rfl
@[simp] theorem State.landImage_mem (s : State) (q land : Nat) (v : VBits) (po : BitVec 64) : (s.landImage q land v po).mem = s.mem := rfl
@[simp] theorem State.landImages_mem (s : State) : s.landImages.mem = s.mem := rfl
@[simp] theorem State.countImage_mem (s : State) (q : Nat) : (s.countImage q).mem = s.mem := rfl
@[simp] theorem State.takeImage_mem (s : State) (q : Nat) : (s.takeImage q).mem = s.mem := rfl
@[simp] theorem State.append_mem (s : State) (q lat : Nat) (v : VBits) (po : BitVec 64) : (s.append q lat v po).mem = s.mem := rfl
@[simp] theorem State.putX_mem (s : State) (d : Reg) (lat : Nat) (v : X64) (po : Bool) : (s.putX d lat v po).mem = s.mem := rfl
@[simp] theorem State.putP_mem (s : State) (d : Nat) (v m : PBits) (po : Bool) : (s.putP d v m po).mem = s.mem := rfl
@[simp] theorem State.rollback_mem (s : State) : s.rollback.mem = s.mem := rfl
@[simp] theorem State.waitTurn_mem (s : State) : s.waitTurn.mem = s.mem := rfl
@[simp] theorem State.placeBare_mem (s : State) : s.placeBare.mem = s.mem := rfl
@[simp] theorem State.lookupFails_mem (s : State) (c : Nat) (a : X64) : (s.lookupFails c a).mem = s.mem := rfl
@[simp] theorem State.returnFromTrap_mem (s : State) : s.returnFromTrap.mem = s.mem := rfl
@[simp] theorem State.issuing_mem (s : State) (q : Slotted) : (s.issuing q).mem = s.mem := rfl
@[simp] theorem State.keptWaiting_mem (s : State) (q : Slotted) : (s.keptWaiting q).mem = s.mem := rfl
@[simp] theorem State.tried_mem (s : State) (q : Slotted) (v : State) : (s.tried q v).mem = v.mem := rfl
@[simp] theorem State.fillLine_mem (s : State) (line : Nat) : (s.fillLine line).mem = s.mem := rfl
@[simp] theorem State.startDrain_mem (s : State) : s.startDrain.mem = s.mem := rfl
@[simp] theorem State.branchTo_mem (s : State) (a : Nat) : (s.branchTo a).mem = s.mem := rfl
@[simp] theorem State.nextId_mem (s : State) : s.nextId.mem = s.mem := rfl
@[simp] theorem State.setCmd_mem (s : State) (id : Nat) (c : Cmd) : (s.setCmd id c).mem = s.mem := rfl
@[simp] theorem State.beginSend_mem (s : State) (id : Nat) : (s.beginSend id).mem = s.mem := rfl
@[simp] theorem State.shieldGate_mem (s : State) (e : Engine) (l : List Nat) : (s.shieldGate e l).mem = s.mem := rfl
@[simp] theorem State.dropFar_mem (s : State) (f : FarOp) : (s.dropFar f).mem = s.mem := rfl
@[simp] theorem State.collToken_mem (s : State) (id : Nat) (v : X64) : (s.collToken id v).mem = s.mem := rfl
@[simp] theorem State.gateFar_mem (s : State) (rel : Bool) (ps : List Part) (d : StoreData) (a : Option AtomOp) (tok n : Nat) :
    (s.gateFar rel ps d a tok n).mem = s.mem := rfl

/-! ### The device -/

@[simp] theorem State.noteStores_mem (s : State) (l : List Nat) : (s.noteStores l).mem = s.mem := rfl
@[simp] theorem State.replied_mem (s : State) (n : Nat) : (s.replied n).mem = s.mem := rfl
@[simp] theorem State.answerBytes_mem (s : State) (l : List Nat) : (s.answerBytes l).mem = s.mem := rfl
@[simp] theorem State.hear_mem (s : State) (d : Nat) : (s.hear d).mem = s.mem := rfl
@[simp] theorem State.setRound_mem (s : State) (r : Round) : (s.setRound r).mem = s.mem := rfl
@[simp] theorem State.setChute_mem (s : State) (c : Chute) : (s.setChute c).mem = s.mem := rfl
@[simp] theorem State.setRick_mem (s : State) (r : Rick) : (s.setRick r).mem = s.mem := rfl
@[simp] theorem State.mapLinks_mem (s : State) (f : Links → Links) : (s.mapLinks f).mem = s.mem := rfl
@[simp] theorem State.dropBlock_mem (s : State) (t : Nat) : (s.dropBlock t).mem = s.mem := rfl
@[simp] theorem State.dropBeats_mem (s : State) (l : List Beat) : (s.dropBeats l).mem = s.mem := rfl
@[simp] theorem State.dropCached_mem (s : State) (nm : ClaimName) : (s.dropCached nm).mem = s.mem := rfl
@[simp] theorem State.freeLeases_mem (s : State) (nm : ClaimName) : (s.freeLeases nm).mem = s.mem := rfl
@[simp] theorem State.chooseAlg_mem (s : State) (r : Round) (d : Decision) : (s.chooseAlg r d).mem = s.mem := rfl
@[simp] theorem State.askSlots_mem (s : State) (r : Round) : (s.askSlots r).mem = s.mem := rfl
@[simp] theorem State.giveBack_mem (s : State) (r : Round) (l : List (Nat × Bool)) : (s.giveBack r l).mem = s.mem := rfl
@[simp] theorem State.performSend_mem (s : State) (t peer tag src k : Nat) (kept : List (Nat × Byte × Bool)) :
    (s.performSend t peer tag src k kept).1.mem = s.mem := rfl
@[simp] theorem State.enterClaim_mem (s : State) (ty : ClaimType) (o home : Nat) (base size attr : X64) :
    (s.enterClaim ty o home base size attr).1.mem = s.mem := rfl
@[simp] theorem State.forgo_mem (s : State) (id : Nat) (r : RegName) : (s.forgo id r).mem = s.mem := rfl
@[simp] theorem State.startRecall_mem (s : State) (nm : ClaimName) (id : Option Nat) : (s.startRecall nm id).mem = s.mem := rfl
@[simp] theorem State.breakChutes_mem (s : State) (k : Nat) : (s.breakChutes k).1.mem = s.mem := rfl
@[simp] theorem State.noteFence_mem (s : State) (ks : List Nat) : (s.noteFence ks).mem = s.mem := rfl
@[simp] theorem State.answerSpdm_mem (s : State) (r : Spdm) : (s.answerSpdm r).mem = s.mem := rfl
@[simp] theorem State.endUnacked_mem (s : State) (u : Unacked) (v : X64) : (s.endUnacked u v).mem = s.mem := rfl

end Sys2Proof.Machine
end

section
/-! Operations that leave memory as it is, among those whose meaning has cases. -/
open Sys2Proof Sys2Proof.Machine Sys2Proof.Claims

namespace Sys2Proof.Machine

/-- A fold of steps that each leave memory leaves it. -/
theorem State.foldl_mem {α : Type} {f : State → α → State} (hf : ∀ s x, (f s x).mem = s.mem) (l : List α) (s : State) :
    (l.foldl f s).mem = s.mem :=
  List.foldlRecOn l f (motive := fun t => t.mem = s.mem) rfl (fun t ht x _ => (hf t x).trans ht)

/-! ### Charges and results (R29, R278, R461) -/

@[simp] theorem State.charge_mem (s : State) (k g e : Nat) : (s.charge k g e).mem = s.mem := by
  unfold State.charge; split <;> rfl

@[simp] theorem State.chargeBytes_mem (s : State) (k : Nat) (homes : List (Nat × Nat)) : (s.chargeBytes k homes).mem = s.mem :=
  s.charge_mem _ _ _

@[simp] theorem State.chargeParts_mem (s : State) (k : Nat) (ps : List Part) : (s.chargeParts k ps).mem = s.mem :=
  s.chargeBytes_mem _ _

@[simp] theorem State.chargeHomes_mem (s : State) (id : Nat) (addrs : List Nat) : (s.chargeHomes id addrs).mem = s.mem := by
  unfold State.chargeHomes
  split
  · exact s.chargeBytes_mem _ _
  · rfl

@[simp] theorem State.chargeDst_mem (s : State) (r : Round) (b n : Nat) : (s.chargeDst r b n).mem = s.mem := s.chargeHomes_mem _ _

@[simp] theorem State.chargeWord_mem (s : State) (r : Round) : (s.chargeWord r).mem = s.mem := s.chargeHomes_mem _ _

@[simp] theorem State.chargeEngine_mem (s : State) (id bytes hops : Nat) : (s.chargeEngine id bytes hops).mem = s.mem := by
  unfold State.chargeEngine
  split
  · exact s.charge_mem _ _ _
  · rfl

@[simp] theorem State.sysOf_mem (s : State) (k : Nat) (f : SysRegs → SysRegs) : (s.sysOf k f).mem = s.mem := by
  unfold State.sysOf; split <;> rfl

@[simp] theorem State.deliver_mem (s : State) (id : Nat) (r : RegName) (d : Dest) : (s.deliver id r d).mem = s.mem := by
  unfold State.deliver; split <;> rfl

@[simp] theorem State.deliverTok_mem (s : State) (tok id : Nat) (v : X64) (po : Bool) : (s.deliverTok tok id v po).mem = s.mem := by
  unfold State.deliverTok
  split
  · rfl
  · exact s.deliver_mem _ _ _

@[simp] theorem State.finishEngine_mem (s : State) (e : Engine) (v : X64) : (s.finishEngine e v).mem = s.mem :=
  s.deliverTok_mem _ _ _ _

@[simp] theorem State.endToken_mem (s : State) (id : Nat) (v : X64) : (s.endToken id v).mem = s.mem := s.deliverTok_mem _ _ _ _

@[simp] theorem State.fillQueue_mem (s : State) (k id : Nat) (v : X64 × Bool) : (s.fillQueue k id v).mem = s.mem := by
  unfold State.fillQueue; split <;> rfl

@[simp] theorem State.answerWait_mem (s : State) (k : Nat) (v : X64) : (s.answerWait k v).mem = s.mem := by
  unfold State.answerWait; split <;> rfl

@[simp] theorem State.putOvfs_mem (s : State) (lat : Nat) (scl : Scl) (b : Bool) : (s.putOvfs lat scl b).mem = s.mem := by
  unfold State.putOvfs; split <;> rfl

@[simp] theorem State.putVWith_mem (s : State) (f : RG) (lat : Nat) (g : PBits × Bool) (r : VRes) : (s.putVWith f lat g r).mem = s.mem := by
  simp only [State.putVWith]; split <;> rfl

@[simp] theorem State.putV_mem (s : State) (f : RG) (lat : Nat) (r : VRes) : (s.putV f lat r).mem = s.mem := s.putVWith_mem _ _ _ _

@[simp] theorem State.useStream_mem (s : State) (f : RG) : (s.useStream f).mem = s.mem := by
  unfold State.useStream; split <;> rfl

@[simp] theorem State.useImage_mem (s : State) (d : Reg) (q : Bool) : (s.useImage d q).mem = s.mem := by
  unfold State.useImage; split <;> rfl

/-! ### Loads and commands (R242, R281) -/

@[simp] theorem State.useErrinj_mem (s : State) : s.useErrinj.1.mem = s.mem := by
  simp only [State.useErrinj]; split <;> rfl

@[simp] theorem State.launchLoad_mem (s : State) (acq : Bool) (st : List Stretch) (form : LoadForm) (reg : Nat) (q : Option Nat) :
    (s.launchLoad acq st form reg q).mem = s.mem := s.useErrinj_mem

@[simp] theorem State.sendLoad_mem (s : State) (r : Option RegName) (acq : Bool) (st : List Stretch) (form : LoadForm) (reg : Nat) :
    (s.sendLoad r acq st form reg).mem = s.mem := by
  simp only [State.sendLoad]; split <;> exact s.useErrinj_mem

@[simp] theorem State.streamLoad_mem (s : State) (q : Nat) (acq : Bool) (st : List Stretch) (form : LoadForm) :
    (s.streamLoad q acq st form).mem = s.mem := s.useErrinj_mem

@[simp] theorem State.putLoad_mem (s : State) (d : Reg) (q : Bool) (im : VBits × PBits × BitVec 64) : (s.putLoad d q im).mem = s.mem := by
  simp only [State.putLoad]
  split <;> split <;> rfl

@[simp] theorem State.bringImage_mem (s : State) (l : FarLoad) (q : Nat) (v : VBits) (po : BitVec 64) :
    (s.bringImage l q v po).mem = s.mem := by
  simp only [State.bringImage]
  split
  · rfl
  · split <;> rfl

@[simp] theorem State.returnLoad_mem (s : State) (l : FarLoad) (r : RegName × Dest × Bool) : (s.returnLoad l r).mem = s.mem := by
  unfold State.returnLoad
  split
  · exact s.bringImage_mem _ _ _ _
  · exact s.deliver_mem _ _ _

@[simp] theorem State.countLoad_mem (s : State) (l : FarLoad) : (s.countLoad l).mem = s.mem := by
  unfold State.countLoad
  split
  · rfl
  · exact s.sysOf_mem _ _

@[simp] theorem State.performLoad_mem (s : State) (q : FarLoad × Nat) : (s.performLoad q).mem = s.mem := by
  simp only [State.performLoad]
  split
  · split
    · rw [State.countLoad_mem, State.returnLoad_mem, State.mapCore_mem, State.chargeParts_mem]
    · rw [State.returnLoad_mem, State.mapCore_mem, State.chargeParts_mem]
  · exact s.chargeParts_mem _ _

@[simp] theorem State.gateCmd_mem (s : State) (tok : Nat) (c : Cmd) : (s.gateCmd tok c).mem = s.mem := (s.gateCmd_frame tok c).2.1

@[simp] theorem State.gateNamed_mem (s : State) (tok nh : Nat) (c : Cmd) : (s.gateNamed tok nh c).mem = s.mem := s.gateCmd_mem _ _

@[simp] theorem State.gateCmdWith_mem (s : State) (d : StoreData) (tok : Nat) (c : Cmd) : (s.gateCmdWith d tok c).mem = s.mem :=
  State.interlockTok_mem _ _ _ _

@[simp] theorem State.sendCmd_mem (s : State) (tok : Nat) (c : Cmd) (v : Option X64) : (s.sendCmd tok c v).mem = s.mem :=
  State.interlockTok_mem _ _ _ _

@[simp] theorem State.gateRick_mem (s : State) (d : Reg) (h : BitVec 4) (seg : X64) (op : RickOp) : (s.gateRick d h seg op).mem = s.mem := by
  unfold State.gateRick; split <;> exact s.gateCmd_mem _ _

@[simp] theorem State.writeErrinj_mem (s : State) (v : X64) : (s.writeErrinj v).mem = s.mem := by
  simp only [State.writeErrinj]
  split
  · split
    · exact State.gateCmd_mem _ _ _
    · rfl
  · rfl

@[simp] theorem State.storeLocal_mem (s : State) (addr : Nat) (t : Fmt) (sp : Spread) (g : BitVec 4) (rnd : Rnd) (sat : Bool) (scl : Scl)
    (d : Reg) (q : Bool) : (s.storeLocal addr t sp g rnd sat scl d q).mem = s.mem := by
  unfold State.storeLocal
  split
  · rfl
  · exact State.useImage_mem _ _ _

/-! ### The matrix array (R149, R152) -/

@[simp] theorem State.doMma_mem (s : State) (f : MM) : (State.doMma f s).mem = s.mem := by
  simp only [State.doMma]
  split
  · simp only [State.bump_mem, State.mapCore_mem, State.gatePush_mem, State.writeAfter]
    split <;> rfl
  · rfl

@[simp] theorem State.voidMma_mem (s : State) (f : MM) : (State.voidMma f s).mem = s.mem := by
  have mark : ∀ (t : State) (h q : Nat), (if s.slotState h q == .never then t.setBrk h else t).mem = t.mem := fun t h q => by
    split <;> rfl
  simp only [State.voidMma, mark]
  split <;> rfl

@[simp] theorem State.doDrain_mem (s : State) (f : MX) : (State.doDrain f s).mem = s.mem := by
  simp only [State.doDrain]
  split
  · split
    · split <;> rfl
    · rfl
  · split
    · exact State.gateCmdWith_mem _ _ _ _
    · rfl
  · rfl

/-! ### The core's cycle (R22, R28, R35, R36) -/

@[simp] theorem State.leaveCore_mem (s : State) (st : StrandState) (pc : Nat) : (s.leaveCore st pc).mem = s.mem := by
  unfold State.leaveCore; split <;> rfl

@[simp] theorem State.leaveForGood_mem (s : State) (st : StrandState) (pc : Nat) : (s.leaveForGood st pc).mem = s.mem :=
  s.leaveCore_mem _ _

@[simp] theorem State.requeue_mem (s : State) : s.requeue.mem = s.mem := by
  unfold State.requeue; split <;> rfl

@[simp] theorem State.stepRep_mem (s : State) : s.stepRep.mem = s.mem := by
  unfold State.stepRep
  split
  · rfl
  · split
    · rfl
    · split
      · rfl
      · split <;> rfl

@[simp] theorem State.enqueue_mem (s : State) (ops : List (Nat × Instr)) : (s.enqueue ops).mem = s.mem := s.stepRep_mem

@[simp] theorem State.keepWords_mem (s : State) (ws : List Nat) : (s.keepWords ws).mem = s.mem := by
  simp only [State.keepWords]; split <;> rfl

@[simp] theorem State.unpin_mem (s : State) : s.unpin.mem = s.mem := by
  unfold State.unpin
  split
  · split <;> rfl
  · rfl

@[simp] theorem State.pin_mem (s : State) : s.pin.mem = s.mem := by
  unfold State.pin
  split
  · split <;> rfl
  · rfl

@[simp] theorem State.endBundle_mem (s : State) : s.endBundle.mem = s.mem := by
  simp only [State.endBundle]
  show State.mem (if _ then _ else _) = _
  split <;> exact s.unpin_mem

@[simp] theorem State.foreseeSlots_mem (s : State) (f : MM) : (s.foreseeSlots f).mem = s.mem := by
  simp only [State.foreseeSlots]
  split
  · rfl
  · split <;> split <;> rfl

@[simp] theorem State.afterCheck_mem (s : State) (i : Instr) : (s.afterCheck i).mem = s.mem := by
  have pops : State.mem (if takesEntry i s then s.gatePush (.pop 0) else s) = s.mem := by split <;> rfl
  simp only [State.afterCheck]
  split
  · split
    · exact (State.foreseeSlots_mem _ _).trans pops
    · exact pops
  · split
    · exact (State.foreseeSlots_mem _ _).trans pops
    · exact pops

@[simp] theorem State.foreseen_mem (s : State) : s.foreseen.mem = s.mem := State.foldl_mem (fun t _ => State.afterCheck_mem t _) _ s

@[simp] theorem State.chargeBallast_mem (s : State) : s.chargeBallast.mem = s.mem := by
  unfold State.chargeBallast
  split
  · split <;> rfl
  · rfl

@[simp] theorem State.idle_mem (s : State) : s.idle.mem = s.mem := s.chargeBallast_mem

@[simp] theorem State.turnThr_mem (s : State) : s.turnThr.mem = s.mem := by
  unfold State.turnThr; split <;> rfl

@[simp] theorem State.sendSome_mem (s : State) : s.sendSome.mem = s.mem := by
  unfold State.sendSome; split <;> rfl

/-! ### Claims, groups and chutes (R145, R179, R210 to R216) -/

@[simp] theorem State.fillCache_mem (s : State) (nm : ClaimName) : (s.fillCache nm).mem = s.mem := s.learn_mem nm

@[simp] theorem State.learnKernel_mem (s : State) (r : Round) : (s.learnKernel r).mem = s.mem := by
  unfold State.learnKernel
  split
  · rfl
  · exact s.learn_mem _

@[simp] theorem State.checkGroup_mem (s : State) (g : Group) : (s.checkGroup g).mem = s.mem :=
  State.foldl_mem (fun t _ => State.answerWait_mem t _ _) _ _

@[simp] theorem State.leaveGroup_mem (s : State) (k : Nat) (nm : ClaimName) : (s.leaveGroup k nm).mem = s.mem := by
  unfold State.leaveGroup
  split
  · split
    · exact State.checkGroup_mem _ _
    · rfl
  · rfl

@[simp] theorem State.answerGone_mem (s : State) (nm : ClaimName) : (s.answerGone nm).mem = s.mem := by
  unfold State.answerGone
  split
  · rfl
  · exact State.foldl_mem (fun t _ => State.answerWait_mem t _ _) _ _

@[simp] theorem State.recall_mem (s : State) (nm : ClaimName) (id : Option Nat) : (s.recall nm id).mem = s.mem := by
  unfold State.recall
  split
  · split
    · exact State.answerGone_mem _ _
    · rfl
  · rfl

@[simp] theorem State.endLease_mem (s : State) (nm : ClaimName) : (s.endLease nm).mem = s.mem := by
  simp only [State.endLease, State.mapDev_mem]
  split <;> rfl

@[simp] theorem State.endRecall_mem (s : State) (c : Claim) : (s.endRecall c).mem = s.mem := by
  simp only [State.endRecall]
  split
  · rfl
  · exact State.endToken_mem _ _ _

@[simp] theorem State.finishRecall_mem (s : State) (c : Claim) : (s.finishRecall c).mem = s.mem := by
  simp only [State.finishRecall]
  split
  · exact s.endRecall_mem c
  · exact (State.endLease_mem _ _).trans (s.endRecall_mem c)
  · exact s.endRecall_mem c

@[simp] theorem State.tryEnd_mem (s : State) (nm : ClaimName) : (s.tryEnd nm).mem = s.mem := by
  unfold State.tryEnd
  split
  · split
    · exact s.finishRecall_mem _
    · rfl
  · rfl

@[simp] theorem State.endRetires_mem (s : State) (serial : Nat) : (s.endRetires serial).mem = s.mem :=
  State.foldl_mem (fun t c => by
    split
    · exact t.endToken_mem _ _
    · rfl) _ s

@[simp] theorem State.performClaim_mem (s : State) (owner : Nat) (ty : ClaimType) (base size : X64) (home : Nat) :
    (s.performClaim owner ty base size home).1.mem = s.mem := by
  unfold State.performClaim
  split
  · rfl
  · split <;> rfl

@[simp] theorem State.runClaim_mem (s : State) (e : Engine) (nh : Nat) (ty : ClaimType) (base size : X64) (home : Nat) :
    (s.runClaim e nh ty base size home).mem = s.mem := by
  simp only [State.runClaim]
  split
  · rw [State.finishEngine_mem, State.deliver_mem, State.performClaim_mem]
  · rw [State.finishEngine_mem]; exact s.performClaim_mem _ _ _ _ _

@[simp] theorem State.runRetire_mem (s : State) (e : Engine) (nm : ClaimName) : (s.runRetire e nm).mem = s.mem := by
  simp only [State.runRetire]
  split
  · rw [State.tryEnd_mem, State.recall_mem, State.bump_mem, State.noteQueried_mem]
  · rw [State.finishEngine_mem, State.bump_mem, State.noteQueried_mem]

@[simp] theorem State.startCommit_mem (s : State) (k : Nat) (nm : ClaimName) (v : X64) : (s.startCommit k nm v).1.mem = s.mem := by
  unfold State.startCommit
  split
  · rfl
  · split
    · rfl
    · split
      · rfl
      · split <;> rfl

@[simp] theorem State.runWait_mem (s : State) (e : Engine) (nm : ClaimName) (n : Nat) : (s.runWait e nm n).mem = s.mem := by
  unfold State.runWait
  split
  · exact s.finishEngine_mem _ _
  · split
    · exact s.finishEngine_mem _ _
    · split
      · exact s.finishEngine_mem _ _
      · split
        · exact s.finishEngine_mem _ _
        · rfl

/-! ### Links and collectives (R390 to R428) -/

@[simp] theorem State.acknowledge_mem (s : State) (route seq : Nat) : (s.acknowledge route seq).mem = s.mem := by
  simp only [State.acknowledge]; split <;> rfl

@[simp] theorem State.sendFrames_mem (s : State) (tenant : Nat) (e : Nat × Nat) (seq tag src k : Nat) :
    (s.sendFrames tenant e seq tag src k).mem = s.mem := by
  simp only [State.sendFrames]; split <;> rfl

@[simp] theorem State.startRouteSend_mem (s : State) (id tenant route tag src k : Nat) :
    (s.startRouteSend id tenant route tag src k).mem = s.mem := State.sendFrames_mem _ _ _ _ _ _ _

@[simp] theorem State.sendOut_mem (s : State) (r : Round) (m : CollMsg) : (s.sendOut r m).mem = s.mem := s.chargeEngine_mem _ _ _

@[simp] theorem State.sendBeat_mem (s : State) (c : Combine) (pass beat port : Nat) (down : Bool) (p : Partial) (po : Bool) :
    (s.sendBeat c pass beat port down p po).mem = s.mem := by
  simp only [State.sendBeat, State.mapDev_mem]
  split
  · exact s.chargeEngine_mem _ _ _
  · rfl

@[simp] theorem State.sendDown_mem (s : State) (c : Combine) (pass beat : Nat) (p : Partial) (po : Bool) :
    (s.sendDown c pass beat p po).mem = s.mem := State.foldl_mem (fun t _ => t.sendBeat_mem _ _ _ _ _ _ _) _ s

@[simp] theorem State.giveUp_mem (s : State) (r : Round) : (s.giveUp r).mem = s.mem := by
  unfold State.giveUp; split <;> rfl

@[simp] theorem State.forkColl_mem (s : State) (id tenant : Nat) (c : CollRec) (src dst : List Part) :
    (s.forkColl id tenant c src dst).mem = s.mem := by
  simp only [State.forkColl, apply_ite State.mem, State.collToken_mem, State.mapDev_mem, State.chargeHomes_mem, State.learn_mem, ite_self]

@[simp] theorem State.answerRequest_mem (s : State) (q : SlotReq) (own : Option Round) (yes : Bool) : (s.answerRequest q own yes).mem = s.mem := by
  unfold State.answerRequest; split <;> rfl

@[simp] theorem State.allocate_mem (s : State) (q : SlotReq) : (s.allocate q).mem = s.mem := by
  simp only [State.allocate]
  split
  · exact State.foldl_mem (fun t r => State.freeLeases_mem t _) _ _
  · split
    · exact s.answerRequest_mem _ _ _
    · split
      · exact s.answerRequest_mem _ _ _
      · exact State.answerRequest_mem _ _ _ _

/-! ### The owner runtime (R368, R447, R481) -/

@[simp] theorem State.requestShootDown_mem (s : State) (t : Nat) : (s.requestShootDown t).mem = s.mem := by
  unfold State.requestShootDown; split <;> rfl

@[simp] theorem State.shootDownAll_mem (s : State) (ts : List Nat) : (s.shootDownAll ts).mem = s.mem :=
  State.foldl_mem State.requestShootDown_mem ts s

@[simp] theorem State.writePage_mem (s : State) (t off : Nat) (v : X64) : (s.writePage t off v).mem = s.mem := by
  simp only [State.writePage, State.mapDev_mem]
  split <;> rfl

@[simp] theorem State.failLaunch_mem (s : State) (l : KernelLoad) : (s.failLaunch l).mem = s.mem := by
  unfold State.failLaunch; split <;> rfl

@[simp] theorem State.errinjWrite_mem (s : State) (target : Nat) (v : X64) : (s.errinjWrite target v).mem = s.mem := by
  unfold State.errinjWrite
  split
  · exact s.writeErrinj_mem v
  · rfl

end Sys2Proof.Machine
end

section
/-! Operations that write memory keep its canonical form (R220, R245, R347, R360; log 1). -/
open Sys2Proof Sys2Proof.Machine Sys2Proof.Claims

namespace Sys2Proof.Machine

/-- What leaves memory keeps its form. -/
theorem State.wf_of_mem {s t : State} (e : t.mem = s.mem) (h : s.mem.wf = true) : t.mem.wf = true := e ▸ h

/-- A fold of steps that each keep the canonical form keeps it. -/
theorem State.foldl_wf {α : Type} {f : State → α → State} (hf : ∀ s x, s.mem.wf = true → (f s x).mem.wf = true) {l : List α}
    {s : State} (h : s.mem.wf = true) : (l.foldl f s).mem.wf = true :=
  List.foldlRecOn l f (motive := fun t => t.mem.wf = true) h (fun t ht x _ => hf t x ht)

theorem State.storeAt_mem (s : State) (cells : List Host.Cell) (pois : List Nat) :
    (s.storeAt cells pois).mem = s.mem.store cells pois := s.engineStore_mem cells pois

theorem State.releaseStore_mem (s : State) (e : GateEntry) (d : StoreData) :
    (s.releaseStore e d).mem = s.mem.store d.cells d.poisoned := by
  rw [State.releaseStore, State.performStore, State.keepSys_mem, State.storeAt_mem, State.keepSrc_mem]

variable {s : State} (h : s.mem.wf = true)
include h

/-! ### Stores, the gate and restart points (R344 to R347) -/

theorem State.storeAt_wf {cells : List Host.Cell} {pois : List Nat} : (s.storeAt cells pois).mem.wf = true := by
  rw [State.storeAt_mem]; exact Memory.store_wf cells pois h

theorem State.engineStore_wf {cells : List Host.Cell} {pois : List Nat} : (s.engineStore cells pois).mem.wf = true :=
  State.storeAt_wf h

theorem State.plainStore_wf {cells : List Host.Cell} : (s.plainStore cells).mem.wf = true := State.storeAt_wf h

theorem State.viaStore_wf {cells : List Host.Cell} {pois : List Nat} : (s.viaStore cells pois).mem.wf = true := State.storeAt_wf h

theorem State.releaseStore_wf {e : GateEntry} {d : StoreData} : (s.releaseStore e d).mem.wf = true := by
  rw [State.releaseStore_mem]; exact Memory.store_wf _ _ h

/-- Of a gate's entries the stores and the tags write memory when they are released. -/
theorem State.releaseOne_wf {e : GateEntry} : (s.releaseOne e).mem.wf = true := by
  unfold State.releaseOne
  split
  case h_1 d _ => exact State.releaseStore_wf h
  case h_2 d _ => exact State.releaseStore_wf h
  case h_4 first count f g _ => exact Memory.setTags_wf first count f g h
  case h_8 d nm _ => exact State.releaseStore_wf h
  case h_9 d g _ => exact State.releaseStore_wf h
  all_goals exact h

theorem State.commitAt_wf {b pc : Nat} : (s.commitAt b pc).mem.wf = true := by
  simp only [State.commitAt, State.mapCore_mem]
  exact State.foldl_wf (fun _ _ ht => State.releaseOne_wf ht) (by simpa using h)

theorem State.serialPoint_wf : s.serialPoint.mem.wf = true := by
  unfold State.serialPoint
  split
  · exact h
  · exact State.commitAt_wf h

/-! ### Traps (R18, R352, R353) -/

theorem State.takeTrap_wf {cause : Nat} {val : X64} {pc : Nat} : (s.takeTrap cause val pc).mem.wf = true := by
  rcases s.takeTrap_cases cause val pc with ⟨-, u, ht, hm, -⟩ | ⟨-, u, ht, hm, -⟩ <;> rw [ht]
  · exact State.commitAt_wf (State.wf_of_mem hm h)
  · rw [State.leaveCore_mem]; exact State.wf_of_mem hm h

theorem State.issueTrap_wf {cause : Nat} {val : X64} : (s.issueTrap cause val).mem.wf = true :=
  State.takeTrap_wf (State.commitAt_wf (by simpa using h))

theorem State.lookupTrap_wf {f : LFault} : (s.lookupTrap f).mem.wf = true := by
  simp only [State.lookupTrap]
  split
  · simpa using h
  · exact State.takeTrap_wf (by simpa using h)

/-! ### Stores of a tenant's memory, and saves (R171, R363) -/

theorem State.tenantStore_wf {t v : Nat} {bs : List Byte} {d : State} (hd : d.mem.wf = true) :
    ((s.tenantStore t v bs).getD d).mem.wf = true := by
  unfold State.tenantStore
  cases s.tenantParts t [.store] v bs.length with
  | none => exact hd
  | some ps => exact State.engineStore_wf h

theorem State.scrambleSave_wf {k : Nat} : (s.scrambleSave k).mem.wf = true := by
  unfold State.scrambleSave
  split
  · exact h
  · next t _ =>
    have hw : ∀ bs, ((s.tenantStore t.tenant t.save.toNat bs).getD s).mem.wf = true := fun bs => State.tenantStore_wf h h
    split
    · exact h
    · rw [State.bump_mem, State.mapDev_mem]
      exact hw _

theorem State.writeRecord_wf {k : Nat} : (s.writeRecord k).mem.wf = true := by
  unfold State.writeRecord
  split
  · exact h
  · next t _ =>
    have hu : ((s.tenantStore t.tenant t.recAddr (wordsBytes t.words)).getD s).mem.wf = true := State.tenantStore_wf h h
    split
    · exact h
    · dsimp only
      split
      · exact hu
      · exact State.tenantStore_wf hu hu

/-- A strand that has left the core is saved in its record and its save area. -/
theorem State.saved_wf {k : Nat} {f : Dev → Dev} : (((s.mapDev f).writeRecord k).scrambleSave k).mem.wf = true :=
  State.scrambleSave_wf (State.writeRecord_wf (by simpa using h))

theorem State.saveHalted_wf {st : StrandState} {w : Option WaitFor} : (s.saveHalted st w).mem.wf = true := by
  unfold State.saveHalted
  split
  · exact h
  · exact State.saved_wf (by simpa using h)

theorem State.fullSave_wf {st : StrandState} {pc : Nat} : (s.fullSave st pc).mem.wf = true := State.saved_wf (by simpa using h)

theorem State.heldTrap_wf {was : Option Nat} : (s.heldTrap was).mem.wf = true := by
  unfold State.heldTrap
  split
  · exact h
  · split
    · split
      · exact State.saved_wf h
      · exact h
    · exact h

theorem State.afterTrap_wf {was : Option Nat} : (s.afterTrap was).mem.wf = true := by
  unfold State.afterTrap
  split
  · simpa using h
  · exact State.heldTrap_wf h

theorem State.closeTurn_wf : s.closeTurn.mem.wf = true := by
  unfold State.closeTurn
  split
  · exact State.afterTrap_wf (State.lookupTrap_wf h)
  · split <;> simpa using h

/-! ### Accesses at their homes (R242, R292, R297) -/

theorem State.performFar_wf {f : FarOp} : (s.performFar f).mem.wf = true := by
  have ht : ∀ cells pois, ((s.chargeParts f.strand f.parts).storeAt cells pois).mem.wf = true := fun _ _ =>
    State.storeAt_wf (by simpa using h)
  simp only [State.performFar]
  split
  · exact ht _ _
  · split
    · simpa using ht _ _
    · simpa using ht _ _

theorem State.putWord_wf {a n v : Nat} {po : Bool} : (s.putWord a n v po).mem.wf = true := by
  simpa only [State.putWord, State.bump_mem] using State.engineStore_wf h

theorem State.bfpAddAt_wf {a : Nat} {lanes : VBits} {po : Bool} : (s.bfpAddAt a lanes po).mem.wf = true := State.engineStore_wf h

/-- The end of a CASN writes registers only. -/
theorem State.casnEnds_wf {id tok : Nat} {r : RegName} {d : Dest} {v : X64} {po : Bool} :
    ((s.deliver id r d).deliverTok tok id v po).mem.wf = true := by
  simpa using h

/-- The entry of a name is looked at where a CASN asks that it be live. -/
theorem State.looked_wf {live : Bool} {nm : ClaimName} : (if live then (s.noteQueried nm).bump else s).mem.wf = true := by
  split
  · simpa using h
  · exact h

theorem State.performAtom_wf {f : FarOp} {op : AtomOp} : (s.performAtom f op).mem.wf = true := by
  unfold State.performAtom
  cases op with
  | amo o b c po =>
    simp only [State.deliverTok_mem, State.fillQueue_mem]
    split
    · exact State.putWord_wf h
    · exact h
  | red o b po =>
    dsimp only
    split
    · exact h
    · exact State.putWord_wf h
  | bfp lanes po =>
    dsimp only
    split
    · exact h
    · exact State.bfpAddAt_wf h
  | casn ex new live nb bVal =>
    have ht : (if live then (s.noteQueried new).bump else s).mem.wf = true := State.looked_wf h
    dsimp only
    by_cases hg : s.lostNow (f.parts.headD { addr := 0, len := 0, kind := .so, lost := true }) = true
    · rw [if_pos hg]; exact State.casnEnds_wf h
    · rw [if_neg hg]
      by_cases hp : (live && !s.pins (s.tenantOf f.strand) new) = true
      · rw [if_pos hp]; exact State.casnEnds_wf ht
      · rw [if_neg hp, apply_ite State.mem, apply_ite Memory.wf]
        exact ite_eq_iff'.2 ⟨fun _ => State.casnEnds_wf (State.putWord_wf ht), fun _ => State.casnEnds_wf ht⟩

theorem State.performWriteback_wf {n : Nat} : (s.performWriteback n).mem.wf = true := by
  simp only [State.performWriteback]
  split
  · simpa using State.engineStore_wf h
  · exact h

theorem State.performRemote_wf {op : RemoteOp} : (s.performRemote op).mem.wf = true := by
  unfold State.performRemote
  cases op with
  | load a n => dsimp only; split <;> simpa using h
  | store a bs po =>
    dsimp only
    split
    · exact State.engineStore_wf h
    · exact h
  | amo o w a b c po =>
    dsimp only
    split
    · exact h
    · split
      · simpa using h
      · exact State.putWord_wf (by simpa using h)
  | red o w a b lanes po =>
    dsimp only
    generalize (if o = RedOp.bfpadd then 256 else widthBytes w) = n
    split
    · exact h
    · split
      · exact h
      · split
        · exact State.bfpAddAt_wf h
        · exact State.putWord_wf h
  | casn a ex new live tenant =>
    have ht : (if live then ((s.answerBytes (span (s.route a) 16)).noteQueried new).bump
        else s.answerBytes (span (s.route a) 16)).mem.wf = true := State.looked_wf (by simpa using h)
    dsimp only
    split
    · exact h
    · split
      · simpa using ht
      · rw [apply_ite State.mem, apply_ite Memory.wf]
        exact ite_eq_iff'.2 ⟨fun _ => State.putWord_wf (by simpa using ht), fun _ => by simpa using ht⟩
  | ownStore a bs po => exact h

theorem State.storeElsewhere_wf {dev addr : Nat} {bs : List Byte} {po : List Bool} : (s.storeElsewhere dev addr bs po).mem.wf = true := by
  simp only [State.storeElsewhere]
  split
  · exact State.storeAt_wf h
  · exact h

omit h in
/-- Before a strand is taken off, the accesses that are due are performed. -/
theorem State.settle_wf (fuel : Nat) {s : State} (h : s.mem.wf = true) : (State.settle fuel s).mem.wf = true := by
  induction fuel generalizing s with
  | zero => exact h
  | succ n ih =>
    unfold State.settle
    split
    · exact ih (by simpa using h)
    · split
      · refine ih ?_
        split
        · exact State.performAtom_wf (by simpa using h)
        · exact State.performFar_wf (by simpa using h)
      · split
        · exact ih (State.performWriteback_wf h)
        · exact h

/-! ### Host writes and shoot-downs (R226, R259 to R261, R368) -/

omit h in
theorem State.plainStores_wf {α : Type} {f : α → List Host.Cell} {l : List α} {s : State} (h : s.mem.wf = true) :
    (l.foldl (fun (t : State) w => t.plainStore (f w)) s).mem.wf = true :=
  State.foldl_wf (fun _ _ ht => State.plainStore_wf ht) h

theorem State.landPieces_wf : s.landPieces.mem.wf = true := State.plainStores_wf (f := fun p => p) h

theorem State.landSome_wf : s.landSome.mem.wf = true := by
  unfold State.landSome
  split
  · exact h
  · exact State.plainStores_wf (f := fun p => p) h

theorem State.arrive_wf : s.arrive.mem.wf = true := State.wf_of_mem (State.sendSome_mem _) (State.landSome_wf h)

theorem State.flushUnmapped_wf : s.flushUnmapped.mem.wf = true := State.plainStores_wf (by simpa using State.landPieces_wf h)

theorem State.applyWindow_wf : s.applyWindow.mem.wf = true := State.plainStores_wf (by simpa using State.landPieces_wf h)

theorem State.ackShootDown_wf : s.ackShootDown.mem.wf = true := State.flushUnmapped_wf (by simpa using h)

theorem State.startStrand_wf {k : Nat} {t : Strand} {table : List Entry} : (s.startStrand k t table).mem.wf = true := by
  simp only [State.startStrand, State.tick_mem]
  exact State.flushUnmapped_wf h

theorem State.putEntry_wf {a w : Nat} : (s.putEntry a w).mem.wf = true := State.plainStore_wf h

theorem State.endMigration_wf {m : Migration} : (s.endMigration m).mem.wf = true := by
  simp only [State.endMigration, State.shootDownAll_mem]
  exact State.foldl_wf (fun _ _ ht => State.putEntry_wf ht) h

/-! ### Engines (R278, R324, R396) -/

theorem State.performCopy_wf {k : Nat} {c : CopyCmd} : (s.performCopy k c).1.mem.wf = true := by
  have ht : ∀ cells pois (g : CopyRun → List Nat), (c.runs.foldl (fun (t : State) r => (g r).foldl (fun (t : State) a =>
      t.mapMem (fun m => m.setTag a (c.tag r).1 (c.tag r).2)) t) (s.engineStore cells pois).bump).mem.wf = true := fun _ _ _ =>
    State.foldl_wf (fun _ _ hu => State.foldl_wf (fun _ _ hv => Memory.setTag_wf _ _ _ hv) hu) (by simpa using State.engineStore_wf h)
  simp only [State.performCopy, State.chargeBytes_mem]
  split
  · simpa using ht _ _ _
  · exact ht _ _ _

theorem State.performQclaim_wf {tenant : Nat} {nm : ClaimName} {dst : Nat} : (s.performQclaim tenant nm dst).1.mem.wf = true := by
  have hq : (s.noteQueried nm).mem.wf = true := by simpa using h
  unfold State.performQclaim
  split <;> simpa using State.engineStore_wf hq

theorem State.performRecv_wf {dst k : Nat} {m : LinkMsg} : (s.performRecv dst k m).1.mem.wf = true := by
  simp only [State.performRecv, State.mapDev_mem]
  exact State.engineStore_wf h

theorem State.performRick_wf {k : Nat} {c : RickCmd} : (s.performRick k c).1.mem.wf = true := by
  have hs : ∀ b : Bool, (if b then s.sysOf k SysRegs.setOvfs else s).mem.wf = true := fun b => by
    split
    · simpa using h
    · exact h
  unfold State.performRick
  split
  · exact h
  · dsimp only
    split
    · split
      · exact h
      · split
        · simpa using h
        · split
          · exact hs _
          · simpa using hs _
    · split
      · exact hs _
      · split
        · exact hs _
        · simpa using hs _
    · split
      case h_6 => exact Memory.setTags_wf _ _ _ _ (State.engineStore_wf (by simpa using h))
      all_goals simpa using h
    · simpa using h
    · simpa using h
    · simpa using h
    · exact State.engineStore_wf h
    · simpa using h

theorem State.landCopy_wf {nm : ClaimName} {core : Nat} : (s.landCopy nm core).mem.wf = true := by
  unfold State.landCopy
  split
  · exact h
  · split
    · exact h
    · simpa using Memory.store_wf _ _ h

end Sys2Proof.Machine
end

section
/-! Answers whose next state has memory in canonical form; threshers and their invocations (R424 to R444). -/
open Sys2Proof Sys2Proof.Machine Sys2Proof.Claims

namespace Sys2Proof.Machine

/-- The next state of an answer, if it has one, has memory in canonical form. -/
def NextWf (o : Out) : Prop := ∀ t, o = .next t → t.mem.wf = true

theorem NextWf.next {t : State} (h : t.mem.wf = true) : NextWf (.next t) := fun _ e => by
  cases e; exact h

/-- An answer with a condition. -/
theorem NextWf.ite {c : Prop} [Decidable c] {a b : Out} (ha : NextWf a) (hb : NextWf b) : NextWf (if c then a else b) := by
  split
  · exact ha
  · exact hb

/-- The two parts of an issue that write memory are a trap, which releases the gate, and the effect. -/
theorem issueOp_nextWf {s : State} {k : Chk} {r : Ready} {eff : State → State} (h : s.mem.wf = true) (he : (eff s).mem.wf = true) :
    NextWf (issueOp s k r eff) := fun t ht => by
  rcases issueOp_cases ht with ⟨c, v, -, rfl⟩ | ⟨c, v, -, rfl⟩ | ⟨w, -, -, rfl⟩ | ⟨-, -, rfl⟩
  · exact State.issueTrap_wf h
  · exact h
  · exact h
  · exact he

theorem issueSerial_nextWf {s : State} {k : Chk} {p : Ready} {r : State → Ready} {eff : State → State} (h : s.mem.wf = true)
    (he : ∀ u : State, u.mem.wf = true → (eff u).mem.wf = true) : NextWf (issueSerial s k p r eff) := fun t ht => by
  rcases issueSerial_cases ht with ⟨c, v, -, rfl⟩ | ⟨c, v, -, rfl⟩ | ⟨w, -, -, rfl⟩ | ⟨w, -, -, -, rfl⟩ | ⟨-, -, -, rfl⟩
  · exact State.issueTrap_wf h
  · exact h
  · exact h
  · exact State.serialPoint_wf h
  · exact he _ (State.serialPoint_wf h)

variable {s : State} (h : s.mem.wf = true)
include h

/-! ### The end of an invocation (R427, R441 to R443) -/

theorem State.thrTrapped_wf {i : InvSpec} {c v w : Nat} {norun : Bool} : (s.thrTrapped i c v w norun).mem.wf = true := by
  simp only [State.thrTrapped]
  split
  · simpa using h
  · rw [State.mapDev_mem]; exact State.tenantStore_wf (by simpa using h) (by simpa using h)

theorem State.thrFinish_wf {v : Invocation} {e : ThrEnd} : (s.thrFinish v e).mem.wf = true := by
  unfold State.thrFinish
  cases e with
  | disp d => exact h
  | trap c x w => exact State.thrTrapped_wf (s := { s with thr := none }) h

theorem State.thrStop_wf {v : Invocation} : (s.thrStop v).mem.wf = true := by
  unfold State.thrStop
  split
  · split
    · exact State.thrFinish_wf h
    · split <;> exact State.thrFinish_wf h
  · exact State.thrFinish_wf h

theorem State.thrGoto_wf {v : Invocation} {k : Nat} : (s.thrGoto v k).mem.wf = true := by
  have go : ∀ q : Nat × Option Trip, (if q.1 < v.kernel.words.length then { s with thr := some { v with pc := q.1, trip := q.2 } }
      else s.thrStop { v with trip := q.2 }).mem.wf = true := fun q => by
    split
    · exact h
    · exact State.thrStop_wf h
  exact go _

/-! ### The words of a kernel -/

theorem thrInstr_nextWf {f : State → Invocation → State × Invocation × ThrNext} (hf : ∀ v, (f s v).1.mem.wf = true) :
    NextWf (thrInstr s f) := by
  unfold thrInstr
  split
  · exact .next h
  · dsimp only
    split
    · exact .next (State.thrGoto_wf (hf _))
    · exact .next (State.thrGoto_wf (hf _))
    · exact .next (State.thrFinish_wf (hf _))
    · exact .next (State.thrStop_wf (hf _))

theorem thrPure_nextWf {f : Invocation → Invocation} : NextWf (thrPure s f) := thrInstr_nextWf h fun _ => h

theorem thrUnary_nextWf {f : TR} {g : Nat → Nat} : NextWf (thrUnary f s g) := thrPure_nextWf h

theorem thrBinary_nextWf {f : TR} {g : Nat → Nat → Nat} : NextWf (thrBinary f s g) := thrPure_nextWf h

theorem thrArith_nextWf {f : TR} {fl : Num → Num → Num} {it : Int → Int → Int} : NextWf (thrArith f s fl it) := thrBinary_nextWf h

theorem windowAccess_nextWf {f : TM} {g : Invocation → Nat → Invocation} : NextWf (windowAccess f s g) :=
  thrInstr_nextWf h fun v => by dsimp only; split <;> exact h

theorem binAccess_nextWf {off : Invocation → Nat} {n : Nat} {g : State → Invocation → Nat → State × Invocation}
    (hg : ∀ v a, (g s v a).1.mem.wf = true) : NextWf (binAccess s off n g) :=
  thrInstr_nextWf h fun v => by
    dsimp only
    split
    · exact h
    · split
      · exact hg _ _
      · exact h

/-- A thresher's words write its registers, its window and its bins; memory at most by the record of a trap. -/
theorem thrExec_nextWf (i : Instr) : NextWf (thrExec i s) := by
  unfold thrExec
  cases i <;> dsimp only
  case thrAdd | thrSub | thrMul | thrMin | thrMax => exact thrArith_nextWf h
  case thrAbs | thrNeg | thrEx2 | thrLg2 => exact thrUnary_nextWf h
  case thrAnd | thrOr | thrXor | thrShl | thrShr | thrSra | thrAdds => exact thrBinary_nextWf h
  case thrFma | thrSel | thrCmp | thrCvt | thrMovi | thrAddi | thrVext | thrVbc | thrHdr | thrFwd | thrDrop | thrRedir =>
    exact thrPure_nextWf h
  case thrPld | thrPst => exact windowAccess_nextWf h
  case thrBld | thrBst | thrBamo => exact binAccess_nextWf h fun _ _ => h
  case thrBr | thrBc | thrTrap | thrEnd => exact thrInstr_nextWf h fun _ => h
  case thrLoopi f => exact thrInstr_nextWf h fun v => by dsimp only; split <;> exact h
  all_goals exact .next h

omit h in
theorem runThr_wf (fuel : Nat) {s : State} (h : s.mem.wf = true) : (runThr fuel s).mem.wf = true := by
  induction fuel generalizing s with
  | zero => exact h
  | succ n ih =>
    unfold runThr
    split
    · exact h
    · split
      · exact h
      · next i _ =>
        have hi := thrExec_nextWf h i
        split
        · next t ht => exact ih (hi t ht)
        · exact h

theorem State.runKernel_wf {k : Kernel} {i : InvSpec} : (s.runKernel k i).1.mem.wf = true := by
  unfold State.runKernel
  split
  · exact State.thrTrapped_wf h
  · exact runThr_wf _ (s := { s with thr := _, results := [] }) h

end Sys2Proof.Machine
end

section
/-! Collectives, messages and engine commands keep memory canonical (R281, R390 to R428). -/
open Sys2Proof Sys2Proof.Machine Sys2Proof.Claims

namespace Sys2Proof.Machine

variable {s : State} (h : s.mem.wf = true)
include h

omit h in
theorem State.ite_wf {s t : State} {c : Prop} [Decidable c] (hs : s.mem.wf = true) (ht : t.mem.wf = true) :
    (if c then s else t).mem.wf = true := by
  split
  · exact hs
  · exact ht

/-! ### What a round writes (R407 to R413) -/

theorem State.writeWork_wf {r : Round} : (s.writeWork r).1.mem.wf = true := by
  unfold State.writeWork
  split
  · exact State.engineStore_wf h
  · exact h

theorem State.putWords_wf {addrs : List Nat} {ws : List (BitVec 32 × Bool)} : (s.putWords addrs ws).mem.wf = true :=
  State.engineStore_wf h

theorem State.putDst_wf {r : Round} {b : Nat} {ws : List (BitVec 32 × Bool)} : (s.putDst r b ws).1.mem.wf = true :=
  State.putWords_wf (by simpa using h)

theorem State.seedRound_wf {r : Round} : (s.seedRound r).1.mem.wf = true := State.putDst_wf h

theorem State.applyTile_wf {r : Round} {k : Nat} {m : CollMsg} : (s.applyTile r k m).1.mem.wf = true :=
  State.putDst_wf (by split <;> simpa using h)

theorem State.takeBeat_wf {r : Round} {pass beat : Nat} {p : Partial} {po : Bool} : (s.takeBeat r pass beat p po).1.mem.wf = true := by
  unfold State.takeBeat
  split
  · exact State.writeWork_wf h
  · exact State.putDst_wf h

theorem State.freeAmong_wf {addrs : List Nat} {past : List (List (Byte × Bool))} : (s.freeAmong addrs past).mem.wf = true := by
  unfold State.freeAmong
  split
  · exact h
  · simpa using State.engineStore_wf h

theorem State.settleOverlap_wf {r : Round} : (s.settleOverlap r).mem.wf = true := by
  unfold State.settleOverlap
  dsimp only
  split
  · split
    · exact State.freeAmong_wf h
    · exact h
  · exact h

theorem State.recordPut_wf {r : CollRec} {o v : Nat} : (s.recordPut r o v).mem.wf = true := State.engineStore_wf h

theorem State.writeBackRecord_wf {r : Round} {status : Nat} {leased : Bool} : (s.writeBackRecord r status leased).mem.wf = true :=
  State.recordPut_wf (by simpa using h)

/-! ### The end of a round (R407, R420) -/

theorem State.finishRound_wf {r : Round} : (s.finishRound r).mem.wf = true := by
  have hw : ∀ (c : Bool) ws, (if c then ((s.chargeDst r 0 r.record.blocks).chargeDst r 0 r.record.blocks).putWords (s.rangeAddrs r.dst) ws
      else s).mem.wf = true := fun c ws => by
    split
    · exact State.putWords_wf (by simpa using h)
    · exact h
  have hg : ∀ (t : State) (c : Prop) [Decidable c] cells, t.mem.wf = true →
      (if c then t.engineStore cells [] else t).mem.wf = true := fun t c _ cells ht => by
    split
    · exact State.engineStore_wf ht
    · exact ht
  simp only [State.finishRound, State.collToken_mem]
  exact State.writeBackRecord_wf (by rw [State.mapDev_mem]; exact hg _ _ _ (State.settleOverlap_wf (hw _ _)))

theorem State.failRound_wf {r : Round} {status : Nat} : (s.failRound r status).mem.wf = true := by
  have hf : ∀ (t : State) (c : Bool) addrs past, t.mem.wf = true →
      (if c then t.freeAmong addrs past else t).mem.wf = true := fun t c addrs past ht => by
    split
    · exact State.freeAmong_wf ht
    · exact ht
  simp only [State.failRound]
  split
  · simpa using h
  · rw [State.collToken_mem]
    refine State.writeBackRecord_wf ?_
    simp only [apply_ite State.mem, State.freeLeases_mem, State.giveUp_mem, ite_self]
    simpa only [apply_ite State.mem] using hf _ _ _ _ (hf _ _ _ _ (by simpa using h))

theorem State.abortRound_wf {r : Round} {status : Nat} : (s.abortRound r status).mem.wf = true := by
  simp only [State.abortRound]
  split <;> exact State.failRound_wf h

omit h in
theorem State.settleRound_wf {q : State × Round × RoundEnd} (h : q.1.mem.wf = true) : (State.settleRound q).mem.wf = true := by
  unfold State.settleRound
  split
  · simpa using h
  · exact State.finishRound_wf h
  · exact State.abortRound_wf h

/-! ### The walk (R408 to R413) -/

omit h in
theorem State.walk_wf (fuel : Nat) {s : State} {r : Round} (h : s.mem.wf = true) : (State.walk fuel s r).1.mem.wf = true := by
  induction fuel generalizing s r with
  | zero => exact h
  | succ n ih =>
    simp only [State.walk]
    split
    · split
      · exact h
      · split
        · split
          · exact ih (by simpa using h)
          · simpa using h
        · exact ih (by simpa using h)
    · split
      · exact ih (State.applyTile_wf h)
      · exact h

theorem State.beginTuples_wf {r : Round} : (s.beginTuples r).1.mem.wf = true := by
  unfold State.beginTuples
  split
  · exact State.walk_wf _ (State.seedRound_wf h)
  · exact h

omit h in
theorem State.agree_wf (fuel : Nat) {s : State} {r : Round} (h : s.mem.wf = true) : (State.agree fuel s r).1.mem.wf = true := by
  induction fuel generalizing s r with
  | zero => exact h
  | succ n ih =>
    simp only [State.agree]
    split
    · split
      · exact State.beginTuples_wf h
      · split
        · exact ih (by simpa using h)
        · split
          · exact ih (State.writeWork_wf h)
          · exact h
    · exact h

theorem State.beginWalk_wf {r : Round} : (s.beginWalk r).1.mem.wf = true := by
  unfold State.beginWalk
  split
  · exact State.agree_wf _ (State.writeWork_wf h)
  · exact State.beginTuples_wf h

theorem State.pumpRound_wf {r : Round} : (s.pumpRound r).1.mem.wf = true := by
  unfold State.pumpRound
  split
  · exact State.agree_wf _ h
  · exact State.walk_wf _ h
  · exact h

/-! ### Slots (R417 to R426) -/

theorem State.combineBeat_wf {c : Combine} {pass beat count sender : Nat} {p : Partial} {i : Beat} :
    (s.combineBeat c pass beat count sender p i).1.mem.wf = true := by
  unfold State.combineBeat
  split
  · exact h
  · split
    · exact h
    · split
      · exact h
      · dsimp only
        split <;> exact State.runKernel_wf h

theorem State.combineAll_wf {c : Combine} {pass beat count : Nat} {p : Partial} {ins : List (Nat × Beat)} :
    (s.combineAll c pass beat count p ins).1.mem.wf = true :=
  List.foldlRecOn ins _ (motive := fun (q : State × Partial × Nat) => q.1.mem.wf = true) h fun _ hq _ _ => State.combineBeat_wf hq

theorem State.nextBeat_wf {r : Round} {pass beat : Nat} : (s.nextBeat r pass beat).mem.wf = true := by
  unfold State.nextBeat
  split
  · exact h
  · split
    · exact State.seedRound_wf h
    · exact State.finishRound_wf h

theorem State.slotTurn_wf {r : Round} {t : State} (ht : s.slotTurn r = some t) : t.mem.wf = true := by
  simp only [State.slotTurn] at ht
  split at ht
  · obtain ⟨ins, -, rfl⟩ := Option.map_eq_some_iff.1 ht
    next pass beat _ =>
    have hc : (if (r.record.scaled && pass == 0) = true then s else s.chargeDst r beat 1).mem.wf = true :=
      State.ite_wf h (by simpa using h)
    generalize (if (r.record.scaled && pass == 0) = true then s else s.chargeDst r beat 1) = u at hc ⊢
    have hq := State.combineAll_wf (c := r.combine) (pass := pass) (beat := beat) (count := 1)
      (p := u.ownBeat r pass beat) (ins := ins) hc
    cases r.record.parentPort r.net u.dev.ident.index with
    | some p => simpa using hq
    | none => exact State.nextBeat_wf (State.takeBeat_wf (by simpa using hq))
  · obtain ⟨b, -, rfl⟩ := Option.map_eq_some_iff.1 ht
    exact State.nextBeat_wf (State.takeBeat_wf (by simpa using h))
  · cases ht

omit h in
theorem State.pumpSlots_wf (id fuel : Nat) {s : State} (h : s.mem.wf = true) : (State.pumpSlots id fuel s).mem.wf = true := by
  induction fuel generalizing s with
  | zero => exact h
  | succ n ih =>
    unfold State.pumpSlots
    split
    · next t ht =>
      obtain ⟨r, -, hr⟩ := Option.bind_eq_some_iff.1 ht
      exact ih (State.slotTurn_wf h hr)
    · exact h

theorem State.runSlots_wf {r : Round} : (s.runSlots r).mem.wf = true := State.pumpSlots_wf _ _ h

theorem State.beginSlots_wf {r : Round} : (s.beginSlots r).mem.wf = true := by
  unfold State.beginSlots
  dsimp only
  refine State.runSlots_wf ?_
  rw [State.setRound_mem]
  split
  · exact State.writeWork_wf h
  · exact State.seedRound_wf h

/-! ### Decisions (R417, R418) -/

theorem State.takeDecision_wf {r : Round} {d : Decision} : (s.takeDecision r d).mem.wf = true := by
  unfold State.takeDecision
  split
  · split
    · exact State.beginSlots_wf h
    · exact State.beginSlots_wf (by simpa using h)
  · exact State.settleRound_wf (State.beginWalk_wf (by simpa using h))
  · exact State.failRound_wf (by simpa using h)
  · exact State.failRound_wf h

theorem State.beginRoot_wf {r : Round} {leased : Bool} : (s.beginRoot r leased).mem.wf = true := by
  unfold State.beginRoot
  split
  · simpa using h
  · exact State.takeDecision_wf (by simpa using h)

theorem State.heedDecision_wf {r : Round} {m : DecisionMsg} : (s.heedDecision r m).mem.wf = true := by
  unfold State.heedDecision
  exact State.ite_wf (State.abortRound_wf h) (State.ite_wf (State.takeDecision_wf h) h)

theorem State.heedEarly_wf {r : Round} : (s.heedEarly r).mem.wf = true := by
  unfold State.heedEarly
  split
  · exact State.heedDecision_wf h
  · exact h

theorem State.startRound_wf {r : Round} : (s.startRound r).mem.wf = true := by
  have ht : ∀ (f : Dev → Dev) c o v (r' : Round), (((((s.chargeWord r).chargeWord r).mapDev f).recordPut c o v).setRound r').mem.wf = true :=
    fun _ _ _ _ _ => State.recordPut_wf (by simpa using h)
  simp only [State.startRound]
  split
  · exact State.failRound_wf (ht _ _ _ _ _)
  · refine State.ite_wf (State.abortRound_wf (ht _ _ _ _ _)) (State.ite_wf ?_ (State.ite_wf ?_ ?_))
    · exact State.settleRound_wf (State.beginWalk_wf (ht _ _ _ _ _))
    · exact State.beginRoot_wf (ht _ _ _ _ _)
    · exact State.heedEarly_wf (ht _ _ _ _ _)

theorem State.relayBeat_wf {g : Grant} {b : Beat} : (s.relayBeat g b).mem.wf = true := by
  simp only [State.relayBeat]
  split
  · simpa using h
  · split
    · simpa using h
    · split
      · split
        · simpa using State.combineAll_wf (by simpa using h)
        · simpa using h
      · simpa using h

/-! ### Messages and their kernels (R390 to R393, R427) -/

theorem State.flowRun_wf {k : Kernel} {m : LinkMsg} {sender : Nat} : (s.flowRun k m sender).1.mem.wf = true :=
  List.foldlRecOn _ _ (motive := fun (q : State × List EntryEnd) => q.1.mem.wf = true) h fun q hq i _ => by
    have hk : ∀ spec, (q.1.runKernel k spec).1.mem.wf = true := fun _ => State.runKernel_wf hq
    simp only [State.flowEntry]
    split <;> exact hk _

theorem State.flow_wf {m : LinkMsg} {sender : Nat} : (s.flow m sender).1.mem.wf = true := by
  unfold State.flow
  split
  · exact h
  · exact State.flowRun_wf h

theorem State.placeMessage_wf {m : LinkMsg} {sender : Nat} : (s.placeMessage m sender).mem.wf = true := by
  have hf := State.flow_wf (m := m) (sender := sender) h
  simp only [State.placeMessage]
  split <;> exact hf

omit h in
theorem State.placeRoute_wf (route fuel : Nat) {s : State} (h : s.mem.wf = true) : (State.placeRoute route fuel s).mem.wf = true := by
  induction fuel generalizing s with
  | zero => exact h
  | succ n ih =>
    simp only [State.placeRoute]
    split
    · exact h
    · split
      · exact ih (by simpa using State.placeMessage_wf h)
      · exact h

theorem State.placeWaiting_wf {peer : Nat} : (s.placeWaiting peer).mem.wf = true := by
  unfold State.placeWaiting
  split
  · exact State.placeRoute_wf _ _ h
  · exact h

/-! ### The engines' commands (R278, R281) -/

theorem State.finishEngine_wf {e : Engine} {v : X64} : (s.finishEngine e v).mem.wf = true := by simpa using h

theorem State.runEngine_wf {e : Engine} : (s.runEngine e).mem.wf = true := by
  simp only [State.runEngine]
  split
  · exact State.finishEngine_wf (State.performCopy_wf h)
  · exact h
  · simpa using h
  · simpa using h
  · split <;> simpa using h
  · simpa using h
  · split
    · simpa using h
    · split
      · simpa using h
      · split <;> simpa using h
  · split
    · exact State.placeWaiting_wf (State.finishEngine_wf (State.performRecv_wf h))
    · simpa using h
  · split
    · exact State.startRound_wf h
    · simpa using h
  · exact State.finishEngine_wf (State.performQclaim_wf (by simpa using h))
  all_goals exact h

end Sys2Proof.Machine
end

section
/-! Bales, lost devices, serial effects, the halt of a strand, and a bundle's dispatch keep memory canonical. -/
open Sys2Proof Sys2Proof.Machine Sys2Proof.Claims

namespace Sys2Proof.Machine

variable {s : State} (h : s.mem.wf = true)
include h

/-! ### Bales (R462 to R467) -/

theorem State.balerToken_wf {cpl : Nat} {v : X64} : (s.balerToken cpl v).mem.wf = true :=
  State.ite_wf (State.viaStore_wf h) h

theorem State.balerGo_wf {die : Nat} {dir : Bool} : (s.balerGo die dir).mem.wf = true := by
  unfold State.balerGo
  dsimp only
  refine State.ite_wf h (State.ite_wf (State.balerToken_wf (by simpa using h)) ?_)
  rw [State.mapDev_mem]
  exact State.ite_wf (by simpa using h) (State.viaStore_wf (by simpa using h))

theorem State.writeBaler_wf {die reg : Nat} {v : X64} : (s.writeBaler die reg v).mem.wf = true := by
  unfold State.writeBaler
  dsimp only
  split
  case h_5 => exact State.ite_wf (State.balerGo_wf (by simpa using h)) (by simpa using h)
  all_goals exact h

theorem State.restoreBlock_wf {r : BaleRun} : (s.restoreBlock r).1.mem.wf = true := by
  unfold State.restoreBlock
  dsimp only
  refine State.ite_wf ?_ ?_
  · rw [State.mapDev_mem]
    exact State.ite_wf (State.viaStore_wf h) h
  · exact State.ite_wf (State.viaStore_wf h) h

theorem State.coverBlock_wf {r : BaleRun} : (s.coverBlock r).1.mem.wf = true := by
  unfold State.coverBlock
  dsimp only
  split
  · exact h
  · split
    · simpa using State.viaStore_wf h
    · simpa using h

theorem State.baleStep_wf {die : Nat} : (State.baleStep die s).mem.wf = true := by
  unfold State.baleStep
  split
  · refine State.ite_wf h ?_
    rw [State.mapDev_mem]
    split
    · exact State.restoreBlock_wf h
    · exact State.coverBlock_wf h
  · exact h

omit h in
theorem State.baleSteps_wf (n : Nat) {die : Nat} {s : State} (h : s.mem.wf = true) : (State.baleSteps n die s).mem.wf = true := by
  induction n generalizing s with
  | zero => exact h
  | succ n ih => exact ih (State.baleStep_wf h)

theorem State.baleSome_wf : s.baleSome.mem.wf = true := by
  unfold State.baleSome
  refine State.ite_wf h ?_
  rw [State.bump_mem]
  exact State.foldl_wf (fun _ _ ht => State.baleSteps_wf _ ht) h

/-! ### Lost devices, and the stores of a launch (R389, R185) -/

theorem State.loseDevice_wf {dev : Nat} : (s.loseDevice dev).mem.wf = true := by
  unfold State.loseDevice
  dsimp only
  rw [State.mapDev_mem]
  refine State.foldl_wf (fun _ _ ht => State.abortRound_wf ht) ?_
  refine State.foldl_wf (fun _ _ ht => by simpa using ht) ?_
  rw [State.mapDev_mem, State.endRetires_mem]
  exact State.foldl_wf (fun _ _ ht => by simpa using ht) h

theorem State.fillNames_wf {l : KernelLoad} {nm : ClaimName} : (s.fillNames l nm).mem.wf = true :=
  State.foldl_wf (fun _ _ ht => State.engineStore_wf ht) h

theorem State.recordStore_wf {b : Block} {off : Nat} {bs : List Byte} : (s.recordStore b off bs).mem.wf = true :=
  State.tenantStore_wf h (State.engineStore_wf h)

/-! ### The effects of the serial instructions that may wait, and the halt (R162, R169, R173, R190, R367) -/

omit h in
theorem execFence_nextWf (f : CGFence) {s : State} (h : s.mem.wf = true) : NextWf (execFence f s) :=
  issueSerial_nextWf h fun _ hu => hu

omit h in
theorem execBarg_nextWf (f : CG) {s : State} (h : s.mem.wf = true) : NextWf (execBarg f s) :=
  issueSerial_nextWf h fun u hu => by
    dsimp only
    split
    · simpa using hu
    · simpa using hu

omit h in
theorem execSpawn_nextWf (f : CG) {s : State} (h : s.mem.wf = true) : NextWf (execSpawn f s) :=
  issueSerial_nextWf h fun u hu => by
    dsimp only
    refine State.ite_wf (by simpa using hu) (State.ite_wf (by simpa using hu) ?_)
    rw [State.putX_mem]
    exact State.engineStore_wf (by simpa using hu)

omit h in
theorem execSusp_nextWf (f : CG) {s : State} (h : s.mem.wf = true) : NextWf (execSusp f s) :=
  issueSerial_nextWf h fun u hu => State.scrambleSave_wf (State.writeRecord_wf (by simpa using hu))

theorem State.finishIssued_wf : s.finishIssued.mem.wf = true := by
  unfold State.finishIssued
  split
  · next q _ =>
    dsimp only
    have hu : (s.mapIss (fun i => { i with iq := i.iq.filter (fun p => p != q), cur := q.ctx, waited := true, held := none })).mem.wf = true := by
      simpa using h
    split
    · next v hv =>
      refine State.ite_wf h ?_
      split at hv
      · exact execBarg_nextWf _ hu v hv
      · exact execFence_nextWf _ hu v hv
      · exact execSpawn_nextWf _ hu v hv
      · exact execSusp_nextWf _ hu v hv
      · cases hv; exact h
    · exact h
  · exact h

theorem State.halt_wf : s.halt.mem.wf = true := by
  have hf : ((State.settle s.landImages.settleFuel s.landImages).finishIssued).mem.wf = true :=
    State.finishIssued_wf (State.settle_wf _ (by simpa using h))
  unfold State.halt
  exact State.ite_wf hf (by simpa using hf)

theorem State.killStrand_wf {k : Nat} : (s.killStrand k).mem.wf = true := by
  have hh : (if s.core.iss.halted then s else s.halt).mem.wf = true := State.ite_wf h (State.halt_wf h)
  unfold State.killStrand
  dsimp only
  refine State.ite_wf (State.ite_wf ?_ hh) (by simpa using h)
  simpa only [State.leaveForGood_mem, State.mapSys_mem] using hh

theorem State.endStrand_wf {k : Nat} {st : StrandState} : (s.endStrand k st).mem.wf = true := by
  unfold State.endStrand
  dsimp only
  refine State.writeRecord_wf ?_
  have hg : ∀ (l : List ClaimName) (t : State), t.mem.wf = true → (l.foldl (fun (s : State) nm => s.leaveGroup k nm) t).mem.wf = true :=
    fun l t ht => State.foldl_wf (fun _ _ ht => by simpa using ht) ht
  split
  · split
    · simpa using hg _ _ (by simpa using h)
    · simpa using hg _ _ (by simpa using h)
  · simpa using hg _ _ (by simpa using h)

/-! ### Traps before the bundle, and dispatch (R28, R349, R352) -/

theorem State.placeBare_wf : s.placeBare.mem.wf = true := by
  unfold State.placeBare
  simpa using h

theorem State.codeFault_wf {cause addr : Nat} : (s.codeFault cause addr).mem.wf = true :=
  State.afterTrap_wf (State.lookupTrap_wf (State.placeBare_wf h))

theorem State.trapBundle_wf {cause : Nat} {val : X64} : (s.trapBundle cause val).mem.wf = true :=
  State.ite_wf (State.afterTrap_wf (State.issueTrap_wf (State.placeBare_wf h))) h

/-- The state that a bundle's checks leave. -/
def Checked.state : Checked → State
  | .issue t => t
  | .trap t _ _ => t
  | .lookup t _ _ => t

theorem State.checkBundle_wf {ops : List (Nat × Instr)} : (s.checkBundle ops).state.mem.wf = true := by
  have hite : ∀ (c : Prop) [Decidable c] (a b : Checked), a.state.mem.wf = true → b.state.mem.wf = true →
      (if c then a else b).state.mem.wf = true := fun c _ a b ha hb => by
    split
    · exact ha
    · exact hb
  unfold State.checkBundle
  dsimp only
  generalize (if s.core.iss.rett || s.core.regs.sys.trapc.getLsbD 8 then (s.core.regs.sys, none)
    else s.core.regs.sys.compare s.core.iss.pc (ops.map (·.1)) [0, 1, 2, 3]) = cmp
  obtain ⟨y, n⟩ := cmp
  have ht : (s.mapSys fun _ => y).mem.wf = true := by simpa using h
  dsimp only
  generalize (s.mapSys fun _ => y) = t at ht ⊢
  have hu : (if t.core.iss.cur.ctl.hwin then t.applyWindow else t).mem.wf = true := State.ite_wf (State.applyWindow_wf ht) ht
  generalize (if t.core.iss.cur.ctl.hwin then t.applyWindow else t) = u at hu ⊢
  cases n with
  | some n => exact ht
  | none =>
    dsimp only
    cases checkOps ops u.foreseen with
    | trap c v => exact ht
    | lookup c a => exact ht
    | ok =>
      dsimp only
      cases u.firstLate ops with
      | none => exact hu
      | some l => exact hite _ _ _ hu (hite _ _ _ (by simpa [Checked.state] using hu) ht)

omit h in
theorem State.wf_of_checkBundle {s : State} {ops : List (Nat × Instr)} {c : Checked} (hc : s.checkBundle ops = c)
    (h : s.mem.wf = true) : c.state.mem.wf = true :=
  hc ▸ State.checkBundle_wf h

theorem State.dispatchOps_wf {ws : List Nat} {ops : List (Nat × Instr)} {after : Nat} : (s.dispatchOps ws ops after).mem.wf = true := by
  have hk : ∀ (c : Prop) [Decidable c] (t : State) k pc, t.mem.wf = true → (if c then t.commitAt k pc else t).mem.wf = true :=
    fun _ _ _ _ _ ht => State.ite_wf (State.commitAt_wf ht) ht
  have ha : ∀ (c : Prop) [Decidable c] (t : State) n, t.mem.wf = true → (if c then t.ackShootDown.tick n else t).mem.wf = true :=
    fun _ _ _ _ ht => State.ite_wf (by simpa using State.ackShootDown_wf ht) ht
  have hp : ∀ c, (s.mapIss fun i => { i with cur := c }).mem.wf = true := fun _ => by simpa using h
  unfold State.dispatchOps
  dsimp only
  refine State.ite_wf (by rw [State.mapIss_mem]; exact hk _ _ _ _ h) (State.ite_wf (hk _ _ _ _ (hp _)) ?_)
  split
  · next t ht =>
    rw [State.enqueue_mem, State.keepWords_mem]
    exact State.wf_of_checkBundle ht (ha _ _ _ (hk _ _ _ _ (hp _)))
  · next t _ _ ht =>
    exact State.ite_wf (State.afterTrap_wf (State.issueTrap_wf (State.wf_of_checkBundle ht (ha _ _ _ (hk _ _ _ _ (hp _)))))) h
  · next t _ _ ht =>
    exact State.ite_wf (State.afterTrap_wf (State.lookupTrap_wf (State.wf_of_checkBundle ht (ha _ _ _ (hk _ _ _ _ (hp _)))))) h

/-! ### Power, parking and the tail (R458, R366, R185) -/

theorem State.off_wf : s.off.mem.wf = true := Memory.outside_wf h

omit h in
theorem execPark_nextWf (k : Nat) {s : State} (h : s.mem.wf = true) : NextWf (execPark k s) := .next <| by
  have hh : (if s.core.iss.halted then s else s.halt.requeue).mem.wf = true :=
    State.ite_wf h (by simpa using State.halt_wf h)
  rw [State.mapDev_mem]
  exact State.ite_wf (State.saveHalted_wf hh) h

omit h in
theorem State.parkAll_wf (ks : List Nat) {s : State} (h : s.mem.wf = true) : (State.parkAll ks s).mem.wf = true := by
  induction ks generalizing s with
  | nil => exact h
  | cons k ks ih =>
    unfold State.parkAll
    split
    · next t ht => exact ih (execPark_nextWf k h t ht)
    · exact h

theorem execTailWrite_nextWf {place : TailPlace} {value : BitVec 32} : NextWf (execTailWrite place value s) := by
  have hl := State.landPieces_wf h
  unfold execTailWrite
  exact .ite (.next hl) (.ite (.next (by simpa using hl)) (.next (by simpa using hl)))

theorem State.writeOwnPage_nextWf {t off : Nat} {v : X64} : NextWf (s.writeOwnPage t off v) := by
  unfold State.writeOwnPage
  exact .ite (execTailWrite_nextWf h) (.ite (.next (by simpa using h)) (.next h))

end Sys2Proof.Machine
end

section
/-! The outside events keep memory canonical: each one's next state, case by case. -/
open Sys2Proof Sys2Proof.Machine Sys2Proof.Claims

namespace Sys2Proof.Machine

variable {s : State} (h : s.mem.wf = true)
include h

/-! ### The core: dispatch, fetch, faults and the strand's turns (R28, R345 to R371) -/

theorem execBundleDispatch_nextWf : NextWf (execBundleDispatch s) := by
  have hp : s.land.pin.mem.wf = true := by simpa using h
  unfold execBundleDispatch
  refine .ite (.next h) (.ite (.next (State.trapBundle_wf hp)) ?_)
  split
  · exact .next hp
  · exact .next (State.trapBundle_wf hp)
  · exact .next (State.codeFault_wf hp)
  · exact .next (State.trapBundle_wf hp)
  · split
    · exact .next (State.trapBundle_wf hp)
    · exact .next (State.dispatchOps_wf hp)

theorem execIcacheFill_nextWf : NextWf (execIcacheFill s) := by
  unfold execIcacheFill
  refine .ite (.next h) ?_
  split
  · exact .next (by simpa using h)
  · exact .next h

theorem execLookupFault_nextWf : NextWf (execLookupFault s) := by
  unfold execLookupFault
  split
  · exact .ite (.next h) (.next (State.afterTrap_wf (State.lookupTrap_wf h)))
  · exact .next h

theorem execPageMadePresent_nextWf {b : Bool} : NextWf (execPageMadePresent b s) := by
  unfold execPageMadePresent
  split
  · exact .ite (.next (by simpa using h)) (.next (State.afterTrap_wf (State.takeTrap_wf (by simpa using h))))
  · exact .next h

theorem execRestartPointCommit_nextWf : NextWf (execRestartPointCommit s) := by
  unfold execRestartPointCommit
  refine .ite ?_ (.next h)
  split
  · exact .ite (.next (State.commitAt_wf h)) (.next h)
  · exact .next h

theorem execShootDownAck_nextWf : NextWf (execShootDownAck s) := by
  have hc : (s.commitAt s.core.iss.bundle s.core.iss.pc).mem.wf = true := State.commitAt_wf h
  unfold execShootDownAck
  refine .ite (.next h) (.ite (.next (by simpa using h)) (.ite (.ite ?_ (.next hc)) (.next h)))
  exact .next (by simpa using State.ackShootDown_wf hc)

theorem execPickup_nextWf : NextWf (execPickup s) := by
  have hs : ({ s with dev := s.dev.pick.2 } : State).mem.wf = true := h
  unfold execPickup
  refine .ite (.next h) ?_
  dsimp only
  split
  · exact .next h
  · generalize ({ s with dev := s.dev.pick.2 } : State) = u at hs ⊢
    refine .ite (.next (by simpa using hs)) ?_
    split
    · exact .next (State.startStrand_wf hs)
    · split
      · exact .next (by simpa using hs)
      · exact .next (State.startStrand_wf hs)

theorem execStrandEnd_nextWf : NextWf (execStrandEnd s) := by
  unfold execStrandEnd
  split
  · split
    · exact .next (State.endStrand_wf h)
    · exact .next h
  · exact .next h

theorem execSliceExpiry_nextWf : NextWf (execSliceExpiry s) := .ite (.next (by simpa using State.halt_wf h)) (.next h)

theorem execQpwdogExpiry_nextWf : NextWf (execQpwdogExpiry s) := .ite (.next (by simpa using State.halt_wf h)) (.next h)

theorem execDeschedule_nextWf : NextWf (execDeschedule s) := .ite (.next (State.saveHalted_wf (State.halt_wf h))) (.next h)

theorem execClassPreemption_nextWf : NextWf (execClassPreemption s) := .ite (.next (State.halt_wf h)) (.next h)

theorem execPreempt_nextWf : NextWf (execPreempt s) := .ite (.next h) (.next (by simpa using State.halt_wf h))

theorem execContextSave_nextWf : NextWf (execContextSave s) := .ite (.next (State.saveHalted_wf h)) (.next h)

theorem execWaitEventOccurred_nextWf {k : Nat} : NextWf (execWaitEventOccurred k s) := .ite (.next (by simpa using h)) (.next h)

theorem execPendingTokenArrival_nextWf {k : Nat} {r : Reg} {v : X64} : NextWf (execPendingTokenArrival k r v s) := by
  unfold execPendingTokenArrival
  dsimp only
  split
  · exact .next h
  · refine .ite (.next h) ?_
    split
    · exact .ite (.next (by simpa using h)) (.next h)
    · exact .next (by simpa using h)

/-! ### Far accesses and streams (R242, R249 to R254, R292, R293) -/

theorem execFarLoadReturn_nextWf {k : Nat} : NextWf (execFarLoadReturn k s) := by
  unfold execFarLoadReturn
  split
  · exact .ite (.next (by simpa using h)) (.next h)
  · exact .next h

theorem execFarStorePerformed_nextWf {k : Nat} : NextWf (execFarStorePerformed k s) := by
  unfold execFarStorePerformed
  split
  · exact .ite (.next (State.performFar_wf (by simpa using h))) (.next h)
  · exact .next h

theorem execAtomicPerformed_nextWf {k : Nat} : NextWf (execAtomicPerformed k s) := by
  unfold execAtomicPerformed
  split
  · split
    · exact .ite (.next (State.performAtom_wf (by simpa using h))) (.next h)
    · exact .next h
  · exact .next h

theorem execStreamFetch_nextWf {q : BitVec 3} : NextWf (execStreamFetch q s) := by
  unfold execStreamFetch
  dsimp only
  split
  · exact .ite (.next (by simpa using h)) (.next h)
  · exact .next h

theorem execStreamWriteback_nextWf {q : BitVec 3} : NextWf (execStreamWriteback q s) :=
  .next (State.ite_wf (State.performWriteback_wf h) h)

theorem execRemoteAccess_nextWf {dev : Nat} {op : RemoteOp} : NextWf (execRemoteAccess dev op s) := by
  unfold execRemoteAccess
  refine .ite (.next h) ?_
  split
  · exact .next (State.storeElsewhere_wf (by simpa using h))
  · exact .next (State.performRemote_wf (by simpa using h))

theorem execForwardedAccess_nextWf {op : RemoteOp} : NextWf (execForwardedAccess op s) :=
  .ite (.next (State.performRemote_wf h)) (.next h)

/-! ### The engines, the matrix unit and claims (R152, R210, R278, R281) -/

theorem execEngineTokenWrite_nextWf {k : Nat} : NextWf (execEngineTokenWrite k s) := by
  unfold execEngineTokenWrite
  split
  · exact .next h
  · split
    · exact .next (State.finishEngine_wf h)
    · refine .ite (.next h) ?_
      split
      · exact .ite (.next (by simpa using h)) (.next (State.runEngine_wf h))
      · exact .next (State.runEngine_wf h)

theorem execRickEngineApply_nextWf {k : Nat} : NextWf (execRickEngineApply k s) := by
  unfold execRickEngineApply
  split
  · exact .next h
  · split
    · exact .ite (.next (State.finishEngine_wf (State.performRick_wf (by simpa using h)))) (.next h)
    · exact .next h

theorem execChuteCommitLands_nextWf {k : Nat} : NextWf (execChuteCommitLands k s) := by
  unfold execChuteCommitLands
  split
  · exact .next (State.landCopy_wf h)
  · exact .next h

theorem execMmaRetire_nextWf : NextWf (execMmaRetire s) := by
  unfold execMmaRetire
  split
  · refine .next ?_
    dsimp only
    rw [State.mapCore_mem]
    refine State.foldl_wf (fun t q ht => ?_) h
    split
    · simpa using ht
    · exact ht
  · exact .next h

theorem execColStagingDone_nextWf : NextWf (execColStagingDone s) := by
  unfold execColStagingDone
  split
  · exact .next (by simpa using h)
  · exact .next h

theorem execDrainComplete_nextWf : NextWf (execDrainComplete s) := .ite (.next (by simpa using h)) (.next h)

theorem execArrayFeedFree_nextWf : NextWf (execArrayFeedFree s) := .ite (.next (by simpa using h)) (.next h)

theorem execRampDutyStep_nextWf : NextWf (execRampDutyStep s) :=
  .ite (.ite (.ite (.next (by simpa using h)) (.next h)) (.next (by simpa using h))) (.next h)

theorem execClaimShootDown_nextWf {nm : ClaimName} : NextWf (execClaimShootDown nm s) := by
  unfold execClaimShootDown
  split
  · exact .ite (.next (by simpa using h)) (.ite (.next (by simpa using h)) (.next h))
  · exact .ite (.next h) (.next (by simpa using h))

theorem execRecallAck_nextWf {nm : ClaimName} {c : Nat} : NextWf (execRecallAck nm c s) := by
  unfold execRecallAck
  split
  · exact .ite (.next h) (.next (by simpa using h))
  · exact .next h

theorem execClaimLookup_nextWf {q : ClaimAsk} : NextWf (execClaimLookup q s) := by
  unfold execClaimLookup
  dsimp only
  split
  · exact .ite (.next (by simpa using h)) (.next h)
  · split
    · exact .ite (.next h) (.next (by simpa using h))
    · exact .next h
  · split
    · exact .next (by simpa using h)
    · exact .next h
  · exact .ite (.next (by simpa using h)) (.next h)

theorem execOwnerRuntimeCreatesClaim_nextWf {c : NewClaim} : NextWf (execOwnerRuntimeCreatesClaim c s) := by
  have hl : (if c.launch then s.mapDev (fun d => d.mapPage c.owner Page.openLaunch) else s).mem.wf = true :=
    State.ite_wf (by simpa using h) h
  unfold execOwnerRuntimeCreatesClaim
  refine .ite (.next h) ?_
  dsimp only
  split
  · exact .next (by simpa using hl)
  · exact .ite (.next (by rw [State.mapDev_mem]; exact hl)) (.next hl)

/-! ### Blocks, kernels and the tenant's page (R185, R190, R454) -/

theorem execBlockRead_nextWf {t : Nat} : NextWf (execBlockRead t s) := by
  have hl : s.landPieces.mem.wf = true := State.landPieces_wf h
  have hd : NextWf (.next (s.landPieces.dropBlock t)) := .next (by simpa using hl)
  unfold execBlockRead
  refine .ite (.next hl) ?_
  dsimp only
  split
  · exact hd
  · split
    · exact hd
    · exact .ite hd (.next (by simpa using hl))

theorem execSheafRelease_nextWf {k : Nat} : NextWf (execSheafRelease k s) := by
  unfold execSheafRelease
  refine .ite ?_ (.next h)
  split
  · exact .next (by simpa using h)
  · exact .next h

theorem execBlockComplete_nextWf {k : Nat} : NextWf (execBlockComplete k s) := by
  unfold execBlockComplete
  split
  · exact .next h
  · refine .ite (.next h) (.next ?_)
    rw [State.mapDev_mem]
    exact State.recordStore_wf (State.recordStore_wf h)

theorem execThresherInvocation_nextWf {i : InvSpec} : NextWf (execThresherInvocation i s) := by
  unfold execThresherInvocation
  split
  · refine .ite (.next h) (.ite (.next (State.thrTrapped_wf (s := s) h)) (.next ?_))
    split
    · exact h
    · exact h
  · exact .next h

omit h in
theorem State.launchBins_mem {s : State} {l : KernelLoad} {q : State × Option ClaimName} (hq : s.launchBins l = some q) :
    q.1.mem = s.mem := by
  unfold State.launchBins at hq
  split at hq
  · cases hq; rfl
  · obtain ⟨f, -, rfl⟩ := Option.map_eq_some_iff.1 hq
    simp

theorem execKernelLoad_nextWf {l : KernelLoad} {image : List Byte} : NextWf (execKernelLoad l image s) := by
  have hl : (if l.launch then s.mapDev (fun d => d.mapPage l.tenant Page.openLaunch) else s).mem.wf = true :=
    State.ite_wf (by simpa using h) h
  have hf : ∀ u : State, u.mem.wf = true → NextWf (.next (u.failLaunch l)) := fun u hu => .next (by simpa using hu)
  unfold execKernelLoad
  refine .ite (.next h) ?_
  dsimp only
  generalize (if l.launch then s.mapDev (fun d => d.mapPage l.tenant Page.openLaunch) else s) = u at hl ⊢
  split
  · exact .next (State.fillNames_wf hl)
  · exact hf _ hl
  · split
    · exact hf _ hl
    · next b hb =>
      have hb' : b.1.mem.wf = true := State.wf_of_mem (State.launchBins_mem hb) hl
      split
      · exact hf _ hl
      · exact .next (State.fillNames_wf (by simpa using hb'))

theorem execTenantCreate_nextWf {t : Nat} : NextWf (execTenantCreate t s) := by
  unfold execTenantCreate
  refine .ite (.next ?_) (.next h)
  rw [State.mapDev_mem]
  exact State.ite_wf (by simpa using h) h

theorem execTenantRemove_nextWf {t : Nat} : NextWf (execTenantRemove t s) := by
  unfold execTenantRemove
  refine .ite (.next h) (.next ?_)
  rw [State.mapDev_mem]
  exact State.foldl_wf (fun _ _ ht => by simpa using ht) h

theorem execSvcReply_nextWf {r : Option X64} : NextWf (execSvcReply r s) := by
  unfold execSvcReply
  split
  · exact .next h
  · dsimp only
    split
    · exact .next (by simpa using h)
    · exact .next (by simpa using h)

/-! ### The host's windows, migrations and registers (R230, R371, R458 to R482) -/

theorem execHostWrite_nextWf {t off : Nat} {bs : List Byte} : NextWf (execHostWrite t off bs s) := by
  unfold execHostWrite
  split
  · exact .next (by simpa using h)
  · exact .ite (.ite (.next h) (.next (by simpa using h))) (.ite (.next h) (.next (by simpa using h)))

theorem execHostRead_nextWf {p : ReadPlace} {off len : Nat} : NextWf (execHostRead p off len s) := by
  have hl : s.landPieces.mem.wf = true := State.landPieces_wf h
  unfold execHostRead
  refine .ite (.next (by simpa using hl)) ?_
  split
  · exact .next (by simpa using hl)
  · exact .next (by simpa using hl)

theorem execWindowTimeout_nextWf {die : Nat} : NextWf (execWindowTimeout die s) :=
  .next (State.foldl_wf (fun _ _ ht => by rw [State.mapDev_mem]; exact State.plainStore_wf ht) (State.landPieces_wf h))

theorem execMigration_nextWf {src dst len : Nat} : NextWf (execMigration src dst len s) := by
  unfold execMigration
  refine .ite (.next ?_) (.next h)
  simp only [State.mapDev_mem, State.mapCore_mem]
  exact State.foldl_wf (fun _ _ ht => State.putEntry_wf ht) h

theorem execLineCopy_nextWf : NextWf (execLineCopy s) := by
  unfold execLineCopy
  split
  · exact .next h
  · have hu : ∀ (cells : List Host.Cell) (pois : List Nat) (f : Dev → Dev),
        ((s.mapMem (fun mm => mm.store cells pois)).mapDev f).mem.wf = true := fun cells pois f => by
      rw [State.mapDev_mem]
      exact Memory.store_wf _ _ h
    exact .next (State.ite_wf (State.endMigration_wf (hu _ _ _)) (hu _ _ _))

theorem execBinWindowAccess_nextWf {off len : Nat} {w : Option X64} : NextWf (execBinWindowAccess off len w s) := by
  unfold execBinWindowAccess
  dsimp only
  split
  · exact .ite (.next (by simpa using h)) (.next h)
  · exact .next (by simpa using h)

theorem execIndomWrite_nextWf {v : X64} : NextWf (execIndomWrite v s) :=
  .next (State.ite_wf (by simpa using h) (by simpa using h))

theorem execHookWrite_nextWf {i w : Nat} {v : X64} : NextWf (execHookWrite i w v s) := by
  unfold execHookWrite
  split
  · refine .next ?_
    rw [State.mapDev_mem]
    exact h
  · exact .next h

theorem execErrCounterWrite_nextWf {e : Nat} : NextWf (execErrCounterWrite e s) := .next (by simpa using h)

theorem execRegisterWrite_nextWf {p : RegPlace} {v : X64} : NextWf (execRegisterWrite p v s) := by
  unfold execRegisterWrite
  refine .ite (.next h) (.ite (State.writeOwnPage_nextWf h) (.ite (.ite (execTailWrite_nextWf h) (.next (by simpa using h)))
    (.ite (execIndomWrite_nextWf h) (.ite (.next (by simpa using h)) (.ite (execBinWindowAccess_nextWf h)
    (.ite (.next (by simpa using h)) (.ite (.next (by simpa using h)) (.ite (.next ?_)
    (.ite (.next (by simpa using h)) (.ite (execHookWrite_nextWf h) (.ite (.next (State.writeBaler_wf h))
    (.ite (execErrCounterWrite_nextWf h) (.next h)))))))))))))
  simp only [State.bump_mem, State.hear_mem]
  exact State.ite_wf (by simpa using h) (by simpa using h)

theorem execBalerComplete_nextWf {die : Nat} : NextWf (execBalerComplete die s) := by
  unfold execBalerComplete
  split
  · refine .ite (.next ?_) (.next h)
    rw [State.mapDev_mem]
    exact State.balerToken_wf h
  · exact .next h

theorem execFenceDeadline_nextWf {c : Nat} : NextWf (execFenceDeadline c s) := by
  unfold execFenceDeadline
  refine .ite (.next ?_) (.next h)
  rw [State.mapLinks_mem]
  exact State.foldl_wf (fun _ _ ht => by simpa using ht) (by simpa using State.parkAll_wf _ h)

theorem execClusterUnfence_nextWf {c : Nat} : NextWf (execClusterUnfence c s) := by
  refine .next ?_
  rw [State.mapLinks_mem]
  exact State.foldl_wf (fun t k ht => by simpa [execUnpark] using ht) h

/-! ### Links and collectives (R390 to R428) -/

theorem execFlitReceive_nextWf {p o : Nat} {ok : Bool} : NextWf (execFlitReceive p o ok s) :=
  .ite (.next h) (.ite (.next (by simpa using h)) (.next (by simpa using h)))

theorem execLosttoExpiry_nextWf {d : Nat} : NextWf (execLosttoExpiry d s) := .ite (.next (State.loseDevice_wf h)) (.next h)

theorem execLossNotice_nextWf {d : Nat} : NextWf (execLossNotice d s) := .ite (.next (State.loseDevice_wf h)) (.next h)

theorem execMessageArrival_nextWf {m : LinkMsg} : NextWf (execMessageArrival m s) :=
  .ite (.next (State.placeMessage_wf (by simpa using h))) (.next h)

theorem execDataFrame_nextWf {f : Frame} : NextWf (execDataFrame f s) :=
  .ite (.next h) (.ite (.next (by simpa using h)) (.ite (.next h)
    (.ite (.next (by simpa using h)) (.next (State.placeRoute_wf _ _ (by simpa using h))))))

theorem execAckFrame_nextWf {hd : FrameHead} {r q : Nat} : NextWf (execAckFrame hd r q s) := by
  unfold execAckFrame
  refine .ite (.next h) (.ite (.next (by simpa using h)) ?_)
  split
  · exact .next (by simpa using h)
  · exact .next h

theorem execRetransmitTimeout_nextWf {t r : Nat} : NextWf (execRetransmitTimeout t r s) := by
  unfold execRetransmitTimeout
  split
  · exact .next h
  · refine .ite (.next (by simpa using h)) ?_
    split
    · exact .next (by simpa using h)
    · exact .next h

theorem execCollMessage_nextWf {m : CollMsg} : NextWf (execCollMessage m s) := by
  unfold execCollMessage
  refine .ite (.next h) ?_
  split
  · exact .next (by simpa using h)
  · exact .ite (.next (State.abortRound_wf h)) (.ite (.next h)
      (.ite (.next (State.settleRound_wf (State.pumpRound_wf h))) (.next (State.abortRound_wf h))))

theorem execSlotRequest_nextWf {q : SlotReq} {qs : List SlotReq} : NextWf (execSlotRequest q qs s) :=
  .next (State.foldl_wf (fun _ _ ht => by simpa using ht) h)

theorem execAlgorithmDecision_nextWf {m : DecisionMsg} {a : List (Nat × Bool)} : NextWf (execAlgorithmDecision m a s) := by
  unfold execAlgorithmDecision
  split
  · dsimp only
    split
    · exact .next h
    · refine .next (State.takeDecision_wf ?_)
      simp only [State.chooseAlg_mem, State.learnKernel_mem]
      exact State.ite_wf h (by simpa using h)
  · split
    · exact .ite (.next h) (.next (State.heedDecision_wf h))
    · exact .next (by simpa using h)

theorem execSlotBeat_nextWf {t : Nat} {k : X64} {r : Nat} {g : BitVec 32} {b : BeatIn} : NextWf (execSlotBeat t k r g b s) := by
  unfold execSlotBeat
  refine .ite (.next h) ?_
  split
  · exact .next (State.relayBeat_wf h)
  · split
    · exact .next (by simpa using h)
    · exact .ite (.next (State.abortRound_wf h)) (.next (State.runSlots_wf (by simpa using h)))

theorem execAbortNotice_nextWf {c : CollKey} {r st : Nat} : NextWf (execAbortNotice c r st s) := by
  unfold execAbortNotice
  refine .ite (.next h) ?_
  split
  · exact .next (State.failRound_wf h)
  · exact .next (by simpa using h)

theorem execRoundTimeout_nextWf {c : CollKey} : NextWf (execRoundTimeout c s) := by
  unfold execRoundTimeout
  split
  · exact .next (State.abortRound_wf h)
  · exact .next h

end Sys2Proof.Machine
end

section
/-! Every instruction and every event keeps memory canonical. -/
open Sys2Proof Sys2Proof.Machine Sys2Proof.Claims

namespace Sys2Proof.Machine

variable {s : State} (h : s.mem.wf = true)
include h

omit h in
@[simp] theorem State.landOvfs_mem (s : State) : s.landOvfs.mem = s.mem := by
  simp [State.landOvfs, apply_ite State.mem]

omit h in
@[simp] theorem State.dropUninject_mem (s : State) : s.dropUninject.mem = s.mem := rfl

omit h in
@[simp] theorem State.writeChst_mem (s : State) (v : X64) : (s.writeChst v).mem = s.mem := rfl

/-! ### The shared forms of the instructions -/

theorem scalar2_nextWf {f : RG} {lat : Nat} {op : X64 → X64 → X64} : NextWf (scalar2 f lat op s) :=
  issueOp_nextWf h (by simpa using h)

theorem scalar1_nextWf {f : RG} {lat : Nat} {op : X64 → X64} : NextWf (scalar1 f lat op s) :=
  issueOp_nextWf h (by simpa using h)

theorem scalarImm_nextWf {f : IM} {op : X64 → X64 → X64} : NextWf (scalarImm f op s) :=
  issueOp_nextWf h (by simpa using h)

theorem scalarF_nextWf {f : RG} {lat : Nat} {three seq : Bool} {op : RMode → Num → Num → Num → Num} :
    NextWf (scalarF f lat three op seq s) :=
  issueOp_nextWf h (by cases seq <;> simpa using h)

theorem vectorOp_nextWf {f : RG} {v : VFields} {typed : List Fmt} {lat : Nat} {seq : Bool} {res : State → VRes} :
    NextWf (vectorOp f v typed lat seq res s) :=
  issueOp_nextWf h (by cases seq <;> simpa using h)

theorem unary_nextWf {f : RG} {lat : Nat} {seq : Bool} {g : Snap → Nat → Nat → Nat} : NextWf (unary f lat seq g s) :=
  vectorOp_nextWf h

theorem binary_nextWf {f : RG} {lat : Nat} {seq : Bool} {g : Snap → Nat → Nat → Nat → Nat} : NextWf (binary f lat seq g s) :=
  vectorOp_nextWf h

theorem bitOp_nextWf {f : RG} {op : Nat → Nat → Nat} : NextWf (bitOp f op s) := binary_nextWf h

theorem arith_nextWf {f : RG} {lat : Nat} {fl : RMode → Num → Num → Num} {it : Int → Int → Int} : NextWf (arith f lat fl it s) :=
  binary_nextWf h

theorem intOp_nextWf {f : RG} {lat : Nat} {it : Int → Int → Int} : NextWf (intOp f lat it s) := binary_nextWf h

theorem realFn_nextWf {f : RG} {g : Num → Num} : NextWf (realFn f g s) := unary_nextWf h

theorem reduction_nextWf {f : RG} {seq : Bool} {res : State → VRes} : NextWf (reduction f seq res s) :=
  issueOp_nextWf h (by cases seq <;> simpa using h)

theorem pred1_nextWf {f : RG} {op : PBits → PBits} : NextWf (pred1 f op s) := issueOp_nextWf h (by simpa using h)

theorem pred2_nextWf {f : RG} {op : PBits → PBits → PBits} : NextWf (pred2 f op s) := issueOp_nextWf h (by simpa using h)

theorem exec_nextWf (i : Instr) : NextWf (exec i s) := by
  have ht := thrExec_nextWf h i
  unfold exec
  cases i <;> dsimp only
  case add | sub | mul | mulh | mulhu | div | divu | rem | remu | and | or | xor | shl | shr | sra | rotr | min | max | minu | maxu |
      cmp => exact scalar2_nextWf h
  case clz | popc | extr => exact scalar1_nextWf h
  case addi | andi | ori | xori | shli | shri | srai => exact scalarImm_nextWf h
  case fadd | fsub | fmul | ffma | fmin | fmax => exact scalarF_nextWf h
  case vadd | vsub | vmul => exact arith_nextWf h
  case vadds | vsubs | vmulh => exact intOp_nextWf h
  case vand | vor | vxor | vshl | vshr | vsra => exact bitOp_nextWf h
  case vmin | vmax => exact binary_nextWf h
  case vneg | vabs | vnot => exact unary_nextWf h
  case vrcp | vrsq | vsqrt | vexp2 | vlog2 => exact realFn_nextWf h
  case vmulw | vmacw | vfma | vfms | vsel | vbcast | vperm | vslide | viota | vmov | vunpksx => exact vectorOp_nextWf h
  case vredadd | vredmax | vredmin => exact reduction_nextWf h
  case pnot | pmov => exact pred1_nextWf h
  case pand | por | pxor => exact pred2_nextWf h
  case sel | insr | movi | movhi | fcmp | fcvt | br | call | ret | jmpx | rep | loopb | vcmp | vcvt | vins | vmovi | vpacksx | plen |
      pset | pcnt | mzero | mdrain | maccst | epld | fld | st | fst | vld | vst | vlds | vldx | vsts | vstx | lsfmt | copy | strb |
      pusht | amo | red | claim | casn | popt | markr | splitr | joinr | qclaim | retire | recv | coll | ctl | tstpsn | rdeng |
      rdcyc | rdsr | bkpt =>
    refine issueOp_nextWf h ?_
    simpa using h
  case bc | brl | vext | mma | maccld | ld | send | wrsr =>
    refine issueOp_nextWf h ?_
    simpa [apply_ite State.mem] using h
  case resolve | rickq | chopen =>
    refine issueOp_nextWf h ?_
    dsimp only
    split <;> simpa using h
  case vfld | vfst | copya | stru | popq | chcommit =>
    refine issueOp_nextWf h ?_
    split <;> simpa [apply_ite State.mem] using h
  case rett =>
    exact issueOp_nextWf h (State.serialPoint_wf (by simpa using h))
  case barg => exact execBarg_nextWf _ h
  case fence => exact execFence_nextWf _ h
  case spawn => exact execSpawn_nextWf _ h
  case susp => exact execSusp_nextWf _ h
  case joing | leaveg =>
    refine issueSerial_nextWf h fun u hu => ?_
    split <;> simpa using hu
  case nextt =>
    refine issueSerial_nextWf h fun u hu => ?_
    split
    · exact State.ite_wf (by simpa using hu) (by simpa using hu)
    · simpa using hu
  case exit | svc | lsstep =>
    refine issueSerial_nextWf h fun u hu => ?_
    simpa using hu
  case yield => exact issueSerial_nextWf h fun u hu => State.ite_wf (State.fullSave_wf hu) hu
  case trap => exact issueSerial_nextWf h fun u hu => State.takeTrap_wf hu
  case thrAdd | thrSub | thrMul | thrFma | thrMin | thrMax | thrAbs | thrNeg | thrAnd | thrOr | thrXor | thrShl | thrShr | thrSra |
      thrAdds | thrSel | thrEx2 | thrLg2 | thrCmp | thrCvt | thrMovi | thrAddi | thrVext | thrVbc | thrHdr | thrPld | thrPst | thrBld |
      thrBst | thrBamo | thrBr | thrBc | thrLoopi | thrFwd | thrDrop | thrRedir | thrTrap | thrEnd => exact ht
  case coldStart | powerDown => exact .next (State.off_wf h)
  case overtempPowerOff => exact .ite (.next (State.off_wf h)) (.next h)
  case recoveryImageAccept | firmwareUpdate | portDown | portRetrain | portRetrainDone | channelGroupRetrain | clusterFencing |
      sensorRecalibration | pwrbrkDeassert | chstWrite => exact .ite (.next (by simpa using h)) (.next h)
  case pwrbrkAssert | pwrbrkHoldExpiry | powerStep | channelGroupRetrainDone | sensorRecalibrationDone | errCounterWrite |
      unpark | resume | changeAffinity | shootDownRequest | ownerRuntimeRetiresClaim | creditReturn | fixedLatencyWrite |
      getVersion | getCapabilities | getDigests | keyExchange | negotiateAlgorithms | getCertificate | challenge | getMeasurements |
      errinjRickStream | errinjPoisonLoad | errinjCorrected | idleFlit => exact .next (by simpa using h)
  case kill => exact .next (State.killStrand_wf h)
  case park => exact execPark_nextWf _ h
  case quiesce => exact .next (by rw [State.mapDev_mem]; exact State.parkAll_wf _ h)
  case tailWrite => exact execTailWrite_nextWf h
  case baleCheckpoint | baleRestore => exact .next (State.balerGo_wf h)
  case pageMadePresent => exact execPageMadePresent_nextWf h
  case remoteAccess => exact execRemoteAccess_nextWf h
  case forwardedAccess => exact execForwardedAccess_nextWf h
  case hostWrite => exact execHostWrite_nextWf h
  case hostRead => exact execHostRead_nextWf h
  case windowTimeout => exact execWindowTimeout_nextWf h
  case pendingTokenArrival => exact execPendingTokenArrival_nextWf h
  case migration => exact execMigration_nextWf h
  case ownerRuntimeCreatesClaim => exact execOwnerRuntimeCreatesClaim_nextWf h
  case svcReply => exact execSvcReply_nextWf h
  case flitReceive => exact execFlitReceive_nextWf h
  case losttoExpiry => exact execLosttoExpiry_nextWf h
  case lossNotice => exact execLossNotice_nextWf h
  case messageArrival => exact execMessageArrival_nextWf h
  case dataFrame => exact execDataFrame_nextWf h
  case ackFrame => exact execAckFrame_nextWf h
  case retransmitTimeout => exact execRetransmitTimeout_nextWf h
  case collMessage => exact execCollMessage_nextWf h
  case slotRequest => exact execSlotRequest_nextWf h
  case algorithmDecision => exact execAlgorithmDecision_nextWf h
  case slotBeat => exact execSlotBeat_nextWf h
  case abortNotice => exact execAbortNotice_nextWf h
  case roundTimeout => exact execRoundTimeout_nextWf h
  case thresherInvocation => exact execThresherInvocation_nextWf h
  case kernelLoad => exact execKernelLoad_nextWf h
  case hookWrite => exact execHookWrite_nextWf h
  case binWindowAccess => exact execBinWindowAccess_nextWf h
  case registerWrite => exact execRegisterWrite_nextWf h
  case bundleDispatch => exact execBundleDispatch_nextWf h
  case icacheFill => exact execIcacheFill_nextWf h
  case lookupFault => exact execLookupFault_nextWf h
  case restartPointCommit => exact execRestartPointCommit_nextWf h
  case pickup => exact execPickup_nextWf h
  case strandEnd => exact execStrandEnd_nextWf h
  case sliceExpiry => exact execSliceExpiry_nextWf h
  case deschedule => exact execDeschedule_nextWf h
  case classPreemption => exact execClassPreemption_nextWf h
  case preempt => exact execPreempt_nextWf h
  case contextSave => exact execContextSave_nextWf h
  case shootDownAck => exact execShootDownAck_nextWf h
  case qpwdogExpiry => exact execQpwdogExpiry_nextWf h
  case lineCopy => exact execLineCopy_nextWf h
  case colStagingDone => exact execColStagingDone_nextWf h
  case mmaRetire => exact execMmaRetire_nextWf h
  case drainComplete => exact execDrainComplete_nextWf h
  case rampDutyStep => exact execRampDutyStep_nextWf h
  case arrayFeedFree => exact execArrayFeedFree_nextWf h
  case farLoadReturn => exact execFarLoadReturn_nextWf h
  case farStorePerformed => exact execFarStorePerformed_nextWf h
  case waitEventOccurred => exact execWaitEventOccurred_nextWf h
  case blockRead => exact execBlockRead_nextWf h
  case sheafRelease => exact execSheafRelease_nextWf h
  case blockComplete => exact execBlockComplete_nextWf h
  case chuteCommitLands => exact execChuteCommitLands_nextWf h
  case claimShootDown => exact execClaimShootDown_nextWf h
  case recallAck => exact execRecallAck_nextWf h
  case claimLookup => exact execClaimLookup_nextWf h
  case engineTokenWrite => exact execEngineTokenWrite_nextWf h
  case streamFetch => exact execStreamFetch_nextWf h
  case streamWriteback => exact execStreamWriteback_nextWf h
  case atomicPerformed => exact execAtomicPerformed_nextWf h
  case rickEngineApply => exact execRickEngineApply_nextWf h
  case balerComplete => exact execBalerComplete_nextWf h
  case indomWrite => exact execIndomWrite_nextWf h
  case fenceDeadline => exact execFenceDeadline_nextWf h
  case clusterUnfence => exact execClusterUnfence_nextWf h
  case tenantCreate => exact execTenantCreate_nextWf h
  case tenantRemove => exact execTenantRemove_nextWf h

end Sys2Proof.Machine
end

section
/-! A cycle keeps memory canonical (R27), so every step does. -/
open Sys2Proof Sys2Proof.Machine Sys2Proof.Claims

namespace Sys2Proof.Machine

/-! ### The device's own events: the first that is due, if any is -/

/-- Every answer that may be there has a next state with memory in canonical form. -/
def DueWf (o : Option Out) : Prop := ∀ r, o = some r → NextWf r

theorem DueWf.none : DueWf none := fun _ e => by cases e

theorem DueWf.some {r : Out} (h : NextWf r) : DueWf (some r) := fun _ e => by cases e; exact h

theorem DueWf.orElse {a : Option Out} {b : Unit → Option Out} (ha : DueWf a) (hb : DueWf (b ())) : DueWf (a.orElse b) := by
  cases a with
  | none => exact hb
  | some r => exact ha

theorem DueWf.eventIf {c : Bool} {e : Unit → Out} (h : NextWf (e ())) : DueWf (eventIf c e) := by
  unfold Machine.eventIf
  split
  · exact .some h
  · exact .none

theorem DueWf.eventAt {α : Type} {l : List α} {p : α → Bool} {e : Nat → Out} (h : ∀ k, NextWf (e k)) : DueWf (eventAt l p e) := by
  unfold Machine.eventAt
  dsimp only
  split
  · exact .some (h _)
  · exact .none

theorem DueWf.map {α : Type} {o : Option α} {e : α → Out} (h : ∀ a, NextWf (e a)) : DueWf (o.map e) := by
  cases o with
  | none => exact .none
  | some a => exact .some (h a)

theorem DueWf.findSome {α : Type} {l : List α} {f : α → Option Out} (h : ∀ a, DueWf (f a)) : DueWf (l.findSome? f) := fun r hr => by
  obtain ⟨a, -, ha⟩ := List.exists_of_findSome?_eq_some hr
  exact h a r ha

section
variable {s : State} (h : s.mem.wf = true)
include h

theorem State.memoryEvent_due : DueWf s.memoryEvent :=
  .orElse (.findSome fun _ => .orElse (.eventIf (execStreamFetch_nextWf h)) (.eventIf (execStreamWriteback_nextWf h)))
    (.orElse (.eventAt fun _ => execFarLoadReturn_nextWf h) (.orElse (.eventAt fun _ => execFarStorePerformed_nextWf h)
      (.orElse (.eventAt fun _ => execAtomicPerformed_nextWf h) (.orElse (.eventAt fun _ => execEngineTokenWrite_nextWf h)
        (.eventAt fun _ => execRickEngineApply_nextWf h)))))

theorem State.unitEvent_due : DueWf s.unitEvent := by
  unfold State.unitEvent
  refine .orElse (.findSome fun c => ?_) (.orElse (.findSome fun _ => .eventIf (execWindowTimeout_nextWf h))
    (.orElse (.eventIf (execChuteCommitLands_nextWf h)) (.orElse (.eventIf (execMmaRetire_nextWf h))
      (.orElse (.map fun _ => execRetransmitTimeout_nextWf h) (.orElse (.map fun _ => execRoundTimeout_nextWf h)
        (.orElse (.eventIf (execColStagingDone_nextWf h)) (.orElse (.eventAt fun _ => execBalerComplete_nextWf h)
          (.eventIf (execLineCopy_nextWf h)))))))))
  split
  · exact .none
  · split
    · exact .some (execClaimShootDown_nextWf h)
    · split
      · exact .some (execRecallAck_nextWf h)
      · exact .none

theorem State.strandEvent_due : DueWf s.strandEvent :=
  .orElse (.map fun _ => .next (State.killStrand_wf h)) (.orElse (.eventIf (execStrandEnd_nextWf h))
    (.orElse (.eventIf (execContextSave_nextWf h)) (.orElse (.eventIf (execShootDownAck_nextWf h))
      (.orElse (.eventIf (execQpwdogExpiry_nextWf h)) (.orElse (.map fun _ => execWaitEventOccurred_nextWf h)
        (.orElse (.map fun _ => execBlockRead_nextWf h) (.orElse (.map fun _ => execSheafRelease_nextWf h)
          (.orElse (.map fun _ => execBlockComplete_nextWf h) (.orElse (.eventIf (execClassPreemption_nextWf h))
            (.orElse (.eventIf (execSliceExpiry_nextWf h)) (.orElse (.eventIf (execDeschedule_nextWf h))
              (.eventIf (execPickup_nextWf h)))))))))))))

theorem State.missEvent_due : DueWf s.missEvent := by
  unfold State.missEvent
  split
  · split
    · exact .some (execIcacheFill_nextWf h)
    · exact .none
  · exact .none

theorem State.internal_due : DueWf s.internal :=
  .orElse (State.memoryEvent_due h) (.orElse (State.unitEvent_due h) (.orElse (State.strandEvent_due h) (State.missEvent_due h)))

end

/-! ### The cycle -/

section
variable {ex : Instr → State → Out} (hex : ∀ (i : Instr) (u : State), u.mem.wf = true → NextWf (ex i u))
include hex

theorem runHeads_nextWf (qs : List Slotted) {s : State} (h : s.mem.wf = true) : NextWf (runHeads ex qs s) := by
  induction qs generalizing s with
  | nil => exact .next (State.closeTurn_wf h)
  | cons q qs ih =>
    unfold runHeads
    refine .ite (ih h) (.ite (ih (by simpa using h)) ?_)
    have hi := hex q.op (s.issuing q) (by simpa using h)
    split
    · next v hv =>
      exact .ite (.next (State.heldTrap_wf (hi v hv))) (ih (by simpa using hi v hv))
    · exact hi

theorem coreCycle_nextWf {s : State} (h : s.mem.wf = true) : NextWf (coreCycle ex s) := by
  unfold coreCycle
  refine .ite (.next (by simpa using h)) (.ite (.next (by simpa using h)) ?_)
  have hd : NextWf (if s.core.iss.mayDispatch then ex .bundleDispatch s else .next s) := .ite (hex _ _ h) (.next h)
  split
  · next t ht => exact .ite (.next (hd t ht)) (runHeads_nextWf hex _ (hd t ht))
  · exact hd

theorem thrTurn_nextWf {v : Invocation} {s : State} (h : s.mem.wf = true) : NextWf (thrTurn ex v s) := by
  unfold thrTurn
  split
  · exact hex _ _ h
  · split
    · exact hex _ _ h
    · intro t ht
      cases ht

theorem cycle_nextWf {s : State} (h : s.mem.wf = true) : NextWf (cycle ex s) := by
  have ht : s.turnThr.mem.wf = true := by simpa using h
  have hb : s.turnThr.baleSome.mem.wf = true := State.baleSome_wf ht
  have ha : s.turnThr.baleSome.arrive.mem.wf = true := State.arrive_wf hb
  unfold cycle
  dsimp only
  split
  · exact thrTurn_nextWf hex ht
  · split
    · exact .ite (hex _ _ hb) (.next hb)
    · refine .ite (fun t e => by cases e) (.ite (.next (by simpa using ha)) ?_)
      split
      · next o ho => exact State.internal_due ha o ho
      · exact coreCycle_nextWf hex ha

end

/-- Settles O6: every function that writes memory keeps its canonical form, and a step is a cycle of them. -/
theorem stepKeepsMemory : Obligations.StepKeepsMemory := by
  unfold Obligations.StepKeepsMemory
  intro s t h hs
  exact cycle_nextWf (fun i _ hu => exec_nextWf hu i) h t hs

end Sys2Proof.Machine
end

section
/-! LSFMT: the format tags of the local store's regions (R243). -/
open Sys2Proof Sys2Proof.Machine Sys2Proof.Claims

namespace Sys2Proof.Machine

/-! ### A check that holds, and one that fails -/

theorem need_pass {c : Bool} (h : c = true) (cause : Nat) (val : X64) : need c cause val = .ok := if_pos h

theorem need_fail {c : Bool} (h : c = false) (cause : Nat) (val : X64) : need c cause val = .trap cause val := by
  simp [need, h]

/-! ### The tags that a run of regions takes -/

theorem Memory.tag_setTags {m : Memory} (h : m.wf = true) (first : Nat) (f : Fmt) (g : Geo) (r : Nat) :
    ∀ count, (m.setTags first count f g).tag r = if first ≤ r ∧ r < first + count then (f, g) else m.tag r
  | 0 => (if_neg (by omega)).symm
  | n + 1 => by
    have hs : m.setTags first (n + 1) f g = (m.setTags first n f g).setTag (first + n) f g := by
      simp [Memory.setTags, List.range_succ]
    rw [hs, Memory.tag_setTag (Memory.setTags_wf _ _ _ _ h), Memory.tag_setTags h]
    by_cases hr : r = first + n
    · rw [if_pos hr, if_pos (by omega)]
    · rw [if_neg hr]
      exact if_congr (by omega) rfl rfl

/-- Settles O25, along the checks in their order; the tags by induction on the number of regions. -/
theorem formatTags : Obligations.FormatTags := by
  unfold Obligations.FormatTags
  intro f s
  dsimp only
  have hal : (s.rdX f.a).toNat % 4096 = 0 → (s.rdX f.b).toNat % 4096 = 0 →
      ((s.rdX f.a).toNat % 4096 == 0 && (s.rdX f.b).toNat % 4096 == 0) = true := fun ha hn => by simp [ha, hn]
  refine ⟨fun hp ha hn hr hg => ?_, fun hp hne => ?_, fun hp ha hn h0 hr => ?_, fun hp => ?_, fun m first count h r =>
    Memory.tag_setTags h first f.t f.geo r count⟩
  · have hb : ((s.rdX f.b).toNat == 0 || decide ((s.rdX f.a).toNat + (s.rdX f.b).toNat ≤ lsSize)) = true := by simpa using hr
    have hc : chkLsfmt f s = .ok := by
      simp only [chkLsfmt, needCtl_clean hp, need_pass (hal ha hn), need_pass hb, needGate_room hg, Chk.ok_and]
    show execLsfmt f s = _
    rw [execLsfmt, hc, issueOp_go]
  · have hb : ((s.rdX f.a).toNat % 4096 == 0 && (s.rdX f.b).toNat % 4096 == 0) = false := by
      simpa [or_iff_not_imp_left] using hne
    have hc : chkLsfmt f s = .trap 0x08 (s.rdX f.a) := by
      simp only [chkLsfmt, needCtl_clean hp, need_fail hb, Chk.ok_and, Chk.trap_and, BitVec.ofNat_toNat, BitVec.setWidth_eq]
    show execLsfmt f s = _
    rw [execLsfmt, hc, issueOp_trap]
  · have hb : ((s.rdX f.b).toNat == 0 || decide ((s.rdX f.a).toNat + (s.rdX f.b).toNat ≤ lsSize)) = false :=
      Bool.or_eq_false_iff.2 ⟨beq_false_of_ne h0, decide_eq_false (Nat.not_le.2 hr)⟩
    have hc : chkLsfmt f s = .trap 0x06 (BitVec.ofNat 64 (max (s.rdX f.a).toNat lsSize)) := by
      simp only [chkLsfmt, needCtl_clean hp, need_pass (hal ha hn), need_fail hb, Chk.ok_and, Chk.trap_and]
    show execLsfmt f s = _
    rw [execLsfmt, hc, issueOp_trap]
  · have hc : chkLsfmt f s = .trap 0x0B (BitVec.ofNat 64 (s.core.iss.cur.slot * 2 ^ 16 + f.a.toNat)) := by
      simp only [chkLsfmt, needCtl_poisoned hp, Chk.trap_and]
    show execLsfmt f s = _
    rw [execLsfmt, hc, issueOp_trap]

end Sys2Proof.Machine
end

section
/-! LD and ST of the own local store (R238, R239, R244), and what a gated store lets the next bundle read (R347). -/
open Sys2Proof Sys2Proof.Machine Sys2Proof.Claims

namespace Sys2Proof.Machine

/-! ### Addresses (R238) -/

/-- The base and the signed offset, added modulo 2^64. -/
theorem memAddr_eq_addrOf (s : State) (a : Reg) (off : Int) : s.memAddr a off = addrOf s a off := by
  have h := BitVec.toNat_ofInt (n := 64) ((s.rdX a).toInt + off)
  rw [BitVec.ofInt_add, BitVec.ofInt_toInt] at h
  exact h

/-- The own local store's bytes have their home there, so none lies in host memory. -/
theorem homeOf_ownLs {a : Nat} (h : a < lsSize) : homeOf (physOf (ownLs a)) = .local := by
  simp only [lsSize] at h
  have hp : physOf (ownLs a) = 0x4200000000 + a := by
    simp only [physOf, physSpace, ownLs, lsBase, ownCore, lsSize]
    omega
  simp only [hp, homeOf, gddrEnd, sramBase, lsBase]
  rw [if_neg (by omega), if_neg (by omega), if_neg (by omega), if_pos (by omega)]

/-! ### The bytes of a number -/

theorem natOfBytes_map_range (n : Nat) : ∀ f : Nat → Byte,
    natOfBytes ((List.range n).map f) = ((List.range n).map (fun i => (f i).toNat * 256 ^ i)).sum := by
  induction n with
  | zero => exact fun _ => rfl
  | succ n ih =>
    intro f
    have hs : ((List.range n).map (fun i => (f (i + 1)).toNat * 256 ^ (i + 1))).sum =
        256 * ((List.range n).map (fun i => (f (i + 1)).toNat * 256 ^ i)).sum := by
      rw [← List.sum_map_mul_left]
      exact congrArg List.sum (List.map_congr_left fun i _ => by ring)
    simp [List.range_succ_eq_map, natOfBytes, Function.comp_def, ih, hs]

theorem sum_bytes_lt (f : Nat → Byte) (n : Nat) : ((List.range n).map (fun i => (f i).toNat * 256 ^ i)).sum < 256 ^ n := by
  induction n with
  | zero => simp
  | succ n ih =>
    rw [List.range_succ, List.map_append, List.sum_append, List.map_singleton, List.sum_singleton, Nat.pow_succ]
    have hb : (f n).toNat * 256 ^ n ≤ 255 * 256 ^ n := Nat.mul_le_mul_right _ (by have := (f n).isLt; omega)
    omega

theorem widthBytes_le (w : Width) : 0 < widthBytes w ∧ widthBytes w ≤ 8 := by cases w <;> decide

/-! ### LD: the value of the bytes (R244) -/

theorem localBytes_poisoned (s : State) (a n : Nat) :
    orAll ((s.localBytes ((List.range n).map (fun i => a + i))).map (·.2)) = localBad s a n := by
  simp [State.localBytes, orAll, localBad, List.any_map, Function.comp_def]

theorem localBytes_number (s : State) (a n : Nat) :
    natOfBytes ((s.localBytes ((List.range n).map (fun i => a + i))).map (·.1)) = localNum s a n := by
  rw [State.localBytes, List.map_map, List.map_map]
  exact natOfBytes_map_range n _

/-- The scalar of `n` local bytes: their number, zero- or sign-extended, or a poisoned zero. -/
theorem scalarValue_local (s : State) (a : Nat) {n : Nat} (u : Bool) :
    scalarValue (s.localBytes ((List.range n).map (fun i => a + i))) u =
      if localBad s a n then (0, true)
      else (if u then BitVec.ofNat 64 (localNum s a n) else BitVec.ofInt 64 (signedOf (8 * n) (localNum s a n)), false) := by
  have hl : (s.localBytes ((List.range n).map (fun i => a + i))).length = n := by simp [State.localBytes]
  simp only [scalarValue, localBytes_poisoned, localBytes_number, hl]

/-! ### ST: the cells of the entry -/

theorem scalarData_range (v : X64) (po : Bool) (at' : Nat → Nat) (n : Nat) :
    scalarData v po ((List.range n).map at') =
      { cells := (List.range n).map (fun i => (at' i, BitVec.ofNat 8 (v.toNat / 256 ^ i))),
        poisoned := if po then (List.range n).map at' else [], ovfs := false } := by
  have hl : ((List.range n).map at').length = n := by simp
  simp only [scalarData, hl, bytesOfNat_eq_map, List.zip_map']

/-! ### The checks of a local scalar -/

/-- The cells that a gated MDRAIN or MACCST will write (R347). -/
def GateOp.outputs : GateOp → List Host.Cell
  | .output d => d.cells
  | .drainChute d _ => d.cells
  | .drainPush d _ => d.cells
  | _ => []

theorem State.meetsOutput_eq (s : State) (addrs : List Nat) :
    s.meetsOutput addrs = s.core.gate.any (fun e => decide (e.bundle < s.core.iss.cur.bundle) &&
      e.op.outputs.any (fun c => addrs.contains c.1)) := by
  unfold State.meetsOutput
  congr 1
  funext e
  cases e.op <;> rfl

/-- A range meets no gated output when no byte of it does. -/
theorem State.meetsOutput_range {s : State} {n : Nat} {at' : Nat → Nat} (h : ∀ i, i < n → s.meetsOutput [at' i] = false) :
    s.meetsOutput ((List.range n).map at') = false := by
  simp only [State.meetsOutput_eq, List.any_eq_false, Bool.and_eq_true, decide_eq_true_eq, List.contains_iff_mem, List.mem_map,
    List.mem_range, List.any_eq_true, not_and, not_exists, List.mem_singleton] at h ⊢
  intro e he hb c hc i hi hic
  exact h i hi e he hb c hc hic.symm

theorem chkLocalScalar_range {s : State} {a n : Nat} (h : LocalRange s a n) (hn : 0 < n) : s.chkLocalScalar a n = .ok := by
  obtain ⟨hr, ho⟩ := h
  rw [State.chkLocalScalar, if_neg (by omega), if_neg (by omega), State.meetsOutput_range ho]
  rfl

theorem chkLocalScalar_outside {s : State} {a n : Nat} (h : lsSize ≤ a) : s.chkLocalScalar a n = .trap 0x08 (BitVec.ofNat 64 a) :=
  if_pos h

theorem chkLocalScalar_end {s : State} {a n : Nat} (h : a < lsSize) (hn : lsSize < a + n) :
    s.chkLocalScalar a n = .trap 0x06 (BitVec.ofNat 64 lsSize) := by
  rw [State.chkLocalScalar, if_neg (by omega), if_pos hn]

/-! ### What the strand reads behind its gate (R347) -/

/-- A store to bytes outside host memory writes its cells; its poison changes no byte (R360). -/
theorem Memory.byte_store_inside (m : Memory) {cells : List Host.Cell} {pois : List Nat}
    (hc : ∀ q ∈ cells, homeOf (physOf q.1) ≠ .host) (c : Nat) : (m.store cells pois).byte c = (m.store cells []).byte c := by
  have hf : cells.foldl (fun m q => m.setByte q.1 (if homeOf (physOf q.1) = .host && pois.contains q.1 then 0 else q.2)) m =
      cells.foldl (fun m q => m.setByte q.1 q.2) m :=
    List.foldl_ext _ _ _ fun m q hq => by simp [hc q hq]
  rw [Memory.byte_store_clean, ← hf, Memory.store, Memory.byte_foldl]
  intro m g
  dsimp only
  split
  · exact m.byte_mark g c
  · split
    · exact m.byte_unmark g c
    · rfl

theorem State.viewAt_wf {s : State} (h : s.mem.wf = true) (b : Nat) : (s.viewAt b).wf = true := by
  refine Memory.foldl_wf _ (fun m e hm => ?_) _ _ h
  split
  · exact Memory.store_wf _ _ hm
  · split
    · exact Memory.store_wf _ _ hm
    · exact hm
  · exact Memory.setTags_wf _ _ _ _ hm
  · exact hm

/-- A store that enters the gate is read by the next bundle, after all that it read before. -/
theorem State.viewAt_gatePush_store (s : State) (d : StoreData) :
    (s.gatePush (.store d)).viewAt (s.core.iss.cur.bundle + 1) = (s.viewAt (s.core.iss.cur.bundle + 1)).store d.cells d.poisoned := by
  have hg : (s.gatePush (.store d)).core.gate.filter (fun e => decide (e.bundle < s.core.iss.cur.bundle + 1)) =
      s.core.gate.filter (fun e => decide (e.bundle < s.core.iss.cur.bundle + 1)) ++
        [{ bundle := s.core.iss.cur.bundle, slot := s.core.iss.cur.slot, op := .store d }] := by
    simp [State.gatePush, State.mapCore, List.filter_append]
  rw [State.viewAt, hg, List.foldl_append]
  rfl

theorem seenAfter_gatePush_range {s : State} (h : s.mem.wf = true) {a n : Nat} (ha : a + n ≤ lsSize) (v : Nat → Byte)
    (pois : List Nat) (o : Bool) (c : Nat) :
    seenAfter (s.gatePush (.store { cells := (List.range n).map (fun i => (ownLs (a + i), v i)), poisoned := pois, ovfs := o })) c =
      if ownLs a ≤ c ∧ c < ownLs a + n then v (c - ownLs a) else seenAfter s c := by
  have hc : ∀ q ∈ (List.range n).map (fun i => (ownLs (a + i), v i)), homeOf (physOf q.1) ≠ .host := fun q hq => by
    obtain ⟨i, hi, rfl⟩ := List.mem_map.1 hq
    rw [homeOf_ownLs (by have := List.mem_range.1 hi; omega)]
    decide
  refine (congrArg (·.byte c) (s.viewAt_gatePush_store _)).trans ?_
  dsimp only
  rw [Memory.byte_store_inside _ hc]
  simp only [ownLs_add]
  exact Memory.byte_store_range (State.viewAt_wf h _) (ownLs a) v n c

/-! ### The obligation -/

section
variable {f : MS} {s : State}

/-- The value that LD sends: the bytes' number, extended as U says, or a poisoned zero (R244, R359). -/
theorem exec_ld (hp : s.poisonX f.a = false) (hr : LocalRange s (addrOf s f.a f.off.toInt) (widthBytes f.w)) :
    exec (.ld f) s = .next (
      let v := scalarValue (s.localBytes ((List.range (widthBytes f.w)).map (fun i => addrOf s f.a f.off.toInt + i))) f.u
      let t := s.putX f.d 6 v.1 v.2
      if v.2 then t.writeAfter 6 .loaded else t) := by
  have hk : chkLd f s = .ok := by
    rw [chkLd, needCtl_clean hp, Chk.ok_and, memAddr_eq_addrOf, chkLocalScalar_range hr (widthBytes_le f.w).1]
  show execLd f s = _
  rw [execLd, hk, issueOp_go, memAddr_eq_addrOf]

theorem exec_st (hp : s.poisonX f.a = false) (hr : LocalRange s (addrOf s f.a f.off.toInt) (widthBytes f.w))
    (hg : s.core.gate.length < 64) :
    exec (.st f) s = .next (s.gatePush (.store {
      cells := (List.range (widthBytes f.w)).map (fun i =>
        (ownLs (addrOf s f.a f.off.toInt + i), BitVec.ofNat 8 ((s.rdX f.d).toNat / 256 ^ i))),
      poisoned := if s.poisonX f.d then (List.range (widthBytes f.w)).map (fun i => ownLs (addrOf s f.a f.off.toInt + i)) else [],
      ovfs := false })) := by
  have hk : chkSt f s = .ok := by
    rw [chkSt, needCtl_clean hp, Chk.ok_and, memAddr_eq_addrOf, chkLocalScalar_range hr (widthBytes_le f.w).1, needGate_room hg]
    rfl
  show execSt f s = _
  rw [execSt, hk, issueOp_go, memAddr_eq_addrOf]
  dsimp only
  rw [scalarData_range]

/-- LD and ST trap on the first check that fails, the same one. -/
theorem localScalar_traps {c : Nat} {v : X64}
    (h : ∀ k, (s.needCtl f.a).and ((s.chkLocalScalar (addrOf s f.a f.off.toInt) (widthBytes f.w)).and k) = .trap c v) :
    Traps (.ld f) s c v ∧ Traps (.st f) s c v := by
  have hl : chkLd f s = .trap c v := by
    have hok : ∀ k : Chk, k.and .ok = k := fun k => by cases k <;> rfl
    rw [chkLd, memAddr_eq_addrOf, ← h .ok, hok]
  have hs : chkSt f s = .trap c v := by rw [chkSt, memAddr_eq_addrOf, h]
  constructor
  · show execLd f s = _
    rw [execLd, hl, issueOp_trap]
  · show execSt f s = _
    rw [execSt, hs, issueOp_trap]

end

/-- What LD's value is: the number of the bytes zero-extended, or sign-extended, or the poisoned zero. -/
theorem scalarValue_local_spec (s : State) (a : Nat) (w : Width) (u : Bool) :
    ∃ v : X64, (localBad s a (widthBytes w) = true → v = 0) ∧
      (localBad s a (widthBytes w) = false → u = true → v.toNat = localNum s a (widthBytes w)) ∧
      (localBad s a (widthBytes w) = false → u = false → v.toInt = signedOf (8 * widthBytes w) (localNum s a (widthBytes w))) ∧
      scalarValue (s.localBytes ((List.range (widthBytes w)).map (fun i => a + i))) u = (v, localBad s a (widthBytes w)) := by
  obtain ⟨hn, hn'⟩ := widthBytes_le w
  rw [scalarValue_local]
  cases hb : localBad s a (widthBytes w) with
  | true => exact ⟨0, fun _ => rfl, nofun, nofun, rfl⟩
  | false =>
    cases u with
    | true =>
      refine ⟨BitVec.ofNat 64 (localNum s a (widthBytes w)), nofun, fun _ _ => ?_, nofun, rfl⟩
      have hlt : localNum s a (widthBytes w) < 256 ^ widthBytes w := sum_bytes_lt _ _
      have hle : 256 ^ widthBytes w ≤ 256 ^ 8 := Nat.pow_le_pow_right (by decide) hn'
      rw [BitVec.toNat_ofNat, Nat.mod_eq_of_lt (by omega)]
    | false => exact ⟨_, nofun, nofun, fun _ _ => toInt_ofInt_signedOf (by omega) (by omega) _, rfl⟩

/-- Settles O21: the value by the bytes' number, the traps by the first check that fails, and the frame by what the gated store lets the
next bundle read. -/
theorem localScalars : Obligations.LocalScalars := by
  unfold Obligations.LocalScalars
  refine ⟨fun f s => ⟨fun hp hr => ⟨?_, fun hg => exec_st hp hr hg⟩, fun hp => ?_, fun hp ha => ?_, fun hp ha hn => ?_⟩,
    fun f s t hw hp hr hg ht => ?_⟩
  · obtain ⟨v, hz, hu, hs, hv⟩ := scalarValue_local_spec s (addrOf s f.a f.off.toInt) f.w f.u
    refine ⟨v, hz, hu, hs, ?_⟩
    rw [exec_ld hp hr, hv]
    rfl
  · exact localScalar_traps fun k => by rw [needCtl_poisoned hp, Chk.trap_and]
  · exact localScalar_traps fun k => by rw [needCtl_clean hp, Chk.ok_and, chkLocalScalar_outside ha, Chk.trap_and]
  · exact localScalar_traps fun k => by rw [needCtl_clean hp, Chk.ok_and, chkLocalScalar_end ha hn, Chk.trap_and]
  · obtain rfl := Host.Outcome.next.inj ((exec_st hp hr hg).symm.trans ht)
    have hb := seenAfter_gatePush_range hw hr.1 (fun i => BitVec.ofNat 8 ((s.rdX f.d).toNat / 256 ^ i))
      (if s.poisonX f.d then (List.range (widthBytes f.w)).map (fun i => ownLs (addrOf s f.a f.off.toInt + i)) else []) false
    refine ⟨fun i hi => ?_, fun c hc => ?_, rfl, rfl, rfl, rfl, rfl⟩
    · rw [hb, ownLs_add, if_pos (by omega), Nat.add_sub_cancel_left]
    · rw [hb, if_neg]
      rintro ⟨hl, hu⟩
      exact hc (c - ownLs (addrOf s f.a f.off.toInt)) (by omega) (by rw [ownLs_add]; omega)

end Sys2Proof.Machine
end

section
/-! Vector loads and stores of the own local store (R233, R234, R236, R240). -/
open Sys2Proof Sys2Proof.Machine Sys2Proof.Claims

namespace Sys2Proof.Machine

/-! ### The checks and waits of a vector access's registers and stream (R98, R109) -/

section
variable {s : State} {d : Reg} {q : Bool} {a : Reg} {idx : List (Nat × Bool)} {ctl : Chk}

theorem needBound_of_rdQ {k : Nat} {t : Stream} (h : s.rdQ k = some t) : s.needBound k = .ok := need_pass (by rw [h]; rfl) _ _

theorem chkLoadRegs_ready (h : LoadRegs s d q a) (hi : ∀ r ∈ idx, r.2 = true) (hc : ctl = .ok) : s.chkLoadRegs d q idx ctl = .ok := by
  obtain ⟨hr, -⟩ := h
  cases q with
  | false =>
    have hd : s.hasV d = true := decide_eq_true hr
    rw [State.chkLoadRegs, if_neg Bool.false_ne_true, State.chkRegs, needAlloc_ok (List.forall_mem_cons.2 ⟨hd, hi⟩), hc, Chk.ok_and]
  | true =>
    obtain ⟨t, ht, -⟩ := hr.1
    rw [State.chkLoadRegs, if_pos rfl, State.chkRegs, needAlloc_ok (List.forall_mem_cons.2 ⟨rfl, hi⟩), hc, needBound_of_rdQ ht,
      if_pos rfl, needWrite_ready hr, Chk.ok_and, Chk.ok_and, Chk.ok_and]

theorem chkStoreRegs_ready (h : StoreRegs s d q a) (hi : ∀ r ∈ idx, r.2 = true) (hc : ctl = .ok) : s.chkStoreRegs d q idx ctl = .ok := by
  obtain ⟨hr, -, -⟩ := h
  cases q with
  | false =>
    have hd : s.hasV d = true := decide_eq_true hr
    rw [State.chkStoreRegs, if_neg Bool.false_ne_true, State.chkRegs, needAlloc_ok (List.forall_mem_cons.2 ⟨hd, hi⟩), hc, Chk.ok_and]
  | true =>
    obtain ⟨t, ht, -⟩ := hr.1
    rw [State.chkStoreRegs, if_pos rfl, State.chkRegs, needAlloc_ok (List.forall_mem_cons.2 ⟨rfl, hi⟩), hc, needBound_of_rdQ ht,
      if_neg Bool.false_ne_true, needRead_ready hr, Chk.ok_and, Chk.ok_and, Chk.ok_and]

/-- A stream with a buffer and a gate entry free takes the image of a load at once. -/
theorem loadRegs_go (h : LoadRegs s d q a) : s.needImage q = .ok ∧ s.readyQ d q = .go := by
  obtain ⟨hr, -⟩ := h
  cases q with
  | false => exact ⟨rfl, rfl⟩
  | true =>
    obtain ⟨-, hb, hg⟩ := hr
    exact ⟨needGate_room hg, by simp [State.readyQ, hb]⟩

theorem storeRegs_go (h : StoreRegs s d q a) : s.needGate = .ok ∧ s.readyImage d q = .go := by
  obtain ⟨hr, -, hg⟩ := h
  refine ⟨needGate_room hg, ?_⟩
  cases q with
  | false => rfl
  | true => simp [State.readyImage, hr.2]

end

/-! ### The instructions where their checks pass -/

section
variable {s : State}

theorem exec_vld {f : MV} (h : LoadRegs s f.d f.q f.a)
    (hk : s.chkLocal (addrOf s f.a f.off.toInt) f.t false .contiguous (s.guard f.g) = .ok) :
    exec (.vld f) s = .next (s.putLoad f.d f.q (s.localImage (addrOf s f.a f.off.toInt) f.t .contiguous (s.guard f.g))) := by
  obtain ⟨hi, hr⟩ := loadRegs_go h
  have hc : chkVld f s = .ok := by
    rw [chkVld, chkLoadRegs_ready h (by simp) (needCtl_clean h.2), memAddr_eq_addrOf, hk, hi, Chk.ok_and, Chk.ok_and]
  show execVld f s = _
  rw [execVld, hc, hr, issueOp_go, memAddr_eq_addrOf]

theorem exec_vlds {f : MVX} (h : LoadRegs s f.d f.q f.a) (hb : s.poisonX f.b = false)
    (hk : s.chkLocal (addrOf s f.a f.off.toInt) f.t false (s.stride f.b) (s.guard f.g) = .ok) :
    exec (.vlds f) s = .next (s.putLoad f.d f.q (s.localImage (addrOf s f.a f.off.toInt) f.t (s.stride f.b) (s.guard f.g))) := by
  obtain ⟨hi, hr⟩ := loadRegs_go h
  have hc : chkVlds f s = .ok := by
    rw [chkVlds, chkLoadRegs_ready h (by simp) (by rw [needCtl_clean h.2, needCtl_clean hb, Chk.ok_and]), memAddr_eq_addrOf, hk, hi,
      Chk.ok_and, Chk.ok_and]
  show execVlds f s = _
  rw [execVlds, hc, hr, issueOp_go, memAddr_eq_addrOf]

theorem exec_vldx {f : MVX} (h : LoadRegs s f.d f.q f.a) (hb : f.b.toNat < s.core.nV) (hx : s.chkIndex f.b f.t f.g = .ok)
    (hk : s.chkLocal (addrOf s f.a f.off.toInt) f.t false (s.index f.b f.t) (s.guard f.g) = .ok) :
    exec (.vldx f) s = .next (s.putLoad f.d f.q (s.localImage (addrOf s f.a f.off.toInt) f.t (s.index f.b f.t) (s.guard f.g))) := by
  obtain ⟨hi, hr⟩ := loadRegs_go h
  have hc : chkVldx f s = .ok := by
    rw [chkVldx, chkLoadRegs_ready h (by simpa [State.hasV] using hb) (by rw [needCtl_clean h.2, hx, Chk.ok_and]), memAddr_eq_addrOf,
      hk, hi, Chk.ok_and, Chk.ok_and]
  show execVldx f s = _
  rw [execVldx, hc, hr, issueOp_go, memAddr_eq_addrOf]

theorem exec_vst {f : MV} (h : StoreRegs s f.d f.q f.a)
    (hk : s.chkLocal (addrOf s f.a f.off.toInt) f.t true .contiguous (s.guard f.g) = .ok) :
    exec (.vst f) s = .next (s.storeLocal (addrOf s f.a f.off.toInt) f.t .contiguous f.g f.rnd f.sat f.scl f.d f.q) := by
  obtain ⟨hi, hr⟩ := storeRegs_go h
  have hc : chkVst f s = .ok := by
    rw [chkVst, chkStoreRegs_ready h (by simp) (needCtl_clean h.2.1), memAddr_eq_addrOf, hk, hi, Chk.ok_and, Chk.ok_and]
  show execVst f s = _
  rw [execVst, hc, hr, issueOp_go, memAddr_eq_addrOf]

theorem exec_vsts {f : MVX} (h : StoreRegs s f.d f.q f.a) (hb : s.poisonX f.b = false)
    (hk : s.chkLocal (addrOf s f.a f.off.toInt) f.t true (s.stride f.b) (s.guard f.g) = .ok) :
    exec (.vsts f) s = .next (s.storeLocal (addrOf s f.a f.off.toInt) f.t (s.stride f.b) f.g f.rnd f.sat f.scl f.d f.q) := by
  obtain ⟨hi, hr⟩ := storeRegs_go h
  have hc : chkVsts f s = .ok := by
    rw [chkVsts, chkStoreRegs_ready h (by simp) (by rw [needCtl_clean h.2.1, needCtl_clean hb, Chk.ok_and]), memAddr_eq_addrOf, hk, hi,
      Chk.ok_and, Chk.ok_and]
  show execVsts f s = _
  rw [execVsts, hc, hr, issueOp_go, memAddr_eq_addrOf]

theorem exec_vstx {f : MVX} (h : StoreRegs s f.d f.q f.a) (hb : f.b.toNat < s.core.nV) (hx : s.chkIndex f.b f.t f.g = .ok)
    (hk : s.chkLocal (addrOf s f.a f.off.toInt) f.t true (s.index f.b f.t) (s.guard f.g) = .ok) :
    exec (.vstx f) s = .next (s.storeLocal (addrOf s f.a f.off.toInt) f.t (s.index f.b f.t) f.g f.rnd f.sat f.scl f.d f.q) := by
  obtain ⟨hi, hr⟩ := storeRegs_go h
  have hc : chkVstx f s = .ok := by
    rw [chkVstx, chkStoreRegs_ready h (by simpa [State.hasV] using hb) (by rw [needCtl_clean h.2.1, hx, Chk.ok_and]), memAddr_eq_addrOf,
      hk, hi, Chk.ok_and, Chk.ok_and]
  show execVstx f s = _
  rw [execVstx, hc, hr, issueOp_go, memAddr_eq_addrOf]

/-- Checks that pass have found the access's shape; the store's entry holds its data. -/
theorem storeLocal_of_chk {addr : Nat} {t : Fmt} {sp : Spread} {g : BitVec 4}
    (hk : s.chkLocal addr t true sp (s.guard g) = .ok) (rnd : Rnd) (sat : Bool) (scl : Scl) (d : Reg) (q : Bool) :
    ∃ v, localAccess s.view addr t true sp (s.guard g) = some v ∧ s.storeLocal addr t sp g rnd sat scl d q =
      ((s.gatePush (.store ((StoreSpec.mk v.sh t v.f v.g (s.snap rnd) sat scl).data (elemsOf v.sh.rw (storeData s d q)) v.guard v.pieces
        ((rangesAddrs v.ranges).map ownLs)))).useImage d q).takeSeq := by
  cases hv : localAccess s.view addr t true sp (s.guard g) with
  | none =>
    rw [State.chkLocal, hv] at hk
    split at hk <;> cases hk
  | some v =>
    refine ⟨v, rfl, ?_⟩
    rw [State.storeLocal, hv]
    rfl

end

/-! ### The elements of a contiguous load in the region's own format (R233, R236) -/

theorem ofLanes_bytes : ∀ bs : List Byte, ofLanes 8 (bs.map (·.toNat)) = natOfBytes bs
  | [] => rfl
  | b :: bs => by
    rw [List.map_cons, ofLanes, ofLanes_bytes bs, Nat.mod_eq_of_lt b.isLt]
    rfl

/-- The element of one unit's bytes: their number, or a poisoned zero. -/
def unitElem (bs : List (Byte × Bool)) : Elem := if orAll (bs.map (·.2)) then (0, true) else (natOfBytes (bs.map (·.1)), false)

/-- Units of one element each give each its own element. -/
theorem decodeUnits_single (t f : Fmt) (g : Geo) {rw n e k : Nat} {block : Nat → List (Byte × Bool)} (hb : ∀ i, (block i).length = k) :
    ∀ l : List Nat, decodeUnits ⟨rw, n, .bits, e⟩ f g t (l.map (fun i => ([i], k))) ((l.map block).flatten) =
      l.map (fun i => (i, unitElem (block i)))
  | [] => rfl
  | i :: l => by
    have ht : (block i ++ (l.map block).flatten).take k = block i := List.take_left' (hb i)
    have hd : (block i ++ (l.map block).flatten).drop k = (l.map block).flatten := List.drop_left' (hb i)
    have hn : ofLanes 8 ((block i).map (fun b => b.1.toNat)) = natOfBytes ((block i).map (·.1)) := by
      rw [← ofLanes_bytes, List.map_map]; rfl
    simp only [List.map_cons, List.flatten_cons, decodeUnits, ht, hd, decodeUnits_single t f g hb l, decodePiece, hn]
    cases ho : orAll ((block i).map (·.2)) <;> simp [unitElem, ho]

theorem find?_beq_of_mem {l : List Nat} {i : Nat} (h : i ∈ l) : l.find? (· == i) = some i := by
  cases hf : l.find? (· == i) with
  | none => exact absurd (List.find?_eq_none.1 hf i h) (by simp)
  | some j => rw [eq_of_beq (List.find?_some (p := (· == i)) hf)]

/-- A register filled from the enabled elements. -/
theorem fillElems_filter (n : Nat) (p : Nat → Bool) (el : Nat → Elem) :
    fillElems n (((List.range n).filter p).map (fun i => (i, el i))) = (List.range n).map (fun i => if p i then el i else (0, false)) := by
  refine List.map_congr_left fun i hi => ?_
  rw [List.find?_map, Function.comp_def]
  by_cases hp : p i = true
  · rw [find?_beq_of_mem (List.mem_filter.2 ⟨hi, hp⟩), if_pos hp]
    rfl
  · have hf : ((List.range n).filter p).find? (fun j => j == i) = none :=
      List.find?_eq_none.2 fun j hj hji => hp (eq_of_beq hji ▸ (List.mem_filter.1 hj).2)
    rw [hf, if_neg hp]
    rfl

theorem localBytes_flatten (s : State) (rs : List (List Nat)) : s.localBytes rs.flatten = (rs.map s.localBytes).flatten := by
  rw [State.localBytes, List.map_flatten]
  rfl

/-- Each element of `k` local bytes, as a load gives it. -/
theorem unitElem_local (s : State) (a k : Nat) :
    unitElem (s.localBytes ((List.range k).map (fun i => a + i))) =
      if localBad s a k then (0, true) else (localNum s a k, false) := by
  rw [unitElem, localBytes_poisoned, localBytes_number]

/-- The shape of a load of its own format, or of an untagged region. -/
theorem loadShape_same {f t : Fmt} {g : Geo} (ht : isElem t = true) (hf : f = .raw ∨ f = t) :
    loadShape f g t = some ⟨t.width, 2048 / t.width, .bits, elemBytes t⟩ := by
  have hr : t ≠ .raw := by rintro rfl; exact absurd ht (by decide)
  have hc : (f = .raw || f = t) = true := by simpa using hf
  rw [loadShape, if_neg hr, if_pos ht, if_pos hc]

/-- The pieces of a contiguous access that are enabled: one for each enabled element, at its bytes. -/
theorem enabledPieces_contiguous (s : State) (g : BitVec 4) (geo : Geo) (w k a o : Nat) :
    enabledPieces ⟨w, 2048 / w, .bits, k⟩ (s.guard g).1 (piecesOf ⟨w, 2048 / w, .bits, k⟩ geo .contiguous a o) =
      ((List.range (2048 / w)).filter (enabled s g w)).map (fun i => ⟨[i], [(a + i * k, k)]⟩) := by
  rw [enabledPieces, piecesOf, List.filter_map]
  refine congrArg (List.map _) (List.filter_congr fun i hi => ?_)
  simp only [Function.comp, List.any_cons, List.any_nil, Bool.or_false, guardBits]
  rw [getD_map_range _ (List.mem_range.1 hi)]
  rfl

theorem piecesRanges_single (l : List Nat) (r : Nat → Nat × Nat) : piecesRanges (l.map (fun i => ⟨[i], [r i]⟩)) = l.map r := by
  rw [piecesRanges, List.map_map]
  exact List.flatMap_pure_eq_map r l

theorem localImage_contiguous (s : State) (a : Nat) (t : Fmt) (g : BitVec 4) (ht : isElem t = true)
    (hf : (s.view.tag (regionOf (ownLs a))).1 = .raw ∨ (s.view.tag (regionOf (ownLs a))).1 = t) :
    s.localImage a t .contiguous (s.guard g) = (VRes.mk t.width (elems (2048 / t.width)
      (fun e => if enabled s g t.width e && !localBad s (a + e * elemBytes t) (elemBytes t)
        then localNum s (a + e * elemBytes t) (elemBytes t) else 0)
      (fun e => enabled s g t.width e && localBad s (a + e * elemBytes t) (elemBytes t)))).image (s.guard g) := by
  have hacc : localAccess s.view a t false .contiguous (s.guard g) = some
      { addr := a, f := (s.view.tag (regionOf (ownLs a))).1, g := (s.view.tag (regionOf (ownLs a))).2,
        sh := ⟨t.width, 2048 / t.width, .bits, elemBytes t⟩, guard := s.guard g,
        pieces := ((List.range (2048 / t.width)).filter (enabled s g t.width)).map (fun i => ⟨[i], [(a + i * elemBytes t, elemBytes t)]⟩) } := by
    simp only [localAccess, Bool.false_eq_true, if_false, loadShape_same ht hf, enabledPieces_contiguous]
    rfl
  have hbytes : s.localBytes (rangesAddrs (piecesRanges (((List.range (2048 / t.width)).filter (enabled s g t.width)).map
      (fun i => ⟨[i], [(a + i * elemBytes t, elemBytes t)]⟩)))) =
      (((List.range (2048 / t.width)).filter (enabled s g t.width)).map (fun i =>
        s.localBytes ((List.range (elemBytes t)).map (fun j => a + i * elemBytes t + j)))).flatten := by
    rw [piecesRanges_single, rangesAddrs, List.map_map, localBytes_flatten, List.map_map]
    rfl
  rw [State.localImage, hacc]
  simp only [VAccess.ranges, hbytes, loadImage, List.map_map, Function.comp_def, Piece.size, List.map_cons, List.map_nil, List.sum_singleton]
  rw [decodeUnits_single _ _ _ (fun i => by simp [State.localBytes]), fillElems_filter, List.map_map]
  refine congrArg (fun v => (VRes.mk t.width v).image (s.guard g)) (List.map_congr_left fun i _ => ?_)
  simp only [Function.comp, unitElem_local, Bool.or_false]
  cases enabled s g t.width i <;> cases localBad s (a + i * elemBytes t) (elemBytes t) <;> rfl

/-- Settles O23: each instruction by its checks; the elements unit by unit. -/
theorem localVectors : Obligations.LocalVectors := by
  unfold Obligations.LocalVectors
  refine ⟨fun f g s => ⟨exec_vld, exec_vlds, exec_vldx⟩, fun s a t g ht hf => localImage_contiguous s a t g ht hf,
    fun f g s => ⟨fun h hk => ?_, fun h hb hk => ?_, fun h hb hx hk => ?_⟩⟩
  · obtain ⟨v, hv, hs⟩ := storeLocal_of_chk hk f.rnd f.sat f.scl f.d f.q
    exact ⟨v, hv, by rw [exec_vst h hk, hs]⟩
  · obtain ⟨v, hv, hs⟩ := storeLocal_of_chk hk g.rnd g.sat g.scl g.d g.q
    exact ⟨v, hv, by rw [exec_vsts h hb hk, State.stride, hs]⟩
  · obtain ⟨v, hv, hs⟩ := storeLocal_of_chk hk g.rnd g.sat g.scl g.d g.q
    exact ⟨v, hv, by rw [exec_vstx h hb hx hk, hs]⟩

end Sys2Proof.Machine
end

section
/-! Far loads and stores at issue: their home pieces, their checks and lookup faults, and a load for a stream (R230, R242, R293, R352). -/
open Sys2Proof Sys2Proof.Machine Sys2Proof.Claims

namespace Sys2Proof.Machine

/-! ### The stretches of a range (R230) -/

/-- Each stretch starts inside the range, under the entry of its first byte. -/
theorem mem_stretches (table : List Entry) : ∀ (fuel v len : Nat), ∀ q ∈ stretches table fuel v len,
    ∃ i, i < len ∧ q.addr = v + i ∧ q.entry = entryAt table (v + i)
  | 0, _, _, _, hq => by cases hq
  | fuel + 1, v, len, q, hq => by
    rw [stretches] at hq
    split at hq
    · cases hq
    · rcases List.mem_cons.1 hq with rfl | hq
      · exact ⟨0, by omega, rfl, rfl⟩
      · obtain ⟨i, hi, ha, he⟩ := mem_stretches table fuel _ _ q hq
        rw [Nat.add_assoc] at ha he
        exact ⟨_, by omega, ha, he⟩

/-- The stretches of a range that is not empty start with its first byte. -/
theorem stretches_cons (table : List Entry) (fuel v : Nat) {len : Nat} (h : 0 < len) :
    ∃ k l, stretches table (fuel + 1) v len = { addr := v, len := k, entry := entryAt table v } :: l := by
  rw [stretches, if_neg (by omega)]
  exact ⟨_, _, rfl⟩

/-- The stretches together are no longer than the range. -/
theorem stretches_sum_le (table : List Entry) : ∀ (fuel v len : Nat), ((stretches table fuel v len).map (·.len)).sum ≤ len
  | 0, _, _ => Nat.zero_le _
  | fuel + 1, v, len => by
    rw [stretches]
    split
    · exact Nat.zero_le _
    · have ih := fun k => stretches_sum_le table fuel (v + k) (len - k)
      simp only [List.map_cons, List.sum_cons]
      exact (Nat.add_le_add_left (ih _) _).trans (by omega)

theorem State.homesOf_length_le (s : State) (l : List Stretch) : (s.homesOf l).length ≤ (l.map (·.len)).sum := by
  induction l with
  | nil => exact Nat.le_refl _
  | cons q l ih =>
    have hc : s.homesOf (q :: l) = s.homesOf [q] ++ s.homesOf l := by
      simp [State.homesOf, State.partsOf]
    have hq : (s.homesOf [q]).length ≤ q.len := by
      cases he : q.entry <;> simp [State.homesOf, State.partsOf, State.partOf, he]
    rw [hc, List.length_append, List.map_cons, List.sum_cons]
    omega

/-- A store's cells: the bytes of its value at its homes. -/
theorem scalarData_homes {v : X64} {po : Bool} {homes : List Nat} {n : Nat} (h : homes.length ≤ n) :
    scalarData v po homes =
      { cells := homes.zip ((List.range n).map (fun i => BitVec.ofNat 8 (v.toNat / 256 ^ i))), poisoned := if po then homes else [],
        ovfs := false } := by
  have hz : homes.zip ((List.range n).map (fun i => BitVec.ofNat 8 (v.toNat / 256 ^ i))) =
      homes.zip ((List.range homes.length).map (fun i => BitVec.ofNat 8 (v.toNat / 256 ^ i))) := by
    rw [List.zip_eq_zip_take_min, List.length_map, List.length_range, Nat.min_eq_left h, List.take_length, take_map_range _ h]
  rw [hz, scalarData, bytesOfNat_eq_map]

/-! ### The lookup of a range (R230, R352) -/

theorem lookupChk_permitted {s : State} {p : Perm} {a n : Nat} (h : Permitted s p a n) (fuel : Nat) :
    lookupChk [p] (stretches s.core.table fuel a n) = .ok := by
  have hq : ∀ q ∈ stretches s.core.table fuel a n, ∃ e, q.entry = some e ∧ e.absent = false ∧ e.allows p = true := fun q hq => by
    obtain ⟨i, hi, -, he⟩ := mem_stretches _ _ _ _ q hq
    obtain ⟨e, hs, ha, hp⟩ := h i hi
    exact ⟨e, he.trans hs, ha, hp⟩
  have hnone : (stretches s.core.table fuel a n).filter (fun q => q.entry.isNone) = [] :=
    List.filter_eq_nil_iff.2 fun q hm => by obtain ⟨e, he, -, -⟩ := hq q hm; simp [he]
  have habs : (stretches s.core.table fuel a n).filter (fun q => (q.entry.map (·.absent)).getD false) = [] :=
    List.filter_eq_nil_iff.2 fun q hm => by obtain ⟨e, he, ha, -⟩ := hq q hm; simp [he, ha]
  have hperm : (stretches s.core.table fuel a n).filter (fun q => !(q.entry.map (fun e => [p].all e.allows)).getD true) = [] :=
    List.filter_eq_nil_iff.2 fun q hm => by obtain ⟨e, he, -, hp⟩ := hq q hm; simp [he, hp]
  simp only [lookupChk, lookupFault, hnone, habs, hperm, lowestOf, Option.map_none]

/-- Among stretches of which the first is the lowest, the lowest is the first. -/
theorem lowestOf_head {q : Stretch} {l : List Stretch} (h : ∀ r ∈ l, q.addr ≤ r.addr) : lowestOf (q :: l) = some q.addr := by
  have hf : l.foldl (fun m r => min m r.addr) q.addr = q.addr :=
    List.foldlRecOn l _ (motive := fun m => m = q.addr) rfl fun m hm r hr => by rw [hm, Nat.min_eq_left (h r hr)]
  rw [lowestOf, hf]

/-- A range of which no byte is mapped fails its lookup at its first byte, and has no home pieces. -/
theorem lookupChk_unmapped {s : State} {a n : Nat} (hn : 0 < n) (h : ∀ i, i < n → entryAt s.core.table (a + i) = none)
    (perms : List Perm) (fuel : Nat) :
    lookupChk perms (stretches s.core.table (fuel + 1) a n) = .lookup 0x06 (BitVec.ofNat 64 a) ∧
      s.partsOf (stretches s.core.table (fuel + 1) a n) = [] := by
  have hq : ∀ q ∈ stretches s.core.table (fuel + 1) a n, q.entry = none ∧ a ≤ q.addr := fun q hq => by
    obtain ⟨i, hi, ha, he⟩ := mem_stretches _ _ _ _ q hq
    exact ⟨he.trans (h i hi), by omega⟩
  constructor
  · have hall : (stretches s.core.table (fuel + 1) a n).filter (fun q => q.entry.isNone) = stretches s.core.table (fuel + 1) a n :=
      List.filter_eq_self.2 fun q hm => by rw [(hq q hm).1]; rfl
    have hlow : lowestOf (stretches s.core.table (fuel + 1) a n) = some a := by
      obtain ⟨k, l, hl⟩ := stretches_cons s.core.table fuel a hn
      rw [hl] at hq ⊢
      exact lowestOf_head fun r hr => (hq r (List.mem_cons_of_mem _ hr)).2
    simp only [lookupChk, lookupFault, hall, hlow]
  · rw [State.partsOf, List.flatten_eq_nil_iff]
    intro l hl
    obtain ⟨q, hm, rfl⟩ := List.mem_map.1 hl
    rw [State.partOf, (hq q hm).1]

/-! ### A load leaves the core (R242, R474) -/

/-- The errors injected with a far load: a corrected one or poisoned data, each spent by the load. -/
theorem State.useErrinj_inject (s : State) : (s.useErrinj.2 = true ↔ s.core.regs.sys.errinj.toNat % 16 = 2) := by
  unfold State.useErrinj
  dsimp only
  split
  · simp
  · next h => simpa using fun h2 => h (.inl h2)

theorem State.useErrinj_none {s : State} (h2 : s.core.regs.sys.errinj.toNat % 16 ≠ 2) (h3 : s.core.regs.sys.errinj.toNat % 16 ≠ 3) :
    s.useErrinj = (s, false) := by
  unfold State.useErrinj
  exact if_neg (by rintro (h | h) <;> contradiction)

/-- An injected error changes the results in flight and the device's count alone. -/
theorem State.useErrinj_core (s : State) :
    ∃ p h, s.useErrinj.1.core = { s.core with iss := { s.core.iss with pend := p }, shadow := h } := by
  unfold State.useErrinj
  dsimp only
  split
  · exact ⟨_, _, rfl⟩
  · exact ⟨_, _, rfl⟩

/-- The load that a far load instruction sends. -/
def State.newLoad (s : State) (acq : Bool) (st : List Stretch) (form : LoadForm) (reg : Nat) (stream : Option Nat) : FarLoad :=
  { id := s.core.opId, strand := s.strandIdx, bundle := s.core.iss.cur.bundle, slot := s.core.iss.cur.slot, acq := acq,
    parts := s.partsOf st, form := form, reg := reg, inject := s.useErrinj.2, stream := stream }

theorem State.launchLoad_core (s : State) (acq : Bool) (st : List Stretch) (form : LoadForm) (reg : Nat) (stream : Option Nat) :
    ∃ p h, (s.launchLoad acq st form reg stream).core = { s.core with
      iss := { s.core.iss with pend := p }, shadow := h, loads := s.core.loads ++ [s.newLoad acq st form reg stream],
      opId := s.core.opId + 1 } := by
  obtain ⟨p, h, hc⟩ := s.useErrinj_core
  exact ⟨p, h, by simp only [State.launchLoad, State.mapCore, State.newLoad, State.newId, hc]⟩

theorem State.launchLoad_iss {s : State} (h2 : s.core.regs.sys.errinj.toNat % 16 ≠ 2) (h3 : s.core.regs.sys.errinj.toNat % 16 ≠ 3)
    (acq : Bool) (st : List Stretch) (form : LoadForm) (reg : Nat) (stream : Option Nat) :
    (s.launchLoad acq st form reg stream).core.iss = s.core.iss := by
  rw [State.launchLoad, State.useErrinj_none h2 h3]
  rfl

section
variable (s : State) (r : Option RegName) (acq : Bool) (st : List Stretch) (form : LoadForm) (reg : Nat)

/-- A load and the interlock of its register change the interlocks, the loads and, where an error is injected, the results in flight. -/
theorem State.sendLoad_core : ∃ p h i, (s.sendLoad r acq st form reg).core = { s.core with
    iss := { s.core.iss with pend := p }, shadow := h, inter := i, loads := s.core.loads ++ [s.newLoad acq st form reg none],
    opId := s.core.opId + 1 } := by
  obtain ⟨p, h, hc⟩ := s.launchLoad_core acq st form reg none
  cases r with
  | none => exact ⟨p, h, s.core.inter, hc⟩
  | some r => exact ⟨p, h, _, by simp only [State.sendLoad, State.interlock, State.mapCore, hc]; rfl⟩

/-- The register of a load waits for it. -/
theorem State.sendLoad_waits (n : RegName) : ∃ i ∈ (s.sendLoad (some n) acq st form reg).core.inter, i.reg = n ∧ i.id = s.core.opId := by
  simp [State.sendLoad, State.interlock, State.mapCore, State.newId]

variable {s} in
theorem State.sendLoad_iss (h2 : s.core.regs.sys.errinj.toNat % 16 ≠ 2) (h3 : s.core.regs.sys.errinj.toNat % 16 ≠ 3) :
    (s.sendLoad r acq st form reg).core.iss = s.core.iss := by
  have hl := State.launchLoad_iss h2 h3 acq st form reg none
  cases r <;> exact hl

end

/-! ### FLD and FST (R239, R242) -/

section
variable {f : MS} {s : State}

theorem scalarStretches_eq (s : State) (a : Reg) (off : Int) (w : Width) :
    s.scalarStretches a off w = stretches s.core.table 300 (addrOf s a off) (widthBytes w) := by
  rw [State.scalarStretches, memAddr_eq_addrOf]

theorem needOwn_free {m : Bool} (h : m = false) : s.needOwn m = .ok := need_pass (by rw [h]; rfl) _ _

/-- An access without home pieces meets no gated atomic. -/
theorem State.meetsAtomic_nil (s : State) : s.meetsAtomic [] = false := by
  refine List.any_eq_false.2 fun e _ => ?_
  obtain ⟨b, n, op⟩ := e
  cases op <;> simp

theorem exec_fld (hp : s.poisonX f.a = false) (hm : Permitted s .load (addrOf s f.a f.off.toInt) (widthBytes f.w))
    (ha : s.meetsAtomic (s.partsOf (stretches s.core.table 300 (addrOf s f.a f.off.toInt) (widthBytes f.w))) = false)
    (hl : s.core.loads.length < 16) :
    exec (.fld f) s = .next (s.sendLoad (if f.d = 0 then none else some (.x (s.px f.d))) f.ord
      (stretches s.core.table 300 (addrOf s f.a f.off.toInt) (widthBytes f.w)) (.scalar f.u) (s.px f.d)) := by
  have hk : chkFld f s = .ok := by
    simp only [chkFld, scalarStretches_eq, needCtl_clean hp, needOwn_free ha, lookupChk_permitted hm, Chk.ok_and]
  have hr : s.readyLoad = .go := if_pos hl
  show execFld f s = _
  rw [execFld, hk, hr, issueOp_go, scalarStretches_eq]

theorem exec_fst (hp : s.poisonX f.a = false) (hm : Permitted s .store (addrOf s f.a f.off.toInt) (widthBytes f.w))
    (hg : s.core.gate.length < 64) (hq : s.core.queued < 32) :
    exec (.fst f) s = .next (
      let st := stretches s.core.table 300 (addrOf s f.a f.off.toInt) (widthBytes f.w)
      s.gateFar f.ord (s.partsOf st) (scalarData (s.rdX f.d) (s.poisonX f.d) (s.homesOf st)) none 0 (widthBytes f.w)) := by
  have hk : chkFst f s = .ok := by
    simp only [chkFst, scalarStretches_eq, needCtl_clean hp, lookupChk_permitted hm, needGate_room hg, Chk.ok_and]
  have hr : s.readyStore = .go := if_pos hq
  show execFst f s = _
  rw [execFst, hk, hr, issueOp_go, scalarStretches_eq]

/-- A lookup fault that is the first is noted (R352). -/
theorem lookupFails_first {c : Nat} {v : X64} (h : s.core.iss.fault = none) :
    s.lookupFails c v = s.mapIss (fun i => { i with fault := some { cause := c, addr := v } }) := by
  simp only [State.lookupFails, State.mapIss, h]

/-- An access whose first byte no entry maps notes its lookup fault: the checks before the lookup pass. -/
theorem farScalar_unmapped (hp : s.poisonX f.a = false) (hf : s.core.iss.fault = none)
    (hu : ∀ i, i < widthBytes f.w → entryAt s.core.table (addrOf s f.a f.off.toInt + i) = none) :
    let t := s.mapIss (fun i => { i with fault := some { cause := 0x06, addr := BitVec.ofNat 64 (addrOf s f.a f.off.toInt) } })
    exec (.fld f) s = .next t ∧ exec (.fst f) s = .next t := by
  have hk := fun p => lookupChk_unmapped (widthBytes_le f.w).1 hu p 299
  have hl : chkFld f s = .lookup 0x06 (BitVec.ofNat 64 (addrOf s f.a f.off.toInt)) := by
    obtain ⟨h, hn⟩ := hk [.load]
    simp only [chkFld, scalarStretches_eq, needCtl_clean hp, hn, needOwn_free s.meetsAtomic_nil, h, Chk.ok_and]
  have hs : chkFst f s = .lookup 0x06 (BitVec.ofNat 64 (addrOf s f.a f.off.toInt)) := by
    obtain ⟨h, -⟩ := hk [.store]
    simp only [chkFst, scalarStretches_eq, needCtl_clean hp, h, Chk.ok_and]
    rfl
  refine ⟨?_, ?_⟩
  · show execFld f s = _
    rw [execFld, hl, issueOp_lookup, lookupFails_first hf]
  · show execFst f s = _
    rw [execFst, hs, issueOp_lookup, lookupFails_first hf]

end

/-! ### VFLD and VFST (R233, R234) -/

/-- Checks that pass have found the access's shape. -/
theorem farAccess_of_chk {s : State} {a : Nat} {t : Fmt} {store : Bool} {g : PBits × Bool} (hk : s.chkFar a t store g = .ok) :
    ∃ v, farAccess s a t store g = some v := by
  cases hv : farAccess s a t store g with
  | none => rw [State.chkFar, hv] at hk; cases hk
  | some v => exact ⟨v, rfl⟩

section
variable {f : MV} {s : State}

theorem exec_vfld {v : VAccess} (h : LoadRegs s f.d f.q f.a) (hk : s.chkFar (addrOf s f.a f.off.toInt) f.t false (s.guard f.g) = .ok)
    (hl : s.core.loads.length < 16) (hv : farAccess s (addrOf s f.a f.off.toInt) f.t false (s.guard f.g) = some v) :
    exec (.vfld f) s = .next (if f.q then s.streamLoad f.d.toNat f.ord (stretchesOf s.core.table v.ranges) (v.form f.t)
      else s.sendLoad (some (.v (s.pv f.d))) f.ord (stretchesOf s.core.table v.ranges) (v.form f.t) (s.pv f.d)) := by
  obtain ⟨hi, hq⟩ := loadRegs_go h
  have hc : chkVfld f s = .ok := by
    rw [chkVfld, chkLoadRegs_ready h (by simp) (needCtl_clean h.2), memAddr_eq_addrOf, hk, hi, Chk.ok_and, Chk.ok_and]
  have hr : readyVfld f s = .go := by
    rw [readyVfld, show s.readyLoad = .go from if_pos hl]
    exact hq
  show execVfld f s = _
  rw [execVfld, hc, hr, issueOp_go, memAddr_eq_addrOf, hv]

theorem exec_vfst {v : VAccess} (h : StoreRegs s f.d f.q f.a) (hk : s.chkFar (addrOf s f.a f.off.toInt) f.t true (s.guard f.g) = .ok)
    (hq : s.core.queued < 32) (hv : farAccess s (addrOf s f.a f.off.toInt) f.t true (s.guard f.g) = some v) :
    exec (.vfst f) s = .next (
      let st := stretchesOf s.core.table v.ranges
      ((s.gateFar f.ord (s.partsOf st) (v.data s f.t f.rnd f.sat f.scl f.d f.q (s.homesOf st)) none 0 (s.homesOf st).length).useImage
        f.d f.q).takeSeq) := by
  obtain ⟨hi, hg⟩ := storeRegs_go h
  have hc : chkVfst f s = .ok := by
    rw [chkVfst, chkStoreRegs_ready h (by simp) (needCtl_clean h.2.1), memAddr_eq_addrOf, hk, hi, Chk.ok_and, Chk.ok_and]
  have hr : readyVfst f s = .go := by
    rw [readyVfst, hg]
    exact if_pos hq
  show execVfst f s = _
  rw [execVfst, hc, hr, issueOp_go, memAddr_eq_addrOf, hv]

end

/-! ### A load for a stream (R293, R345) -/

theorem State.countImage_stream (s : State) (q : Nat) :
    vget (s.countImage q).core.regs.q q none = (vget s.core.regs.q q none).map (fun t => { t with taken := t.taken + 1 }) := by
  show vget (vset s.core.regs.q q _) q none = _
  by_cases hq : q < 8
  · rw [vget_vset_same _ _ _ _ hq]
  · simp [vget, vset, Vector.getD, hq]

/-- The image of a load waits in its gate entry, alone there, or goes behind the images of its stream. -/
theorem returnLoad_image {s : State} {l : FarLoad} {q : Nat} {sh : Shape} {t f : Fmt} {g : Geo} {units : List (List Nat × Nat)}
    {guard : PBits} {po : Bool} (hq : l.stream = some q) (hf : l.form = .vector sh t f g units guard po) (bytes : List (Byte × Bool)) :
    let m := loadImage sh t f g units (guard, po) l.inject bytes
    s.returnLoad l (l.result bytes) = s.bringImage l q m.1 m.2.2 := by
  simp only [State.returnLoad, FarLoad.result, hf, hq]

/-- Settles O24: the scalar and vector instructions by their checks, and what a load and a gated store are made of. -/
theorem farAccesses : Obligations.FarAccesses := by
  unfold Obligations.FarAccesses
  refine ⟨fun f s => ⟨fun hp hm ha hl => ⟨_, exec_fld hp hm ha hl, ?_⟩, fun hp hm hg hq => ⟨_, exec_fst hp hm hg hq, ?_⟩⟩,
    fun f s hp hf hu => ?_, fun f s => ⟨fun h hk => ?_, fun h hk hq => ?_⟩, fun s q acq st form => ?_,
    fun s l q bytes sh t f g units guard po hq hf => ?_⟩
  · obtain ⟨p, h, i, hc⟩ := s.sendLoad_core (if f.d = 0 then none else some (.x (s.px f.d))) f.ord
      (stretches s.core.table 300 (addrOf s f.a f.off.toInt) (widthBytes f.w)) (.scalar f.u) (s.px f.d)
    refine ⟨⟨_, by rw [hc], rfl, rfl, rfl, rfl, rfl, rfl, s.useErrinj_inject, fun hd => ?_⟩, fun h2 h3 => State.sendLoad_iss _ _ _ _ _ h2 h3,
      ?_, ?_, ?_, ?_⟩
    · rw [if_neg hd]
      exact s.sendLoad_waits _ _ _ _ _
    · exact s.sendLoad_mem _ _ _ _ _
    all_goals rw [hc]
  · have hle : (s.homesOf (stretches s.core.table 300 (addrOf s f.a f.off.toInt) (widthBytes f.w))).length ≤ widthBytes f.w :=
      (s.homesOf_length_le _).trans (stretches_sum_le _ _ _ _)
    have hd := scalarData_homes (v := s.rdX f.d) (po := s.poisonX f.d) hle
    exact ⟨⟨_, _, rfl, rfl, rfl, rfl, rfl, rfl, congrArg StoreData.cells hd, congrArg StoreData.poisoned hd⟩, rfl, rfl, rfl, rfl⟩
  · obtain ⟨hl, hs⟩ := farScalar_unmapped hp hf hu
    exact ⟨hl, fun _ => hs⟩
  · obtain ⟨v, hv⟩ := farAccess_of_chk hk
    refine ⟨fun hq hl => ⟨v, hv, ?_⟩, fun hq hl => ⟨v, hv, ?_⟩⟩
    · rw [exec_vfld h hk hl hv, if_neg (by rw [hq]; exact Bool.false_ne_true)]
    · rw [exec_vfld h hk hl hv, if_pos hq]
  · obtain ⟨v, hv⟩ := farAccess_of_chk hk
    refine ⟨_, exec_vfst h hk hq hv, ?_⟩
    dsimp only
    cases f.q <;> exact ⟨⟨v, _, _, hv, rfl, rfl, rfl, rfl, rfl, rfl⟩, rfl, rfl, rfl, rfl, rfl⟩
  · obtain ⟨p, h, hc⟩ := s.launchLoad_core acq st form 0 (some q)
    refine ⟨⟨s.newLoad acq st form 0 (some q), ?_, rfl, rfl, rfl, rfl, rfl, rfl, rfl⟩, ?_, ?_, ?_, ?_, ?_, s.streamLoad_mem q acq st form⟩
    · exact (congrArg Core.loads hc :)
    · exact (congrArg (fun c => c.gate ++ [{ bundle := c.iss.cur.bundle, slot := c.iss.cur.slot, op := .imageOf q s.core.opId }]) hc :)
    · exact (State.countImage_stream _ q).trans (congrArg (fun c => (vget c.regs.q q none).map _) hc)
    · exact (congrArg Core.inter hc :)
    · exact (congrArg (·.regs.x) hc :)
    · exact (congrArg (·.regs.v) hc :)
  · refine ⟨fun b e hg => ?_, fun hg hr => ?_⟩
    · rw [returnLoad_image hq hf]
      simp [State.bringImage, State.mapCore, hg]
    · rw [returnLoad_image hq hf]
      simp [State.bringImage, hg, hr]

end Sys2Proof.Machine
end

section
/-! A delivered result lands in the register that waits for it, on the core or in the saved context (R242, R249). -/
open Sys2Proof Sys2Proof.Machine Sys2Proof.Claims

namespace Sys2Proof.Machine

/-- From `s` to `t` nothing that waits for a result changes: the core's interlocks, and what the saved contexts wait for. -/
structure State.WaitsAlike (s t : State) : Prop where
  inter : t.core.inter = s.core.inter
  strands : ∀ (k : Nat) (u : Strand), s.dev.strands[k]? = some u → ∃ v, t.dev.strands[k]? = some v ∧ v.pending = u.pending

theorem State.WaitsAlike.trans {s t u : State} (h : s.WaitsAlike t) (k : t.WaitsAlike u) : s.WaitsAlike u where
  inter := k.inter.trans h.inter
  strands n a ha := by
    obtain ⟨b, hb, hp⟩ := h.strands n a ha
    obtain ⟨c, hc, hq⟩ := k.strands n b hb
    exact ⟨c, hc, hq.trans hp⟩

theorem State.WaitsAlike.of_eq {s t : State} (hi : t.core.inter = s.core.inter) (hs : t.dev.strands = s.dev.strands) : s.WaitsAlike t :=
  ⟨hi, fun _ u hu => ⟨u, by rw [hs, hu], rfl⟩⟩

/-- What waited before a change that waits do not see still waits after it. -/
theorem lands_of_waitsAlike {s t u : State} {id : Nat} {r : RegName} {d : Dest} (h : Lands t u id r d) (hw : s.WaitsAlike t) :
    Lands s u id r d := by
  obtain ⟨hc, hs⟩ := h
  rw [hw.inter] at hc hs
  refine ⟨hc, fun hn k a ha hp => ?_⟩
  obtain ⟨b, hb, hq⟩ := hw.strands k a ha
  exact hs hn k b hb (by rw [hq]; exact hp)

/-- A result that has landed stays: no interlock is new, no result in flight is lost, and the contexts keep it. -/
theorem lands_mono {s t u : State} {id : Nat} {r : RegName} {d : Dest} (h : Lands s t id r d)
    (hi : ∀ j ∈ u.core.inter, j ∈ t.core.inter) (hp : ∀ w ∈ t.core.iss.pend, w ∈ u.core.iss.pend)
    (hs : ∀ (k : Nat) (w : Strand) (g : Regs), t.dev.strands[k]? = some w → w.regs = d.apply g →
      ∃ v g', u.dev.strands[k]? = some v ∧ v.regs = d.apply g' ∧ ∀ j ∈ v.pending, j ∈ w.pending) : Lands s u id r d := by
  obtain ⟨hc, hst⟩ := h
  refine ⟨fun i hf hl => ?_, fun hn k a ha ho => ?_⟩
  · obtain ⟨hj, w, hw, hd⟩ := hc i hf hl
    exact ⟨fun j hm => hj j (hi j hm), w, hp w hw, hd⟩
  · obtain ⟨w, g, hw, hg, hq⟩ := hst hn k a ha ho
    obtain ⟨v, g', hv, hg', hm⟩ := hs k w g hw hg
    exact ⟨v, g', hv, hg', fun j hj => hq j (hm j hj)⟩

/-! ### The delivery -/

theorem pendInsert_mem {x w : PWrite} {l : List PWrite} (h : x ∈ l) : x ∈ pendInsert w l := (mem_pendInsert l).2 (.inr h)

theorem pendInsert_self (w : PWrite) (l : List PWrite) : w ∈ pendInsert w l := (mem_pendInsert l).2 (.inl rfl)

section
variable (s : State) (id : Nat) (r : RegName) (d : Dest)

/-- A delivery on the core. -/
theorem State.deliver_core {i : Inter} (h : s.core.inter.find? (fun i => i.id == id && i.reg == r) = some i) :
    s.deliver id r d = s.mapCore (fun c => { (c.writeBack i d) with inter := c.inter.filter (fun j => !(j.id == id && j.reg == r)) }) := by
  rw [State.deliver, h]

/-- The saved context of a strand after a delivery to it. -/
def Strand.took (t : Strand) (id : Nat) (r : RegName) (d : Dest) : Strand :=
  if t.pending.any (fun i => i.id == id && i.reg == r) then
    { t with regs := d.apply t.regs, pending := t.pending.filter (fun j => !(j.id == id && j.reg == r)),
             pendMask := match r with
               | .x n => t.pendMask &&& ~~~(BitVec.ofNat 64 (2 ^ n))
               | _ => t.pendMask }
  else t

variable {id r} in
theorem Strand.took_waiting {t : Strand} (h : t.pending.any (fun i => i.id == id && i.reg == r) = true) :
    (t.took id r d).regs = d.apply t.regs ∧ (t.took id r d).pending = t.pending.filter (fun j => !(j.id == id && j.reg == r)) := by
  unfold Strand.took
  rw [if_pos h]
  exact ⟨rfl, rfl⟩

variable {id r} in
theorem Strand.took_other {t : Strand} (h : ¬ t.pending.any (fun i => i.id == id && i.reg == r) = true) : t.took id r d = t := if_neg h

/-- A delivery to a strand that has left the core. -/
theorem State.deliver_saved (h : s.core.inter.find? (fun i => i.id == id && i.reg == r) = none) :
    s.deliver id r d = s.mapDev (fun v => { v with strands := v.strands.map (·.took id r d) }) := by
  rw [State.deliver, h]
  rfl

theorem State.deliver_strands {k : Nat} {u : Strand} (hu : s.dev.strands[k]? = some u) :
    (s.deliver id r d).dev.strands[k]? = some u ∨ (s.deliver id r d).dev.strands[k]? = some (u.took id r d) := by
  cases hf : s.core.inter.find? (fun i => i.id == id && i.reg == r) with
  | some i => rw [State.deliver_core s id r d hf]; exact .inl hu
  | none =>
    rw [State.deliver_saved s id r d hf]
    refine .inr ?_
    show (s.dev.strands.map _)[k]? = _
    rw [List.getElem?_map, hu]
    rfl

/-- A delivery removes interlocks and adds results in flight. -/
theorem State.deliver_keeps : (∀ j ∈ (s.deliver id r d).core.inter, j ∈ s.core.inter) ∧
    (∀ w ∈ s.core.iss.pend, w ∈ (s.deliver id r d).core.iss.pend) := by
  cases hf : s.core.inter.find? (fun i => i.id == id && i.reg == r) with
  | none => rw [State.deliver_saved s id r d hf]; exact ⟨fun _ h => h, fun _ h => h⟩
  | some i =>
    rw [State.deliver_core s id r d hf]
    refine ⟨fun j hj => (List.mem_filter.1 hj).1, fun w hw => ?_⟩
    simp only [State.mapCore, Core.writeBack]
    split
    · exact hw
    · exact pendInsert_mem hw

/-- What a delivery leaves of the core. -/
theorem State.deliver_core_frame : (s.deliver id r d).core.regs = s.core.regs ∧ (s.deliver id r d).core.fars = s.core.fars ∧
    (s.deliver id r d).core.loads = s.core.loads ∧ (s.deliver id r d).core.running = s.core.running := by
  cases hf : s.core.inter.find? (fun i => i.id == id && i.reg == r) with
  | none => rw [State.deliver_saved s id r d hf]; exact ⟨rfl, rfl, rfl, rfl⟩
  | some i => rw [State.deliver_core s id r d hf]; exact ⟨rfl, rfl, rfl, rfl⟩

/-- The register that waits takes the result. -/
theorem State.deliver_lands : Lands s (s.deliver id r d) id r d := by
  refine ⟨fun i hf hl => ?_, fun hf k u hu ⟨i, hi, hid, hr⟩ => ?_⟩
  · rw [State.deliver_core s id r d hf]
    refine ⟨fun j hj hjr => ?_, ⟨{ dest := d, due := 0, bundle := i.bundle, slot := i.slot, slip := false }, ?_, rfl, rfl, rfl, rfl⟩⟩
    · have := (List.mem_filter.1 hj).2
      simp [hjr] at this
    · have hsup : superseded i i.later s.core.iss.pend s.core.inter = false := by rw [hl]; rfl
      simp only [State.mapCore, Core.writeBack, hsup]
      exact pendInsert_self _ _
  · have hany : u.pending.any (fun i => i.id == id && i.reg == r) = true := List.any_eq_true.2 ⟨i, hi, by simp [hid, hr]⟩
    rw [State.deliver_saved s id r d hf]
    refine ⟨u.took id r d, u.regs, ?_, ?_, fun j hj hjr => ?_⟩
    · show (s.dev.strands.map _)[k]? = _
      rw [List.getElem?_map, hu]
      rfl
    · exact (Strand.took_waiting d hany).1
    · rw [(Strand.took_waiting d hany).2] at hj
      have := (List.mem_filter.1 hj).2
      simp [hjr] at this

end

/-- A delivery keeps what another register has taken, where the two results commute. -/
theorem lands_deliver {s t : State} {id : Nat} {r : RegName} {d : Dest} (h : Lands s t id r d) (id' : Nat) (r' : RegName) (d' : Dest)
    (hd : ∀ g, d'.apply (d.apply g) = d.apply (d'.apply g)) : Lands s (t.deliver id' r' d') id r d := by
  obtain ⟨hi, hp⟩ := t.deliver_keeps id' r' d'
  refine lands_mono h hi hp fun k w g hw hg => ?_
  rcases t.deliver_strands id' r' d' hw with h | h
  · exact ⟨w, g, h, hg, fun _ hj => hj⟩
  · by_cases ha : w.pending.any (fun i => i.id == id' && i.reg == r') = true
    · obtain ⟨hregs, hpend⟩ := Strand.took_waiting d' ha
      refine ⟨_, d'.apply g, h, by rw [hregs, hg, hd], fun j hj => ?_⟩
      rw [hpend] at hj
      exact (List.mem_filter.1 hj).1
    · rw [Strand.took_other d' ha] at h
      exact ⟨w, g, h, hg, fun _ hj => hj⟩

/-- A delivery to one register is not seen by what another waits for. -/
theorem lands_after_deliver {s u : State} {id : Nat} {r : RegName} {d : Dest} {r' : RegName} {d' : Dest} (hne : r' ≠ r)
    (h : Lands (s.deliver id r' d') u id r d) : Lands s u id r d := by
  have hkeep : ∀ l : List Inter, (l.filter (fun j => !(j.id == id && j.reg == r'))).find? (fun i => i.id == id && i.reg == r) =
      l.find? (fun i => i.id == id && i.reg == r) := fun l => by
    rw [List.find?_filter]
    congr 1
    funext j
    have hr : (j.reg == r) = true → (j.reg == r') = false := fun h => by simpa [eq_of_beq h] using hne.symm
    cases hj : j.reg == r with
    | false => simp
    | true => simp [hr hj, beq_eq_decide]
  have hinter : (s.deliver id r' d').core.inter.find? (fun i => i.id == id && i.reg == r) =
      s.core.inter.find? (fun i => i.id == id && i.reg == r) := by
    cases hf : s.core.inter.find? (fun i => i.id == id && i.reg == r') with
    | none => rw [State.deliver_saved s id r' d' hf]; rfl
    | some i => rw [State.deliver_core s id r' d' hf]; exact hkeep _
  obtain ⟨hc, hs⟩ := h
  rw [hinter] at hs
  refine ⟨fun i hi => hc i (hinter.trans hi), fun hn k a ha ⟨j, hj, hid, hjr⟩ => ?_⟩
  rcases s.deliver_strands id r' d' ha with h | h
  · exact hs hn k a h ⟨j, hj, hid, hjr⟩
  · refine hs hn k _ h ⟨j, ?_, hid, hjr⟩
    by_cases hany : a.pending.any (fun i => i.id == id && i.reg == r') = true
    · rw [(Strand.took_waiting d' hany).2]
      exact List.mem_filter.2 ⟨hj, by simp [hjr, hne.symm]⟩
    · rw [Strand.took_other d' hany]
      exact hj

/-! ### A token -/

theorem State.deliverTok_lands (s : State) (tok id : Nat) (v : X64) : TokenLands s (s.deliverTok tok id v false) tok id v := fun ht => by
  rw [State.deliverTok, if_neg ht]
  exact s.deliver_lands id _ _

theorem tokenLands_of_waitsAlike {s t u : State} {tok id : Nat} {v : X64} (h : TokenLands t u tok id v) (hw : s.WaitsAlike t) :
    TokenLands s u tok id v := fun ht => lands_of_waitsAlike (h ht) hw

end Sys2Proof.Machine
end

section
/-! The bytes that an atomic leaves at its home, read back as numbers (R297 to R302). -/
open Sys2Proof Sys2Proof.Machine Sys2Proof.Claims

namespace Sys2Proof.Machine

theorem Memory.num_eq_numAt (m : Memory) (a n : Nat) : m.num a n = numAt m (fun i => a + i) n :=
  natOfBytes_map_range n fun i => m.byte (a + i)

/-- The number whose bytes lie in a range. -/
theorem Memory.num_of_bytes {m : Memory} {a n v : Nat} (h : ∀ i, i < n → m.byte (a + i) = BitVec.ofNat 8 (v / 256 ^ i)) :
    m.num a n = v % 2 ^ (8 * n) := by
  have hb : (List.range n).map (fun i => (m.byte (a + i)).toNat * 256 ^ i) = (List.range n).map (fun i => v / 256 ^ i % 256 * 256 ^ i) :=
    List.map_congr_left fun i hi => by rw [h i (List.mem_range.1 hi), BitVec.toNat_ofNat]
  rw [Memory.num_eq_numAt, numAt, hb, sum_digits, Nat.pow_mul]

/-- A store of a range of bytes at `a`, poisoned or not, outside host memory. -/
theorem Memory.byte_store_at {m : Memory} (hw : m.wf = true) {a n : Nat} (hh : ∀ i, i < n → homeOf (physOf (a + i)) ≠ .host)
    (v : Nat → Byte) (pois : List Nat) (c : Nat) :
    (m.store (cellsAt a ((List.range n).map v)) pois).byte c = if a ≤ c ∧ c < a + n then v (c - a) else m.byte c := by
  rw [cellsAt_map_range, Memory.byte_store_inside]
  · exact Memory.byte_store_range hw a v n c
  · intro q hq
    obtain ⟨i, hi, rfl⟩ := List.mem_map.1 hq
    exact hh i (List.mem_range.1 hi)

theorem State.putWord_mem (s : State) (a n v : Nat) (po : Bool) :
    ∃ pois, (s.putWord a n v po).mem = s.mem.store (cellsAt a ((List.range n).map (fun i => BitVec.ofNat 8 (v / 256 ^ i)))) pois :=
  ⟨_, by rw [State.putWord, State.bump_mem, State.engineStore_mem, bytesOfNat_eq_map]⟩

/-- A word put at its home, outside host memory, is read there, and no other byte changes. -/
theorem State.putWord_stored {s : State} (hw : s.mem.wf = true) {a n : Nat} (v : Nat) (po : Bool)
    (hh : ∀ i, i < n → homeOf (physOf (a + i)) ≠ .host) :
    (s.putWord a n v po).mem.num a n = v % 2 ^ (8 * n) ∧ OnlyAt s.mem (s.putWord a n v po).mem (fun i => a + i) n := by
  obtain ⟨pois, hm⟩ := s.putWord_mem a n v po
  rw [hm]
  refine ⟨Memory.num_of_bytes fun i hi => ?_, fun c hc => ?_⟩
  · rw [Memory.byte_store_at hw hh, if_pos (by omega), Nat.add_sub_cancel_left]
  · rw [Memory.byte_store_at hw hh, if_neg]
    rintro ⟨hl, hu⟩
    exact hc (c - a) (by omega) (by dsimp only; omega)

/-- Byte `i` of little-endian words of 4 bytes. -/
def halfByte (ws : List Nat) (i : Nat) : Byte := BitVec.ofNat 8 (ws.getD (i / 4) 0 / 256 ^ (i % 4))

theorem halfBytes_eq_map (ws : List Nat) : (ws.map (bytesOfNat 4)).flatten = (List.range (4 * ws.length)).map (halfByte ws) := by
  have hw : ws.map (bytesOfNat 4) =
      (List.range ws.length).map (fun h => (List.range 4).map (fun j => BitVec.ofNat 8 (ws.getD h 0 / 256 ^ j))) := by
    conv_lhs => rw [eq_map_range_getD ws]
    rw [List.map_map]
    exact List.map_congr_left fun h _ => bytesOfNat_eq_map 4 _
  rw [hw, flatten_map_range (by omega)]
  rfl

theorem bfpWords_length (b : Bfp) : (bfpWords b).length = 64 := by simp [bfpWords]

/-- A block added at its home: its 64 words are read there, and no byte beyond its 256 changes. -/
theorem State.bfpAddAt_stored {s : State} (hw : s.mem.wf = true) (a : Nat) (lanes : VBits) (po : Bool) :
    let blk := bfpAdd (bfpOfWords ((List.range 64).map (fun i => s.mem.num (a + 4 * i) 4))) ((lanesOf 32 64 lanes.toNat).map (decodeFloat .fp32)) po
    (∀ i, i < 64 → (s.bfpAddAt a lanes po).mem.num (a + 4 * i) 4 = (bfpWords blk).getD i 0 % 2 ^ 32) ∧
      OnlyAt s.mem (s.bfpAddAt a lanes po).mem (fun i => a + i) 256 := by
  intro blk
  have hb : ∀ c, (s.bfpAddAt a lanes po).mem.byte c =
      if a ≤ c ∧ c < a + 256 then halfByte (bfpWords blk) (c - a) else s.mem.byte c := fun c => by
    have hm : (s.bfpAddAt a lanes po).mem = s.mem.store (cellsAt a ((List.range 256).map (halfByte (bfpWords blk)))) [] := by
      rw [State.bfpAddAt, State.engineStore_mem, halfBytes_eq_map, bfpWords_length]
    rw [hm, cellsAt_map_range]
    exact Memory.byte_store_range hw a _ 256 c
  refine ⟨fun i hi => Memory.num_of_bytes (n := 4) fun j hj => ?_, fun c hc => ?_⟩
  · rw [hb, if_pos (by omega), halfByte, show (a + 4 * i + j - a) / 4 = i by omega, show (a + 4 * i + j - a) % 4 = j by omega]
  · rw [hb, if_neg]
    rintro ⟨hl, hu⟩
    exact hc (c - a) (by omega) (by dsimp only; omega)

end Sys2Proof.Machine
end

section
/-! An atomic performed at its home: its result, its queue entry, its token and its registers (R297 to R302, R217). -/
open Sys2Proof Sys2Proof.Machine Sys2Proof.Claims

namespace Sys2Proof.Machine

/-! ### What the parts of an atomic leave unchanged -/

theorem State.StoresTo.waitsAlike {s t : State} (h : s.StoresTo t) : s.WaitsAlike t :=
  .of_eq (congrArg Core.inter h.core :) h.strands

theorem State.putWord_stores (s : State) (a n v : Nat) (po : Bool) : s.StoresTo (s.putWord a n v po) :=
  (s.storeAt_stores _ _).trans ⟨rfl, rfl⟩

theorem State.bfpAddAt_stores (s : State) (a : Nat) (lanes : VBits) (po : Bool) : s.StoresTo (s.bfpAddAt a lanes po) :=
  s.storeAt_stores _ _

section
variable (s : State) (k id : Nat) (v : X64 × Bool)

/-- The return queue that AMO fills is the running strand's, or that of a strand that has left the core. -/
theorem State.fillQueue_running (h : s.core.running = some k) : (s.fillQueue k id v).core.regs.arq =
    s.core.regs.arq.map (fun e => if e.id = id then { e with value := some v } else e) := by
  rw [State.fillQueue, if_pos h]
  exact List.map_congr_left fun e _ => by simp

theorem State.fillQueue_strands (h : s.core.running ≠ some k) (n : Nat) : (s.fillQueue k id v).dev.strands[n]? =
    (s.dev.strands[n]?).map (fun t => if n = k then { t with regs := fillArq id v t.regs } else t) := by
  rw [State.fillQueue, if_neg h]
  show (s.dev.strands.zipIdx.map _)[n]? = _
  rw [List.getElem?_map, List.getElem?_zipIdx]
  cases s.dev.strands[n]? with
  | none => rfl
  | some t => simp

theorem State.fillQueue_core : (s.fillQueue k id v).core.fars = s.core.fars ∧ (s.fillQueue k id v).core.inter = s.core.inter := by
  unfold State.fillQueue
  split
  · exact ⟨rfl, rfl⟩
  · exact ⟨rfl, rfl⟩

theorem State.fillQueue_waitsAlike : s.WaitsAlike (s.fillQueue k id v) := by
  refine ⟨(s.fillQueue_core k id v).2, fun n u hu => ?_⟩
  by_cases h : s.core.running = some k
  · rw [State.fillQueue, if_pos h]
    exact ⟨u, hu, rfl⟩
  · refine ⟨_, by rw [s.fillQueue_strands k id v h, hu]; rfl, ?_⟩
    split
    · rfl
    · rfl

end

theorem Strand.took_x_arq (t : Strand) (tok id : Nat) (v : X64) : (t.took id (.x tok) (.x tok v false)).regs.arq = t.regs.arq := by
  by_cases h : t.pending.any (fun i => i.id == id && i.reg == .x tok) = true
  · rw [(Strand.took_waiting _ h).1, Dest.apply]
    split
    · rfl
    · rfl
  · rw [Strand.took_other _ h]

section
variable (s : State) (tok id : Nat) (v : X64)

/-- A token changes no register but its own, on the core and in a saved context. -/
theorem State.deliverTok_frame : (s.deliverTok tok id v false).mem = s.mem ∧ (s.deliverTok tok id v false).core.fars = s.core.fars ∧
    (s.deliverTok tok id v false).core.regs = s.core.regs := by
  unfold State.deliverTok
  split
  · exact ⟨rfl, rfl, rfl⟩
  · obtain ⟨hr, hf, -, -⟩ := s.deliver_core_frame id (.x tok) (.x tok v false)
    exact ⟨(s.deliver_frame _ _ _).1, hf, hr⟩

theorem State.deliverTok_arq (k : Nat) : ((s.deliverTok tok id v false).dev.strands[k]?).map (fun q => q.regs.arq) =
    (s.dev.strands[k]?).map (fun q => q.regs.arq) := by
  unfold State.deliverTok
  split
  · rfl
  · cases hf : s.core.inter.find? (fun i => i.id == id && i.reg == .x tok) with
    | some i => rw [State.deliver_core s id _ _ hf]; rfl
    | none =>
      rw [State.deliver_saved s id _ _ hf]
      show ((s.dev.strands.map _)[k]?).map _ = _
      rw [List.getElem?_map, Option.map_map]
      exact congrArg (fun g => (s.dev.strands[k]?).map g) (funext fun t => t.took_x_arq tok id v)

end

/-! ### AMO, RED and CASN (R297 to R302, R217) -/

theorem Dev.countErr_count (d : Dev) {e : Nat} (h : e < 6) :
    (vget (d.countErr e).errors e 0).toNat = min ((vget d.errors e 0).toNat + 1) (2 ^ 64 - 1) := by
  rw [Dev.countErr, vget_vset_same _ _ _ _ h]
  have hlt := (vget d.errors e 0).isLt
  dsimp only
  split
  · next hv => rw [hv]; decide
  · next hv =>
    have hne : (vget d.errors e 0).toNat ≠ 2 ^ 64 - 1 := fun hn => hv (BitVec.eq_of_toNat_eq (by rw [hn]; decide))
    rw [BitVec.toNat_add, show (1 : X64).toNat = 1 from rfl, Nat.mod_eq_of_lt (by omega), Nat.min_eq_left (by omega)]

/-- The end of a CASN: the name that it found goes to N[B], and the token to its register. -/
def State.casnDone (t : State) (f : FarOp) (nb st : Nat) (v : ClaimName) : State :=
  (t.deliver f.id (.n nb) (.name nb v)).deliverTok f.tok f.id (token st 0) false

theorem State.casnDone_frame (t : State) (f : FarOp) (nb st : Nat) (v : ClaimName) :
    (t.casnDone f nb st v).mem = t.mem ∧ (t.casnDone f nb st v).core.fars = t.core.fars := by
  obtain ⟨hm, hf, -⟩ := (t.deliver f.id (.n nb) (.name nb v)).deliverTok_frame f.tok f.id (token st 0)
  exact ⟨hm.trans (t.deliver_frame _ _ _).1, hf.trans (t.deliver_core_frame _ _ _).2.1⟩

theorem casnDone_lands {s t : State} (h : s.WaitsAlike t) (f : FarOp) (nb st : Nat) (v : ClaimName) :
    TokenLands s (t.casnDone f nb st v) f.tok f.id (token st 0) ∧ Lands s (t.casnDone f nb st v) f.id (.n nb) (.name nb v) := by
  constructor
  · refine tokenLands_of_waitsAlike (fun ht => ?_) h
    exact lands_after_deliver (r' := .n nb) (d' := .name nb v) (by simp) (State.deliverTok_lands _ _ _ _ ht)
  · refine lands_of_waitsAlike ?_ h
    have hl := t.deliver_lands f.id (.n nb) (.name nb v)
    rw [State.casnDone, State.deliverTok]
    split
    · exact hl
    · refine lands_deliver hl _ _ _ fun g => ?_
      simp only [Dest.apply]
      split
      · rfl
      · rfl

/-- The end of an AMO: the old value goes to its entry of the return queue, and the token to its register. -/
def State.amoDone (t : State) (f : FarOp) (v : X64 × Bool) (tok : X64) : State :=
  (t.fillQueue f.strand f.id v).deliverTok f.tok f.id tok false

section
variable {s t : State} (f : FarOp) (v : X64 × Bool) (tok : X64)

theorem State.amoDone_frame : (t.amoDone f v tok).mem = t.mem ∧ (t.amoDone f v tok).core.fars = t.core.fars := by
  obtain ⟨hm, hf, -⟩ := (t.fillQueue f.strand f.id v).deliverTok_frame f.tok f.id tok
  exact ⟨hm.trans (t.fillQueue_mem _ _ _), hf.trans (t.fillQueue_core _ _ _).1⟩

theorem amoDone_lands (h : s.WaitsAlike t) : TokenLands s (t.amoDone f v tok) f.tok f.id tok :=
  tokenLands_of_waitsAlike (State.deliverTok_lands _ _ _ _) (h.trans (t.fillQueue_waitsAlike _ _ _))

theorem amoDone_running (h : t.core.running = some f.strand) : (t.amoDone f v tok).core.regs.arq =
    t.core.regs.arq.map (fun e => if e.id = f.id then { e with value := some v } else e) := by
  obtain ⟨-, -, hr⟩ := (t.fillQueue f.strand f.id v).deliverTok_frame f.tok f.id tok
  rw [State.amoDone, hr, t.fillQueue_running _ _ _ h]

theorem amoDone_saved (h : t.core.running ≠ some f.strand) : ((t.amoDone f v tok).dev.strands[f.strand]?).map (fun q => q.regs.arq) =
    (t.dev.strands[f.strand]?).map (fun q => q.regs.arq.map (fun e => if e.id = f.id then { e with value := some v } else e)) := by
  rw [State.amoDone, State.deliverTok_arq, t.fillQueue_strands _ _ _ h, Option.map_map]
  refine congrArg (fun g => (t.dev.strands[f.strand]?).map g) (funext fun q => ?_)
  simp [fillArq]

end

/-! ### The operations by their cases -/

section
variable {s : State} {f : FarOp} {p : Part} {ps : List Part} (hp : f.parts = p :: ps)
include hp

theorem performAtom_amo (o : AmoOp) (b c : X64) (po : Bool) :
    s.performAtom f (.amo o b c po) =
      (if !s.lostNow p && !s.poisonedAt (s.route p.addr) f.bytes then s.putWord (s.route p.addr) f.bytes
          (amoApply o (8 * f.bytes) (s.mem.num (s.route p.addr) f.bytes) b.toNat c.toNat).1 po else s).amoDone f
        (if s.lostNow p then (0, false) else if s.poisonedAt (s.route p.addr) f.bytes then (0, true)
          else (BitVec.ofNat 64 (s.mem.num (s.route p.addr) f.bytes), false))
        (token (if s.lostNow p then 1 else if s.poisonedAt (s.route p.addr) f.bytes then 3
          else (amoApply o (8 * f.bytes) (s.mem.num (s.route p.addr) f.bytes) b.toNat c.toNat).2) 0) := by
  simp only [State.performAtom, hp, List.headD_cons]
  rfl

theorem performAtom_red (o : RedOp) (b : X64) (po : Bool) :
    s.performAtom f (.red o b po) = if s.lostNow p || s.poisonedAt (s.route p.addr) f.bytes then s.mapDev (fun d => d.countErr 3)
      else s.putWord (s.route p.addr) f.bytes (redApply o (8 * f.bytes) (s.mem.num (s.route p.addr) f.bytes) b.toNat) po := by
  simp only [State.performAtom, hp, List.headD_cons]

theorem performAtom_bfp (lanes : VBits) (po : Bool) :
    s.performAtom f (.bfp lanes po) = if s.lostNow p || s.poisonedAt (s.route p.addr) f.bytes then s.mapDev (fun d => d.countErr 3)
      else s.bfpAddAt (s.route p.addr) lanes po := by
  simp only [State.performAtom, hp, List.headD_cons]

/-- The state in which a CASN that asks for a live name has looked at its entry. -/
def State.looked (s : State) (live : Bool) (new : ClaimName) : State := if live then (s.noteQueried new).bump else s

theorem performAtom_casn (ex new : ClaimName) (live : Bool) (nb : Nat) (bVal : ClaimName) :
    s.performAtom f (.casn ex new live nb bVal) =
      let was : ClaimName := if s.poisonedAt (s.route p.addr) f.bytes then 0 else BitVec.ofNat 128 (s.mem.num (s.route p.addr) f.bytes)
      if s.lostNow p then s.casnDone f nb 1 bVal
      else if live && !s.pins (s.tenantOf f.strand) new then (s.looked live new).casnDone f nb 1 was
      else if was = ex then ((s.looked live new).putWord (s.route p.addr) 16 new.toNat false).casnDone f nb 0 was
      else (s.looked live new).casnDone f nb 11 was := by
  simp only [State.performAtom, hp, List.headD_cons]
  rfl

end

theorem State.looked_waitsAlike (s : State) (live : Bool) (new : ClaimName) : s.WaitsAlike (s.looked live new) := by
  unfold State.looked
  split
  · refine .of_eq (congrArg Core.inter (s.noteQueried_core new)) ?_
    rw [State.bump_dev, State.noteQueried]
    split
    · rfl
    · rfl
  · exact .of_eq rfl rfl

theorem State.looked_frame (s : State) (live : Bool) (new : ClaimName) :
    (s.looked live new).mem = s.mem ∧ (s.looked live new).core.fars = s.core.fars := by
  unfold State.looked
  split
  · exact ⟨s.noteQueried_mem new, congrArg Core.fars (s.noteQueried_core new)⟩
  · exact ⟨rfl, rfl⟩

end Sys2Proof.Machine
end

section
/-! Far loads, far stores and streams performed, and the accesses of other devices (R242, R249 to R254, R292, R293, R386, R387). -/
open Sys2Proof Sys2Proof.Machine Sys2Proof.Claims

namespace Sys2Proof.Machine

/-! ### What an access sees of a state whose counters and lists alone have changed -/

section
variable {s t : State} (h : t.dev = s.dev)
include h

theorem State.lostNow_congr (p : Part) : t.lostNow p = s.lostNow p := by rw [State.lostNow, State.lostNow, h]

theorem State.route_congr (a : Nat) : t.route a = s.route a := by rw [State.route, State.route, h]

end

theorem State.poisonedAt_congr {s t : State} (h : t.mem = s.mem) (a n : Nat) : t.poisonedAt a n = s.poisonedAt a n := by
  rw [State.poisonedAt, State.poisonedAt, h]

/-- The state in which an access is performed: its operation is off the list, and its bytes are charged. -/
def State.taken (s : State) (f : FarOp) : State := (s.dropFar f).chargeParts f.strand f.parts

theorem State.taken_frame (s : State) (f : FarOp) : (s.taken f).mem = s.mem ∧ (s.taken f).dev = s.dev ∧
    (s.taken f).core.fars = s.core.fars.erase f ∧ (s.taken f).core.inter = s.core.inter ∧
    (s.taken f).core.running = s.core.running ∧ (s.taken f).core.regs = s.core.regs := by
  obtain ⟨m, h⟩ := (s.dropFar f).chargeBytes_meter f.strand (f.parts.map (fun p => (p.addr, p.len)))
  rw [State.taken, State.chargeParts, h]
  exact ⟨rfl, rfl, rfl, rfl, rfl, rfl⟩

theorem State.taken_waitsAlike (s : State) (f : FarOp) : s.WaitsAlike (s.taken f) := by
  obtain ⟨-, hd, -, hi, -, -⟩ := s.taken_frame f
  exact .of_eq hi (congrArg Dev.strands hd)

theorem exec_atomicPerformed {s : State} {k : Nat} {f : FarOp} {op : AtomOp} (hf : s.core.fars[k]? = some f) (ha : f.atom = some op)
    (hr : s.farReady f = true) : exec (.atomicPerformed k) s = .next ((s.taken f).performAtom f op) := by
  show execAtomicPerformed k s = _
  rw [execAtomicPerformed, hf]
  dsimp only
  rw [ha]
  exact if_pos hr

/-! ### A far load (R242, R251) -/

/-- The load with one more part performed. -/
def FarLoad.withPart (q : FarLoad × Nat) (s : State) : FarLoad :=
  { q.1 with got := q.1.got ++ [(q.2, s.readParts (s.viewAt q.1.bundle) (q.1.part q.2))] }

/-- A poisoned load is counted by a result in flight, or in the saved registers of its strand. -/
theorem State.countLoad_core (s : State) (l : FarLoad) : (s.countLoad l).core.inter = s.core.inter ∧
    (s.countLoad l).core.loads = s.core.loads ∧ (∀ w ∈ s.core.iss.pend, w ∈ (s.countLoad l).core.iss.pend) := by
  by_cases h : s.core.running = some l.strand
  · rw [State.countLoad, if_pos h]
    exact ⟨rfl, rfl, fun _ hw => pendInsert_mem hw⟩
  · rw [State.countLoad, if_neg h, State.sysOf, if_neg h]
    exact ⟨rfl, rfl, fun _ hw => hw⟩

theorem State.countLoad_strands {s : State} {k : Nat} {w : Strand} (hw : s.dev.strands[k]? = some w) (l : FarLoad) :
    ∃ y, (s.countLoad l).dev.strands[k]? = some { w with regs := { w.regs with sys := y } } := by
  by_cases h : s.core.running = some l.strand
  · rw [State.countLoad, if_pos h]
    exact ⟨w.regs.sys, hw⟩
  · rw [State.countLoad, if_neg h, State.sysOf, if_neg h]
    show ∃ y, (s.dev.strands.zipIdx.map _)[k]? = _
    rw [List.getElem?_map, List.getElem?_zipIdx, hw]
    by_cases hk : k = l.strand
    · exact ⟨w.regs.sys.countLoaded, by simp [hk]⟩
    · exact ⟨w.regs.sys, by simp [hk]⟩

/-- A result of a load, which sets a data register, commutes with a write of the system registers. -/
theorem FarLoad.result_apply_sys (l : FarLoad) (bytes : List (Byte × Bool)) (g : Regs) (y : SysRegs) :
    { (l.result bytes).2.1.apply g with sys := y } = (l.result bytes).2.1.apply { g with sys := y } := by
  unfold FarLoad.result
  cases l.form with
  | scalar u =>
    simp only [Dest.apply]
    split
    · rfl
    · rfl
  | vector => rfl

/-- A load that is counted keeps what it has delivered. -/
theorem lands_countLoad {s t : State} {id : Nat} {r : RegName} {l : FarLoad} {bytes : List (Byte × Bool)}
    (h : Lands s t id r (l.result bytes).2.1) : Lands s (t.countLoad l) id r (l.result bytes).2.1 := by
  obtain ⟨hi, -, hp⟩ := t.countLoad_core l
  refine lands_mono h (fun j hj => by rwa [hi] at hj) hp fun k w g hw hg => ?_
  obtain ⟨y, hy⟩ := State.countLoad_strands hw l
  exact ⟨_, { g with sys := y }, hy, by rw [← FarLoad.result_apply_sys, hg], fun _ hj => hj⟩

/-- The bytes of a load, part by part. -/
def FarLoad.gathered (l : FarLoad) : List (Byte × Bool) :=
  ((List.range l.got.length).map (fun i => ((l.got.find? (fun g => g.1 == i)).map (·.2)).getD [])).flatten

/-- A part that is not the last one only joins its load. -/
theorem State.performLoad_part {s : State} {q : FarLoad × Nat} (h : (FarLoad.withPart q s).left ≠ []) :
    s.performLoad q = (s.chargeParts q.1.strand (q.1.part q.2)).mapCore (fun c =>
      { c with loads := c.loads.map (fun o => if o.id == (FarLoad.withPart q s).id then FarLoad.withPart q s else o) }) := by
  have he : ¬ (FarLoad.withPart q s).left.isEmpty = true := by simpa using h
  exact if_neg he

/-- The last part ends its load: the result is delivered, and a poisoned one counted. -/
theorem State.performLoad_last {s : State} {q : FarLoad × Nat} (h : (FarLoad.withPart q s).left = []) :
    s.performLoad q =
      let l := FarLoad.withPart q s
      let u := ((s.chargeParts q.1.strand (q.1.part q.2)).mapCore (fun c =>
        { c with loads := c.loads.filter (fun o => o.id != l.id) })).returnLoad l (l.result l.gathered)
      if (l.result l.gathered).2.2 then u.countLoad l else u := by
  have he : (FarLoad.withPart q s).left.isEmpty = true := by simpa using h
  exact if_pos he

theorem State.returnLoad_loads (s : State) (l : FarLoad) (r : RegName × Dest × Bool) : (s.returnLoad l r).core.loads = s.core.loads := by
  unfold State.returnLoad
  split
  · unfold State.bringImage
    dsimp only
    split
    · rfl
    · split
      · rfl
      · rfl
  · exact (s.deliver_core_frame _ _ _).2.2.1

theorem State.returnLoad_deliver {s : State} {l : FarLoad} (h : l.stream = none) (r : RegName × Dest × Bool) :
    s.returnLoad l r = s.deliver l.id r.1 r.2.1 := by
  simp only [State.returnLoad, h]

theorem farLoadReturn_runs {s : State} {k : Nat} {q : FarLoad × Nat} (hq : s.core.loadParts[k]? = some q) (hr : s.loadReady q = true) :
    exec (.farLoadReturn k) s = .next (s.performLoad q) := by
  show execFarLoadReturn k s = _
  rw [execFarLoadReturn, hq]
  exact if_pos hr

theorem farLoadReturn_spec {s : State} {k : Nat} {q : FarLoad × Nat} (hq : s.core.loadParts[k]? = some q) (hr : s.loadReady q = true) :
    let l := FarLoad.withPart q s
    Runs (.farLoadReturn k) s (fun t => t.mem = s.mem ∧
      (l.left ≠ [] → t.core.loads = s.core.loads.map (fun o => if o.id = l.id then l else o) ∧ t.core.inter = s.core.inter ∧
        t.core.regs = s.core.regs) ∧
      (l.left = [] → t.core.loads = s.core.loads.filter (fun o => o.id != l.id) ∧
        (l.stream = none → Lands s t l.id (l.result l.gathered).1 (l.result l.gathered).2.1))) := by
  intro l
  obtain ⟨m, hm⟩ := s.chargeBytes_meter q.1.strand ((q.1.part q.2).map (fun p => (p.addr, p.len)))
  have hm' : s.chargeParts q.1.strand (q.1.part q.2) = s.mapCore (fun c => { c with meter := m }) := hm
  refine ⟨_, farLoadReturn_runs hq hr, s.performLoad_mem q, fun hl => ?_, fun hl => ?_⟩
  · rw [State.performLoad_part hl, hm']
    refine ⟨?_, rfl, rfl⟩
    exact List.map_congr_left fun o _ => by simp [l]
  · rw [State.performLoad_last hl, hm']
    dsimp only
    constructor
    · split
      · rw [(State.countLoad_core _ _).2.1, State.returnLoad_loads]
        rfl
      · rw [State.returnLoad_loads]
        rfl
    · intro hs
      have hw : s.WaitsAlike ((s.mapCore (fun c => { c with meter := m })).mapCore (fun c =>
          { c with loads := c.loads.filter (fun o => o.id != l.id) })) := .of_eq rfl rfl
      rw [State.returnLoad_deliver hs]
      have hd := lands_of_waitsAlike (State.deliver_lands _ l.id (l.result l.gathered).1 (l.result l.gathered).2.1) hw
      split
      · exact lands_countLoad hd
      · exact hd

/-! ### A far store (R242, R387) -/

theorem exec_farStorePerformed {s : State} {k : Nat} {f : FarOp} (hf : s.core.fars[k]? = some f) (ha : f.atom = none)
    (hr : s.farReady f = true) : exec (.farStorePerformed k) s = .next ((s.dropFar f).performFar f) := by
  show execFarStorePerformed k s = _
  rw [execFarStorePerformed, hf]
  exact if_pos (by rw [ha, hr]; rfl)

/-- The bytes that a part of a store writes: those of the pieces whose device is not lost, where they are routed. -/
theorem State.performFar_mem (s : State) (f : FarOp) :
    (s.performFar f).mem = s.mem.store
      ((f.data.cells.filter (fun c => inParts (f.parts.filter (fun p => !s.lostNow p)) c.1)).map (fun c => (s.route c.1, c.2)))
      ((f.data.poisoned.filter (inParts (f.parts.filter (fun p => !s.lostNow p)))).map s.route) := by
  have hs : ∀ cells pois, ((s.chargeParts f.strand f.parts).storeAt cells pois).mem = s.mem.store cells pois := fun cells pois => by
    rw [State.storeAt_mem, State.chargeParts_mem]
  simp only [State.performFar]
  split
  · exact hs _ _
  · split
    · rw [State.mapDev_mem, State.sysOf_mem]; exact hs _ _
    · rw [State.sysOf_mem]; exact hs _ _

/-- A performed part leaves the other operations of the list as they are, but for what the parts of its own store have come to. -/
theorem State.performFar_fars (s : State) (f : FarOp) :
    (s.performFar f).core.fars.map (fun o => (o.id, o.parts)) = s.core.fars.map (fun o => (o.id, o.parts)) := by
  obtain ⟨m, hm⟩ := s.chargeBytes_meter f.strand (f.parts.map (fun p => (p.addr, p.len)))
  have hs : ∀ cells pois, ((s.chargeParts f.strand f.parts).storeAt cells pois).core.fars = s.core.fars := fun cells pois =>
    ((congrArg Core.fars ((s.chargeParts f.strand f.parts).storeAt_stores cells pois).core :)).trans (congrArg (·.core.fars) hm)
  have hsys : ∀ (t : State) g, (t.sysOf f.strand g).core.fars = t.core.fars := fun t g => by
    unfold State.sysOf
    split
    · rfl
    · rfl
  simp only [State.performFar]
  split
  · show (((s.chargeParts f.strand f.parts).storeAt _ _).core.fars.map _).map _ = _
    rw [hs, List.map_map]
    refine List.map_congr_left fun o _ => ?_
    simp only [Function.comp]
    split
    · rfl
    · rfl
  · split
    · exact congrArg (List.map _) ((hsys _ _).trans (hs _ _))
    · exact congrArg (List.map _) ((hsys _ _).trans (hs _ _))

/-! ### Streams (R292, R293) -/

theorem streamFetch_spec {s : State} {q : BitVec 3} {t : Stream} (ht : s.rdQ q.toNat = some t) (hr : s.fetchReady q.toNat = true) :
    Runs (.streamFetch q) s (fun u => u.mem = s.mem ∧ u.core.regs = s.core.regs ∧
      (vget u.core.strm q.toNat StreamEngine.empty).moved = (vget s.core.strm q.toNat StreamEngine.empty).moved + 1 ∧
      (vget u.core.strm q.toNat StreamEngine.empty).images = (vget s.core.strm q.toNat StreamEngine.empty).images ++
        [(s.fetchImage t (vget s.core.strm q.toNat StreamEngine.empty).moved).1]) := by
  have hq : q.toNat < 8 := q.isLt
  obtain ⟨m, hm⟩ := s.chargeBytes_meter s.strandIdx (s.streamHomes t (vget s.core.strm q.toNat StreamEngine.empty).moved)
  have hn : ∃ g : StreamEngine, g.moved = (vget s.core.strm q.toNat StreamEngine.empty).moved + 1 ∧
      g.images = (vget s.core.strm q.toNat StreamEngine.empty).images ++
        [(s.fetchImage t (vget s.core.strm q.toNat StreamEngine.empty).moved).1] ∧
      exec (.streamFetch q) s = .next ((s.mapCore (fun c => { c with meter := m, strm := vset c.strm q.toNat g })).bump) := by
    refine ⟨_, ?_, ?_, by
      show execStreamFetch q s = _
      rw [execStreamFetch, ht]
      dsimp only
      rw [if_pos hr, hm]
      rfl⟩
    · rfl
    · rfl
  obtain ⟨g, hg, hi, he⟩ := hn
  refine ⟨_, he, rfl, rfl, ?_, ?_⟩
  · rw [← hg]
    exact congrArg StreamEngine.moved (vget_vset_same _ _ _ _ hq)
  · rw [← hi]
    exact congrArg StreamEngine.images (vget_vset_same _ _ _ _ hq)

/-- A stream whose image is due has one coming. -/
theorem State.coming_of_writebackReady {s : State} {q : Nat} (h : s.writebackReady q = true) :
    ∃ im rest, (vget s.core.strm q StreamEngine.empty).coming = im :: rest := by
  have hd : s.writebackDue q = true := (Bool.and_eq_true_iff.mp h).1
  unfold State.writebackDue at hd
  split at hd
  · rw [Bool.and_eq_true_iff] at hd
    cases hc : (vget s.core.strm q StreamEngine.empty).coming with
    | nil => rw [hc] at hd; exact absurd hd.2 Bool.false_ne_true
    | cons im rest => exact ⟨im, rest, rfl⟩
  · exact absurd hd Bool.false_ne_true

/-- A written image leaves the stream's list, and the next position moves on. -/
theorem State.performWriteback_step {s : State} {n : Nat} {t : Stream} {im : Nat × VBits × BitVec 64} {rest : List (Nat × VBits × BitVec 64)}
    (ht : s.rdQ n = some t) (hc : (vget s.core.strm n StreamEngine.empty).coming = im :: rest) :
    ∃ g : StreamEngine, g.moved = (vget s.core.strm n StreamEngine.empty).moved + 1 ∧ g.coming = rest ∧
      (s.performWriteback n).core.regs = s.core.regs ∧ (s.performWriteback n).core.strm = vset s.core.strm n g := by
  obtain ⟨i, im⟩ := im
  simp only [State.performWriteback, ht, hc]
  generalize hu : s.engineStore _ _ = u
  obtain ⟨m, hm⟩ := u.chargeBytes_meter u.strandIdx (u.streamHomes t (vget s.core.strm n StreamEngine.empty).moved)
  rw [hm]
  have hr : u.core.regs = s.core.regs := by rw [← hu]; exact s.engineStore_regs _ _
  have hs : u.core.strm = s.core.strm := by rw [← hu]; exact (congrArg Core.strm (s.storeAt_stores _ _).core :)
  exact ⟨_, rfl, rfl, hr, congrArg (vset · n _) hs⟩

theorem streamWriteback_spec {s : State} {q : BitVec 3} {t : Stream} (ht : s.rdQ q.toNat = some t) (hr : s.writebackReady q.toNat = true) :
    Runs (.streamWriteback q) s (fun u => u.core.regs = s.core.regs ∧
      (vget u.core.strm q.toNat StreamEngine.empty).moved = (vget s.core.strm q.toNat StreamEngine.empty).moved + 1 ∧
      (vget u.core.strm q.toNat StreamEngine.empty).coming = (vget s.core.strm q.toNat StreamEngine.empty).coming.drop 1) := by
  have hq : q.toNat < 8 := q.isLt
  obtain ⟨im, rest, hc⟩ := State.coming_of_writebackReady hr
  obtain ⟨g, hm, hg, hregs, hs⟩ := State.performWriteback_step ht hc
  refine ⟨_, congrArg Host.Outcome.next (if_pos hr), hregs, ?_, ?_⟩
  · rw [hs, vget_vset_same _ _ _ _ hq, hm]
  · rw [hs, vget_vset_same _ _ _ _ hq, hg, hc, List.drop_one, List.tail_cons]

/-! ### Accesses of other devices (R386) -/

theorem performRemote_store_mem (s : State) {a : Nat} {bs : List Byte} {po : List Bool} (h : remoteHome a bs.length = true)
    (hl : po.length = bs.length) :
    (s.performRemote (.store a bs po)).mem = s.mem.store ((cellsAt a bs).map (fun c => (s.route c.1, c.2)))
      ((po.zipIdx.filter (·.1)).map (fun q => s.route (a + q.2))) := by
  have hf : po.zipIdx.filter (fun q => q.1 && decide (q.2 < bs.length)) = po.zipIdx.filter (·.1) :=
    List.filter_congr fun q hq => by
      have hlt := List.snd_lt_of_mem_zipIdx hq
      simp [show q.2 < bs.length by omega]
  simp only [State.performRemote, if_pos h, hf]
  exact s.engineStore_mem _ _

theorem performRemote_load (s : State) {a n : Nat} (h : remoteHome a n = true) : (s.performRemote (.load a n)).mem = s.mem ∧
    (s.performRemote (.load a n)).dev.answer = some ((List.range n).map (fun i =>
      if s.mem.poisoned (s.route (a + i)) then none else some (s.mem.byte (s.route (a + i))))) := by
  simp only [State.performRemote, if_pos h]
  refine ⟨rfl, ?_⟩
  show some (((List.range n).map _).map _) = _
  rw [List.map_map]
  rfl

end Sys2Proof.Machine
end

section
/-! The atomics at their homes, and the obligation on accesses and streams (R297 to R302, R217, R242, R292, R293, R386). -/
open Sys2Proof Sys2Proof.Machine Sys2Proof.Claims

namespace Sys2Proof.Machine

/-! ### The results of an atomic -/

/-- A number stored at its home: it is read there, and no other byte has changed. -/
def State.Stored (s t : State) (a len w : Nat) : Prop :=
  (∀ i, i < len → homeOf (physOf (a + i)) ≠ .host) → t.mem.num a len = w % 2 ^ (8 * len) ∧ OnlyAt s.mem t.mem (fun i => a + i) len

/-- An operation that did not take place is an error of counter 3. -/
def State.Counted (s t : State) : Prop :=
  t.mem = s.mem ∧ (vget t.dev.errors 3 0).toNat = min ((vget s.dev.errors 3 0).toNat + 1) (2 ^ 64 - 1)

theorem putWord_Stored {s u : State} (hm : u.mem = s.mem) (hw : s.mem.wf = true) (a n v : Nat) (po : Bool) :
    s.Stored (u.putWord a n v po) a n v := fun hh => hm ▸ State.putWord_stored (hm ▸ hw) v po hh

theorem countErr_Counted {s u : State} (hm : u.mem = s.mem) (hd : u.dev = s.dev) : s.Counted (u.mapDev (fun d => d.countErr 3)) :=
  ⟨hm, hd ▸ u.dev.countErr_count (by decide)⟩

section
variable (s : State) (f : FarOp)

theorem State.taken_lostNow (p : Part) : (s.taken f).lostNow p = s.lostNow p := State.lostNow_congr (s.taken_frame f).2.1 p

theorem State.taken_route (a : Nat) : (s.taken f).route a = s.route a := State.route_congr (s.taken_frame f).2.1 a

theorem State.taken_poisonedAt (a n : Nat) : (s.taken f).poisonedAt a n = s.poisonedAt a n :=
  State.poisonedAt_congr (s.taken_frame f).1 a n

end

/-! ### The list of accesses -/

theorem State.StoresTo.fars {s t : State} (h : s.StoresTo t) : t.core.fars = s.core.fars := (congrArg Core.fars h.core :)

theorem State.performAtom_fars {s : State} {f : FarOp} {p : Part} {ps : List Part} (hp : f.parts = p :: ps) (op : AtomOp) :
    (s.performAtom f op).core.fars = s.core.fars := by
  cases op with
  | amo o b c po =>
    rw [performAtom_amo hp, (State.amoDone_frame _ _ _).2]
    split
    · exact (s.putWord_stores _ _ _ _).fars
    · rfl
  | red o b po =>
    rw [performAtom_red hp]
    split
    · rfl
    · exact (s.putWord_stores _ _ _ _).fars
  | bfp lanes po =>
    rw [performAtom_bfp hp]
    split
    · rfl
    · exact (s.bfpAddAt_stores _ _ _).fars
  | casn ex new live nb bVal =>
    have hl := (s.looked_frame live new).2
    rw [performAtom_casn hp]
    dsimp only
    generalize (if s.poisonedAt _ _ then (0 : ClaimName) else _) = was
    split
    · exact (s.casnDone_frame _ _ _ _).2
    · split
      · exact ((State.casnDone_frame _ _ _ _ _).2).trans hl
      · split
        · exact ((State.casnDone_frame _ _ _ _ _).2).trans (((State.putWord_stores _ _ _ _ _).fars).trans hl)
        · exact ((State.casnDone_frame _ _ _ _ _).2).trans hl

/-! ### Each operation from the state in which it is performed -/

section
variable {s : State} {f : FarOp} {p : Part} {ps : List Part} (hp : f.parts = p :: ps) (hw : s.mem.wf = true)
include hp hw

theorem amo_performed (o : AmoOp) (b c : X64) (po : Bool) :
    let a := s.route p.addr
    let n := f.bytes
    let gone := s.lostNow p
    let bad := s.poisonedAt a n
    let old := s.mem.num a n
    let r := amoApply o (8 * n) old b.toNat c.toNat
    let v : X64 × Bool := if gone then (0, false) else if bad then (0, true) else (BitVec.ofNat 64 old, false)
    let t := (s.taken f).performAtom f (.amo o b c po)
    (gone = true ∨ bad = true → t.mem = s.mem) ∧ (gone = false → bad = false → s.Stored t a n r.1) ∧
      TokenLands s t f.tok f.id (token (if gone then 1 else if bad then 3 else r.2) 0) ∧
      (s.core.running = some f.strand →
        t.core.regs.arq = s.core.regs.arq.map (fun e => if e.id = f.id then { e with value := some v } else e)) ∧
      (s.core.running ≠ some f.strand → (t.dev.strands[f.strand]?).map (fun q => q.regs.arq) =
        (s.dev.strands[f.strand]?).map (fun q => q.regs.arq.map (fun e => if e.id = f.id then { e with value := some v } else e))) := by
  intro a n gone bad old r v t
  obtain ⟨hm, hd, -, -, hrun, hregs⟩ := s.taken_frame f
  -- the state after the store, if there is one
  obtain ⟨w, hs, hbad, hgood, ht⟩ : ∃ w, (s.taken f).StoresTo w ∧ (gone = true ∨ bad = true → w.mem = s.mem) ∧
      (gone = false → bad = false → s.Stored w a n r.1) ∧
      t = w.amoDone f v (token (if gone then 1 else if bad then 3 else r.2) 0) := by
    refine ⟨if !gone && !bad then (s.taken f).putWord a n r.1 po else s.taken f, ?_, fun h => ?_, fun hg hb => ?_, ?_⟩
    · split
      · exact State.putWord_stores _ _ _ _ _
      · exact .refl _
    · rw [if_neg (by rcases h with h | h <;> simp [h])]
      exact hm
    · rw [if_pos (by simp [hg, hb])]
      exact putWord_Stored hm hw a n r.1 po
    · show (s.taken f).performAtom f _ = _
      rw [performAtom_amo hp, s.taken_lostNow, s.taken_route, s.taken_poisonedAt, hm]
  obtain ⟨hmem, -⟩ := w.amoDone_frame f v (token (if gone then 1 else if bad then 3 else r.2) 0)
  have hwregs : w.core.regs = s.core.regs := (congrArg Core.regs hs.core :).trans hregs
  rw [ht]
  refine ⟨fun h => hmem.trans (hbad h), fun hg hb => ?_, amoDone_lands f v _ ((s.taken_waitsAlike f).trans hs.waitsAlike), fun h => ?_,
    fun h => ?_⟩
  · rw [State.Stored, hmem]
    exact hgood hg hb
  · rw [amoDone_running f v _ (hs.running.trans (hrun.trans h)), hwregs]
  · rw [amoDone_saved f v _ (by rwa [hs.running, hrun]), hs.strands, hd]

theorem red_performed (o : RedOp) (b : X64) (po : Bool) :
    let a := s.route p.addr
    let gone := s.lostNow p
    let bad := s.poisonedAt a f.bytes
    let t := (s.taken f).performAtom f (.red o b po)
    (gone = true ∨ bad = true → s.Counted t) ∧
      (gone = false → bad = false → s.Stored t a f.bytes (redApply o (8 * f.bytes) (s.mem.num a f.bytes) b.toNat)) := by
  intro a gone bad t
  obtain ⟨hm, hd, -⟩ := s.taken_frame f
  have ht : t = if gone || bad then (s.taken f).mapDev (fun d => d.countErr 3)
      else (s.taken f).putWord a f.bytes (redApply o (8 * f.bytes) (s.mem.num a f.bytes) b.toNat) po := by
    show (s.taken f).performAtom f _ = _
    rw [performAtom_red hp, s.taken_lostNow, s.taken_route, s.taken_poisonedAt, hm]
  rw [ht]
  refine ⟨fun h => ?_, fun hg hb => ?_⟩
  · rw [if_pos (Bool.or_eq_true_iff.mpr h)]
    exact countErr_Counted hm hd
  · rw [if_neg (by simp [hg, hb])]
    exact putWord_Stored hm hw _ _ _ po

theorem bfp_performed (lanes : VBits) (po : Bool) :
    let a := s.route p.addr
    let gone := s.lostNow p
    let bad := s.poisonedAt a f.bytes
    let blk := bfpAdd (bfpOfWords ((List.range 64).map (fun i => s.mem.num (a + 4 * i) 4)))
      ((lanesOf 32 64 lanes.toNat).map (decodeFloat .fp32)) po
    let t := (s.taken f).performAtom f (.bfp lanes po)
    (gone = true ∨ bad = true → s.Counted t) ∧
      (gone = false → bad = false → (∀ i, i < 64 → t.mem.num (a + 4 * i) 4 = (bfpWords blk).getD i 0 % 2 ^ 32) ∧
        OnlyAt s.mem t.mem (fun i => a + i) 256) := by
  intro a gone bad blk t
  obtain ⟨hm, hd, -⟩ := s.taken_frame f
  have ht : t = if gone || bad then (s.taken f).mapDev (fun d => d.countErr 3) else (s.taken f).bfpAddAt a lanes po := by
    show (s.taken f).performAtom f _ = _
    rw [performAtom_bfp hp, s.taken_lostNow, s.taken_route, s.taken_poisonedAt]
  rw [ht]
  refine ⟨fun h => ?_, fun hg hb => ?_⟩
  · rw [if_pos (Bool.or_eq_true_iff.mpr h)]
    exact countErr_Counted hm hd
  · rw [if_neg (by simp [hg, hb])]
    have hb := State.bfpAddAt_stored (s := s.taken f) (hm ▸ hw) a lanes po
    rwa [hm] at hb

theorem casn_performed (ex new : ClaimName) (live : Bool) (nb : Nat) (bVal : ClaimName) :
    let a := s.route p.addr
    let gone := s.lostNow p
    let was : ClaimName := if s.poisonedAt a f.bytes then 0 else BitVec.ofNat 128 (s.mem.num a f.bytes)
    let dead := live && !(s.taken f).pins ((s.taken f).tenantOf f.strand) new
    let t := (s.taken f).performAtom f (.casn ex new live nb bVal)
    let ends := fun (st : Nat) (v : ClaimName) => TokenLands s t f.tok f.id (token st 0) ∧ Lands s t f.id (.n nb) (.name nb v)
    (gone = true → t.mem = s.mem ∧ ends 1 bVal) ∧
      (gone = false → dead = true → t.mem = s.mem ∧ ends 1 was) ∧
      (gone = false → dead = false → was = ex → s.Stored t a 16 new.toNat ∧ ends 0 was) ∧
      (gone = false → dead = false → was ≠ ex → t.mem = s.mem ∧ ends 11 was) := by
  intro a gone was dead t ends
  obtain ⟨hm, -⟩ := s.taken_frame f
  have hu := s.taken_waitsAlike f
  obtain ⟨hlm, -⟩ := (s.taken f).looked_frame live new
  have hl := hu.trans ((s.taken f).looked_waitsAlike live new)
  have ht : t = if gone then (s.taken f).casnDone f nb 1 bVal
      else if dead then ((s.taken f).looked live new).casnDone f nb 1 was
      else if was = ex then (((s.taken f).looked live new).putWord a 16 new.toNat false).casnDone f nb 0 was
      else ((s.taken f).looked live new).casnDone f nb 11 was := by
    show (s.taken f).performAtom f _ = _
    rw [performAtom_casn hp, s.taken_lostNow, s.taken_route, s.taken_poisonedAt, hm]
  have hends : ∀ {w : State} {st : Nat} {v : ClaimName}, s.WaitsAlike w → t = w.casnDone f nb st v → ends st v := fun {w st v} hk h => by
    show TokenLands s t f.tok f.id (token st 0) ∧ Lands s t f.id (.n nb) (.name nb v)
    rw [h]
    exact casnDone_lands hk f nb st v
  have hmem : ∀ {w : State} {st : Nat} {v : ClaimName}, t = w.casnDone f nb st v → t.mem = w.mem := fun {w st v} h =>
    h ▸ (w.casnDone_frame f nb st v).1
  refine ⟨fun hg => ?_, fun hg hd => ?_, fun hg hd he => ?_, fun hg hd he => ?_⟩
  · rw [if_pos hg] at ht
    exact ⟨(hmem ht).trans hm, hends hu ht⟩
  · rw [if_neg (by simp [hg]), if_pos hd] at ht
    exact ⟨(hmem ht).trans (hlm.trans hm), hends hl ht⟩
  · rw [if_neg (by simp [hg]), if_neg (by simp [hd]), if_pos he] at ht
    refine ⟨?_, hends (hl.trans (State.putWord_stores _ _ _ _ _).waitsAlike) ht⟩
    rw [State.Stored, hmem ht]
    exact putWord_Stored (hlm.trans hm) hw a 16 new.toNat false
  · rw [if_neg (by simp [hg]), if_neg (by simp [hd]), if_neg he] at ht
    exact ⟨(hmem ht).trans (hlm.trans hm), hends hl ht⟩

end

theorem performAtom_spec {s : State} {f : FarOp} {p : Part} {ps : List Part} (hp : f.parts = p :: ps) (op : AtomOp) :
    ((s.taken f).performAtom f op).core.fars = s.core.fars.erase f :=
  (State.performAtom_fars hp op).trans (s.taken_frame f).2.2.1

/-! ### Accesses that arrive from other devices, and those that are sent on (R386, R387) -/

section
variable {s : State} {dev : Nat}

theorem exec_remoteAccess (h : s.dev.ident.lost.contains dev = false) {op : RemoteOp} (ho : ∀ a bs po, op ≠ .ownStore a bs po) :
    exec (.remoteAccess dev op) s = .next ((s.hear dev).performRemote op) := by
  show execRemoteAccess dev op s = _
  rw [execRemoteAccess, if_neg (by simpa using h)]
  exact ho

theorem exec_remoteAccess_ownStore (h : s.dev.ident.lost.contains dev = false) (a : Nat) (bs : List Byte) (po : List Bool) :
    exec (.remoteAccess dev (.ownStore a bs po)) s = .next ((s.hear dev).storeElsewhere dev a bs po) := by
  show execRemoteAccess dev (.ownStore a bs po) s = _
  rw [execRemoteAccess, if_neg (by simpa using h)]

theorem exec_remoteAccess_lost (h : s.dev.ident.lost.contains dev = true) (op : RemoteOp) : exec (.remoteAccess dev op) s = .next s :=
  if_pos h

theorem exec_forwardedAccess {op : RemoteOp} (h : s.route (remoteAddr op) ≠ remoteAddr op) :
    exec (.forwardedAccess op) s = .next (s.performRemote op) := if_pos h

end

/-! ### The obligation -/

/-- A far store is performed on the state that its part has left. -/
theorem farStorePerformed_spec {s : State} {k : Nat} {f : FarOp} (hf : s.core.fars[k]? = some f) (ha : f.atom = none)
    (hr : s.farReady f = true) :
    let good := f.parts.filter (fun p => !s.lostNow p)
    Runs (.farStorePerformed k) s (fun t =>
      t.core.fars.map (fun o => (o.id, o.parts)) = (s.core.fars.erase f).map (fun o => (o.id, o.parts)) ∧
      t.mem = s.mem.store ((f.data.cells.filter (fun c => inParts good c.1)).map (fun c => (s.route c.1, c.2)))
        ((f.data.poisoned.filter (inParts good)).map s.route)) :=
  ⟨_, exec_farStorePerformed hf ha hr, (s.dropFar f).performFar_fars f, (s.dropFar f).performFar_mem f⟩

/-- Settles O47: each event is its own equation; an atomic is the store of its result, followed by what it delivers, on a state that differs
from the first in the list and the counters only. -/
theorem accessEvents : Obligations.AccessEvents := by
  unfold Obligations.AccessEvents
  intro s
  refine ⟨fun k q hq hr => farLoadReturn_spec hq hr, fun k f hf ha hr => farStorePerformed_spec hf ha hr,
    fun k f op hf ha hr => exec_atomicPerformed hf ha hr, fun k f op p ps hf ha hr hp hw => ?_,
    fun q t ht hr => streamFetch_spec ht hr, fun q t ht hr => streamWriteback_spec ht hr,
    fun dev op h ho => exec_remoteAccess h ho, fun dev a bs po h => exec_remoteAccess_ownStore h a bs po,
    fun dev op h => exec_remoteAccess_lost h op, fun op h => exec_forwardedAccess h,
    fun a bs po h hl => performRemote_store_mem s h hl, fun a n h => performRemote_load s h⟩
  refine ⟨_, exec_atomicPerformed hf ha hr, performAtom_spec hp op, ?_, ?_, ?_, ?_⟩
  · rintro o b c po rfl
    exact amo_performed hp hw o b c po
  · rintro o b po rfl
    exact red_performed hp hw o b po
  · rintro lanes po rfl
    exact bfp_performed hp hw lanes po
  · rintro ex new live nb bVal rfl
    exact casn_performed hp hw ex new live nb bVal

end Sys2Proof.Machine
end

section
/-! The host's writes and window: home pieces, pieces of 64 bytes, and what the pieces on their way leave when they land (R259 to R261). -/
open Sys2Proof Sys2Proof.Machine Sys2Proof.Claims

namespace Sys2Proof.Machine

/-! ### Pieces of 64 bytes (R260) -/

/-- A cell joins the first piece of those after it, where that lies in its line, or begins a piece. -/
theorem hostPieces_cons (c : Host.Cell) (cs : List Host.Cell) :
    (∃ d g gs, hostPieces cs = (d :: g) :: gs ∧ c.1 / 64 = d.1 / 64 ∧ hostPieces (c :: cs) = (c :: d :: g) :: gs) ∨
      hostPieces (c :: cs) = [c] :: hostPieces cs := by
  rw [hostPieces]
  split
  next d g gs h =>
    by_cases hl : c.1 / 64 = d.1 / 64
    · exact .inl ⟨d, g, gs, h, hl, if_pos hl⟩
    · exact .inr (by rw [if_neg hl, h])
  next => exact .inr rfl

theorem hostPieces_flatten (cs : List Host.Cell) : (hostPieces cs).flatten = cs := by
  induction cs with
  | nil => rfl
  | cons c cs ih =>
    rcases hostPieces_cons c cs with ⟨d, g, gs, h, -, hc⟩ | hc
    · rw [hc, List.flatten_cons, List.cons_append, ← List.flatten_cons, ← h, ih]
    · rw [hc, List.flatten_cons, ih, List.singleton_append]

/-- Every piece holds a cell, and lies in the line of each of its cells. -/
theorem hostPieces_line (cs : List Host.Cell) : ∀ g ∈ hostPieces cs, g ≠ [] ∧ ∀ c ∈ g, ∀ d ∈ g, c.1 / 64 = d.1 / 64 := by
  induction cs with
  | nil => exact fun g hg => absurd hg List.not_mem_nil
  | cons c cs ih =>
    rcases hostPieces_cons c cs with ⟨d, g, gs, h, hl, hc⟩ | hc <;> rw [hc, List.forall_mem_cons]
    · rw [h, List.forall_mem_cons] at ih
      obtain ⟨⟨-, hg⟩, hgs⟩ := ih
      have hd : ∀ a ∈ c :: d :: g, a.1 / 64 = d.1 / 64 :=
        List.forall_mem_cons.2 ⟨hl, fun a ha => hg a ha d List.mem_cons_self⟩
      exact ⟨⟨List.cons_ne_nil _ _, fun a ha b hb => (hd a ha).trans (hd b hb).symm⟩, hgs⟩
    · refine ⟨⟨List.cons_ne_nil _ _, fun a ha b hb => ?_⟩, ih⟩
      rw [List.mem_singleton.1 ha, List.mem_singleton.1 hb]

/-! ### HOST_WRITE (R259, R260) -/

/-- The window write that bytes for given home pieces would be. -/
def State.windowWrite (s : State) (t : Nat) (ps : List Part) (bytes : List Byte) : WinWrite :=
  let addrs := (ps.map (fun p => (List.range p.len).map (fun i => p.addr + i))).flatten
  { tenant := t, die := dieOf (physOf (addrs.headD 0)), cells := addrs.zip bytes, since := s.core.now, winto := s.dev.set.winto }

/-- Of addresses none of which is lost, each byte's cell is kept. -/
theorem filter_zip_kept (as : List Nat) (bytes : List Byte) :
    (((as.map (fun a => (a, false))).zip bytes).filter (fun q => !q.1.2)).map (fun q => (q.1.1, q.2)) = as.zip bytes := by
  rw [List.zip_map_left, List.filter_eq_self.2, List.map_map]
  · exact List.map_id _
  · intro q hq
    obtain ⟨r, -, rfl⟩ := List.mem_map.1 hq
    rfl

@[simp] theorem Dev.mapPage_ingress (d : Dev) (t : Nat) (f : Page → Page) : (d.mapPage t f).ingress = d.ingress := rfl

@[simp] theorem Dev.raiseError_ingress (d : Dev) (t : Nat) : (d.raiseError t).ingress = d.ingress := by
  unfold Dev.raiseError; split <;> rfl

section
variable {s : State} {t off : Nat} {bytes : List Byte}

theorem hostWrite_untranslated (ht : t < 64) (h : s.barParts t .store off bytes.length = none) :
    Runs (.hostWrite t off bytes) s (fun u => (u.dev.page t).badwr = min ((s.dev.page t).badwr + 1) 65535 ∧ u.mem = s.mem ∧
      u.dev.ingress = s.dev.ingress ∧ u.core = s.core) := by
  refine ⟨s.mapDev (fun d => (d.mapPage t (fun p => { p with badwr := satUp16 p.badwr 1 })).raiseError t), ?_, ?_, rfl, ?_, rfl⟩
  · show execHostWrite t off bytes s = _
    rw [execHostWrite, h]
  · rw [State.mapDev_dev, Dev.raiseError_page, Dev.mapPage_page _ _ ht, satUp16]
  · rw [State.mapDev_dev, Dev.raiseError_ingress, Dev.mapPage_ingress]

/-- A write whose homes all stand has the cells of the window write that it would be. -/
theorem exec_hostWrite_translated {ps : List Part} (h : s.barParts t .store off bytes.length = some ps)
    (hp : ∀ p ∈ ps, s.lostNow p = false) :
    exec (.hostWrite t off bytes) s =
      if s.mapsWindow (s.windowWrite t ps bytes) then
        (if 2 ^ 18 < s.dev.ingressBytes (s.windowWrite t ps bytes).die + (s.windowWrite t ps bytes).cells.length then .next s
         else .next (s.mapDev (fun d => { d with ingress := d.ingress ++ [s.windowWrite t ps bytes] })))
      else if 2 ^ 18 ≤ s.dev.ingressBytes (s.windowWrite t ps bytes).die then .next s
      else .next (s.mapDev (fun d => { d with pieces := d.pieces ++ hostPieces (s.windowWrite t ps bytes).cells })) := by
  have hkept : (ps.map (fun p => (List.range p.len).map (fun i => (p.addr + i, s.lostNow p)))).flatten =
      ((ps.map (fun p => (List.range p.len).map (fun i => p.addr + i))).flatten).map (fun a => (a, false)) := by
    rw [List.map_flatten, List.map_map]
    refine congrArg List.flatten (List.map_congr_left fun p h => ?_)
    rw [hp p h, Function.comp_apply, List.map_map]
    rfl
  have hfst : ∀ as : List Nat, (as.map (fun a => (a, false))).map (·.1) = as := fun as => by
    rw [List.map_map]; exact List.map_id as
  show execHostWrite t off bytes s = _
  rw [execHostWrite, h]
  simp only [hkept, filter_zip_kept, hfst]
  rfl

/-- It waits as a window write, is on its way in pieces, or is held back. -/
theorem hostWrite_translated {ps : List Part} (h : s.barParts t .store off bytes.length = some ps)
    (hp : ∀ p ∈ ps, s.lostNow p = false) :
    let w := s.windowWrite t ps bytes
    let held := s.dev.ingressBytes w.die
    (s.mapsWindow w = true → held + w.cells.length ≤ 2 ^ 18 →
      exec (.hostWrite t off bytes) s = .next (s.mapDev (fun d => { d with ingress := d.ingress ++ [w] }))) ∧
    (s.mapsWindow w = false → held < 2 ^ 18 →
      exec (.hostWrite t off bytes) s = .next (s.mapDev (fun d => { d with pieces := d.pieces ++ hostPieces w.cells }))) ∧
    ((s.mapsWindow w = true ∧ 2 ^ 18 < held + w.cells.length ∨ s.mapsWindow w = false ∧ 2 ^ 18 ≤ held) →
      exec (.hostWrite t off bytes) s = .next s) := by
  rw [exec_hostWrite_translated h hp]
  generalize s.windowWrite t ps bytes = w
  refine ⟨fun hw hroom => ?_, fun hw hroom => ?_, ?_⟩
  · rw [if_pos hw, if_neg (Nat.not_lt.2 hroom)]
  · rw [if_neg (Bool.eq_false_iff.1 hw), if_neg (Nat.not_le.2 hroom)]
  · rintro (⟨hw, hfull⟩ | ⟨hw, hfull⟩)
    · rw [if_pos hw, if_pos hfull]
    · rw [if_neg (Bool.eq_false_iff.1 hw), if_pos hfull]

end

/-! ### The pieces on their way land (R260) -/

theorem State.plainStore_mem (s : State) (cells : List Host.Cell) :
    (s.plainStore cells).mem = s.mem.store (cells.map (fun c => (s.route c.1, c.2))) [] := s.storeAt_mem _ _

theorem State.plainStore_stores (s : State) (cells : List Host.Cell) : s.StoresTo (s.plainStore cells) := s.storeAt_stores _ _

theorem State.plainStore_dev (s : State) (cells : List Host.Cell) : ∃ cs, (s.plainStore cells).dev = { s.dev with chutes := cs } :=
  s.storeAt_dev _ _

/-- Of the device the pieces that land change the chutes, and no piece is on its way any longer. -/
theorem State.landPieces_dev (s : State) : ∃ cs, s.landPieces.dev = { s.dev with chutes := cs, pieces := [] } := by
  have h : ∀ (l : List (List Host.Cell)) (u : State), ∃ cs,
      (l.foldl (fun (t : State) p => t.plainStore p) u).dev = { u.dev with chutes := cs } := by
    intro l
    induction l with
    | nil => exact fun u => ⟨u.dev.chutes, rfl⟩
    | cons p l ih =>
      intro u
      obtain ⟨cs, hp⟩ := u.plainStore_dev p
      obtain ⟨ds, hl⟩ := ih (u.plainStore p)
      exact ⟨ds, by rw [List.foldl_cons, hl, hp]⟩
  obtain ⟨cs, hs⟩ := h s.dev.pieces s
  exact ⟨cs, congrArg (fun d : Dev => { d with pieces := [] }) hs⟩

theorem State.landPieces_ingress (s : State) : s.landPieces.dev.ingress = s.dev.ingress := by
  obtain ⟨cs, h⟩ := s.landPieces_dev
  rw [h]

theorem State.landPieces_now (s : State) : s.landPieces.core.now = s.core.now := (congrArg Core.now s.landPieces_stores.core :)

theorem State.landPieces_route (s : State) (a : Nat) : s.landPieces.route a = s.route a := by
  obtain ⟨cs, h⟩ := s.landPieces_dev
  rw [State.route, State.route, h]

/-! ### WINDOW_TIMEOUT (R261, R482) -/

section
variable {s : State} {die : Nat} {w : WinWrite} (hf : s.dev.ingress.find? (fun w => w.die == die) = some w)
include hf

/-- A die's oldest window write, once it is due and none of its tenant's came before it, is the one that a timeout performs. -/
theorem State.timedOut_due (hd : w.since + 1050 * w.winto ≤ s.core.now)
    (ho : ∀ o ∈ s.dev.ingress.takeWhile (fun o => o != w), o.tenant ≠ w.tenant) : s.timedOut die = [w] := by
  have hn : (s.dev.ingress.takeWhile (fun o => o != w)).filter (fun o => o.tenant == w.tenant) = [] :=
    List.filter_eq_nil_iff.2 fun o h => by simpa using ho o h
  simp [State.timedOut, hf, State.windowDue, hd, hn]

theorem State.timedOut_early (hd : s.core.now < w.since + 1050 * w.winto) : s.timedOut die = [] := by
  simp [State.timedOut, hf, State.windowDue, Nat.not_le.2 hd]

theorem windowTimeout_early (hd : s.core.now < w.since + 1050 * w.winto) : exec (.windowTimeout die) s = .next s.landPieces := by
  have ht : s.landPieces.timedOut die = [] :=
    State.timedOut_early (by rwa [State.landPieces_ingress]) (by rwa [State.landPieces_now])
  show execWindowTimeout die s = _
  rw [execWindowTimeout, ht]
  rfl

theorem windowTimeout_due (hd : w.since + 1050 * w.winto ≤ s.core.now)
    (ho : ∀ o ∈ s.dev.ingress.takeWhile (fun o => o != w), o.tenant ≠ w.tenant) :
    Runs (.windowTimeout die) s (fun u => u.mem = s.landPieces.mem.store (w.cells.map (fun c => (s.route c.1, c.2))) [] ∧
      u.dev.ingress = s.dev.ingress.erase w ∧ u.core.regs = s.core.regs ∧
      (w.tenant < 64 → (u.dev.page w.tenant).winlate = min ((s.dev.page w.tenant).winlate + 1) (2 ^ 32 - 1))) := by
  have ht : s.landPieces.timedOut die = [w] :=
    State.timedOut_due (by rwa [State.landPieces_ingress]) (by rwa [State.landPieces_now]) (by rwa [State.landPieces_ingress])
  obtain ⟨cs, hdev⟩ := s.landPieces.plainStore_dev w.cells
  have hs : s.StoresTo (s.landPieces.plainStore w.cells) := s.landPieces_stores.trans (State.plainStore_stores _ _)
  refine ⟨(s.landPieces.plainStore w.cells).mapDev (fun d => Dev.mapPage { d with ingress := d.ingress.erase w } w.tenant
    (fun p => { p with winlate := min (p.winlate + 1) (2 ^ 32 - 1) })), ?_, ?_, ?_, (congrArg Core.regs hs.core :), fun hw => ?_⟩
  · show execWindowTimeout die s = _
    rw [execWindowTimeout, ht]
    rfl
  · rw [State.mapDev_mem, State.plainStore_mem]
    simp only [State.landPieces_route]
  · rw [State.mapDev_dev, Dev.mapPage_ingress, hdev, State.landPieces_ingress]
  · rw [State.mapDev_dev, Dev.mapPage_page _ _ hw, ← hs.page]
    rfl

end

end Sys2Proof.Machine
end

section
/-! The host's reads of BAR2 and of BAR0 (R260, R396, R476, R477). -/
open Sys2Proof Sys2Proof.Machine Sys2Proof.Claims

namespace Sys2Proof.Machine

/-! ### BAR2 -/

section
variable {s : State} {t off n : Nat}

theorem exec_hostRead_untranslated (h : s.landPieces.barParts t .load off n = none) :
    exec (.hostRead ⟨t, false⟩ off n) s = .next (s.landPieces.mapDev (fun d => { d with answer := none })) := by
  show execHostRead ⟨t, false⟩ off n s = _
  simp only [execHostRead, h, Bool.false_eq_true, if_false]

theorem exec_hostRead_translated {ps : List Part} (h : s.landPieces.barParts t .load off n = some ps) :
    exec (.hostRead ⟨t, false⟩ off n) s = .next (s.landPieces.mapDev (fun d => { d with
      answer := some ((s.landPieces.readParts s.landPieces.mem ps).map (fun b => if b.2 then none else some b.1)) })) := by
  show execHostRead ⟨t, false⟩ off n s = _
  simp only [execHostRead, h, Bool.false_eq_true, if_false]

end

/-! ### BAR0 of the physical function -/

/-- The pieces that land before a read change nothing that BAR0 shows. -/
theorem State.landPieces_readBar0 (s : State) (fn off len : Nat) : s.landPieces.dev.readBar0 fn off len = s.dev.readBar0 fn off len := by
  obtain ⟨cs, h⟩ := s.landPieces_dev
  rw [h]
  rfl

/-- A read that finds a word answers its eight bytes, and one that finds none Unsupported Request. -/
theorem exec_hostRead_bar0 {s : State} {off n : Nat} {ans : Option Nat} (h : s.dev.readBar0 0 off n = ans.map (bytesOfNat 8)) :
    exec (.hostRead ⟨0, true⟩ off n) s =
      .next (s.landPieces.mapDev (fun d => { d with answer := ans.map (fun v => (bytesOfNat 8 v).map some) })) := by
  show execHostRead ⟨0, true⟩ off n s = _
  simp only [execHostRead, if_true, State.mapDev]
  rw [State.landPieces_readBar0, h, Option.map_map]
  rfl

theorem Dev.readBar0_block (d : Dev) {off : Nat} (h : off < 0x800000) (h8 : off % 8 = 0) :
    d.readBar0 0 off 8 = (d.readBlock off).map (bytesOfNat 8) := by
  simp only [Dev.readBar0]
  rw [if_neg (by omega), if_neg (by omega), if_neg (by omega), if_pos ⟨trivial, h8⟩]

theorem Dev.readBar0_unaligned (d : Dev) {off n : Nat} (h : off < 0x800000) (h8 : n ≠ 8 ∨ off % 8 ≠ 0) : d.readBar0 0 off n = none := by
  simp only [Dev.readBar0]
  rw [if_neg (by omega), if_neg (by omega), if_neg (by omega), if_neg (by omega)]

/-- Tenant `t`'s page stands at 0x1000000 + 0x10000 · t of the physical function's BAR0. -/
theorem Dev.readBar0_page (d : Dev) {t off : Nat} (ht : t < 64) (h : off < 0x10000) (h8 : off % 8 = 0) :
    d.readBar0 0 (0x1000000 + 0x10000 * t + off) 8 = ((d.page t).read off).map (bytesOfNat 8) := by
  simp only [Dev.readBar0]
  rw [if_neg (by omega), if_neg (by omega), if_pos (by omega), if_pos ⟨trivial, by omega⟩,
    show (0x1000000 + 0x10000 * t + off - 0x1000000) / 0x10000 = t by omega, show (0x1000000 + 0x10000 * t + off) % 0x10000 = off by omega]

theorem exec_hostRead_block (s : State) {off : Nat} {ans : Option Nat} (h : off < 0x800000) (h8 : off % 8 = 0)
    (hr : s.dev.readBlock off = ans) :
    exec (.hostRead ⟨0, true⟩ off 8) s =
      .next (s.landPieces.mapDev (fun d => { d with answer := ans.map (fun v => (bytesOfNat 8 v).map some) })) :=
  exec_hostRead_bar0 (by rw [Dev.readBar0_block _ h h8, hr])

theorem exec_hostRead_unaligned (s : State) {off n : Nat} (h : off < 0x800000) (h8 : n ≠ 8 ∨ off % 8 ≠ 0) :
    exec (.hostRead ⟨0, true⟩ off n) s = .next (s.landPieces.mapDev (fun d => { d with answer := none })) :=
  exec_hostRead_bar0 (ans := none) (Dev.readBar0_unaligned _ h h8)

theorem exec_hostRead_page (s : State) {t off : Nat} {ans : Option Nat} (ht : t < 64) (h : off < 0x10000) (h8 : off % 8 = 0)
    (hr : (s.dev.page t).read off = ans) :
    exec (.hostRead ⟨0, true⟩ (0x1000000 + 0x10000 * t + off) 8) s =
      .next (s.landPieces.mapDev (fun d => { d with answer := ans.map (fun v => (bytesOfNat 8 v).map some) })) :=
  exec_hostRead_bar0 (by rw [Dev.readBar0_page _ ht h h8, hr])

end Sys2Proof.Machine
end

section
/-! Shoot-downs and migration (R368 to R371). -/
open Sys2Proof Sys2Proof.Machine Sys2Proof.Claims

namespace Sys2Proof.Machine

/-! ### A request and its acknowledgement (R368) -/

/-- A request for the tenant whose strand the core runs is noted there. -/
theorem exec_shootDownRequest {s : State} {t : Nat} (hr : s.core.running.isSome = true) (ht : s.core.tenant = t) :
    exec (.shootDownRequest t) s = .next ((s.mapCore (fun c => { c with shootDown := true, tableOf := none })).mapDev (fun d =>
      { d with shootDowns := d.shootDowns ++ [{ tenant := t, since := s.core.now, limit := s.dev.set.qpwdog }] })) := by
  have hn : s.requestShootDown t = (s.mapCore (fun c => { c with shootDown := true, tableOf := none })).mapDev (fun d =>
      { d with shootDowns := d.shootDowns ++ [{ tenant := t, since := s.core.now, limit := s.dev.set.qpwdog }] }) := by
    rw [State.requestShootDown, if_pos (by simp [hr, ht])]
  have hne : (s.requestShootDown t).dev.shootDowns.isEmpty = false := by rw [hn]; simp
  show Host.Outcome.next ((s.requestShootDown t).mapDev (fun d => if d.shootDowns.isEmpty then d.endShootDown else d)) = _
  rw [← hn, State.mapDev, if_neg (by rw [hne]; exact Bool.false_ne_true)]

theorem exec_shootDownAck_idle {s : State} (hs : s.core.shootDown = true) (hi : s.ackIdle = true) :
    exec .shootDownAck s = .next ((s.mapCore (fun c => { c with shootDown := false })).mapDev Dev.endShootDown) := by
  show execShootDownAck s = _
  simp [execShootDownAck, hs, hi]

theorem State.ackIdle_of_absent {s : State} (hs : s.core.shootDown = true) (hr : s.core.running = none) (hp : s.core.performed = true) :
    s.ackIdle = true := by simp [State.ackIdle, State.quietCore, hs, hr, hp]

theorem State.ackIdle_of_untabled {s : State} (hr : s.core.running.isSome = true) (ht : s.core.tableOf = none) : s.ackIdle = false := by
  obtain ⟨k, hk⟩ := Option.isSome_iff_exists.1 hr
  simp [State.ackIdle, hk, ht]

/-- A restart point with an empty gate releases nothing. -/
theorem State.commitAt_mapCore {s : State} (b pc : Nat) (hg : s.core.gate = []) :
    ∃ g i sh, s.commitAt b pc = s.mapCore (fun c => { c with gate := g, inter := i, accs := [], shadow := sh }) := by
  have hr : s.core.releasing b = [] := by simp [Core.releasing, hg]
  simp only [State.commitAt, hr, List.foldl_nil]
  exact ⟨_, _, _, rfl⟩

/-- An acknowledgement takes the tenant's list as the core's table, where the list is valid, and ends the shoot-down. -/
theorem State.ackShootDown_frame (s : State) :
    s.ackShootDown.core.shootDown = false ∧ s.ackShootDown.core.tableOf = some s.core.tenant ∧ s.ackShootDown.dev.shootDowns = [] ∧
      s.ackShootDown.core.table = (s.tenantTable? s.core.tenant).getD s.core.table := by
  have h := State.flushUnmapped_stores
  exact ⟨(congrArg Core.shootDown (h _).core :), (congrArg Core.tableOf (h _).core :), (congrArg Dev.shootDowns (h _).dev :),
    (congrArg Core.table (h _).core :)⟩

/-- At a QP bundle a core of which everything is performed, once its gate has been released, acknowledges. -/
theorem exec_shootDownAck_qp {s : State} {c : Ctl} (hs : s.core.shootDown = true) (hr : s.core.running.isSome = true)
    (ht : s.core.tableOf = none) (hq : s.core.iss.iq = []) (hd : s.core.iss.mayDispatch = true) (hc : s.nextCtl = some c)
    (hqp : c.qp = true) (hp : (s.commitAt s.core.iss.bundle s.core.iss.pc).core.performed = true) :
    ∃ n, exec .shootDownAck s = .next ((s.commitAt s.core.iss.bundle s.core.iss.pc).ackShootDown.tick n) := by
  refine ⟨1 + Config.waitCycles (s.commitAt s.core.iss.bundle s.core.iss.pc).freeCtr, (?_ : execShootDownAck s = _)⟩
  simp only [execShootDownAck, hs, State.ackIdle_of_untabled hr ht, hr, hd, hq, hc, hqp, State.quietCore, hp, List.isEmpty_nil,
    Option.map_some, Option.getD_some, Bool.and_self, Bool.not_true, Bool.false_eq_true, if_false, if_true]

theorem shootDownAck_qp {s : State} {c : Ctl} (hs : s.core.shootDown = true) (hr : s.core.running.isSome = true)
    (ht : s.core.tableOf = none) (hq : s.core.iss.iq = []) (hd : s.core.iss.mayDispatch = true) (hc : s.nextCtl = some c)
    (hqp : c.qp = true) (hg : s.core.gate = []) (hp : s.core.performed = true) :
    Runs .shootDownAck s (fun u => u.core.shootDown = false ∧ u.core.tableOf = some s.core.tenant ∧ u.dev.shootDowns = [] ∧
      (∀ table, s.tenantTable? s.core.tenant = some table → u.core.table = table)) := by
  obtain ⟨g, i, sh, hz⟩ := State.commitAt_mapCore s.core.iss.bundle s.core.iss.pc hg
  obtain ⟨n, he⟩ := exec_shootDownAck_qp hs hr ht hq hd hc hqp (by rw [hz]; exact hp)
  rw [hz] at he
  obtain ⟨hs', htab, hsd, htable⟩ :=
    (s.mapCore (fun c => { c with gate := g, inter := i, accs := [], shadow := sh })).ackShootDown_frame
  exact ⟨_, he, hs', htab, hsd, fun table h => htable.trans (congrArg (fun o => o.getD s.core.table) h)⟩

theorem exec_qpwdogExpiry_due {s : State} (h : s.watchdogDue = true) : exec .qpwdogExpiry s = .next s.halt.requeue := if_pos h

/-! ### MIGRATION (R370) -/

theorem State.putEntry_stores (s : State) (a w : Nat) : s.StoresTo (s.putEntry a w) := s.plainStore_stores _

/-- The second word of an entry with MIGRATING set. -/
def markedWord (w : Nat) : Nat := if bitsAt w 12 12 = 0 then w + 2 ^ 12 else w

/-- MIGRATING is set in the lists' entries that map a range. -/
def State.markLists (s : State) (src len : Nat) : State :=
  (s.mappers src len).foldl (fun (t : State) q => t.putEntry q.1 (markedWord q.2.1)) s

theorem State.markLists_stores (s : State) (src len : Nat) : s.StoresTo (s.markLists src len) :=
  State.foldl_stores (f := fun (t : State) (q : Nat × (Nat × Entry)) => t.putEntry q.1 (markedWord q.2.1))
    (fun t q => t.putEntry_stores q.1 (markedWord q.2.1)) (s.mappers src len) s

theorem exec_migration {s : State} {src dst len : Nat} (h : s.mayMigrate src dst len = true) :
    exec (.migration src dst len) s = .next (((s.markLists src len).mapCore (fun c => { c with table := c.table.map (fun e =>
        if e.meets s.dev.ident.index src len then { e with migrating := true } else e) })).mapDev (fun d =>
      { d with migrations := d.migrations ++ [{ src := src, dst := dst, len := len, moved := 0 }] })) := by
  show execMigration src dst len s = _
  unfold execMigration
  rw [if_pos h]
  rfl

/-- The entries of the core's table that map the range migrate. -/
theorem migration_marks {s : State} {src dst len : Nat} (h : s.mayMigrate src dst len = true) :
    Runs (.migration src dst len) s (fun u =>
      u.dev.migrations = s.dev.migrations ++ [{ src := src, dst := dst, len := len, moved := 0 }] ∧
      (∀ e ∈ u.core.table, e.meets s.dev.ident.index src len = true → e.migrating = true) ∧ u.core.regs = s.core.regs) := by
  have hs := s.markLists_stores src len
  have he := exec_migration (dst := dst) h
  generalize s.markLists src len = t at hs he
  refine ⟨_, he, ?_, fun e he hm => ?_, (congrArg Core.regs hs.core :)⟩
  · rw [State.mapDev_dev, State.mapCore_dev, hs.dev]
  · obtain ⟨o, -, ho⟩ := List.mem_map.1 he
    split at ho
    · rw [← ho]
    next hn => exact absurd (ho ▸ hm) hn

/-! ### LINE_COPY (R370) -/

/-- What a store leaves of a byte: a poisoned one of host memory is written as 0 (R360). -/
def storedByte (pois : List Nat) (a : Nat) (b : Byte) : Byte := if homeOf (physOf a) = .host && pois.contains a then 0 else b

/-- A store writes its cells' bytes in order; the poison that it marks and clears changes none. -/
theorem Memory.byte_store (m : Memory) (cells : List Host.Cell) (pois : List Nat) (c : Nat) :
    (m.store cells pois).byte c = (cells.foldl (fun m q => m.setByte q.1 (storedByte pois q.1 q.2)) m).byte c := by
  rw [Memory.store, Memory.byte_foldl]
  · rfl
  · intro m g
    dsimp only
    split
    · exact m.byte_mark g c
    · split
      · exact m.byte_unmark g c
      · rfl

/-- A copy of `n` bytes from `b` to `a`, poisoned or not, reads back outside host memory, and leaves every other byte (R360). -/
theorem Memory.byte_store_copy {m : Memory} (hw : m.wf = true) (a b n : Nat) (pois : List Nat) :
    (∀ i, i < n → homeOf (physOf (a + i)) ≠ .host → (m.store (cellsAt a (m.bytes b n)) pois).byte (a + i) = m.byte (b + i)) ∧
      ∀ c, ¬ (a ≤ c ∧ c < a + n) → (m.store (cellsAt a (m.bytes b n)) pois).byte c = m.byte c := by
  have hb : ∀ c, (m.store (cellsAt a (m.bytes b n)) pois).byte c = if a ≤ c ∧ c < a + n then
      storedByte pois (a + (c - a)) (m.byte (b + (c - a))) else m.byte c := by
    intro c
    rw [← Memory.byte_store_range hw a (fun i => storedByte pois (a + i) (m.byte (b + i))), Memory.bytes, cellsAt_map_range,
      Memory.byte_store_clean, Memory.byte_store, List.foldl_map, List.foldl_map]
  refine ⟨fun i hi hh => ?_, fun c hc => ?_⟩
  · rw [hb, if_pos (by omega), Nat.add_sub_cancel_left, storedByte, if_neg (by simp [hh])]
  · rw [hb, if_neg hc]

/-- Before the last line of the one migration, a line's bytes are stored at the new home, poisoned or not, and one more line has moved. -/
theorem exec_lineCopy {s : State} {m : Migration} (hm : s.dev.migrations = [m]) (hl : 256 * (m.moved + 1) < m.len) :
    ∃ pois, exec .lineCopy s = .next ((s.mapMem (fun mm => mm.store
      (cellsAt (m.dst + 256 * m.moved) (s.mem.bytes (m.src + 256 * m.moved) 256)) pois)).mapDev
        (fun d => { d with migrations := [{ m with moved := m.moved + 1 }] })) := by
  have hf : s.dev.migrations.find? (fun m => decide (256 * m.moved < m.len)) = some m := by
    rw [hm, List.find?_cons_of_pos (by simpa using (by omega : 256 * m.moved < m.len))]
  refine ⟨((List.range 256).filter (fun i => s.mem.poisoned (m.src + 256 * m.moved + i))).map (fun i => m.dst + 256 * m.moved + i),
    (?_ : execLineCopy s = _)⟩
  simp only [execLineCopy, hf, if_neg (Nat.not_le.2 hl)]
  rw [State.mapDev, State.mapDev, State.mapMem_dev, hm, List.map_singleton, if_pos (beq_self_eq_true m.src)]

theorem lineCopy_moves {s : State} {m : Migration} (hw : s.mem.wf = true) (hm : s.dev.migrations = [m])
    (hl : 256 * (m.moved + 1) < m.len) :
    Runs .lineCopy s (fun u => u.core = s.core ∧ u.dev.migrations = [{ m with moved := m.moved + 1 }] ∧
      (∀ i, i < 256 → homeOf (physOf (m.dst + 256 * m.moved + i)) ≠ .host →
        u.mem.byte (m.dst + 256 * m.moved + i) = s.mem.byte (m.src + 256 * m.moved + i)) ∧
      ∀ a, ¬ (m.dst + 256 * m.moved ≤ a ∧ a < m.dst + 256 * m.moved + 256) → u.mem.byte a = s.mem.byte a) := by
  obtain ⟨pois, he⟩ := exec_lineCopy hm hl
  refine ⟨_, he, ?_⟩
  beta_reduce
  rw [State.mapDev_core, State.mapMem_core, State.mapDev_dev, State.mapDev_mem, State.mapMem_mem]
  exact ⟨rfl, rfl, Memory.byte_store_copy hw (m.dst + 256 * m.moved) (m.src + 256 * m.moved) 256 pois⟩

/-! ### The obligation -/

/-- Settles O50: each event is its own equation, or its effect on the state that the pieces before it have left; a line's copy is one store,
whose poison changes no byte outside host memory. -/
theorem translationAndWindow : Obligations.TranslationAndWindow := by
  unfold Obligations.TranslationAndWindow
  refine ⟨fun t off n die bytes s ht => ⟨hostWrite_untranslated ht, fun ps h hp => hostWrite_translated h hp,
      fun cs => ⟨hostPieces_flatten cs, hostPieces_line cs⟩, exec_hostRead_untranslated, fun ps => exec_hostRead_translated, ?_,
      fun w => windowTimeout_due, fun w => windowTimeout_early⟩,
    fun t s => ⟨exec_shootDownRequest, fun hs hr hp => ?_, fun c => shootDownAck_qp, exec_qpwdogExpiry_due,
      fun src dst len => migration_marks, fun m => lineCopy_moves⟩⟩
  · exact ⟨exec_hostRead_block s (by decide) rfl rfl, exec_hostRead_block s (by decide) rfl rfl, exec_hostRead_block s (by decide) rfl rfl,
      exec_hostRead_block s (by decide) rfl rfl, exec_hostRead_block s (by decide) rfl rfl,
      exec_hostRead_page s (off := 0) ht (by decide) rfl rfl, exec_hostRead_page s ht (by decide) rfl rfl,
      exec_hostRead_page s ht (by decide) rfl rfl, exec_hostRead_page s ht (by decide) rfl rfl,
      exec_hostRead_page s ht (by decide) rfl rfl, exec_hostRead_block s (by decide) rfl rfl,
      fun o ho h8 => exec_hostRead_unaligned s ho h8⟩
  · exact ⟨_, exec_shootDownAck_idle hs (State.ackIdle_of_absent hs hr hp), rfl, rfl, rfl⟩

end Sys2Proof.Machine
end

section
/-! COPY of one block of a PLANAR group (R60, R282). -/
open Sys2Proof Sys2Proof.Machine Sys2Proof.Claims

namespace Sys2Proof.Machine

/-! ### COPY waits in the gate (R282, R345) -/

/-- The run's captured source reaches over every byte that its units read, which may be more than the size says. -/
theorem exec_copy {f : EACopy} {s : State} (h : chkCopyOp f s = .ok) (hr : s.cmds Cmd.isCopy < 16) :
    exec (.copy f) s = .next (s.gateCmd (s.px f.d) (.copy (s.copyCmd (copyAsk f s)
      (if (copyRun f s).len = 0 then [] else [copyRun f s])))).takeSeq := by
  have hgo : s.readyRoom Cmd.isCopy 16 = .go := if_pos hr
  show execCopy f s = _
  rw [execCopy, h, hgo, issueOp_go]

theorem State.gateCmd_gate (s : State) (tok : Nat) (c : Cmd) : (s.gateCmd tok c).core.gate =
    s.core.gate ++ [{ bundle := s.core.iss.cur.bundle, slot := s.core.iss.cur.slot, op := .cmd (s.engine tok c) }] := by
  rw [State.gateCmd, State.interlockTok_gate]
  rfl

/-- What waits in the gate tells the command. -/
theorem State.gateCmd_takeSeq_inj {s : State} {tok : Nat} {c d : Cmd} (h : (s.gateCmd tok c).takeSeq = (s.gateCmd tok d).takeSeq) :
    c = d := by
  have hg : (s.gateCmd tok c).core.gate = (s.gateCmd tok d).core.gate := (congrArg (fun t : State => t.core.gate) h :)
  rw [State.gateCmd_gate, State.gateCmd_gate] at hg
  simpa [State.engine] using hg

/-! ### One block of a planar source -/

/-- `copy.fp32 x0, [x1], [x0], x2`. -/
def blockCopy : EACopy := ⟨0, 1, 0, 2, .fp32, .dyn, .none⟩

/-- Virtual 0 maps a page of PLANAR SX8, and 0x10000 a writable RAW page; X1 is the second's start, and X2 is 18, the bytes of one block. -/
def planarSource : State :=
  (State.reset.mapCore (fun c => { c with table := [{ fetchEntry 0 with vbase := 0, fmt := .sx8, geo := .planar },
    { fetchEntry 0 with vbase := 0x10000, pbase := sramBase, kind := .rc, w := true, x := false }] })).mapRegs (fun r =>
      { r with x := vset (vset r.x 1 0x10000) 2 18 })

theorem planarSource_checks : chkCopyOp blockCopy planarSource = .ok := by decide +kernel

theorem planarSource_room : planarSource.cmds Cmd.isCopy < 16 := by decide +kernel

/-- The engine captures the 1,026 bytes from the block's first mantissa to its last exponent byte, in the group's exponent plane. -/
theorem planarSource_captures : ((planarSource.copyCmd (copyAsk blockCopy planarSource) [copyRun blockCopy planarSource]).runs.map
    (fun r => r.src.map (·.len))) = [[1026]] := by decide +kernel

/-- The bytes that the size alone names. -/
theorem planarSource_named : (planarSource.partsOf (planarSource.stretch (planarSource.rdX blockCopy.b).toNat
    (planarSource.rdX blockCopy.c).toNat)).map (·.len) = [18] := by decide +kernel

/-! ### The obligation -/

/-- Refutes O29: its first clause takes a run's captured source to be as long as the size. A conversion from a PLANAR SX source reads the
exponent plane too, so for one block of 18 bytes the model captures 1,026 bytes from the source's address. -/
theorem not_engineCommands : ¬ Obligations.EngineCommands := by
  unfold Obligations.EngineCommands
  rintro ⟨hcopy, -⟩
  obtain ⟨c, -, -, -, -, ⟨-, hrun⟩, hnext⟩ :=
    (hcopy blockCopy ⟨0, 0, 0, 0, 0⟩ planarSource).1 planarSource_checks planarSource_room
  obtain ⟨r, hr, -, hsrc, -⟩ := hrun (by decide +kernel)
  have hexec := exec_copy planarSource_checks planarSource_room
  rw [if_neg (by decide +kernel)] at hexec
  have hc := Cmd.copy.inj (State.gateCmd_takeSeq_inj (Host.Outcome.next.inj (hexec.symm.trans hnext)))
  have hlen := planarSource_captures
  rw [hc, hr, List.map_singleton, hsrc, planarSource_named] at hlen
  revert hlen
  decide

end Sys2Proof.Machine
end

section
/-! STRB and STRU (R291, R294). -/
open Sys2Proof Sys2Proof.Machine Sys2Proof.Claims

namespace Sys2Proof.Machine

/-! ### The stream registers -/

/-- A register beyond the file reads as unwritten, whatever is written to it. -/
theorem vget_vset_self {α : Type} {n : Nat} (v : Vector α n) (i : Nat) (x d : α) : vget (vset v i x) i d = if i < n then x else d := by
  split
  · next h => exact vget_vset_same v i x d h
  · next h => simp [vget, Vector.getD, h]

/-- A stream register that is bound is one of the eight. -/
theorem State.rdQ_lt {s : State} {n : Nat} {q : Stream} (h : s.rdQ n = some q) : n < 8 := by
  by_contra hn
  have hout : s.rdQ n = none := by simp [State.rdQ, vget, Vector.getD, hn]
  rw [hout] at h
  cases h

/-! ### STRB (R291) -/

section
variable {f : EAStrb} {s : State}

/-- The binding that STRB makes. -/
def strbStream (f : EAStrb) (s : State) : Stream :=
  { dir := f.dir, pat := (strbRec f s).pat, taken := 0, bundle := s.core.iss.cur.bundle, home := strbHome f s, code := 0 }

theorem exec_strb (h : chkStrb f s = .ok) :
    exec (.strb f) s = .next ((s.mapCore (fun c => { c with strm := vset c.strm f.h.toNat StreamEngine.empty })).mapRegs (fun r =>
      { r with q := vset r.q f.h.toNat (some (strbStream f s)) })) := by
  show execStrb f s = _
  rw [execStrb, h, issueOp_go]
  rfl

theorem strb_binds (h : chkStrb f s = .ok) :
    Runs (.strb f) s (fun t =>
      (∃ q : Stream, vget t.core.regs.q f.h.toNat none = (if f.h.toNat < 8 then some q else none) ∧ q.dir = f.dir ∧
        q.pat = (recordOf (s.recordWords (s.rdX f.a).toNat)).pat ∧ q.taken = 0 ∧ q.bundle = s.core.iss.cur.bundle ∧ q.code = 0) ∧
      (∀ k, k ≠ f.h.toNat → vget t.core.regs.q k none = vget s.core.regs.q k none) ∧
      t.core.regs.x = s.core.regs.x ∧ t.core.regs.v = s.core.regs.v ∧ t.mem = s.mem ∧ t.dev = s.dev) :=
  ⟨_, exec_strb h, ⟨strbStream f s, vget_vset_self _ _ _ _, rfl, rfl, rfl, rfl, rfl⟩,
    fun _ hk => vget_vset_other _ _ _ _ _ hk, rfl, rfl, rfl, rfl⟩

/-- STRB of a bound stream traps. -/
theorem strb_traps {q : Stream} (hp : s.poisonX f.a = false) (hq : s.rdQ f.h.toNat = some q) : Traps (.strb f) s 0x0E 0 := by
  have hc : chkStrb f s = .trap 0x0E 0 := by
    rw [chkStrb, needCtl_clean hp, Chk.ok_and, need_fail (by rw [hq]; rfl), Chk.trap_and]
  show execStrb f s = _
  rw [execStrb, hc, issueOp_trap]

end

/-! ### An ungated command with its token (R345) -/

/-- The engine of a command of the op in issue that has its token. -/
def State.engineDone (s : State) (tok : Nat) (c : Cmd) (v : X64) : Engine := { s.engine tok c with done := some v }

/-- A command that is sent with its token takes an engine and an operation number; of the rest only the waits for results change. -/
theorem State.sendCmd_done (s : State) (tok : Nat) (c : Cmd) (v : X64) :
    ∃ w, s.sendCmd tok c (some v) =
      s.mapCore (fun k => { k with engs := k.engs ++ [s.engineDone tok c v], opId := k.opId + 1, inter := w }) := by
  unfold State.sendCmd State.interlockTok
  split
  · exact ⟨s.core.inter, rfl⟩
  · exact ⟨_, rfl⟩

/-- The token register of an ungated command waits for it alone. -/
theorem State.sendCmd_waits (s : State) {tok : Nat} (c : Cmd) (v : X64) (h : tok ≠ 0) :
    ∃ i ∈ (s.sendCmd tok c (some v)).core.inter, i.id = s.core.opId ∧ i.reg = .x tok ∧ i.later = [] := by
  rw [State.sendCmd, State.interlockTok_pos _ _ _ h]
  exact ⟨_, List.mem_append_right _ (List.mem_singleton.2 rfl), rfl, rfl, rfl⟩

theorem State.sendCmd_untold (s : State) {tok : Nat} (c : Cmd) (v : X64) (h : tok = 0) :
    (s.sendCmd tok c (some v)).core.inter = s.core.inter := by
  rw [State.sendCmd, h, State.interlockTok_zero]
  rfl

/-! ### STRU (R294) -/

section
variable {f : EA} {s : State}

/-- The state in which STRU has unbound its stream. -/
def State.unbound (s : State) (n : Nat) : State :=
  (s.mapRegs (fun r => { r with q := vset r.q n none })).mapCore (fun c =>
    { c with strm := vset c.strm n StreamEngine.empty,
             shadow := { c.shadow with regs := { c.shadow.regs with
               q := vset c.shadow.regs.q n (s.core.boundCode (vget c.shadow.regs.q n none) n) } } })

theorem exec_stru {q : Stream} (hq : s.rdQ f.h.toNat = some q) (hc : chkStru f s = .ok) (hr : readyStru f s = .go) :
    exec (.stru f) s = .next ((s.unbound f.h.toNat).sendCmd (s.px f.d) (.stru f.h.toNat)
      (some (token (vget s.core.strm f.h.toNat StreamEngine.empty).code q.rest))) := by
  show execStru f s = _
  rw [execStru, hc, hr, issueOp_go, hq]
  rfl

theorem stru_unbinds {q : Stream} (hq : s.rdQ f.h.toNat = some q) (hc : chkStru f s = .ok) (hr : readyStru f s = .go) :
    Runs (.stru f) s (fun t =>
      vget t.core.regs.q f.h.toNat none = none ∧
      (∃ e : Engine, t.core.engs = s.core.engs ++ [e] ∧ e.cmd = .stru f.h.toNat ∧ e.tok = s.px f.d ∧
        e.done = some (token (vget s.core.strm f.h.toNat StreamEngine.empty).code (q.pat.total - 256 * q.taken))) ∧
      t.core.regs.x = s.core.regs.x ∧ t.core.regs.v = s.core.regs.v ∧ t.mem = s.mem ∧ t.dev = s.dev) := by
  have he := exec_stru hq hc hr
  obtain ⟨w, hw⟩ := (s.unbound f.h.toNat).sendCmd_done (s.px f.d) (.stru f.h.toNat)
    (token (vget s.core.strm f.h.toNat StreamEngine.empty).code q.rest)
  rw [hw] at he
  exact ⟨_, he, vget_vset_same _ _ _ _ (State.rdQ_lt hq), ⟨_, rfl, rfl, rfl, rfl⟩, rfl, rfl, rfl, rfl⟩

/-- STRU of an unbound stream traps. -/
theorem stru_traps (hq : s.rdQ f.h.toNat = none) : Traps (.stru f) s 0x0E 0 := by
  have hc : chkStru f s = .trap 0x0E 0 := by
    rw [chkStru, need_fail (by rw [hq]; rfl), Chk.trap_and]
  show execStru f s = _
  rw [execStru, hc, issueOp_trap]

end

/-! ### The obligation -/

/-- Settles O30: the stream register is written or cleared, and STRU's command is sent with its token. -/
theorem streamBinding : Obligations.StreamBinding := by
  unfold Obligations.StreamBinding
  exact ⟨fun f s => strb_binds, fun f s q => stru_unbinds, fun f s => stru_traps, fun f s q => strb_traps⟩

end Sys2Proof.Machine
end

section
/-! AMO, RED, POPQ and CASN at issue: their checks and what waits in the gate (R297 to R302, R217, R396). -/
open Sys2Proof Sys2Proof.Machine Sys2Proof.Claims

namespace Sys2Proof.Machine

/-! ### The checks of an atomic's address (R283, R396) -/

section
variable {s : State} {a : Reg} {align len : Nat} {perms : List Perm} (hp : s.poisonX a = false)
include hp

/-- After the base register, the alignment, the table and the homes decide, in this order. -/
theorem chkAtomAddr_eq : s.chkAtomAddr a align len perms = (need ((s.rdX a).toNat % align == 0) 0x08 (s.rdX a)).and
    ((rangeChk perms (s.stretch (s.rdX a).toNat len)).and
      (need ((s.partsOf (s.stretch (s.rdX a).toNat len)).all (fun p => homeOf (physOf p.addr) != .host)) 0x08 (s.rdX a))) := by
  rw [State.chkAtomAddr, needCtl_clean hp, Chk.ok_and]

theorem chkAtomAddr_ok (ha : (s.rdX a).toNat % align = 0) (hr : RangePermitted s perms (s.rdX a).toNat len)
    (hh : NoHost s (s.rdX a).toNat len) : s.chkAtomAddr a align len perms = .ok := by
  simp only [chkAtomAddr_eq hp, Chk.and_ok_iff, need_ok_iff]
  exact ⟨by simpa using ha, hr, by simpa [NoHost] using hh⟩

/-- A misaligned atomic traps, and so does one of which a byte is homed in host memory. -/
theorem chkAtomAddr_trap (h : (s.rdX a).toNat % align ≠ 0 ∨ RangePermitted s perms (s.rdX a).toNat len ∧
    ¬ NoHost s (s.rdX a).toNat len) : s.chkAtomAddr a align len perms = .trap 0x08 (s.rdX a) := by
  rw [chkAtomAddr_eq hp]
  by_cases ha : (s.rdX a).toNat % align = 0
  · obtain ⟨hr, hh⟩ := h.resolve_left (not_not_intro ha)
    have hhost : (s.partsOf (s.stretch (s.rdX a).toNat len)).all (fun p => homeOf (physOf p.addr) != .host) = false := by
      simpa [NoHost] using hh
    rw [need_pass (by simpa using ha), Chk.ok_and, hr, Chk.ok_and, need_fail hhost]
  · rw [need_fail (by simpa using ha), Chk.trap_and]

end

/-! ### What an atomic leaves at issue (R345) -/

/-- The gate entry of an atomic of the op in issue. -/
def State.gateAtom (s : State) (a n : Nat) (op : AtomOp) (tok : Nat) : State :=
  s.gateFar false (s.partsOf (s.stretch a n)) { cells := [], poisoned := [], ovfs := false } (some op) tok n

theorem gateAtom_gates (s : State) (a n : Nat) (op : AtomOp) (tok : Nat) : GatesAtomic s (s.gateAtom a n op tok) a n op tok :=
  ⟨_, _, rfl, rfl, rfl, rfl, rfl, rfl, rfl, rfl⟩

theorem gateAtom_keeps (s : State) (a n : Nat) (op : AtomOp) (tok : Nat) : KeepsData s (s.gateAtom a n op tok) :=
  ⟨rfl, rfl, rfl, rfl, rfl, rfl, rfl⟩

theorem gatesAtomic_of_gate {s t u : State} {a n tok : Nat} {op : AtomOp} (h : GatesAtomic s t a n op tok)
    (hg : u.core.gate = t.core.gate) : GatesAtomic s u a n op tok := by
  obtain ⟨e, o, he, ho⟩ := h
  exact ⟨e, o, hg.trans he, ho⟩

/-- A wait for a result keeps all data. -/
theorem keepsData_interlock {s t : State} (h : KeepsData s t) (r : RegName) (id : Nat) (g : Bool) : KeepsData s (t.interlock r id g) := h

theorem keepsData_interlockTok {s t : State} (h : KeepsData s t) (tok id : Nat) (g : Bool) : KeepsData s (t.interlockTok tok id g) := by
  unfold State.interlockTok
  split
  · exact h
  · exact keepsData_interlock h _ _ _

/-! ### AMO and POPQ (R297, R300, R301) -/

/-- What AMO asks of the home: its operation on the low bits of its operands. -/
def amoAsk (f : EAAmo) (s : State) : AtomOp :=
  .amo f.op (BitVec.ofNat 64 ((s.rdX f.b).toNat % 2 ^ (8 * widthBytes f.w)))
    (BitVec.ofNat 64 ((s.rdX f.c).toNat % 2 ^ (8 * widthBytes f.w))) (s.poisonX f.b || s.poisonX f.c)

section
variable {f : EAAmo} {s : State} (hp : s.poisonX f.a = false)
include hp

theorem amo_traps (h : (s.rdX f.a).toNat % widthBytes f.w ≠ 0 ∨ RangePermitted s [.load, .store] (s.rdX f.a).toNat (widthBytes f.w) ∧
    ¬ NoHost s (s.rdX f.a).toNat (widthBytes f.w)) : Traps (.amo f) s 0x08 (s.rdX f.a) := by
  show execAmo f s = _
  rw [execAmo, chkAmo, chkAtomAddr_trap hp h, Chk.trap_and, issueOp_trap]

variable (ha : (s.rdX f.a).toNat % widthBytes f.w = 0) (hr : RangePermitted s [.load, .store] (s.rdX f.a).toNat (widthBytes f.w))
  (hh : NoHost s (s.rdX f.a).toNat (widthBytes f.w)) (hg : s.core.gate.length < 64) (hq : s.core.regs.arq.length < 16)
include ha hr hh hg hq

/-- AMO waits in the gate, its token register waits for it, and the return queue has an entry for its old value. -/
theorem exec_amo : exec (.amo f) s = .next (((s.gateAtom (s.rdX f.a).toNat (widthBytes f.w) (amoAsk f s) (s.px f.d)).interlockTok
    (s.px f.d) s.core.opId true).mapRegs (fun r => { r with arq := r.arq ++ [{ id := s.core.opId, value := none }] })) := by
  have hc : chkAmo f s = .ok := by rw [chkAmo, chkAtomAddr_ok hp ha hr hh, Chk.ok_and, needGate_room hg]
  have hgo : readyAmo s = .go := if_pos hq
  show execAmo f s = _
  rw [execAmo, hc, hgo, issueOp_go]
  rfl

theorem amo_runs :
    Runs (.amo f) s (fun t => GatesAtomic s t (s.rdX f.a).toNat (widthBytes f.w) (amoAsk f s) (s.px f.d) ∧
      t.core.regs.arq = s.core.regs.arq ++ [{ id := s.core.opId, value := none }] ∧ KeepsData s t) := by
  refine ⟨_, exec_amo hp ha hr hh hg hq, ?_, ?_, ?_⟩
  · exact gatesAtomic_of_gate (gateAtom_gates s _ _ _ _) (by rw [State.mapRegs_core_gate, State.interlockTok_gate])
  · rw [State.mapRegs_core_regs, State.interlockTok_regs]
    rfl
  · exact keepsData_interlockTok (gateAtom_keeps s _ _ _ _) (s.px f.d) s.core.opId true

end

theorem popq_oldest {g : EA} {s : State} {e : ArqEntry} {es : List ArqEntry} {v : X64} {po : Bool} (h : s.core.regs.arq = e :: es)
    (hv : e.value = some (v, po)) :
    exec (.popq g) s = .next ((s.mapRegs (fun r => { r with arq := es })).writeAfter 1 (.x (s.px g.d) v po)) := by
  have hc : chkPopq g s = .ok := by
    rw [chkPopq, h]
    exact needOwn_free (by rw [hv]; rfl)
  have hgo : readyPopq g s = .go := by
    rw [readyPopq, h]
    exact if_pos (by rw [hv]; rfl)
  show execPopq g s = _
  rw [execPopq, hc, hgo, issueOp_go, h]
  dsimp only
  rw [hv]
  rfl

theorem popq_traps {g : EA} {s : State} (h : s.core.regs.arq = []) : Traps (.popq g) s 0x0E 0 := by
  have hc : chkPopq g s = .trap 0x0E 0 := by rw [chkPopq, h]
  show execPopq g s = _
  rw [execPopq, hc, issueOp_trap]

/-! ### RED (R302) -/

section
variable {f : EARed} {s : State}

theorem redLen_word (h : f.op ≠ .bfpadd) : redLen f = widthBytes f.w := if_neg h

theorem redLen_block (h : f.op = .bfpadd) : redLen f = 256 := if_pos h

theorem chkRed_word (h : f.op ≠ .bfpadd) :
    chkRed f s = (s.chkAtomAddr f.a (widthBytes f.w) (widthBytes f.w) [.store]).and s.needGate := by
  rw [chkRed, redLen_word h, if_neg h, if_neg h, Chk.ok_and, Chk.ok_and]

theorem chkRed_block (h : f.op = .bfpadd) (hb : f.b.toNat < s.core.nV) :
    chkRed f s = (s.chkAtomAddr f.a (redLen f) (redLen f) [.store]).and ((s.chkBfpPage (s.rdX f.a).toNat).and s.needGate) := by
  rw [chkRed, if_pos h, if_pos h, needAlloc_ok (by simpa [State.hasV] using hb), Chk.ok_and]

theorem red_traps (h : f.op ≠ .bfpadd) (hp : s.poisonX f.a = false) (hr : RangePermitted s [.store] (s.rdX f.a).toNat (widthBytes f.w))
    (hh : ¬ NoHost s (s.rdX f.a).toNat (widthBytes f.w)) : Traps (.red f) s 0x08 (s.rdX f.a) := by
  show execRed f s = _
  rw [execRed, chkRed_word h, chkAtomAddr_trap hp (.inr ⟨hr, hh⟩), Chk.trap_and, issueOp_trap]

/-- What RED asks of the home: an operation on a word, or 64 lanes for a block. -/
def redAsk (f : EARed) (s : State) : AtomOp :=
  if f.op = .bfpadd then .bfp (s.rdV f.b) (s.poisonV f.b != 0)
  else .red f.op (BitVec.ofNat 64 ((s.rdX f.b).toNat % 2 ^ (8 * redLen f))) (s.poisonX f.b)

theorem red_runs (hc : chkRed f s = .ok) (hq : s.core.queued < 32) :
    Runs (.red f) s (fun t => GatesAtomic s t (s.rdX f.a).toNat (redLen f) (redAsk f s) 0 ∧ KeepsData s t) := by
  have hgo : s.readyStore = .go := if_pos hq
  refine ⟨s.gateAtom (s.rdX f.a).toNat (redLen f) (redAsk f s) 0, ?_, gateAtom_gates s _ _ _ _, gateAtom_keeps s _ _ _ _⟩
  show execRed f s = _
  rw [execRed, hc, hgo, issueOp_go]
  rfl

theorem red_word_runs (h : f.op ≠ .bfpadd) (hp : s.poisonX f.a = false) (ha : (s.rdX f.a).toNat % widthBytes f.w = 0)
    (hr : RangePermitted s [.store] (s.rdX f.a).toNat (widthBytes f.w)) (hh : NoHost s (s.rdX f.a).toNat (widthBytes f.w))
    (hg : s.core.gate.length < 64) (hq : s.core.queued < 32) :
    Runs (.red f) s (fun t => GatesAtomic s t (s.rdX f.a).toNat (widthBytes f.w)
      (.red f.op (BitVec.ofNat 64 ((s.rdX f.b).toNat % 2 ^ (8 * widthBytes f.w))) (s.poisonX f.b)) 0 ∧ KeepsData s t) := by
  have hc : chkRed f s = .ok := by rw [chkRed_word h, chkAtomAddr_ok hp ha hr hh, Chk.ok_and, needGate_room hg]
  have hrun := red_runs hc hq
  rwa [redAsk, if_neg h, redLen_word h] at hrun

theorem red_block_runs (h : f.op = .bfpadd) (hb : f.b.toNat < s.core.nV) (hp : s.poisonX f.a = false)
    (ha : (s.rdX f.a).toNat % redLen f = 0) (hr : RangePermitted s [.store] (s.rdX f.a).toNat (redLen f))
    (hh : NoHost s (s.rdX f.a).toNat (redLen f)) (hpage : s.chkBfpPage (s.rdX f.a).toNat = .ok) (hg : s.core.gate.length < 64)
    (hq : s.core.queued < 32) :
    Runs (.red f) s (fun t => GatesAtomic s t (s.rdX f.a).toNat (redLen f) (.bfp (s.rdV f.b) (s.poisonV f.b != 0)) 0 ∧
      KeepsData s t) := by
  have hc : chkRed f s = .ok := by
    rw [chkRed_block h hb, chkAtomAddr_ok hp ha hr hh, Chk.ok_and, hpage, Chk.ok_and, needGate_room hg]
  have hrun := red_runs hc hq
  rwa [redAsk, if_pos h] at hrun

end

/-! ### CASN (R217) -/

section
variable {f : EACasn} {s : State} (hp : s.poisonX f.a = false) (hr : RangePermitted s [.load, .store] (s.rdX f.a).toNat 16)
include hp hr

theorem casn_traps (hh : ¬ NoHost s (s.rdX f.a).toNat 16) : Traps (.casn f) s 0x08 (s.rdX f.a) := by
  show execCasn f s = _
  rw [execCasn, chkCasn, chkAtomAddr_trap hp (.inr ⟨hr, hh⟩), Chk.trap_and, issueOp_trap]

theorem casn_runs (ha : (s.rdX f.a).toNat % 16 = 0) (hh : NoHost s (s.rdX f.a).toNat 16) (hg : s.core.gate.length < 64) :
    Runs (.casn f) s (fun t => GatesAtomic s t (s.rdX f.a).toNat 16
        (.casn (s.rdN f.b.toNat) (s.rdN f.h.toNat) f.live f.b.toNat (s.rdN f.b.toNat)) (s.px f.d) ∧
      (∃ i ∈ t.core.inter, i.reg = .n f.b.toNat ∧ i.id = s.core.opId ∧ i.gated = true) ∧ KeepsData s t) := by
  have hc : chkCasn f s = .ok := by rw [chkCasn, chkAtomAddr_ok hp ha hr hh, Chk.ok_and, needGate_room hg]
  let u := s.gateAtom (s.rdX f.a).toNat 16 (.casn (s.rdN f.b.toNat) (s.rdN f.h.toNat) f.live f.b.toNat (s.rdN f.b.toNat)) (s.px f.d)
  refine ⟨(u.interlockTok (s.px f.d) s.core.opId true).interlock (.n f.b.toNat) s.core.opId true, ?_, ?_, ?_, ?_⟩
  · show execCasn f s = _
    rw [execCasn, hc, issueOp_go]
    rfl
  · exact gatesAtomic_of_gate (gateAtom_gates s _ _ _ _) (by rw [State.interlock_gate, State.interlockTok_gate])
  · exact ⟨_, List.mem_append_right _ (List.mem_singleton.2 rfl), rfl, rfl, rfl⟩
  · exact keepsData_interlock (keepsData_interlockTok (gateAtom_keeps s _ _ _ _) _ _ _) _ _ _

end

/-! ### The values of AMO (R298, R299) -/

theorem memOp_min_signed (w old b : Nat) : signedOf w (MemOp.apply .min w old b) = min (signedOf w old) (signedOf w b) := by
  rw [MemOp.apply]
  split <;> omega

theorem memOp_max_signed (w old b : Nat) : signedOf w (MemOp.apply .max w old b) = max (signedOf w old) (signedOf w b) := by
  rw [MemOp.apply]
  split <;> omega

theorem memOp_minu (w old b : Nat) : MemOp.apply .minu w old b = min old b := by
  rw [MemOp.apply]
  split <;> omega

theorem memOp_maxu (w old b : Nat) : MemOp.apply .maxu w old b = max old b := by
  rw [MemOp.apply]
  split <;> omega

theorem addb_eq (old v bound : Nat) :
    addb old v bound = if bound < old then (old, 13) else if old + v ≤ bound then (old + v, 0) else (bound, 12) := by
  rw [addb]
  by_cases h : bound < old
  · rw [if_pos h, if_pos h]
  · rw [if_neg h, if_neg h]
    by_cases hv : old + v ≤ bound
    · rw [if_neg (by omega), if_pos hv]
    · rw [if_pos (by omega), if_neg hv]

/-! ### The obligation -/

/-- Settles O31: each op by its checks and the entry that it takes in the gate; each operation of AMO by its equation. -/
theorem atomics : Obligations.Atomics := by
  unfold Obligations.Atomics
  refine ⟨fun f s => ⟨amo_runs, amo_traps, fun g e es v po => popq_oldest, fun g => popq_traps⟩,
    ⟨fun f s h hp ha hr => ⟨red_traps h hp hr, red_word_runs h hp ha hr⟩, fun f s => red_block_runs,
      fun f s hp ha hr => ⟨casn_traps hp hr, casn_runs hp hr ha⟩⟩, fun w old b c _ _ _ _ => ?_⟩
  exact ⟨rfl, rfl, rfl, rfl, rfl, rfl, memOp_min_signed w old b, memOp_max_signed w old b,
    congrArg (·, 0) (memOp_minu w old b), congrArg (·, 0) (memOp_maxu w old b), rfl, addb_eq old b c⟩

end Sys2Proof.Machine
end

section
/-! What a copy engine does with a raw run whose bytes all answer (R278, R284, R286). -/
open Sys2Proof Sys2Proof.Machine Sys2Proof.Claims

namespace Sys2Proof.Machine

/-! ### A store of bytes at separate places -/

/-- A clean store at places of which no two are one: each holds its byte, and no other byte of memory changes. -/
theorem Memory.byte_store_separate {m : Memory} (h : m.wf = true) (place : Nat → Nat) (v : Nat → Byte) {n : Nat}
    (hp : ∀ o, o < n → ∀ q, q < n → q ≠ o → place q ≠ place o) :
    (∀ o, o < n → (m.store ((List.range n).map (fun i => (place i, v i))) []).byte (place o) = v o) ∧
      OnlyAt m (m.store ((List.range n).map (fun i => (place i, v i))) []) place n := by
  simp only [OnlyAt, Memory.byte_store_clean]
  induction n with
  | zero => exact ⟨fun o ho => absurd ho (Nat.not_lt_zero o), fun _ _ => rfl⟩
  | succ n ih =>
    obtain ⟨hsame, honly⟩ := ih fun o ho q hq => hp o (by omega) q (by omega)
    have hset : ∀ c, (((List.range (n + 1)).map (fun i => (place i, v i))).foldl (fun m q => m.setByte q.1 q.2) m).byte c =
        if c = place n then v n else (((List.range n).map (fun i => (place i, v i))).foldl (fun m q => m.setByte q.1 q.2) m).byte c :=
      fun c => by
        rw [List.range_succ, List.map_append, List.foldl_append]
        exact Memory.byte_setByte (Memory.foldl_wf _ (fun m q hm => Memory.setByte_wf q.1 q.2 hm) _ m h) _ _ _
    refine ⟨fun o ho => ?_, fun c hc => ?_⟩
    · rw [hset]
      by_cases hon : o = n
      · rw [hon, if_pos rfl]
      · rw [if_neg (hp n (by omega) o ho hon), hsame o (by omega)]
    · rw [hset, if_neg (hc n (by omega)), honly c fun i hi => hc i (by omega)]

/-! ### Writes to separate places -/

/-- One write more, latest first: it is a last one where its place is new. -/
def addWrite (acc : List (Nat × (Byte × Bool)) × List Nat) (w : Nat × (Byte × Bool)) : List (Nat × (Byte × Bool)) × List Nat :=
  if setHas acc.2 w.1 then acc else (w :: acc.1, setAdd acc.2 w.1)

theorem lastWrites_eq_foldl (l : List (Nat × (Byte × Bool))) : lastWrites l = (l.foldl addWrite ([], [])).1 := rfl

/-- Writes to places that are new and not one another's are all last ones. -/
theorem foldl_addWrite (l : List (Nat × (Byte × Bool))) : ∀ (acc : List (Nat × (Byte × Bool))) (seen : List Nat), setWf 0 seen = true →
    (∀ w ∈ l, setHas seen w.1 = false) → (l.map (·.1)).Nodup → (l.foldl addWrite (acc, seen)).1 = l.reverse ++ acc := by
  induction l with
  | nil => exact fun _ _ _ _ _ => rfl
  | cons w l ih =>
    intro acc seen hs hnew hnd
    obtain ⟨hw, hl⟩ := List.nodup_cons.1 hnd
    have hadd : addWrite (acc, seen) w = (w :: acc, setAdd seen w.1) :=
      if_neg (by rw [hnew w List.mem_cons_self]; exact Bool.false_ne_true)
    have hrest : ∀ x ∈ l, setHas (setAdd seen w.1) x.1 = false := fun x hx => by
      have hne : x.1 ≠ w.1 := fun he => hw (List.mem_map.2 ⟨x, hx, he⟩)
      rw [setHas_setAdd hs, if_neg hne, hnew x (List.mem_cons_of_mem _ hx)]
    rw [List.foldl_cons, hadd, ih _ _ (setAdd_wf seen 0 w.1 (Nat.zero_le _) hs) hrest hl, List.reverse_cons, List.append_assoc,
      List.singleton_append]

/-- Of writes to separate places each is the last one. -/
theorem lastWrites_separate {l : List (Nat × (Byte × Bool))} (h : (l.map (·.1)).Nodup) : lastWrites l = l.reverse := by
  rw [lastWrites_eq_foldl, foldl_addWrite l [] [] rfl (fun _ _ => rfl) h, List.append_nil]

theorem lowestCode_zeros {l : List Nat} (h : ∀ c ∈ l, c = 0) : lowestCode l = 0 := by
  have hf : l.filter (fun c => c != 0) = [] := List.filter_eq_nil_iff.2 fun c hc => by simp [h c hc]
  rw [lowestCode, hf, List.foldl_nil]

/-! ### A raw run, byte by byte (R284, R286) -/

/-- Where byte `o` of a run is read. -/
def CopyRun.srcAt (r : CopyRun) (s : State) (o : Nat) : Nat := (s.byteHome r.src o).1

/-- Where byte `o` of a raw run is written. -/
def CopyRun.dstAt (r : CopyRun) (s : State) (o : Nat) : Nat := (s.byteHome r.dst o).1

/-- The write that byte `o` of a raw run comes to where it is clean. -/
def CopyRun.moved (r : CopyRun) (s : State) (o : Nat) : Nat × (Byte × Bool) := (r.dstAt s o, (s.mem.byte (r.srcAt s o), false))

section
variable {s : State} {c : CopyCmd} {r : CopyRun}

theorem CopyCmd.units_raw (hr : c.runs = [r]) (hraw : isRaw c.t r.fs = true) :
    c.units = (List.range r.len).map (fun i => (r, [i], i)) := by
  rw [CopyCmd.units, hr, List.map_cons, List.map_nil, List.flatten_cons, List.flatten_nil, List.append_nil, if_pos hraw,
    unitsOf, if_pos rfl, zipIdx_map_range, List.map_map]
  rfl

/-- A source byte that the copy has not written is read as memory holds it. -/
theorem CopyDone.read_unwritten {d : CopyDone} {a : Nat} (h : ∀ w ∈ d.written, w.1 ≠ a) :
    d.read s a = (s.mem.byte a, s.mem.poisoned a) := by
  have hf : d.written.find? (fun w => w.1 == a) = none := List.find?_eq_none.2 fun w hw => by simpa using h w hw
  rw [CopyDone.read, hf]

/-- A unit of a raw run is one byte: it is written as it is, and the engine meets no status. -/
theorem copyUnit_raw (hraw : isRaw c.t r.fs = true) (h : CopyClean s r r.len) {d : CopyDone}
    (hd : ∀ o, o < r.len → ∀ w ∈ d.written, w.1 ≠ r.srcAt s o) {k : Nat} (hk : k < r.len) :
    copyUnit s c r d k [k] = { written := r.moved s k :: d.written, codes := 0 :: d.codes, ovfs := d.ovfs } := by
  obtain ⟨hsrc, hdst⟩ := h
  obtain ⟨hanswers, hclean⟩ := hsrc k hk
  obtain ⟨htakes, -, -⟩ := hdst k hk
  have hread : d.read s (s.byteHome r.src k).1 = (s.mem.byte (r.srcAt s k), false) := by
    refine (CopyDone.read_unwritten (hd k hk)).trans ?_
    rw [CopyRun.srcAt, hclean]
  have hcode : lowestCode [(s.byteHome r.src k).2] = 0 := lowestCode_zeros (by simpa using hanswers)
  simp [copyUnit, hcode, hraw, hread, convertUnit, htakes, CopyRun.moved, CopyRun.dstAt]

/-- What a raw run has come to once some of its bytes are moved. -/
def movedBytes (r : CopyRun) (s : State) (ks : List Nat) : CopyDone :=
  { written := (ks.map (r.moved s)).reverse, codes := List.replicate ks.length 0, ovfs := false }

/-- A raw run's bytes moved in any order, each added to those before it. -/
theorem foldl_copyUnit_raw (hraw : isRaw c.t r.fs = true) (h : CopyClean s r r.len) (ks : List Nat) (hks : ∀ k ∈ ks, k < r.len) :
    (ks.map (fun i => (r, [i], i))).foldl (fun d u => copyUnit s c u.1 d u.2.2 u.2.1) { written := [], codes := [], ovfs := false } =
      movedBytes r s ks := by
  induction ks using List.reverseRecOn with
  | nil => rfl
  | append_singleton ks k ih =>
    have hlt : ∀ k ∈ ks, k < r.len := fun i hi => hks i (List.mem_append_left _ hi)
    have hun : ∀ o, o < r.len → ∀ w ∈ (movedBytes r s ks).written, w.1 ≠ r.srcAt s o := by
      intro o ho w hw
      obtain ⟨i, hi, rfl⟩ := List.mem_map.1 (List.mem_reverse.1 hw)
      obtain ⟨-, happart, -⟩ := h.2 i (hlt i hi)
      exact (happart o ho).symm
    rw [List.map_append, List.foldl_append, ih hlt]
    refine (copyUnit_raw hraw h hun (hks k (by simp))).trans ?_
    simp [movedBytes, List.replicate_succ]

/-- Upwards or downwards, a raw run comes to the same. -/
theorem copyAll_raw (hr : c.runs = [r]) (hraw : isRaw c.t r.fs = true) (h : CopyClean s r r.len) :
    copyAll s c = movedBytes r s (List.range r.len) := by
  have hdown : c.units.reverse = (List.range r.len).reverse.map (fun i => (r, [i], i)) := by
    rw [CopyCmd.units_raw hr hraw, List.map_reverse]
  unfold copyAll
  by_cases hup : (Config.freeByte s.freeCtr 0).getLsbD 1 = true
  · simp only [hup, if_true, CopyCmd.units_raw hr hraw, foldl_copyUnit_raw hraw h _ (fun k => List.mem_range.1)]
  · simp only [hup, Bool.false_eq_true, if_false, hdown,
      foldl_copyUnit_raw hraw h _ (fun k hk => List.mem_range.1 (List.mem_reverse.1 hk))]
    simp [movedBytes]

/-! ### The copy is performed (R278) -/

/-- Every byte of memory after a copy is that of the engine's store: tags, OVFS and charges change none. -/
theorem performCopy_byte (s : State) (k : Nat) (c : CopyCmd) (a : Nat) :
    (s.performCopy k c).1.mem.byte a = (s.mem.store ((lastWrites (copyAll s c).written).map (fun q => (q.1, q.2.1)))
      (((lastWrites (copyAll s c).written).filter (fun q => q.2.2)).map (·.1))).byte a := by
  have htags : ∀ (regions : CopyRun → List Nat) (u : State), (c.runs.foldl (fun (t : State) r => (regions r).foldl (fun (t : State) g =>
      t.mapMem (fun m => m.setTag g (c.tag r).1 (c.tag r).2)) t) u).mem.byte a = u.mem.byte a := fun regions u =>
    List.foldlRecOn (motive := fun t : State => t.mem.byte a = u.mem.byte a) _ _ rfl fun t ht r _ =>
      List.foldlRecOn (motive := fun t : State => t.mem.byte a = u.mem.byte a) _ _ ht fun _ hv _ _ => hv
  have hstore : ∀ (t : State) (b : Bool) reads, (((if b then t.sysOf k SysRegs.setOvfs else t).chargeBytes k reads)).mem = t.mem :=
    fun t b reads => by
      rw [State.chargeBytes_mem]
      split
      · exact t.sysOf_mem _ _
      · rfl
  simp only [State.performCopy, hstore, htags, State.bump_mem, State.engineStore_mem]

theorem performCopy_token (s : State) (k : Nat) (c : CopyCmd) :
    (s.performCopy k c).2 = token (lowestCode (copyAll s c).codes) (copyAll s c).written.length := rfl

/-- A raw run leaves the source's bytes at the destination and changes no other byte; its token is OK with the count of bytes written. -/
theorem performCopy_raw (k : Nat) (hw : s.mem.wf = true) (hr : c.runs = [r]) (hraw : isRaw c.t r.fs = true) (h : CopyClean s r r.len) :
    (∀ o, o < r.len → (s.performCopy k c).1.mem.byte (r.dstAt s o) = s.mem.byte (r.srcAt s o)) ∧
      OnlyAt s.mem (s.performCopy k c).1.mem (r.dstAt s) r.len ∧ (s.performCopy k c).2 = token 0 r.len := by
  have hsep : ∀ o, o < r.len → ∀ q, q < r.len → q ≠ o → r.dstAt s q ≠ r.dstAt s o := fun o ho => (h.2 o ho).2.2
  have hlast : lastWrites (copyAll s c).written = (List.range r.len).map (r.moved s) := by
    rw [copyAll_raw hr hraw h, movedBytes, lastWrites_separate, List.reverse_reverse]
    rw [List.map_reverse, List.nodup_reverse, List.map_map]
    refine List.Nodup.map_on (fun q hq o ho he => ?_) List.nodup_range
    by_contra hne
    exact hsep o (List.mem_range.1 ho) q (List.mem_range.1 hq) hne he
  have hclean : ((List.range r.len).map (r.moved s)).filter (fun q => q.2.2) = [] :=
    List.filter_eq_nil_iff.2 fun q hq => by obtain ⟨i, -, rfl⟩ := List.mem_map.1 hq; exact Bool.false_ne_true
  have hbyte : ∀ a, (s.performCopy k c).1.mem.byte a =
      (s.mem.store ((List.range r.len).map (fun i => (r.dstAt s i, s.mem.byte (r.srcAt s i)))) []).byte a := fun a => by
    rw [performCopy_byte, hlast, hclean, List.map_nil, List.map_map]
    rfl
  obtain ⟨hat, honly⟩ := Memory.byte_store_separate hw (r.dstAt s) (fun i => s.mem.byte (r.srcAt s i)) hsep
  refine ⟨fun o ho => (hbyte _).trans (hat o ho), fun a ha => (hbyte a).trans (honly a ha), ?_⟩
  rw [performCopy_token, copyAll_raw hr hraw h, movedBytes, lowestCode_zeros fun c hc => (List.mem_replicate.1 hc).2]
  simp

end

end Sys2Proof.Machine
end

section
/-! Engine commands that end, the rick engine and the replies to SVC (R278 to R281, R324, R356). -/
open Sys2Proof Sys2Proof.Machine Sys2Proof.Claims

namespace Sys2Proof.Machine

/-! ### A command is over (R278) -/

section
variable (s : State) (e : Engine) (v : X64)

/-- The token that a command writes lands, and its end takes nothing back. -/
theorem State.finishEngine_lands : TokenLands s (s.finishEngine e v) e.tok e.id v := fun ht =>
  lands_mono (s.deliverTok_lands e.tok e.id v ht) (fun _ h => h) (fun _ h => h) fun _ w g hw hg => ⟨w, g, hw, hg, fun _ hj => hj⟩

theorem State.deliver_engs (id : Nat) (r : RegName) (d : Dest) : (s.deliver id r d).core.engs = s.core.engs := by
  cases hf : s.core.inter.find? (fun i => i.id == id && i.reg == r) with
  | none => rw [State.deliver_saved s id r d hf]; rfl
  | some i => rw [State.deliver_core s id r d hf]; rfl

theorem State.deliverTok_engs (tok id : Nat) : (s.deliverTok tok id v false).core.engs = s.core.engs := by
  unfold State.deliverTok
  split
  · rfl
  · exact s.deliver_engs _ _ _

theorem State.deliverTok_ricks (tok id : Nat) : (s.deliverTok tok id v false).dev.ricks = s.dev.ricks := by
  unfold State.deliverTok
  split
  · rfl
  · obtain ⟨-, ss, hd⟩ := s.deliver_frame id (.x tok) (.x tok v false)
    rw [hd]

theorem State.finishEngine_drops : (s.finishEngine e v).core.engs = s.core.engs.filter (fun o => o.id != e.id) :=
  congrArg (List.filter (fun o : Engine => o.id != e.id)) (s.deliverTok_engs v e.tok e.id)

theorem State.finishEngine_regs : (s.finishEngine e v).core.regs = s.core.regs := (s.deliverTok_frame e.tok e.id v).2.2

/-- A command without a token register ends alone. -/
theorem State.finishEngine_untold (h : e.tok = 0) :
    s.finishEngine e v = s.mapCore (fun c => { c with engs := c.engs.filter (fun o => o.id != e.id) }) := by
  rw [State.finishEngine, State.deliverTok, if_pos h]

end

/-! ### ENGINE_TOKEN_WRITE and RICK_ENGINE_APPLY (R278, R324) -/

section
variable {s : State} {k : Nat} {e : Engine} (hk : s.core.engs[k]? = some e)
include hk

theorem exec_engineTokenWrite_done {v : X64} (hd : e.done = some v) : exec (.engineTokenWrite k) s = .next (s.finishEngine e v) := by
  show execEngineTokenWrite k s = _
  rw [execEngineTokenWrite, hk]
  dsimp only
  rw [hd]

theorem exec_engineTokenWrite_copy {c : CopyCmd} (hd : e.done = none) (hc : e.cmd = .copy c) (hr : s.engineReady e = true) :
    exec (.engineTokenWrite k) s = .next ((s.performCopy e.strand c).1.finishEngine e (s.performCopy e.strand c).2) := by
  show execEngineTokenWrite k s = _
  simp only [execEngineTokenWrite, hk, hd, hr, hc, State.runEngine, Bool.not_true, Bool.false_eq_true, if_false]

/-- A raw copy that has forked leaves its source's bytes at its destination, and its token lands. -/
theorem engineTokenWrite_raw {c : CopyCmd} {r : CopyRun} (hd : e.done = none) (hc : e.cmd = .copy c) (hg : s.engineReady e = true)
    (hw : s.mem.wf = true) (hr : c.runs = [r]) (hraw : isRaw c.t r.fs = true) (h : CopyClean s r r.len) :
    Runs (.engineTokenWrite k) s (fun t => TokenLands (s.performCopy e.strand c).1 t e.tok e.id (token 0 r.len) ∧
      (∀ o, o < r.len → t.mem.byte (s.byteHome r.dst o).1 = s.mem.byte (s.byteHome r.src o).1) ∧
      OnlyAt s.mem t.mem (fun o => (s.byteHome r.dst o).1) r.len) := by
  obtain ⟨hbytes, honly, htok⟩ := performCopy_raw e.strand hw hr hraw h
  refine ⟨_, exec_engineTokenWrite_copy hk hd hc hg, ?_, ?_, ?_⟩
  · rw [htok]
    exact State.finishEngine_lands _ e _
  · rw [State.finishEngine_mem]
    exact hbytes
  · rw [State.finishEngine_mem]
    exact honly

theorem exec_rickEngineApply {c : RickCmd} (hc : e.cmd = .rick c) (hr : s.rickReady e = true) :
    exec (.rickEngineApply k) s =
      .next (((s.shieldGate e ((reportSpan c).take (8 * s.reportWords c))).performRick e.strand c).1.finishEngine e
        ((s.shieldGate e ((reportSpan c).take (8 * s.reportWords c))).performRick e.strand c).2) := by
  show execRickEngineApply k s = _
  simp only [execRickEngineApply, hk, hc, hr, if_true]

/-- A command on a rick that is gone has the token GONE, and changes neither memory nor a rick. -/
theorem rickEngineApply_gone {c : RickCmd} (hc : e.cmd = .rick c) (hr : s.rickReady e = true) (hg : s.rick? c.rick = none) :
    Runs (.rickEngineApply k) s (fun t => TokenLands s t e.tok e.id (token 1 0) ∧ t.mem = s.mem ∧ t.dev.ricks = s.dev.ricks) := by
  let u := s.shieldGate e ((reportSpan c).take (8 * s.reportWords c))
  have hgone : u.performRick e.strand c = (u, token 1 0) := by
    have hu : u.rick? c.rick = none := hg
    rw [State.performRick, hu]
  have he := exec_rickEngineApply hk hc hr
  rw [hgone] at he
  refine ⟨_, he, ?_, u.finishEngine_mem e _, u.deliverTok_ricks _ _ _⟩
  exact tokenLands_of_waitsAlike (u.finishEngine_lands e _) (.of_eq rfl rfl)

end

/-! ### SVC_REPLY (R356) -/

theorem exec_svcReply {s : State} {q : Nat × Nat × BitVec 16 × X64} {rest : List (Nat × Nat × BitVec 16 × X64)} {j : Nat}
    (hs : s.dev.svc = q :: rest) (hw : s.svcWaiter q.1 q.2.1 = some j) (reply : Option X64) :
    exec (.svcReply reply) s = .next ((s.mapDev (fun d => { d with svc := rest })).answerWait j (reply.getD (token 11 0))) := by
  show execSvcReply reply s = _
  simp only [execSvcReply, hs, hw]

theorem Dev.setStrand_other (d : Dev) {i k : Nat} (f : Strand → Strand) (h : i ≠ k) : (d.setStrand k f).strands[i]? = d.strands[i]? := by
  rw [Dev.setStrand, List.getElem?_map, List.getElem?_zipIdx]
  cases d.strands[i]? with
  | none => rfl
  | some u => simp [h]

section
variable {s : State} {k : Nat} (v : X64)

/-- The answer to the wait of the strand on the core. -/
theorem State.answerWait_running (h : s.core.running = some k) :
    (s.answerWait k v).core.iss.waits = none ∧ (s.answerWait k v).core.regs = Dest.apply (.x s.core.iss.waitReg v false) s.core.regs ∧
      (s.answerWait k v).dev = s.dev := by
  rw [State.answerWait, if_pos h]
  exact ⟨rfl, rfl, rfl⟩

/-- The answer to the wait of a strand that has left the core. -/
theorem State.answerWait_saved (h : s.core.running ≠ some k) :
    (s.answerWait k v).core = s.core ∧ (∀ i, i ≠ k → (s.answerWait k v).dev.strands[i]? = s.dev.strands[i]?) ∧
      ∀ u, s.dev.strands[k]? = some u → ∃ q, (s.answerWait k v).dev.strands[k]? = some q ∧ q.waits = none ∧
        q.regs = Dest.apply (.x u.waitReg v false) u.regs ∧ q.state = (if u.state = .waiting then .runnable else u.state) := by
  rw [State.answerWait, if_neg h]
  exact ⟨rfl, fun i hi => Dev.setStrand_other _ _ hi, fun u hu => ⟨_, Dev.setStrand_get _ _ hu, rfl, rfl, rfl⟩⟩

end

/-! ### The obligation -/

/-- Settles O56: each event by its equation, and every token by the delivery that ends its command. -/
theorem engineEvents : Obligations.EngineEvents := by
  unfold Obligations.EngineEvents
  refine ⟨fun u e v => ?_, fun u tok m v => ?_, fun s k e =>
    ⟨fun v hk hd => ⟨_, exec_engineTokenWrite_done hk hd, rfl, s.finishEngine_lands e v⟩,
      fun c r hk hd hc => engineTokenWrite_raw hk hd hc, fun c hk hc hr hg _ => rickEngineApply_gone hk hc hr hg,
      fun c hk hd hc => exec_engineTokenWrite_copy hk hd hc, fun c hk hc => exec_rickEngineApply hk hc,
      fun tn n code v rest j r hs hw => ?_⟩⟩
  · refine ⟨u.finishEngine_lands e v, u.finishEngine_drops e v, u.finishEngine_mem e v, u.finishEngine_regs e v, fun h => ?_⟩
    rw [u.finishEngine_untold e v h]
    exact ⟨rfl, rfl, rfl⟩
  · obtain ⟨w, hw⟩ := u.sendCmd_done tok m v
    refine ⟨⟨u.engineDone tok m v, ?_, rfl, rfl, rfl, rfl⟩, u.sendCmd_waits m v, u.sendCmd_untold m v, ?_⟩
    · rw [hw]
      rfl
    · rw [hw]
      exact ⟨rfl, rfl, rfl, rfl⟩
  · intro answered
    have hanswered : ∀ w, answered ((s.mapDev (fun d => { d with svc := rest })).answerWait j w) w := fun w =>
      ⟨State.answerWait_svc _ _ _, State.answerWait_mem _ _ _,
        fun h => by
          obtain ⟨hwaits, hregs, hdev⟩ := State.answerWait_running (s := s.mapDev (fun d => { d with svc := rest })) w h
          exact ⟨hwaits, hregs, by rw [hdev]; rfl⟩,
        fun h => State.answerWait_saved (s := s.mapDev (fun d => { d with svc := rest })) w h⟩
    exact ⟨⟨_, exec_svcReply hs hw (some r), hanswered r⟩, _, exec_svcReply hs hw none, hanswered (token 11 0)⟩

end Sys2Proof.Machine
end

section
/-! A rick and its segments: what a change of one segment leaves, and the rick that the device then finds under the name (R314 to R316). -/
open Sys2Proof Sys2Proof.Machine Sys2Proof.Claims

namespace Sys2Proof.Machine

/-! ### Ricks by name (R324) -/

theorem State.name_of_rick? {s : State} {nm : ClaimName} {r : Rick} (h : s.rick? nm = some r) : r.name = nm :=
  eq_of_beq (List.find?_some (p := fun k : Rick => k.name == nm) h)

/-- A rick that is replaced by one of its own name is the new one. -/
theorem State.rick?_setRick {s : State} {nm : ClaimName} {r r' : Rick} (h : s.rick? nm = some r) (hn : r'.name = r.name) :
    (s.setRick r').rick? nm = some r' := by
  have hnm : r'.name = nm := hn.trans (State.name_of_rick? h)
  have hp : (fun o : Rick => (if o.name == r'.name then r' else o).name == nm) = fun o => o.name == nm := by
    funext o
    by_cases ho : o.name = nm <;> simp [ho, hnm]
  show (s.dev.ricks.map (fun o => if o.name == r'.name then r' else o)).find? (fun o => o.name == nm) = some r'
  rw [List.find?_map, Function.comp_def, hp, show s.dev.ricks.find? (fun o => o.name == nm) = some r from h, Option.map_some,
    State.name_of_rick? h, hnm, beq_self_eq_true, if_pos rfl]

theorem State.rick?_of_ricks_eq {s t : State} (h : t.dev.ricks = s.dev.ricks) (nm : ClaimName) : t.rick? nm = s.rick? nm :=
  congrArg (List.find? (fun k : Rick => k.name == nm)) h

@[simp] theorem State.sysOf_ricks (s : State) (k : Nat) (f : SysRegs → SysRegs) : (s.sysOf k f).dev.ricks = s.dev.ricks := by
  unfold State.sysOf; split <;> rfl

@[simp] theorem State.engineStore_ricks (s : State) (cells : List Host.Cell) (pois : List Nat) :
    (s.engineStore cells pois).dev.ricks = s.dev.ricks := by
  obtain ⟨cs, h⟩ := s.storeAt_dev cells pois
  rw [State.engineStore, h]

/-! ### What a command ends with -/

section
variable {s t : State} {k st cnt : Nat} {c : RickCmd} {r r' : Rick}

/-- A command that leaves the ricks as they were. -/
theorem rickEnds_of_same (hr : s.rick? c.rick = some r) (hp : s.performRick k c = (t, token st cnt)) (ht : t.dev.ricks = s.dev.ricks) :
    RickEnds s k c r st cnt :=
  ⟨by rw [hp]; exact (State.rick?_of_ricks_eq ht _).trans hr, by rw [hp]⟩

/-- A command that replaces its rick, with or without other effects on the state. -/
theorem rickEnds_of_set (hr : s.rick? c.rick = some r) (hp : s.performRick k c = (t.setRick r', token st cnt))
    (ht : t.dev.ricks = s.dev.ricks) (hn : r'.name = r.name) : RickEnds s k c r' st cnt :=
  ⟨by rw [hp]; exact State.rick?_setRick ((State.rick?_of_ricks_eq ht _).trans hr) hn, by rw [hp]⟩

end

/-! ### A change of one segment -/

theorem Rick.seg?_setSeg (k : Rick) (n : Nat) (f : Segment → Segment) (i : Nat) :
    (k.setSeg n f).seg? i = if i = n then (k.seg? i).map f else k.seg? i := by
  simp only [Rick.seg?, Rick.setSeg, List.getElem?_map, List.getElem?_zipIdx, Nat.zero_add, Option.map_map, Function.comp_def, beq_iff_eq]
  by_cases h : i = n <;> simp [h]

theorem Rick.seg?_setSeg_same {k : Rick} {n : Nat} {g : Segment} (h : k.seg? n = some g) (f : Segment → Segment) :
    (k.setSeg n f).seg? n = some (f g) := by
  rw [Rick.seg?_setSeg, if_pos rfl, h, Option.map_some]

theorem Rick.seg?_setSeg_other (k : Rick) {n i : Nat} (h : i ≠ n) (f : Segment → Segment) : (k.setSeg n f).seg? i = k.seg? i := by
  rw [Rick.seg?_setSeg, if_neg h]

@[simp] theorem Rick.setSeg_length (k : Rick) (n : Nat) (f : Segment → Segment) : (k.setSeg n f).segs.length = k.segs.length := by
  simp [Rick.setSeg]

theorem Rick.seg?_lt {k : Rick} {n : Nat} {g : Segment} (h : k.seg? n = some g) : n < k.segs.length :=
  (List.getElem?_eq_some_iff.1 h).1

theorem Rick.setSeg_segs {k : Rick} {n : Nat} {g : Segment} (h : k.seg? n = some g) (f : Segment → Segment) :
    (k.setSeg n f).segs = k.segs.set n (f g) := by
  refine List.ext_getElem? fun i => (k.seg?_setSeg n f i).trans ?_
  by_cases hi : i = n
  · rw [if_pos hi, hi, h, List.getElem?_set_self (Rick.seg?_lt h), Option.map_some]
  · rw [if_neg hi, List.getElem?_set_ne (Ne.symm hi)]
    rfl

/-- Bytes that a segment's runs count for (R314). -/
def Segment.used (g : Segment) : Nat := (g.runs.map Run.used).sum

theorem Rick.used_eq_sum (k : Rick) : k.used = (k.segs.map Segment.used).sum := rfl

/-- USED changes by what the segment's own runs count for. -/
theorem Rick.used_setSeg {k : Rick} {n : Nat} {g : Segment} (h : k.seg? n = some g) {f : Segment → Segment} {d : Nat}
    (hf : (f g).used = g.used + d) : (k.setSeg n f).used = k.used + d := by
  obtain ⟨hn, hg⟩ := List.getElem?_eq_some_iff.1 h
  have hsplit : k.used = ((k.segs.map Segment.used).take n).sum + (g.used + ((k.segs.map Segment.used).drop (n + 1)).sum) := by
    rw [Rick.used_eq_sum, ← List.sum_take_add_sum_drop _ n, List.drop_eq_getElem_cons (by simpa using hn), List.sum_cons,
      List.getElem_map, hg]
  rw [hsplit, Rick.used_eq_sum, Rick.setSeg_segs h, List.map_set, List.sum_set, if_pos (by simpa using hn), hf]
  omega

/-! ### The current run of a segment (R315) -/

theorem Segment.top_of_layers {g : Segment} {l : Layer} {ls : List Layer} (h : g.layers = l :: ls) : g.top = l.run := by
  rw [Segment.top, h]; rfl

theorem Segment.setTop_of_layers {g : Segment} {l : Layer} {ls : List Layer} (h : g.layers = l :: ls) (f : Run → Run) :
    g.setTop f = { g with layers := { l with run := f l.run } :: ls } := by
  simp only [Segment.setTop, h]

theorem Rick.opens_of_seg {k : Rick} {n : Nat} (h : k.opens n = true) : ∃ g, k.seg? n = some g := by
  unfold Rick.opens at h
  split at h
  · next g hg => exact ⟨g, hg⟩
  · cases h

end Sys2Proof.Machine
end

section
/-! The rick ops: each with its checks passed sends its command to the gate (R323 to R331). -/
open Sys2Proof Sys2Proof.Machine Sys2Proof.Claims

namespace Sys2Proof.Machine

/-! ### The common checks (R324) -/

/-- A queue that has room has room for the commands of the op's own interval too. -/
theorem needRoom_free {s : State} {p : Cmd → Bool} {n : Nat} (h : s.cmds p < n) : s.needRoom p n = .ok := by
  refine needOwn_free (decide_eq_false (Nat.not_le.2 (Nat.lt_of_le_of_lt ?_ h)))
  exact Nat.le_add_left _ _

theorem chkRickPlace_ok {s : State} {r : Reg} (h : RickAddr s r) : s.chkRickPlace r = .ok := by
  obtain ⟨-, hlt, hal⟩ := h
  exact need_pass (by simp [hlt, hal]) _ _

/-- Of a ready op, the checks of its bases and its own are left. -/
theorem chkRick_ready {s : State} {h : BitVec 4} {a : Reg} (hr : RickReady s h a) (bases : List Reg) (own : Chk) :
    s.chkRick h a bases own = (bases.foldl (fun (k : Chk) r => k.and (s.needCtl r)) Chk.ok).and
      (own.and (s.needGate.and (s.needRoom Cmd.isRick 8))) := by
  obtain ⟨hk, ha, -, -⟩ := hr
  rw [State.chkRick, needHandle, need_pass (by simpa using hk), Chk.ok_and, need_pass (by simpa using ha), Chk.ok_and]

theorem chkRick_pass {s : State} {h : BitVec 4} {a : Reg} (hr : RickReady s h a) {bases : List Reg} {own : Chk}
    (hb : ∀ r ∈ bases, s.poisonX r = false) (ho : own = .ok) : s.chkRick h a bases own = .ok := by
  obtain ⟨-, -, hg, hq⟩ := id hr
  have hbases : bases.foldl (fun (k : Chk) r => k.and (s.needCtl r)) Chk.ok = .ok := by
    induction bases with
    | nil => rfl
    | cons r rs ih =>
      rw [List.foldl_cons, needCtl_clean (hb r (by simp)), Chk.ok_and]
      exact ih fun q hq => hb q (by simp [hq])
  rw [chkRick_ready hr, hbases, ho, needGate_room hg, needRoom_free hq]
  rfl

/-- An invalid handle traps before any other check (R12). -/
theorem chkRick_invalid {s : State} {h : BitVec 4} (hk : s.rdK h.toNat = .invalid) (a : Reg) (bases : List Reg) (own : Chk) :
    s.chkRick h a bases own = .trap 0x0F 0 := by
  rw [State.chkRick, needHandle, need_fail (by simpa using hk), Chk.trap_and]

theorem readyRoom_go {s : State} {p : Cmd → Bool} {n : Nat} (h : s.cmds p < n) : s.readyRoom p n = .go := if_pos h

/-- A dead handle's command names no rick (R215). -/
theorem State.gateRick_eq (s : State) (d : Reg) (h : BitVec 4) (seg : X64) (op : RickOp) :
    s.gateRick d h seg op = s.gateCmd (s.px d) (.rick { rick := rickOf s h, seg := seg.toNat, op := op }) := by
  unfold State.gateRick rickOf
  cases s.rdK h.toNat <;> rfl

/-- What the four ops on a segment do once their checks are worked out. -/
theorem issueRick_gates {s : State} {h : BitVec 4} {a d : Reg} (hr : RickReady s h a) {chk : Chk} (hc : chk = .ok) (op : RickOp) :
    issueOp s chk (s.readyRoom Cmd.isRick 8) (fun s => s.gateRick d h (s.rdX a) op) =
      .next (s.gateCmd (s.px d) (.rick { rick := rickOf s h, seg := (s.rdX a).toNat, op := op })) := by
  obtain ⟨-, -, -, hq⟩ := hr
  rw [hc, readyRoom_go hq, issueOp_go, State.gateRick_eq]

/-! ### POPT, MARKR, SPLITR and JOINR -/

section
variable {f : EA} {s : State}

theorem markr_commands (h : RickReady s f.h f.a) :
    Commands (.markr f) s f.d (.rick { rick := rickOf s f.h, seg := (s.rdX f.a).toNat, op := .mark }) :=
  issueRick_gates h (chkRick_pass h (by simp) rfl) .mark

theorem joinr_commands (h : RickReady s f.h f.a) :
    Commands (.joinr f) s f.d (.rick { rick := rickOf s f.h, seg := (s.rdX f.a).toNat, op := .join (s.rdX f.b).toNat }) :=
  issueRick_gates h (chkRick_pass h (by simp) rfl) (.join (s.rdX f.b).toNat)

theorem splitr_commands (h : RickReady s f.h f.a) (h2 : 2 ≤ (s.rdX f.b).toNat) (h8 : (s.rdX f.b).toNat ≤ 8) :
    Commands (.splitr f) s f.d (.rick { rick := rickOf s f.h, seg := (s.rdX f.a).toNat, op := .split (s.rdX f.b).toNat }) :=
  issueRick_gates h (chkRick_pass h (by simp) (need_pass (by simp [h2, h8]) _ _)) (.split (s.rdX f.b).toNat)

theorem popt_commands (h : RickReady s f.h f.a) (hb : RickAddr s f.b) :
    Commands (.popt f) s f.d (.rick { rick := rickOf s f.h, seg := (s.rdX f.a).toNat, op := .pop (s.rdX f.b).toNat }) :=
  issueRick_gates h (chkRick_pass h (by simpa using hb.1) (chkRickPlace_ok hb)) (.pop (s.rdX f.b).toNat)

/-- A child count outside 2 to 8 traps (R329). -/
theorem splitr_traps (h : RickReady s f.h f.a) (hn : ¬ (2 ≤ (s.rdX f.b).toNat ∧ (s.rdX f.b).toNat ≤ 8)) :
    Traps (.splitr f) s 0x08 (s.rdX f.b) := by
  have hc : chkSplitr f s = .trap 0x08 (s.rdX f.b) := by
    rw [chkSplitr, chkRick_ready h, need_fail (by simpa [Bool.and_eq_false_iff, or_iff_not_imp_left] using hn)]
    rfl
  show execSplitr f s = _
  rw [execSplitr, hc, issueOp_trap]

theorem rickOps_invalid (h : s.rdK f.h.toNat = .invalid) :
    Traps (.popt f) s 0x0F 0 ∧ Traps (.markr f) s 0x0F 0 ∧ Traps (.splitr f) s 0x0F 0 ∧ Traps (.joinr f) s 0x0F 0 := by
  refine ⟨?_, ?_, ?_, ?_⟩
  · show execPopt f s = _
    rw [execPopt, chkPopt, chkRick_invalid h, issueOp_trap]
  · show execMarkr f s = _
    rw [execMarkr, chkMarkr, chkRick_invalid h, issueOp_trap]
  · show execSplitr f s = _
    rw [execSplitr, chkSplitr, chkRick_invalid h, issueOp_trap]
  · show execJoinr f s = _
    rw [execJoinr, chkJoinr, chkRick_invalid h, issueOp_trap]

end

/-! ### PUSHT (R325) -/

theorem chkPusht_ok {f : EAPush} {s : State} (h : RickReady s f.h f.a)
    (hc : if f.skip then chkPushSkip f s = .ok else s.poisonX f.b = false ∧ chkPushSource f s = .ok) : chkPusht f s = .ok := by
  unfold chkPusht
  cases hs : f.skip with
  | false =>
    obtain ⟨hp, hsrc⟩ : s.poisonX f.b = false ∧ chkPushSource f s = .ok := by simpa [hs] using hc
    exact chkRick_pass h (by simpa using hp) hsrc
  | true => exact chkRick_pass h (by simp) (by simpa [hs] using hc)

/-- The command that PUSHT sends: what it captures at issue. -/
def pushCmd (f : EAPush) (s : State) : RickOp :=
  .push f.skip (f.len.toNat * 256) f.t (s.rdX f.b).toNat (pushTag f s).1 (pushTag f s).2 (decide (f.scl ≠ .none))
    { s.snap .dyn with k := f.scl.exp (s.snap .dyn).k }

theorem exec_pusht {f : EAPush} {s : State} (h : RickReady s f.h f.a)
    (hc : if f.skip then chkPushSkip f s = .ok else s.poisonX f.b = false ∧ chkPushSource f s = .ok) :
    exec (.pusht f) s = .next (s.gateCmd (s.px f.d)
      (.rick { rick := rickOf s f.h, seg := (s.rdX f.a).toNat, op := pushCmd f s })).takeSeq := by
  obtain ⟨-, -, -, hq⟩ := id h
  show execPusht f s = _
  rw [execPusht, chkPusht_ok h hc, readyRoom_go hq, issueOp_go]
  dsimp only
  rw [State.gateRick_eq]
  rfl

/-! ### RICKQ (R331) -/

section
variable {f : EA} {s : State} (ha : RickAddr s f.a) (hl : (s.rdX f.a).toNat + 2112 ≤ lsSize) (hq : s.cmds Cmd.isRick < 8)
include ha hl hq

theorem rickq_opens {c : Claim} (hr : s.resolve s.core.tenant (s.rdN f.b.toNat) = some c) (ht : c.ty = .rick) :
    exec (.rickq f) s = .next (((s.fillCache (s.rdN f.b.toNat)).writeAfter 1 (.k f.h.toNat (.valid (s.rdN f.b.toNat)))).sendCmd
      (s.px f.d) (.rick { rick := s.rdN f.b.toNat, seg := 0, op := .query (s.rdX f.a).toNat }) none).bump := by
  have hc : chkRickq f s = .ok := by
    simp only [chkRickq, needCtl_clean ha.1, chkRickPlace_ok ha, need_pass (decide_eq_true hl), hr, need_pass (decide_eq_true ht),
      needRoom_free hq, Chk.ok_and]
  show execRickq f s = _
  rw [execRickq, hc, readyRoom_go hq, issueOp_go]
  simp only [hr]

theorem rickq_gone (hr : s.resolve s.core.tenant (s.rdN f.b.toNat) = none) :
    exec (.rickq f) s = .next (((s.learn (s.rdN f.b.toNat)).writeAfter 1 (.k f.h.toNat .invalid)).sendCmd (s.px f.d)
      (.resolve (s.rdN f.b.toNat) .rick) (some (token 1 0))).bump := by
  have hc : chkRickq f s = .ok := by
    simp only [chkRickq, needCtl_clean ha.1, chkRickPlace_ok ha, need_pass (decide_eq_true hl), hr, needRoom_free hq, Chk.ok_and]
  show execRickq f s = _
  rw [execRickq, hc, readyRoom_go hq, issueOp_go]
  simp only [hr]

end

end Sys2Proof.Machine
end

section
/-! MARKR, SPLITR and JOINR at the rick engine (R328 to R330). -/
open Sys2Proof Sys2Proof.Machine Sys2Proof.Claims

namespace Sys2Proof.Machine

/-! ### The three commands by their answers -/

section
variable {s : State} {k : Nat} {c : RickCmd} {r r' : Rick} {st cnt : Nat} (hr : s.rick? c.rick = some r)
include hr

theorem mark_ends (hop : c.op = .mark) (hq : r.mark c.seg = (r', st, cnt)) (hn : r'.name = r.name) : RickEnds s k c r' st cnt := by
  refine rickEnds_of_set (t := s) hr ?_ rfl hn
  rw [State.performRick, hr]
  simp only [hop, hq]

theorem split_ends {n : Nat} (hop : c.op = .split n) (hq : r.split c.seg n = (r', st, cnt)) (hn : r'.name = r.name) :
    RickEnds s k c r' st cnt := by
  refine rickEnds_of_set (t := s) hr ?_ rfl hn
  rw [State.performRick, hr]
  simp only [hop, hq]

theorem join_ends {n : Nat} (hop : c.op = .join n) (hq : r.join c.seg n = (r', st, cnt)) (hn : r'.name = r.name) :
    RickEnds s k c r' st cnt := by
  refine rickEnds_of_set (t := s) hr ?_ rfl hn
  rw [State.performRick, hr]
  simp only [hop, hq]

end

/-! ### MARKR (R328) -/

theorem Rick.mark_shut {k : Rick} {n : Nat} (h : k.opens n = false) : k.mark n = (k, 11, 0) := by
  unfold Rick.mark
  split
  · simp [h]
  · rfl

theorem Rick.mark_full {k : Rick} {n : Nat} (h : k.opens n = true) (hm : 256 ≤ k.marks.length) : k.mark n = (k, 9, 0) := by
  obtain ⟨g, hg⟩ := Rick.opens_of_seg h
  simp [Rick.mark, hg, h, hm]

theorem Rick.mark_notes {k : Rick} {n : Nat} {g : Segment} (h : k.opens n = true) (hg : k.seg? n = some g) (hm : k.marks.length < 256) :
    k.mark n = ({ k with marks := k.marks ++
      [{ seg := n, run := g.top.id, depth := g.top.depth, pos := g.top.words.length, lanes := g.top.lanes }] }, 0, g.top.depth) := by
  simp [Rick.mark, hg, h, Nat.not_le.2 hm]

/-! ### Closing a run (R314) -/

theorem closeCost_eq (q : Run) : closeCost q = if q.closed = false ∧ q.depth ≠ 0 then 256 else 0 := by
  simp [closeCost]

theorem Run.used_closeRun (q : Run) : (closeRun q).used = q.used + closeCost q := by
  simp only [Run.used, closeRun, closeCost]
  cases q.closed <;> simp

@[simp] theorem Run.used_fresh (i : Nat) : (Run.fresh i).used = 0 := rfl

theorem Segment.used_closeTop (g : Segment) : (g.setTop closeRun).used = g.used + closeCost g.top := by
  cases h : g.layers with
  | nil =>
    have htop : g.top = Run.fresh 0 := by rw [Segment.top, h]; rfl
    have hset : g.setTop closeRun = g := by simp only [Segment.setTop, h]
    rw [hset, htop]
    rfl
  | cons l ls =>
    rw [Segment.setTop_of_layers h, Segment.top_of_layers h]
    simp only [Segment.used, Segment.runs, h, List.map_cons, List.sum_cons, Run.used_closeRun]
    omega

/-! ### SPLITR (R329) -/

/-- A segment that SPLITR splits: its run is closed, and a node with the children lies above it, under an empty run. -/
def splitSegment (run : Nat) (kids : List Nat) (g : Segment) : Segment :=
  { g.setTop closeRun with state := .split, layers := { run := Run.fresh run, children := kids } :: (g.setTop closeRun).layers }

/-- A child that SPLITR opens. -/
def childSegment (parent run : Nat) : Segment :=
  { state := .open, parent := parent, owed := 0, layers := [{ run := Run.fresh run, children := [] }] }

/-- The rick after a SPLITR that is neither shut nor full. -/
def Rick.splitInto (k : Rick) (n count : Nat) : Rick :=
  { k.setSeg n (splitSegment k.nextRun ((List.range count).map (fun i => k.segs.length + i))) with
    segs := (k.setSeg n (splitSegment k.nextRun ((List.range count).map (fun i => k.segs.length + i)))).segs ++
      (List.range count).map (fun i => childSegment n (k.nextRun + 1 + i)),
    nextRun := k.nextRun + 1 + count }

theorem Rick.split_shut {k : Rick} {n : Nat} (h : k.opens n = false) (count : Nat) : k.split n count = (k, 11, 0) := by
  unfold Rick.split
  split
  · simp [h]
  · rfl

section
variable {k : Rick} {n count : Nat} {g : Segment} (h : k.opens n = true) (hg : k.seg? n = some g)
include h hg

theorem Rick.split_full (hf : 256 < k.segs.length + count ∨ k.capacity < k.used + closeCost g.top) : k.split n count = (k, 9, 0) := by
  have hb : (decide (256 < k.segs.length + count) || decide (k.capacity < k.used + closeCost g.top)) = true := by simpa using hf
  simp only [Rick.split, hg, h, Bool.not_true, Bool.false_eq_true, if_false]
  exact if_pos hb

theorem Rick.split_opens (hn : k.segs.length + count ≤ 256) (hc : k.used + closeCost g.top ≤ k.capacity) :
    k.split n count = (k.splitInto n count, 0, k.segs.length) := by
  have hb : (decide (256 < k.segs.length + count) || decide (k.capacity < k.used + closeCost g.top)) = false := by
    simp [Nat.not_lt.2 hn, Nat.not_lt.2 hc]
  simp only [Rick.split, hg, h, Bool.not_true, Bool.false_eq_true, if_false]
  exact if_neg (by rw [hb]; exact Bool.false_ne_true)

end

section
variable {k : Rick} {n : Nat} {g : Segment} (hg : k.seg? n = some g) (count : Nat)

theorem Rick.splitInto_length (k : Rick) (n count : Nat) : (k.splitInto n count).segs.length = k.segs.length + count := by
  simp [Rick.splitInto]

/-- The new segments count for no bytes. -/
theorem childSegments_used (parent run count : Nat) :
    (((List.range count).map (fun i => childSegment parent (run + i))).map Segment.used).sum = 0 := by
  rw [List.map_map, List.sum_eq_zero]
  intro x hx
  obtain ⟨i, -, rfl⟩ := List.mem_map.1 hx
  rfl

theorem splitSegment_used (run : Nat) (kids : List Nat) (g : Segment) : (splitSegment run kids g).used = g.used + closeCost g.top := by
  rw [← Segment.used_closeTop]
  simp [splitSegment, Segment.used, Segment.runs]

/-- The children take the next numbers. -/
theorem Rick.splitInto_child {i : Nat} (hi : i < count) :
    (k.splitInto n count).seg? (k.segs.length + i) = some (childSegment n (k.nextRun + 1 + i)) := by
  simp only [Rick.splitInto, Rick.seg?]
  rw [List.getElem?_append_right (by simp)]
  simp [hi]

include hg

theorem Rick.splitInto_used : (k.splitInto n count).used = k.used + closeCost g.top := by
  rw [← Rick.used_setSeg hg (splitSegment_used k.nextRun ((List.range count).map (fun i => k.segs.length + i)) g)]
  simp only [Rick.used_eq_sum, Rick.splitInto, List.map_append, List.sum_append, childSegments_used, Nat.add_zero]

theorem Rick.splitInto_parent :
    (k.splitInto n count).seg? n = some (splitSegment k.nextRun ((List.range count).map (fun i => k.segs.length + i)) g) := by
  simp only [Rick.splitInto, Rick.seg?]
  rw [List.getElem?_append_left (by simpa using Rick.seg?_lt hg)]
  exact Rick.seg?_setSeg_same hg _

end

/-! ### JOINR (R330) -/

/-- A child that JOINR seals. -/
def sealSegment (g : Segment) : Segment := { g.setTop closeRun with state := .sealed }

/-- The children of the node at the top of a segment. -/
def Segment.kids (g : Segment) : List Nat := ((g.layers.head?).map (·.children)).getD []

def Rick.sealAll (k : Rick) (kids : List Nat) : Rick := kids.foldl (fun (k : Rick) c => k.setSeg c sealSegment) k

/-- The rick after a JOINR that is neither shut nor full. -/
def Rick.joined (k : Rick) (n : Nat) (kids : List Nat) : Rick := (k.sealAll kids).setSeg n (fun g => { g with state := .open })

/-- A JOINR is shut out by the segment's state, by the child count or by a child that is split itself. -/
def JoinShut (k : Rick) (g : Segment) (count : Nat) : Prop :=
  g.state ≠ .split ∨ g.kids.length ≠ count ∨ ∃ i ∈ g.kids, (k.seg? i).map (·.state) = some .split

theorem joinShut_iff (k : Rick) (g : Segment) (count : Nat) : JoinShut k g count ↔
    (g.state != .split || g.kids.length != count || (g.kids.filterMap k.seg?).any (fun c => c.state == .split)) = true := by
  simp only [JoinShut, Bool.or_eq_true, bne_iff_ne, List.any_filterMap, List.any_eq_true, or_assoc]
  refine or_congr_right (or_congr_right (exists_congr fun i => and_congr_right fun _ => ?_))
  cases k.seg? i <;> simp

/-- What closing the children's runs costs. -/
def joinCost (k : Rick) (g : Segment) : Nat := ((g.kids.filterMap k.seg?).map (fun c => closeCost c.top)).sum

section
variable {k : Rick} {n count : Nat} {g : Segment} (hg : k.seg? n = some g)
include hg

theorem Rick.join_shut (h : JoinShut k g count) : k.join n count = (k, 11, 0) := by
  rw [joinShut_iff] at h
  simp only [Rick.join, hg]
  exact if_pos h

theorem Rick.join_full (h : ¬ JoinShut k g count) (hc : k.capacity < k.used + joinCost k g) : k.join n count = (k, 9, 0) := by
  rw [joinShut_iff] at h
  simp only [Rick.join, hg]
  exact (if_neg h).trans (if_pos hc)

theorem Rick.join_seals (h : ¬ JoinShut k g count) (hc : k.used + joinCost k g ≤ k.capacity) :
    k.join n count = (k.joined n g.kids, 0, 0) := by
  rw [joinShut_iff] at h
  simp only [Rick.join, hg]
  exact (if_neg h).trans (if_neg (Nat.not_lt.2 hc))

end

@[simp] theorem Rick.sealAll_name (kids : List Nat) : ∀ k : Rick, (k.sealAll kids).name = k.name := by
  induction kids with
  | nil => exact fun _ => rfl
  | cons c cs ih => exact fun k => ih (k.setSeg c sealSegment)

theorem Rick.sealAll_other {i : Nat} (kids : List Nat) : ∀ k : Rick, i ∉ kids → (k.sealAll kids).seg? i = k.seg? i := by
  induction kids with
  | nil => exact fun _ _ => rfl
  | cons c cs ih =>
    intro k hi
    obtain ⟨hc, hcs⟩ : i ≠ c ∧ i ∉ cs := by simpa using hi
    exact (ih (k.setSeg c sealSegment) hcs).trans (k.seg?_setSeg_other hc _)

theorem Rick.sealAll_mem {i : Nat} (kids : List Nat) : ∀ k : Rick, i ∈ kids →
    ((k.sealAll kids).seg? i).map (·.state) = (k.seg? i).map (fun _ => .sealed) := by
  induction kids with
  | nil => exact fun _ h => absurd h (by simp)
  | cons c cs ih =>
    intro k hi
    have hmap : ((k.setSeg c sealSegment).seg? i).map (fun _ => SegState.sealed) = (k.seg? i).map (fun _ => .sealed) := by
      rw [Rick.seg?_setSeg]
      split
      · exact Option.map_map ..
      · rfl
    by_cases hcs : i ∈ cs
    · exact (ih (k.setSeg c sealSegment) hcs).trans hmap
    · obtain rfl : i = c := (List.mem_cons.1 hi).resolve_right hcs
      show (((k.setSeg i sealSegment).sealAll cs).seg? i).map (·.state) = _
      rw [Rick.sealAll_other cs _ hcs, Rick.seg?_setSeg, if_pos rfl, Option.map_map]
      rfl

/-- Sealing allocates no segment and frees none. -/
theorem Rick.sealAll_isSome {i : Nat} (kids : List Nat) : ∀ k : Rick, ((k.sealAll kids).seg? i).isSome = (k.seg? i).isSome := by
  induction kids with
  | nil => exact fun _ => rfl
  | cons c cs ih =>
    intro k
    refine (ih (k.setSeg c sealSegment)).trans ?_
    rw [Rick.seg?_setSeg]
    split <;> simp

section
variable {k : Rick} {n : Nat} (kids : List Nat)

theorem Rick.joined_parent {g : Segment} (hg : k.seg? n = some g) : ((k.joined n kids).seg? n).map (·.state) = some .open := by
  obtain ⟨q, hq⟩ := Option.isSome_iff_exists.1 ((Rick.sealAll_isSome kids k).trans (by rw [hg]; rfl : (k.seg? n).isSome = true))
  rw [Rick.joined, Rick.seg?_setSeg_same hq]
  rfl

theorem Rick.joined_child {i : Nat} (hi : i ∈ kids) (hn : i ≠ n) :
    ((k.joined n kids).seg? i).map (·.state) = (k.seg? i).map (fun _ => .sealed) := by
  rw [Rick.joined, Rick.seg?_setSeg_other _ hn, Rick.sealAll_mem kids k hi]

theorem Rick.joined_other {i : Nat} (hi : i ∉ kids) (hn : i ≠ n) : (k.joined n kids).seg? i = k.seg? i := by
  rw [Rick.joined, Rick.seg?_setSeg_other _ hn, Rick.sealAll_other kids k hi]

end

end Sys2Proof.Machine
end

section
/-! PUSHT at the rick engine: the tile that it reads from the local store, and what the segment's run becomes (R325). -/
open Sys2Proof Sys2Proof.Machine Sys2Proof.Claims

namespace Sys2Proof.Machine

/-! ### A tile moved as it is (R284) -/

theorem flatten_map_singleton {α β : Type} (f : α → β) (l : List α) : (l.map (fun x => [f x])).flatten = l.map f :=
  List.map_eq_flatMap.symm

/-- The tile of a raw move is the source's bytes, and carries their poison. -/
theorem State.pushedTile_raw (s : State) {t fs : Fmt} (h : isRaw t fs = true) (len src : Nat) (gs : Geo) (sc : Bool) (n : Snap) :
    (s.pushedTile len t src fs gs sc n).1 =
        { t := fs, g := gs, len := len, bytes := (List.range len).map (fun o => s.mem.byte (ownLs (src + o))) } ∧
      (s.pushedTile len t src fs gs sc n).2.1 = (List.range len).any (fun o => s.mem.poisoned (ownLs (src + o))) := by
  simp only [State.pushedTile, pushSource, h, if_true, unitsOf, convertUnit, zipIdx_map_range, List.map_map, Function.comp_def,
    List.map_cons, List.map_nil, flatten_map_singleton, BitVec.ofNat_toNat, BitVec.setWidth_eq]
  exact ⟨trivial, by simp [List.any_map, Function.comp_def]⟩

/-! ### A tile of converted elements (R284) -/

/-- The bytes of units that each become one piece. -/
theorem flatten_bytes {F : Nat → List UnitOut} {G : Nat → List Nat} (h : ∀ i, (F i).map (·.bytes) = [G i]) (m : Nat) :
    ((((List.range m).map F).flatten).map (·.bytes)).flatten = ((List.range m).map G).flatten := by
  rw [List.map_flatten, List.map_map]
  simp only [Function.comp_def, h, flatten_map_singleton]

/-- Elements take whole bytes. -/
theorem elemBytes_pos {t : Fmt} (h : isElem t = true) : 0 < elemBytes t := by
  revert h; cases t <;> decide

theorem ne_bfp64_of_isElem {t : Fmt} (h : isElem t = true) : t ≠ .bfp64 := by
  rintro rfl; exact absurd h (by decide)

/-- A list that is one group. -/
theorem groupsOf_length {α : Type} {xs : List α} (h : xs ≠ []) : groupsOf xs.length xs.length xs = [xs] := by
  obtain ⟨x, ys, rfl⟩ := List.exists_cons_of_ne_nil h
  have hnil : ∀ m, groupsOf (ys.length + 1) m ([] : List α) = [] := fun m => by cases m <;> rfl
  rw [List.length_cons, groupsOf, if_neg (by simp), List.take_of_length_le (by simp), List.drop_of_length_le (by simp), hnil]

/-- Element `e` of a push's source, converted with its draw: `u` are the source element's bits. -/
def pushElem (t fs : Fmt) (sc : Bool) (n : Snap) (e u : Nat) : Rounded :=
  (copySpec t fs sc n).elem u (srDraw n.draw (e % 2 ^ 32)) (decodeElem fs u)

section
variable {t fs : Fmt} (hne : isRaw t fs = false) (ht : isElem t = true) (hfs : isElem fs = true)
include hne ht hfs

/-- A unit of one element becomes the bytes of its conversion. -/
theorem convertUnit_elem (gs : Geo) (sc : Bool) (n : Snap) (e : Nat) {bs : List (Nat × Bool)} (hb : bs.length = elemBytes fs) :
    (convertUnit t fs gs sc n e bs).map (·.bytes) =
      [lanesOf 8 (elemBytes t) (pushElem t fs sc n e (ofLanes 8 (bs.map (·.1)))).bits] := by
  obtain ⟨-, htfs⟩ : t ≠ .raw ∧ t ≠ fs := by simpa [isRaw] using hne
  have hnil : bs.map (·.1) ≠ [] := by
    rw [ne_eq, List.map_eq_nil_iff, ← List.length_eq_zero_iff, hb]
    exact (elemBytes_pos hfs).ne'
  have hgroup : groupsOf (elemBytes fs) (bs.map (·.1)).length (bs.map (·.1)) = [bs.map (·.1)] := by
    rw [← hb, ← List.length_map (f := (·.1)) (as := bs)]
    exact groupsOf_length hnil
  simp only [convertUnit, if_neg htfs, isSx_of_isElem ht, unitValues, isSx_of_isElem hfs, Bool.false_eq_true, if_false,
    if_neg (ne_bfp64_of_isElem hfs), hgroup]
  rfl

/-- Element `i` of the source at `src` is converted from the number of its bytes. -/
theorem convertUnit_source (s : State) (src : Nat) (gs : Geo) (sc : Bool) (n : Snap) (i : Nat) :
    (convertUnit t fs gs sc n i (((List.range (elemBytes fs)).map (fun j => elemBytes fs * i + j)).map
        (fun o => ((s.mem.byte (ownLs (src + o))).toNat, s.mem.poisoned (ownLs (src + o)))))).map (·.bytes) =
      [(List.range (elemBytes t)).map (fun j => (pushElem t fs sc n i
        (numAt s.mem (fun j => ownLs (src + i * elemBytes fs + j)) (elemBytes fs))).bits / 256 ^ j % 256)] := by
  have hnum : ofLanes 8 ((((List.range (elemBytes fs)).map (fun j => elemBytes fs * i + j)).map
      (fun o => ((s.mem.byte (ownLs (src + o))).toNat, s.mem.poisoned (ownLs (src + o))))).map (·.1)) =
      numAt s.mem (fun j => ownLs (src + i * elemBytes fs + j)) (elemBytes fs) := by
    rw [List.map_map, List.map_map, numAt, ← natOfBytes_map_range, ← ofLanes_bytes, List.map_map]
    refine congrArg _ (List.map_congr_left fun j _ => ?_)
    simp only [Function.comp_apply]
    rw [Nat.mul_comm, Nat.add_assoc]
  rw [convertUnit_elem hne ht hfs gs sc n i (by simp), lanesOf_eq_map, hnum]
  refine congrArg (fun l => [l]) (List.map_congr_left fun j _ => ?_)
  rw [pow_mul]
  rfl

/-- The units of such a source are its elements. -/
theorem unitsOf_elem (gs : Geo) (m : Nat) : unitsOf t fs gs (m * elemBytes fs) =
    (List.range m).map (fun i => (List.range (elemBytes fs)).map (fun j => elemBytes fs * i + j)) := by
  obtain ⟨-, htfs⟩ : t ≠ .raw ∧ t ≠ fs := by simpa [isRaw] using hne
  simp only [unitsOf, if_neg htfs, sourceUnit, isSx_of_isElem hfs, isSx_of_isElem ht, Bool.false_and, Bool.false_eq_true, if_false,
    if_neg (ne_bfp64_of_isElem hfs), span, Nat.mul_div_cancel _ (elemBytes_pos hfs)]

omit hne ht in
theorem sourceElems_elem (gs : Geo) : sourceElems fs gs (elemBytes fs) = 1 := by
  simp only [sourceElems, isSx_of_isElem hfs, Bool.false_eq_true, if_false, if_neg (ne_bfp64_of_isElem hfs)]
  exact Nat.div_self (elemBytes_pos hfs)

theorem pushSource_elem (gs : Geo) (m : Nat) : pushSource t fs gs (m * elemBytes t) = m * elemBytes fs := by
  simp only [pushSource, hne, isSx_of_isElem ht, isSx_of_isElem hfs, Bool.false_eq_true, if_false, if_neg (ne_bfp64_of_isElem hfs),
    Nat.mul_div_cancel _ (elemBytes_pos ht)]

/-- The tile of a conversion between elements: each element's bytes in their order, packed. -/
theorem State.pushedTile_elem (s : State) (m src : Nat) (gs : Geo) (sc : Bool) (n : Snap) :
    (s.pushedTile (m * elemBytes t) t src fs gs sc n).1 =
        { t := t, g := .packed, len := m * elemBytes t,
          bytes := (List.range (elemBytes t * m)).map (fun o => BitVec.ofNat 8 ((pushElem t fs sc n (o / elemBytes t)
            (numAt s.mem (fun j => ownLs (src + o / elemBytes t * elemBytes fs + j)) (elemBytes fs))).bits / 256 ^ (o % elemBytes t))) } ∧
      (s.pushedTile (m * elemBytes t) t src fs gs sc n).2.1 =
        (List.range (elemBytes fs * m)).any (fun o => s.mem.poisoned (ownLs (src + o))) := by
  have hunit : sourceUnit t fs gs = elemBytes fs := by
    simp only [sourceUnit, isSx_of_isElem ht, isSx_of_isElem hfs, Bool.false_eq_true, if_false, if_neg (ne_bfp64_of_isElem hfs)]
  simp only [State.pushedTile, hne, Bool.false_eq_true, if_false, pushSource_elem hne ht hfs, unitsOf_elem hne ht hfs, hunit,
    sourceElems_elem hfs, zipIdx_map_range, Nat.mul_one]
  refine ⟨congrArg _ ?_, ?_⟩
  · rw [List.map_map, Function.comp_def, flatten_bytes fun i => convertUnit_source hne ht hfs s src gs sc n i,
      flatten_map_range (elemBytes_pos ht), List.map_map]
    refine List.map_congr_left fun o _ => ?_
    exact BitVec.eq_of_toNat_eq (by simp)
  · rw [← List.any_flatten, flatten_map_range (elemBytes_pos hfs)]
    simp only [Nat.div_add_mod, List.map_id']

/-- Byte `i` of element `e` of the tile. -/
theorem State.pushedTile_elem_byte (s : State) (src : Nat) (gs : Geo) (sc : Bool) (n : Snap) {m e i : Nat} (he : e < m)
    (hi : i < elemBytes t) :
    ((s.pushedTile (m * elemBytes t) t src fs gs sc n).1.bytes.getD (e * elemBytes t + i) 0).toNat =
      (pushElem t fs sc n e (numAt s.mem (fun j => ownLs (src + e * elemBytes fs + j)) (elemBytes fs))).bits / 256 ^ i % 256 := by
  have hlt : e * elemBytes t + i < elemBytes t * m := by
    calc e * elemBytes t + i < (e + 1) * elemBytes t := by rw [Nat.succ_mul]; omega
      _ ≤ elemBytes t * m := by rw [Nat.mul_comm]; exact Nat.mul_le_mul_left _ he
  have hdiv : (e * elemBytes t + i) / elemBytes t = e := by
    rw [Nat.mul_comm, Nat.mul_add_div (elemBytes_pos ht), Nat.div_eq_of_lt hi, Nat.add_zero]
  have hmod : (e * elemBytes t + i) % elemBytes t = i := by
    rw [Nat.mul_comm, Nat.mul_add_mod, Nat.mod_eq_of_lt hi]
  rw [(s.pushedTile_elem hne ht hfs m src gs sc n).1, getD_map_range _ hlt, hdiv, hmod]
  exact BitVec.toNat_ofNat ..

end

/-! ### The push (R325) -/

/-- The coder of a segment's current run after a tile of either kind. -/
def Rick.codes (k : Rick) (g : Segment) (skip : Bool) (x : Tile) : Coder :=
  if skip then g.top.coder.pushSkip x else g.top.coder.pushTile k.tables x

/-- Bytes that the tile takes. -/
def Rick.storedBytes (k : Rick) (g : Segment) (skip : Bool) (x : Tile) : Nat :=
  4 * ((k.codes g skip x).words.length - g.top.words.length)

section
variable {k : Rick} {n : Nat} {g : Segment} (h : k.opens n = true) (hg : k.seg? n = some g) {skip : Bool} {x : Tile}
include h hg

theorem Rick.push_full (hc : k.capacity < k.used + k.storedBytes g skip x) : k.push n skip x = (k, 9, 0) := by
  simp only [Rick.push, hg, h, Bool.not_true, Bool.false_eq_true, if_false]
  exact if_pos hc

theorem Rick.push_stores (hc : k.used + k.storedBytes g skip x ≤ k.capacity) : k.push n skip x =
    ({ k.setSeg n (fun g' => g'.setTop (fun q => { q with lanes := (k.codes g skip x).lanes, words := (k.codes g skip x).words,
                                                           depth := q.depth + 1 })) with pushed := k.pushed + 1 },
      0, k.storedBytes g skip x) := by
  simp only [Rick.push, hg, h, Bool.not_true, Bool.false_eq_true, if_false]
  exact if_neg (Nat.not_lt.2 hc)

end

/-- The tile of a push: of a SKIP its header alone, of another what it reads. -/
def tileToPush (skip : Bool) (len : Nat) (t : Fmt) (x : Tile) : Tile :=
  if skip then { t := t, g := .packed, len := len, bytes := [] } else x

theorem Rick.codes_tileToPush (k : Rick) (g : Segment) (skip : Bool) (len : Nat) (t : Fmt) (x : Tile) :
    k.codes g skip (tileToPush skip len t x) =
      if skip then g.top.coder.pushSkip { t := t, g := .packed, len := len, bytes := [] } else g.top.coder.pushTile k.tables x := by
  cases skip <;> simp [Rick.codes, tileToPush]

section
variable {s : State} {k : Nat} {c : RickCmd} {r : Rick} {skip sc : Bool} {len src : Nat} {t fs : Fmt} {gs : Geo} {n : Snap}
  (hr : s.rick? c.rick = some r) (hop : c.op = .push skip len t src fs gs sc n)
include hr hop

theorem push_ends_shut (h : r.opens c.seg = false) : RickEnds s k c r 11 0 := by
  refine rickEnds_of_same (t := s) hr ?_ rfl
  rw [State.performRick, hr]
  simp only [hop, h, Bool.not_false, if_true]

/-- The state that a conversion leaves, its OVFS set or not, has the same ricks. -/
theorem push_ends_poison (h : r.opens c.seg = true) (hs : skip = false) (hx : (s.pushedTile len t src fs gs sc n).2.1 = true) :
    RickEnds s k c r 3 0 := by
  refine rickEnds_of_same (t := if (s.pushedTile len t src fs gs sc n).2.2 then s.sysOf k SysRegs.setOvfs else s) hr ?_ ?_
  · rw [State.performRick, hr]
    simp only [hop, h, hs, hx, Bool.not_true, Bool.false_eq_true, if_false, if_true]
  · split
    · exact s.sysOf_ricks k _
    · rfl

theorem push_ends {r' : Rick} {st cnt : Nat} (h : r.opens c.seg = true)
    (hx : skip = true ∨ (s.pushedTile len t src fs gs sc n).2.1 = false)
    (hq : r.push c.seg skip (tileToPush skip len t (s.pushedTile len t src fs gs sc n).1) = (r', st, cnt)) (hn : r'.name = r.name) :
    RickEnds s k c r' st cnt := by
  cases skip with
  | true =>
    refine rickEnds_of_set (t := s) hr ?_ rfl hn
    rw [tileToPush, if_pos rfl] at hq
    rw [State.performRick, hr]
    simp only [hop, h, Bool.not_true, Bool.false_eq_true, if_false, if_true, hq]
  | false =>
    have hclean : (s.pushedTile len t src fs gs sc n).2.1 = false := hx.resolve_left Bool.false_ne_true
    rw [tileToPush, if_neg Bool.false_ne_true] at hq
    refine rickEnds_of_set (t := if (s.pushedTile len t src fs gs sc n).2.2 then s.sysOf k SysRegs.setOvfs else s) hr ?_ ?_ hn
    · rw [State.performRick, hr]
      simp only [hop, h, Bool.not_true, Bool.false_eq_true, if_false, hclean, hq]
    · split
      · exact s.sysOf_ricks k _
      · rfl

end

end Sys2Proof.Machine
end

section
/-! POPT at the rick engine: what each case of its procedure answers (R326, R327). -/
open Sys2Proof Sys2Proof.Machine Sys2Proof.Claims

namespace Sys2Proof.Machine

/-! ### The first case that applies (R326) -/

section
variable {k : Rick} {n : Nat} {g : Segment} (hg : k.seg? n = some g) (e dst fuel : Nat) (loads : Bool)
include hg

theorem Rick.popSeg_split (hs : g.state = .split) : Rick.popSeg e dst (fuel + 1) k n loads = (k, .abort) := by
  rw [Rick.popSeg]
  simp only [hg, if_pos hs]

theorem Rick.popSeg_owed (hs : g.state ≠ .split) (ho : g.owed ≠ 0) : Rick.popSeg e dst (fuel + 1) k n loads =
    ((k.setSeg n (fun s => { s with owed := s.owed - 1 })).countPop true, .lost (g.owed - 1)) := by
  rw [Rick.popSeg]
  simp only [hg, if_neg hs, if_pos ho]

section
variable (hs : g.state ≠ .split) (ho : g.owed = 0) {l : Layer} {ls : List Layer} (hl : g.layers = l :: ls)
include hs ho hl

/-- An empty run at the segment's bottom gives nothing. -/
theorem Rick.popSeg_empty (hd : l.run.depth = 0) (hc : l.children = []) :
    Rick.popSeg e dst (fuel + 1) k n loads = (k, .empty) := by
  rw [Rick.popSeg]
  simp only [hg, if_neg hs, if_neg (not_not.2 ho), hl, if_neg (not_not.2 hd), hc, List.isEmpty_nil, if_true]

theorem Rick.popSeg_top (hd : l.run.depth ≠ 0) : Rick.popSeg e dst (fuel + 1) k n loads = k.popTile e loads n l.run dst := by
  rw [Rick.popSeg]
  simp only [hg, if_neg hs, if_neg (not_not.2 ho), hl, if_pos hd]

end

end

/-! ### Recovery (R327) -/

/-- The higher of two marks, the later of two that are as high. -/
def higherMark (b : Option Mark) (m : Mark) : Option Mark :=
  match b with
  | some o => if o.depth ≤ m.depth then some m else b
  | none => some m

/-- The nearest usable mark at or below the run's top tile. -/
def bestMark (e : Nat) (ms : List Mark) (r : Run) : Option Mark :=
  ((ms.zipIdx.filter (fun q => !badMark e q.2 && q.1.run == r.id && decide (q.1.depth ≤ r.depth - 1))).map (·.1)).foldl higherMark none

theorem recoverRun_depth (e : Nat) (ms : List Mark) (r : Run) :
    (recoverRun e ms r).1.depth = ((bestMark e ms r).map (·.depth)).getD 0 := rfl

theorem recoverRun_owed (e : Nat) (ms : List Mark) (r : Run) :
    (recoverRun e ms r).2 = r.depth - 1 - (recoverRun e ms r).1.depth := rfl

theorem higherMark_eq_some {b : Option Mark} {m x : Mark} (h : higherMark b m = some x) : b = some x ∨ x = m := by
  cases b with
  | none => exact .inr (Option.some.inj h).symm
  | some o =>
    simp only [higherMark] at h
    split at h
    · exact .inr (Option.some.inj h).symm
    · exact .inl h

/-- The mark is one of those that the fold starts from or meets. -/
theorem foldl_higherMark {p : Mark → Prop} (l : List Mark) : ∀ b : Option Mark, (∀ x, b = some x → p x) → (∀ m ∈ l, p m) →
    ∀ x, l.foldl higherMark b = some x → p x := by
  induction l with
  | nil => exact fun _ hb _ => hb
  | cons m ms ih =>
    intro b hb hl
    refine ih (higherMark b m) (fun x hx => ?_) fun y hy => hl y (List.mem_cons_of_mem _ hy)
    rcases higherMark_eq_some hx with h | rfl
    · exact hb x h
    · exact hl x List.mem_cons_self

theorem bestMark_depth {e : Nat} {ms : List Mark} {r : Run} {m : Mark} (h : bestMark e ms r = some m) : m.depth ≤ r.depth - 1 := by
  refine foldl_higherMark (p := fun m => m.depth ≤ r.depth - 1) _ none (fun _ hx => nomatch hx) (fun q hq => ?_) m h
  obtain ⟨p, hp, rfl⟩ := List.mem_map.1 hq
  obtain ⟨-, hcond⟩ := List.mem_filter.1 hp
  simp only [Bool.and_eq_true, decide_eq_true_eq] at hcond
  exact hcond.2

/-- The tiles that stay, those owed and the damaged one are all that the run held. -/
theorem recoverRun_counts (e : Nat) (ms : List Mark) {r : Run} (hd : r.depth ≠ 0) :
    (recoverRun e ms r).1.depth + (recoverRun e ms r).2 + 1 = r.depth := by
  have hle : (recoverRun e ms r).1.depth ≤ r.depth - 1 := by
    rw [recoverRun_depth]
    cases h : bestMark e ms r with
    | none => exact Nat.zero_le _
    | some m => exact bestMark_depth h
  rw [recoverRun_owed]
  omega

/-! ### The tile at the top of a run -/

/-- The depth of a segment's current run. -/
def Rick.topDepth (k : Rick) (n : Nat) : Option Nat := (k.seg? n).map (fun g => g.top.depth)

/-- Tiles that a segment owes. -/
def Rick.owes (k : Rick) (n : Nat) : Option Nat := (k.seg? n).map (·.owed)

/-- A run whose top tile has been popped, with the coder's state after it. -/
def Run.popped (r : Run) (c : Coder) : Run := { (r.withCoder c) with depth := r.depth - 1, closed := false }

/-- The rick once that tile is popped. -/
def Rick.takeTop (k : Rick) (n : Nat) (r : Run) (c : Coder) : Rick :=
  Rick.countPop { k.setSeg n (fun s => s.setTop (fun _ => r.popped c)) with marks := dropMarks k.marks r.id (r.depth - 1) } false

/-- The rick once the top tile of the run `r` is found damaged. -/
def Rick.loseTop (k : Rick) (e n : Nat) (r : Run) : Rick :=
  Rick.countPop { (k.setSeg n (fun s => s.setTop (fun _ => (recoverRun e k.marks r).1))).setSeg n
    (fun s => { s with owed := (recoverRun e k.marks r).2 }) with
    marks := dropMarks k.marks r.id (recoverRun e k.marks r).1.depth } true

section
variable {k : Rick} {n : Nat} {g : Segment} (hg : k.seg? n = some g)
include hg

theorem Rick.takeTop_depth {l : Layer} {ls : List Layer} (hl : g.layers = l :: ls) (r : Run) (c : Coder) :
    (k.takeTop n r c).topDepth n = some (r.depth - 1) := by
  show ((k.setSeg n (fun s => s.setTop (fun _ => r.popped c))).seg? n).map (fun g => g.top.depth) = _
  rw [Rick.seg?_setSeg_same hg, Segment.setTop_of_layers hl]
  rfl

theorem Rick.loseTop_seg (e : Nat) (r : Run) : (k.loseTop e n r).seg? n =
    some { g.setTop (fun _ => (recoverRun e k.marks r).1) with owed := (recoverRun e k.marks r).2 } := by
  show ((k.setSeg n (fun s => s.setTop (fun _ => (recoverRun e k.marks r).1))).setSeg n
    (fun s => { s with owed := (recoverRun e k.marks r).2 })).seg? n = _
  exact Rick.seg?_setSeg_same (Rick.seg?_setSeg_same hg _) _

theorem Rick.loseTop_owes (e : Nat) (r : Run) : (k.loseTop e n r).owes n = some (recoverRun e k.marks r).2 := by
  rw [Rick.owes, Rick.loseTop_seg hg]
  rfl

theorem Rick.loseTop_depth {l : Layer} {ls : List Layer} (hl : g.layers = l :: ls) (e : Nat) (r : Run) :
    (k.loseTop e n r).topDepth n = some (recoverRun e k.marks r).1.depth := by
  rw [Rick.topDepth, Rick.loseTop_seg hg, Segment.setTop_of_layers hl]
  rfl

end

section
variable {k : Rick} {e : Nat} {loads : Bool} {r : Run}

/-- A damaged tile is lost, with those down to the mark that its run goes back to. -/
theorem Rick.popTile_damaged (h : k.meetsDamage e loads r = true) (n dst : Nat) :
    k.popTile e loads n r dst = (k.loseTop e n r, .lost (recoverRun e k.marks r).2) := by
  rw [Rick.popTile]
  exact if_pos h

section
variable (h : k.meetsDamage e loads r = false) (n dst : Nat)
include h

/-- A tile of `.skip` is taken, and its length told. -/
theorem Rick.popTile_skip (hf : r.coder.popHeader.2.flag = 2) :
    k.popTile e loads n r dst = (k.takeTop n r r.coder.popHeader.1, .recomp r.coder.popHeader.2.len) := by
  rw [Rick.popTile, if_neg (Bool.not_eq_true _ ▸ h)]
  exact if_pos hf

/-- A tile for which the local store has no room stays. -/
theorem Rick.popTile_fault (hf : r.coder.popHeader.2.flag ≠ 2) (hr : lsSize < dst + r.coder.popHeader.2.len) :
    k.popTile e loads n r dst = (k, .fault) := by
  rw [Rick.popTile, if_neg (Bool.not_eq_true _ ▸ h)]
  exact (if_neg hf).trans (if_pos hr)

/-- Another tile is taken and decoded. -/
theorem Rick.popTile_gives (hf : r.coder.popHeader.2.flag ≠ 2) (hr : dst + r.coder.popHeader.2.len ≤ lsSize) :
    k.popTile e loads n r dst = (k.takeTop n r (r.coder.popHeader.1.popBody k.tables r.coder.popHeader.2).1,
      .tile r.coder.popHeader.2.t r.coder.popHeader.2.g (r.coder.popHeader.1.popBody k.tables r.coder.popHeader.2).2) := by
  rw [Rick.popTile, if_neg (Bool.not_eq_true _ ▸ h)]
  exact (if_neg hf).trans (if_neg (Nat.not_lt.2 hr))

end

end

/-! ### What the engine does with the answer (R324, R326) -/

/-- The corrected errors of a pop are counted in its rick. -/
def Rick.countCorrected (k : Rick) (e : Nat) : Rick := { k with corrected := min (k.corrected + correctedErrors e) (2 ^ 32 - 1) }

/-- The state after a pop that took a tile or told of one: the rick, and the corrected errors counted in it and in the device. -/
def State.afterPop (s : State) (r : Rick) : State :=
  ((s.setRick (r.countCorrected (Config.streamErrors s.freeCtr))).mapDev (fun d =>
    d.countErrs 0 (correctedErrors (Config.streamErrors s.freeCtr)))).bump

theorem State.afterPop_rick? {s : State} {nm : ClaimName} {r r' : Rick} (hr : s.rick? nm = some r) (hn : r'.name = r.name) :
    (s.afterPop r').rick? nm = some (r'.countCorrected (Config.streamErrors s.freeCtr)) :=
  State.rick?_setRick (r' := r'.countCorrected (Config.streamErrors s.freeCtr)) hr hn

section
variable {s : State} {k dst : Nat} {c : RickCmd} {r r' : Rick} (hr : s.rick? c.rick = some r) (hop : c.op = .pop dst)
include hr hop

theorem pop_ends_abort (hq : r.pop (Config.streamErrors s.freeCtr) c.seg dst = (r, .abort)) : RickEnds s k c r 11 0 := by
  refine rickEnds_of_set (t := s) hr ?_ rfl rfl
  rw [State.performRick, hr]
  simp only [hop, hq]

theorem pop_ends_empty (hq : r.pop (Config.streamErrors s.freeCtr) c.seg dst = (r, .empty)) : RickEnds s k c r 10 0 := by
  refine rickEnds_of_set (t := s) hr ?_ rfl rfl
  rw [State.performRick, hr]
  simp only [hop, hq]

theorem pop_ends_fault (hq : r.pop (Config.streamErrors s.freeCtr) c.seg dst = (r, .fault)) : RickEnds s k c r 2 0 := by
  refine rickEnds_of_set (t := s) hr ?_ rfl rfl
  rw [State.performRick, hr]
  simp only [hop, hq]

theorem pop_ends_lost {m : Nat} (hq : r.pop (Config.streamErrors s.freeCtr) c.seg dst = (r', .lost m)) (hn : r'.name = r.name) :
    RickEnds s k c (r'.countCorrected (Config.streamErrors s.freeCtr)) 4 m := by
  have hp : s.performRick k c = (s.afterPop r', token 4 m) := by
    rw [State.performRick, hr]
    simp only [hop, hq]
    rfl
  exact ⟨by rw [hp]; exact State.afterPop_rick? hr hn, by rw [hp]⟩

theorem pop_ends_recomp {m : Nat} (hq : r.pop (Config.streamErrors s.freeCtr) c.seg dst = (r', .recomp m)) (hn : r'.name = r.name) :
    RickEnds s k c (r'.countCorrected (Config.streamErrors s.freeCtr)) 5 m := by
  have hp : s.performRick k c = (s.afterPop r', token 5 m) := by
    rw [State.performRick, hr]
    simp only [hop, hq]
    rfl
  exact ⟨by rw [hp]; exact State.afterPop_rick? hr hn, by rw [hp]⟩

section
variable {f : Fmt} {g : Geo} {bs : List Byte} (hq : r.pop (Config.streamErrors s.freeCtr) c.seg dst = (r', .tile f g bs))
include hq

/-- A tile's bytes go to the local store, and their regions take its tag. -/
theorem performRick_tile : s.performRick k c =
    (((s.afterPop r').engineStore (cellsAt (ownLs dst) bs) []).mapMem (fun m => tagRange m dst bs.length f g), token 0 bs.length) := by
  rw [State.performRick, hr]
  simp only [hop, hq]
  rfl

theorem pop_ends_tile (hn : r'.name = r.name) :
    RickEnds s k c (r'.countCorrected (Config.streamErrors s.freeCtr)) 0 bs.length := by
  refine ⟨?_, by rw [performRick_tile hr hop hq]⟩
  rw [performRick_tile hr hop hq]
  exact (State.rick?_of_ricks_eq (State.engineStore_ricks _ _ _) _).trans (State.afterPop_rick? hr hn)

theorem pop_tile_mem : (s.performRick k c).1.mem = tagRange (s.mem.store (cellsAt (ownLs dst) bs) []) dst bs.length f g := by
  rw [performRick_tile hr hop hq]
  exact congrArg (fun m => tagRange m dst bs.length f g) (State.engineStore_mem _ _ _)

end

end

/-! ### The bytes of a tile in the local store -/

/-- A region's tag says nothing of its bytes. -/
theorem Memory.byte_setTags (first : Nat) (f : Fmt) (g : Geo) (a : Nat) :
    ∀ (count : Nat) (m : Memory), (m.setTags first count f g).byte a = m.byte a
  | 0, _ => rfl
  | n + 1, m => by
    have hs : m.setTags first (n + 1) f g = (m.setTags first n f g).setTag (first + n) f g := by
      simp [Memory.setTags, List.range_succ]
    rw [hs]
    exact Memory.byte_setTags first f g a n m

theorem bytes_eq_map_range (bs : List Byte) : bs = (List.range bs.length).map (bs.getD · 0) :=
  List.ext_getElem (by simp) fun i hi _ => by simp [hi]

/-- Bytes stored in the own local store and tagged: each stands at its place, and no other byte changes. -/
theorem Memory.byte_storeTagged {m : Memory} (h : m.wf = true) (dst : Nat) (bs : List Byte) (f : Fmt) (g : Geo) (a : Nat) :
    (tagRange (m.store (cellsAt (ownLs dst) bs) []) dst bs.length f g).byte a =
      if ownLs dst ≤ a ∧ a < ownLs dst + bs.length then bs.getD (a - ownLs dst) 0 else m.byte a := by
  rw [tagRange, Memory.byte_setTags]
  conv_lhs => rw [bytes_eq_map_range bs, cellsAt_map_range]
  exact Memory.byte_store_range h _ _ _ _

theorem Memory.storeTagged_holds {m : Memory} (h : m.wf = true) (dst : Nat) (bs : List Byte) (f : Fmt) (g : Geo) {i : Nat}
    (hi : i < bs.length) : (tagRange (m.store (cellsAt (ownLs dst) bs) []) dst bs.length f g).byte (ownLs (dst + i)) = bs.getD i 0 := by
  rw [Memory.byte_storeTagged h, ownLs_add, if_pos (by omega), Nat.add_sub_cancel_left]

theorem Memory.storeTagged_only {m : Memory} (h : m.wf = true) (dst : Nat) (bs : List Byte) (f : Fmt) (g : Geo) :
    OnlyAt m (tagRange (m.store (cellsAt (ownLs dst) bs) []) dst bs.length f g) (fun i => ownLs (dst + i)) bs.length := by
  intro a ha
  rw [Memory.byte_storeTagged h, if_neg]
  rintro ⟨hl, hu⟩
  exact ha (a - ownLs dst) (by omega) (by dsimp only; rw [ownLs_add]; omega)

end Sys2Proof.Machine
end

section
/-! The rick ops and the rick engine (R314, R316, R323 to R331). -/
open Sys2Proof Sys2Proof.Machine Sys2Proof.Claims

namespace Sys2Proof.Machine

/-! ### The engine's commands, each by its cases -/

section
variable {s : State} {k : Nat} {c : RickCmd} {r : Rick} (hr : s.rick? c.rick = some r)
include hr

theorem rickEnds_shut {n : Nat} (ho : r.opens c.seg = false) (hop : c.op = .mark ∨ c.op = .split n) : RickEnds s k c r 11 0 := by
  rcases hop with hop | hop
  · exact mark_ends hr hop (Rick.mark_shut ho) rfl
  · exact split_ends hr hop (Rick.split_shut ho n) rfl

/-- A SPLITR with room: its token counts from the first child. -/
theorem split_ends_open {n : Nat} {g : Segment} (hop : c.op = .split n) (ho : r.opens c.seg = true) (hg : r.seg? c.seg = some g)
    (hn : r.segs.length + n ≤ 256) (hc : r.used + closeCost g.top ≤ r.capacity) :
    ∃ r', RickEnds s k c r' 0 r.segs.length ∧ r'.segs.length = r.segs.length + n ∧ r'.used = r.used + closeCost g.top ∧
      (r'.seg? c.seg).map (·.state) = some .split ∧
      ∀ i, i < n → ∃ q, r'.seg? (r.segs.length + i) =
        some { state := .open, parent := c.seg, owed := 0, layers := [{ run := Run.fresh q, children := [] }] } :=
  ⟨r.splitInto c.seg n, split_ends hr hop (Rick.split_opens ho hg hn hc) rfl, r.splitInto_length c.seg n,
    Rick.splitInto_used hg n, by rw [Rick.splitInto_parent hg n]; rfl, fun _ hi => ⟨_, Rick.splitInto_child n hi⟩⟩

/-- A JOINR with room: the children are sealed, and their parent is open. -/
theorem join_ends_open {n : Nat} {g : Segment} (hop : c.op = .join n) (hg : r.seg? c.seg = some g) (hs : ¬ JoinShut r g n)
    (hc : r.used + joinCost r g ≤ r.capacity) :
    ∃ r', RickEnds s k c r' 0 0 ∧ (r'.seg? c.seg).map (·.state) = some .open ∧
      (∀ i ∈ g.kids, i ≠ c.seg → (r'.seg? i).map (·.state) = (r.seg? i).map (fun _ => .sealed)) ∧
      (∀ i, i ≠ c.seg → i ∉ g.kids → r'.seg? i = r.seg? i) :=
  ⟨r.joined c.seg g.kids, join_ends hr hop (Rick.join_seals hg hs hc) (r.sealAll_name g.kids), Rick.joined_parent g.kids hg,
    fun _ hi hne => Rick.joined_child g.kids hi hne, fun _ hne hi => Rick.joined_other g.kids hi hne⟩

/-- A push that is not shut out, by the coder `d` that its tile leaves: it is stored where there is room (R314, R325). -/
theorem push_ends_room {skip sc : Bool} {len src : Nat} {t fs : Fmt} {gs : Geo} {n : Snap} {g : Segment} {d : Coder}
    (hop : c.op = .push skip len t src fs gs sc n) (ho : r.opens c.seg = true) (hg : r.seg? c.seg = some g)
    (hx : skip = true ∨ (s.pushedTile len t src fs gs sc n).2.1 = false)
    (hd : r.codes g skip (tileToPush skip len t (s.pushedTile len t src fs gs sc n).1) = d) :
    (r.capacity < r.used + 4 * (d.words.length - g.top.words.length) → RickEnds s k c r 9 0) ∧
      (r.used + 4 * (d.words.length - g.top.words.length) ≤ r.capacity →
        RickEnds s k c { (r.setSeg c.seg (fun g => g.setTop (fun q => { q with lanes := d.lanes, words := d.words, depth := q.depth + 1 })))
          with pushed := r.pushed + 1 } 0 (4 * (d.words.length - g.top.words.length))) := by
  subst hd
  exact ⟨fun hc => push_ends hr hop ho hx (Rick.push_full ho hg hc) rfl,
    fun hc => push_ends hr hop ho hx (Rick.push_stores ho hg hc) rfl⟩

section
variable {dst : Nat} {g : Segment} (hop : c.op = .pop dst) (hg : r.seg? c.seg = some g) (hs : g.state ≠ .split)
include hop hg hs

/-- A segment that owes lost tiles gives one of them. -/
theorem pop_ends_owed (ho : g.owed ≠ 0) :
    ∃ r', RickEnds s k c r' 4 (g.owed - 1) ∧ r'.owes c.seg = some (g.owed - 1) ∧ r'.popped = r.popped + 1 := by
  refine ⟨_, pop_ends_lost hr hop (Rick.popSeg_owed hg _ dst 1023 false hs ho) rfl, ?_, rfl⟩
  show ((r.setSeg c.seg (fun s => { s with owed := s.owed - 1 })).seg? c.seg).map (·.owed) = _
  rw [Rick.seg?_setSeg_same hg]
  rfl

variable (ho : g.owed = 0) {l : Layer} {ls : List Layer} (hl : g.layers = l :: ls) (hd : l.run.depth ≠ 0)
include ho hl hd

theorem pop_ends_damaged (h : l.run.damaged.contains (l.run.depth - 1) = true) :
    ∃ r' m d, RickEnds s k c r' 4 m ∧ r'.owes c.seg = some m ∧ r'.topDepth c.seg = some d ∧ d + m + 1 = l.run.depth ∧
      r'.popped = r.popped + 1 := by
  have hm : r.meetsDamage (Config.streamErrors s.freeCtr) false l.run = true := by rw [Rick.meetsDamage, h]; rfl
  have hq := (Rick.popSeg_top hg (Config.streamErrors s.freeCtr) dst 1023 false hs ho hl hd).trans (Rick.popTile_damaged hm c.seg dst)
  exact ⟨_, _, _, pop_ends_lost hr hop hq rfl, Rick.loseTop_owes hg _ l.run, Rick.loseTop_depth hg hl _ l.run,
    recoverRun_counts _ r.marks hd, rfl⟩

variable (hm : r.meetsDamage (Config.streamErrors s.freeCtr) false l.run = false)
include hm

theorem pop_ends_skip (hf : l.run.coder.popHeader.2.flag = 2) :
    ∃ r', RickEnds s k c r' 5 l.run.coder.popHeader.2.len ∧ r'.topDepth c.seg = some (l.run.depth - 1) ∧ r'.popped = r.popped + 1 := by
  have hq := (Rick.popSeg_top hg _ dst 1023 false hs ho hl hd).trans (Rick.popTile_skip hm c.seg dst hf)
  exact ⟨_, pop_ends_recomp hr hop hq rfl, Rick.takeTop_depth hg hl l.run _, rfl⟩

theorem pop_ends_noRoom (hf : l.run.coder.popHeader.2.flag ≠ 2) (hx : lsSize < dst + l.run.coder.popHeader.2.len) :
    RickEnds s k c r 2 0 :=
  pop_ends_fault hr hop ((Rick.popSeg_top hg _ dst 1023 false hs ho hl hd).trans (Rick.popTile_fault hm c.seg dst hf hx))

/-- A tile that is taken: its bytes are in the local store, and nothing else of memory has changed. -/
theorem pop_ends_bytes (hw : s.mem.wf = true) (hf : l.run.coder.popHeader.2.flag ≠ 2) (hx : dst + l.run.coder.popHeader.2.len ≤ lsSize)
    {bs : List Byte} (hb : (l.run.coder.popHeader.1.popBody r.tables l.run.coder.popHeader.2).2 = bs) :
    (∃ r', RickEnds s k c r' 0 bs.length ∧ r'.topDepth c.seg = some (l.run.depth - 1) ∧ r'.popped = r.popped + 1) ∧
      (∀ i, i < bs.length → (s.performRick k c).1.mem.byte (ownLs (dst + i)) = bs.getD i 0) ∧
      OnlyAt s.mem (s.performRick k c).1.mem (fun i => ownLs (dst + i)) bs.length := by
  have hq := (Rick.popSeg_top hg _ dst 1023 false hs ho hl hd).trans (Rick.popTile_gives hm c.seg dst hf hx)
  rw [hb] at hq
  rw [pop_tile_mem hr hop hq]
  exact ⟨⟨_, pop_ends_tile hr hop hq rfl, Rick.takeTop_depth hg hl l.run _, rfl⟩,
    fun _ hi => Memory.storeTagged_holds hw dst bs _ _ hi, Memory.storeTagged_only hw dst bs _ _⟩

end

end

/-! ### The obligation -/

/-- Settles O34: each op by its checks, and each of the engine's commands by the cases of its procedure. -/
theorem rickOps : Obligations.RickOps := by
  unfold Obligations.RickOps
  refine ⟨fun f s h => ?_, fun f s h hc => exec_pusht h hc, fun f s => rickOps_invalid, fun f s ha hl hq => ?_, fun s k c hr => ?_,
    fun s k n c r hr => ?_, fun s k c r skip sc len src t fs gs n hr hop => ?_, fun s k dst c r g hr hop hw hg => ?_⟩
  · exact ⟨markr_commands h, joinr_commands h, splitr_commands h, splitr_traps h, popt_commands h⟩
  · exact ⟨fun c => rickq_opens ha hl hq, rickq_gone ha hl hq⟩
  · rw [State.performRick, hr]
  · simp only [← closeCost_eq]
    refine ⟨rickEnds_shut hr, fun ho hop hm => mark_ends hr hop (Rick.mark_full ho hm) rfl,
      fun g ho hg hop hm => mark_ends hr hop (Rick.mark_notes ho hg hm) rfl, fun g ho hg hop => ⟨fun hf => ?_, fun hn hc => ?_⟩,
      fun g hg hop => ⟨fun hs => ?_, fun hs hc => ?_, fun hs hc => ?_⟩⟩
    · exact split_ends hr hop (Rick.split_full ho hg hf) rfl
    · exact split_ends_open hr hop ho hg hn hc
    · exact join_ends hr hop (Rick.join_shut hg hs) rfl
    · exact join_ends hr hop (Rick.join_full hg hs hc) rfl
    · exact join_ends_open hr hop hg hs hc
  · intro x
    refine ⟨push_ends_shut hr hop, push_ends_poison hr hop, fun g ho hg hx => ?_, fun h => ?_, fun m h ht hfs hlen => ?_⟩
    · exact push_ends_room hr hop ho hg hx (r.codes_tileToPush g skip len t x.1)
    · obtain ⟨htile, hpoison⟩ := s.pushedTile_raw h len src gs sc n
      exact ⟨htile, by rw [show x.2.1 = _ from hpoison]; simp⟩
    · subst hlen
      obtain ⟨htile, hpoison⟩ := s.pushedTile_elem h ht hfs m src gs sc n
      refine ⟨congrArg Tile.t htile, congrArg Tile.g htile, congrArg Tile.len htile, ?_, fun e i he hi =>
        s.pushedTile_elem_byte h ht hfs src gs sc n he hi⟩
      rw [show x.2.1 = _ from hpoison, Nat.mul_comm m]
      simp
  · intro t owed depth
    refine ⟨fun hs => pop_ends_abort hr hop (Rick.popSeg_split hg _ dst 1023 false hs), pop_ends_owed hr hop hg,
      fun hs ho l ls hl => ⟨fun hd hc => ?_, pop_ends_damaged hr hop hg hs ho hl, fun hd hm => ⟨?_, ?_, fun hf hx => ?_⟩⟩⟩
    · exact pop_ends_empty hr hop (Rick.popSeg_empty hg _ dst 1023 false hs ho hl hd hc)
    · exact pop_ends_skip hr hop hg hs ho hl hd hm
    · exact pop_ends_noRoom hr hop hg hs ho hl hd hm
    · exact pop_ends_bytes hr hop hg hs ho hl hd hm hw hf hx rfl

end Sys2Proof.Machine
end

section
/-! Reading and writing system registers (R19, R20, R355, R361, R474). -/
open Sys2Proof Sys2Proof.Machine Sys2Proof.Claims

namespace Sys2Proof.Machine

/-! ### The registers by number (R474) -/

/-- Past CHST the numbers run in four blocks, of 8, 4, 4 and 4 registers. -/
theorem State.sysReg_block (s : State) {n : Nat} (h : 0x019 ≤ n) :
    s.sysReg n = if 0x020 ≤ n ∧ n < 0x028 then some (vget s.core.regs.sys.lswz (n - 0x020) 0)
      else if 0x030 ≤ n ∧ n < 0x034 then some (vget s.core.regs.sys.bka (n - 0x030) 0)
      else if 0x034 ≤ n ∧ n < 0x038 then some (vget s.core.regs.sys.bkm (n - 0x034) 0)
      else if 0x038 ≤ n ∧ n < 0x03C then some (vget s.core.regs.sys.bkc (n - 0x038) 0) else none := by
  obtain ⟨k, rfl⟩ := Nat.exists_eq_add_of_le' h
  rfl

theorem State.sysReg_lswz (s : State) {k : Nat} (h : k < 8) : s.sysReg (0x020 + k) = some (vget s.core.regs.sys.lswz k 0) := by
  rw [State.sysReg_block s (by omega), if_pos (by omega), Nat.add_sub_cancel_left]

theorem State.sysReg_bka (s : State) {k : Nat} (h : k < 4) : s.sysReg (0x030 + k) = some (vget s.core.regs.sys.bka k 0) := by
  rw [State.sysReg_block s (by omega), if_neg (by omega), if_pos (by omega), Nat.add_sub_cancel_left]

theorem State.sysReg_bkm (s : State) {k : Nat} (h : k < 4) : s.sysReg (0x034 + k) = some (vget s.core.regs.sys.bkm k 0) := by
  rw [State.sysReg_block s (by omega), if_neg (by omega), if_neg (by omega), if_pos (by omega), Nat.add_sub_cancel_left]

theorem State.sysReg_bkc (s : State) {k : Nat} (h : k < 4) : s.sysReg (0x038 + k) = some (vget s.core.regs.sys.bkc k 0) := by
  rw [State.sysReg_block s (by omega), if_neg (by omega), if_neg (by omega), if_neg (by omega), if_pos (by omega),
    Nat.add_sub_cancel_left]

/-- The numbers between and past the blocks name no register. -/
theorem State.sysReg_unlisted (s : State) {n : Nat} (h : 0x019 ≤ n ∧ n < 0x020 ∨ 0x028 ≤ n ∧ n < 0x030 ∨ 0x03C ≤ n) :
    s.sysReg n = none := by
  rw [State.sysReg_block s (by omega), if_neg (by omega), if_neg (by omega), if_neg (by omega), if_neg (by omega)]

/-! ### RDSR, RDENG, RDCYC and TSTPSN -/

theorem sendsX_rdsr {s : State} {f : CGSr} {v : X64} {n : Nat} (h : s.sysReg n = some v) (hn : f.srn.toNat = n) :
    SendsX (.rdsr f) s f.d 1 false (fun w => w = v) :=
  ⟨v, rfl, sends_rdsr (hn ▸ h)⟩

theorem rdsr_traps {s : State} {f : CGSr} (h : s.sysReg f.srn.toNat = none) :
    Traps (.rdsr f) s 0x03 (BitVec.ofNat 64 (s.core.iss.cur.slot * 2 ^ 16 + 16 * 2 ^ 8)) := by
  show execRdsr f s = _
  simp only [execRdsr, chkRdsr, h]; rfl

theorem tstpsn_traps {s : State} {f : CG} (h : s.core.nV ≤ f.a.toNat) :
    Traps (.tstpsn f) s 0x03 (BitVec.ofNat 64 (s.core.iss.cur.slot * 2 ^ 16 + 40 * 2 ^ 8)) := by
  have hv : s.hasV f.a = false := decide_eq_false (by omega)
  show execTstpsn f s = _
  rw [execTstpsn, chkTstpsn, hv]
  show Host.Outcome.next (s.issueTrap 0x03 (BitVec.ofNat 64 (s.slotVal + 2 ^ 8 * 40))) = _
  rw [Nat.mul_comm (2 ^ 8) 40]; rfl

/-- Settles O36: each number of R474 has its register, and an op that reads one sends it a cycle later. -/
theorem readSystem : Obligations.ReadSystem := by
  unfold Obligations.ReadSystem
  intro f g s
  refine ⟨sendsX_rdsr rfl, sendsX_rdsr rfl, sendsX_rdsr rfl, sendsX_rdsr rfl, sendsX_rdsr rfl, sendsX_rdsr rfl, sendsX_rdsr rfl,
    sendsX_rdsr rfl, sendsX_rdsr rfl, sendsX_rdsr rfl, sendsX_rdsr rfl, sendsX_rdsr rfl, sendsX_rdsr rfl, sendsX_rdsr rfl,
    sendsX_rdsr rfl, sendsX_rdsr rfl, sendsX_rdsr rfl, sendsX_rdsr rfl, sendsX_rdsr rfl, sendsX_rdsr rfl, sendsX_rdsr rfl,
    sendsX_rdsr rfl, sendsX_rdsr rfl, sendsX_rdsr rfl, sendsX_rdsr rfl,
    fun k hk => sendsX_rdsr (s.sysReg_lswz hk),
    fun k hk => ⟨sendsX_rdsr (s.sysReg_bka hk), sendsX_rdsr (s.sysReg_bkm hk), sendsX_rdsr (s.sysReg_bkc hk)⟩,
    fun h => rdsr_traps (s.sysReg_unlisted h), ⟨_, rfl, rfl⟩, ⟨_, rfl, rfl⟩, fun h => ⟨_, rfl, sends_tstpsn h⟩, tstpsn_traps⟩

end Sys2Proof.Machine
end

section
/-! Writing system registers (R16, R51, R138, R200, R333, R355, R474). -/
open Sys2Proof Sys2Proof.Machine Sys2Proof.Claims

namespace Sys2Proof.Machine

/-! ### Masked fields -/

/-- A mask of ones over a field leaves the field. -/
theorem bitsAt_and {v m : X64} {hi lo : Nat} (h : bitsAt m.toNat hi lo = 2 ^ (hi - lo + 1) - 1) :
    bitsAt (v &&& m).toNat hi lo = bitsAt v.toNat hi lo := by
  simp only [bitsAt] at h ⊢
  rw [BitVec.toNat_and, Nat.and_div_two_pow, Nat.and_mod_two_pow, h, Nat.and_two_pow_sub_one_eq_mod, Nat.mod_mod]

/-- A mask of zeros over a field clears it. -/
theorem bitsAt_and_zero {v m : X64} {hi lo : Nat} (h : bitsAt m.toNat hi lo = 0) : bitsAt (v &&& m).toNat hi lo = 0 := by
  simp only [bitsAt] at h ⊢
  rw [BitVec.toNat_and, Nat.and_div_two_pow, Nat.and_mod_two_pow, h, Nat.and_zero]

/-- The defined bits of RRB are its three bases (R17). -/
theorem rrb_mask (v : X64) : v &&& 0x71F0F = rrbOf (rrbXB v) (rrbVB v) (rrbPB v) := by
  refine BitVec.eq_of_toNat_eq ?_
  rw [rrbOf_toNat]
  have hx := bitsAt_and (v := v) (m := 0x71F0F) (hi := 3) (lo := 0) (by decide)
  have h1 := bitsAt_and_zero (v := v) (m := 0x71F0F) (hi := 7) (lo := 4) (by decide)
  have hv := bitsAt_and (v := v) (m := 0x71F0F) (hi := 12) (lo := 8) (by decide)
  have h2 := bitsAt_and_zero (v := v) (m := 0x71F0F) (hi := 15) (lo := 13) (by decide)
  have hp := bitsAt_and (v := v) (m := 0x71F0F) (hi := 18) (lo := 16) (by decide)
  have h3 := bitsAt_and_zero (v := v) (m := 0x71F0F) (hi := 63) (lo := 19) (by decide)
  have hlt := (v &&& 0x71F0F).isLt
  simp only [bitsAt, rrbXB, rrbVB, rrbPB] at *
  omega

/-! ### The registers by number (R474) -/

theorem State.sysReg_isSome (s : State) {n : Nat} (h : n < 0x019) : (s.sysReg n).isSome = true := by
  interval_cases n <;> rfl

theorem sysMask_block {n : Nat} (h : 0x018 ≤ n) :
    sysMask n = if 0x020 ≤ n ∧ n < 0x028 then 0x1F else if 0x030 ≤ n ∧ n < 0x034 then 0x00FFFFFFFFFFFFF9
      else if 0x034 ≤ n ∧ n < 0x038 then 0xFF else BitVec.allOnes 64 := by
  obtain ⟨k, rfl⟩ := Nat.exists_eq_add_of_le' h
  rfl

theorem SysRegs.write_block (y : SysRegs) {n : Nat} (v : X64) (h : 0x018 ≤ n) :
    y.write n v = if 0x020 ≤ n ∧ n < 0x028 then { y with lswz := vset y.lswz (n - 0x020) v }
      else if 0x030 ≤ n ∧ n < 0x034 then { y with bka := vset y.bka (n - 0x030) v }
      else if 0x034 ≤ n ∧ n < 0x038 then { y with bkm := vset y.bkm (n - 0x034) v }
      else if 0x038 ≤ n ∧ n < 0x03C then { y with bkc := vset y.bkc (n - 0x038) v } else y := by
  obtain ⟨k, rfl⟩ := Nat.exists_eq_add_of_le' h
  rfl

/-- The numbers of LSWZ, BKA, BKM and BKC (R474). -/
def sysBlocks (n : Nat) : Prop := 0x020 ≤ n ∧ n < 0x028 ∨ 0x030 ≤ n ∧ n < 0x03C

theorem State.sysReg_isSome_block (s : State) {n : Nat} (h : sysBlocks n) : (s.sysReg n).isSome = true := by
  unfold sysBlocks at h
  rw [State.sysReg_block s (by omega)]
  split_ifs
  · rfl
  · rfl
  · rfl
  · rfl
  · omega

theorem sysWritable_block {n : Nat} (h : sysBlocks n) : sysWritable n = true := by
  rcases h with ⟨h1, h2⟩ | ⟨h1, h2⟩ <;> simp [sysWritable, h1, h2]

section
variable {n : Nat} (v : X64)

theorem writes_lswz (hlo : 0x020 ≤ n) (hhi : n < 0x028) : (fun y : SysRegs => y.write n (v &&& sysMask n)) =
    fun y => { y with lswz := vset y.lswz (n - 0x020) (v &&& 0x1F) } := by
  funext y
  rw [SysRegs.write_block y _ (by omega), sysMask_block (by omega), if_pos ⟨hlo, hhi⟩, if_pos ⟨hlo, hhi⟩]

theorem writes_bka (hlo : 0x030 ≤ n) (hhi : n < 0x034) : (fun y : SysRegs => y.write n (v &&& sysMask n)) =
    fun y => { y with bka := vset y.bka (n - 0x030) (v &&& 0x00FFFFFFFFFFFFF9) } := by
  funext y
  rw [SysRegs.write_block y _ (by omega), if_neg (by omega), if_pos ⟨hlo, hhi⟩, sysMask_block (by omega), if_neg (by omega),
    if_pos ⟨hlo, hhi⟩]

theorem writes_bkm (hlo : 0x034 ≤ n) (hhi : n < 0x038) : (fun y : SysRegs => y.write n (v &&& sysMask n)) =
    fun y => { y with bkm := vset y.bkm (n - 0x034) (v &&& 0xFF) } := by
  funext y
  rw [SysRegs.write_block y _ (by omega), if_neg (by omega), if_neg (by omega), if_pos ⟨hlo, hhi⟩, sysMask_block (by omega),
    if_neg (by omega), if_neg (by omega), if_pos ⟨hlo, hhi⟩]

theorem writes_bkc (hlo : 0x038 ≤ n) (hhi : n < 0x03C) : (fun y : SysRegs => y.write n (v &&& sysMask n)) =
    fun y => { y with bkc := vset y.bkc (n - 0x038) v } := by
  funext y
  rw [SysRegs.write_block y _ (by omega), if_neg (by omega), if_neg (by omega), if_neg (by omega), if_pos ⟨hlo, hhi⟩,
    sysMask_block (by omega), if_neg (by omega), if_neg (by omega), if_neg (by omega), BitVec.and_allOnes]

end

/-! ### The checks of WRSR -/

/-- The values that RMODE, ERRINJ and LSWZ reject (R51, R138, R333). -/
def State.chkSysValue (s : State) (n : Nat) (v : X64) : Chk :=
  if n = 0x001 then need (decide (v.toNat % 8 < 6)) 0x03 (BitVec.ofNat 64 s.slotVal)
  else if n = 0x017 then s.chkErrinj v
  else if 0x020 ≤ n ∧ n < 0x028 then
    need (v.toNat % 32 == 0 || (decide (7 ≤ v.toNat % 32) && decide (v.toNat % 32 ≤ 17))) 0x03 (BitVec.ofNat 64 s.slotVal)
  else .ok

section
variable {s : State} {f : CGSr} {n : Nat} (hn : f.srn.toNat = n)
include hn

theorem wrsr_unlisted (hr : s.sysReg n = none) :
    Traps (.wrsr f) s 0x03 (BitVec.ofNat 64 (s.core.iss.cur.slot * 2 ^ 16 + 16 * 2 ^ 8)) := by
  show execWrsr f s = _
  simp only [execWrsr, chkWrsr, hn, hr]; rfl

variable (hp : s.poisonX f.a = false)
include hp

/-- RRB apart, a listed register's checks are that it may be written and that it takes the value. -/
theorem chkWrsr_listed (hr : (s.sysReg n).isSome = true) (h0 : n ≠ 0) :
    chkWrsr f s = (need (sysWritable n) 0x07 0).and (s.chkSysValue n (s.rdX f.a)) := by
  have hne : (n != 0) = true := by simpa using h0
  simp only [chkWrsr, hn, hr, hne, needCtl_clean hp, need, Bool.true_or, if_true, Chk.ok_and]
  rfl

theorem wrsr_readOnly (hr : (s.sysReg n).isSome = true) (h0 : n ≠ 0) (hw : sysWritable n = false) : Traps (.wrsr f) s 0x07 0 := by
  show execWrsr f s = _
  rw [execWrsr, chkWrsr_listed hn hp hr h0, hw]; rfl

theorem wrsr_rejected {val : X64} {cause : Nat} (hr : (s.sysReg n).isSome = true) (h0 : n ≠ 0) (hw : sysWritable n = true)
    (hv : s.chkSysValue n (s.rdX f.a) = .trap cause val) : Traps (.wrsr f) s cause val := by
  show execWrsr f s = _
  rw [execWrsr, chkWrsr_listed hn hp hr h0, hw, hv]; rfl

/-- A register of the strand's block takes the defined bits of a value that it does not reject. -/
theorem wrsr_writes (hr : (s.sysReg n).isSome = true) (hw : sysWritable n = true) (h0 : n ≠ 0) (h17 : n ≠ 0x017) (h18 : n ≠ 0x018)
    (hv : s.chkSysValue n (s.rdX f.a) = .ok) :
    exec (.wrsr f) s = .next (s.mapSys (fun y => y.write n (s.rdX f.a &&& sysMask n))) := by
  show execWrsr f s = _
  rw [execWrsr, chkWrsr_listed hn hp hr h0, hw, hv]
  simp only [need, if_true, Chk.ok_and, issueOp_go, hn, h0, h17, h18, if_false]

end

/-! ### RRB (R16, R17) -/

theorem wrsr_rrb {s : State} {f : CGSr} (hp : s.poisonX f.a = false) (hn : f.srn.toNat = 0) (hl : s.core.iss.cur.loop = false)
    (hv : s.core.nV = 64 ∨ rrbVB (s.rdX f.a) = 0) :
    exec (.wrsr f) s = .next (s.mapRegs (fun r =>
      { r with rrb := rrbOf (rrbXB (s.rdX f.a)) (rrbVB (s.rdX f.a)) (rrbPB (s.rdX f.a)) })) := by
  have hb : (s.core.nV == 64 || rrbVB (s.rdX f.a) == 0) = true := by simpa using hv
  have hc : chkWrsr f s = .ok := by
    simp only [chkWrsr, hn, hl, hb, needCtl_clean hp, need]; rfl
  show execWrsr f s = _
  simp only [execWrsr, hc, issueOp_go, hn, if_true, ← rrb_mask]
  rfl

theorem wrsr_rrb_traps {s : State} {f : CGSr} (hn : f.srn.toNat = 0)
    (hb : s.core.iss.cur.loop = true ∨ s.core.nV ≠ 64 ∧ rrbVB (s.rdX f.a) ≠ 0) : Traps (.wrsr f) s 0x10 0 := by
  have hb' : (!s.core.iss.cur.loop && (s.core.nV == 64 || rrbVB (s.rdX f.a) == 0)) = false := by
    rcases hb with hl | ⟨h1, h2⟩
    · simp [hl]
    · simp [h1, h2]
  show execWrsr f s = _
  simp only [execWrsr, chkWrsr, hn, hb', need]
  rfl

/-! ### ERRINJ (R333, R375) -/

theorem State.writeErrinj_other {s : State} {v : X64} (h : v.toNat % 16 ≠ 1) :
    s.writeErrinj v = s.mapSys (fun y => { y with errinj := v &&& 0x0000FFFFFF03000F }) := by
  have hw : (v &&& sysMask 0x017).toNat % 16 ≠ 1 := by
    have := bitsAt_and (v := v) (m := sysMask 0x017) (hi := 3) (lo := 0) (by decide)
    simp only [bitsAt] at this
    omega
  simp only [State.writeErrinj, hw, if_false]
  rfl

/-- An injection: TARGET reads 0, and the rick of a live handle gets the command. -/
theorem State.writeErrinj_rick {s : State} {v : X64} (h : v.toNat % 16 = 1) :
    s.writeErrinj v =
      let t := s.mapSys (fun y => { y with errinj := v &&& 0x0000FFFFFF030000 })
      match s.rdK (v.toNat / 2 ^ 16 % 4) with
      | .valid nm => t.gateCmd 0 (.rick { rick := nm, seg := v.toNat / 2 ^ 24 % 256, op := .inject (v.toNat / 2 ^ 32 % 65536) })
      | _ => t := by
  have hb : ∀ hi lo, bitsAt (sysMask 0x017).toNat hi lo = 2 ^ (hi - lo + 1) - 1 →
      bitsAt (v &&& sysMask 0x017).toNat hi lo = bitsAt v.toNat hi lo := fun _ _ => bitsAt_and
  have hw : (v &&& sysMask 0x017).toNat % 16 = 1 := by
    have := hb 3 0 (by decide)
    simp only [bitsAt] at this
    omega
  have hm : v &&& sysMask 0x017 &&& ~~~(0xF#64) = v &&& 0x0000FFFFFF030000 := by
    rw [BitVec.and_assoc]; rfl
  simp only [State.writeErrinj, hw, if_true, hm, hb 17 16 (by decide), hb 31 24 (by decide), hb 47 32 (by decide)]
  rfl

section
variable {s : State} {f : CGSr} (hn : f.srn.toNat = 0x017) (hp : s.poisonX f.a = false)
include hn hp

theorem exec_wrsr_errinj (hv : s.chkErrinj (s.rdX f.a) = .ok) :
    exec (.wrsr f) s = .next (s.dropUninject.writeErrinj (s.rdX f.a)) := by
  have hc : chkWrsr f s = .ok := by
    rw [chkWrsr_listed hn hp rfl (by decide)]
    exact hv
  show execWrsr f s = _
  rw [execWrsr, hc]
  simp only [issueOp_go, hn]
  rfl

theorem wrsr_errinj (hv : (s.rdX f.a).toNat % 16 = 0 ∨ (s.rdX f.a).toNat % 16 = 2 ∨ (s.rdX f.a).toNat % 16 = 3) :
    exec (.wrsr f) s = .next (s.dropUninject.mapSys (fun y => { y with errinj := s.rdX f.a &&& 0x0000FFFFFF03000F })) := by
  have h3 : (s.rdX f.a).toNat % 16 ≤ 3 := by omega
  have h1 : (s.rdX f.a).toNat % 16 ≠ 1 := by omega
  rw [exec_wrsr_errinj hn hp (by simp [State.chkErrinj, h3, h1]), State.writeErrinj_other h1]

theorem wrsr_inject (hv : (s.rdX f.a).toNat % 16 = 1) (hg : s.core.gate.length < 64)
    (hk : s.rdK ((s.rdX f.a).toNat / 2 ^ 16 % 4) ≠ .invalid) :
    exec (.wrsr f) s = .next (s.dropUninject.writeErrinj (s.rdX f.a)) := by
  refine exec_wrsr_errinj hn hp ?_
  have hk' : s.rdK (bitsAt (s.rdX f.a).toNat 17 16) ≠ .invalid := hk
  simp [State.chkErrinj, hv, needHandle, hk', State.needGate, gateSize, hg]

theorem wrsr_inject_traps (hv : (s.rdX f.a).toNat % 16 = 1) (hk : s.rdK ((s.rdX f.a).toNat / 2 ^ 16 % 4) = .invalid) :
    Traps (.wrsr f) s 0x0F 0 := by
  refine wrsr_rejected hn hp rfl (by decide) rfl ?_
  have hk' : s.rdK (bitsAt (s.rdX f.a).toNat 17 16) = .invalid := hk
  show s.chkErrinj (s.rdX f.a) = _
  simp [State.chkErrinj, hv, needHandle, hk', need]

theorem wrsr_errinj_traps (hv : 3 < (s.rdX f.a).toNat % 16) : Traps (.wrsr f) s 0x03 (BitVec.ofNat 64 (s.core.iss.cur.slot * 2 ^ 16)) := by
  refine wrsr_rejected hn hp rfl (by decide) rfl ?_
  have h3 : ¬ (s.rdX f.a).toNat % 16 ≤ 3 := by omega
  show s.chkErrinj (s.rdX f.a) = _
  simp [State.chkErrinj, h3, need, State.slotVal]

end

/-! ### CHST (R200) -/

theorem wrsr_chst {s : State} {f : CGSr} (hn : f.srn.toNat = 0x018) (hp : s.poisonX f.a = false) :
    exec (.wrsr f) s = .next (s.mapSys (fun y => { y with chst := y.chst &&& ~~~(s.rdX f.a &&& 0xFF) })) := by
  have hc : chkWrsr f s = .ok := chkWrsr_listed hn hp rfl (by decide)
  show execWrsr f s = _
  rw [execWrsr, hc]
  simp only [issueOp_go, hn]
  rfl

/-! ### The obligation -/

section
variable {s : State} {f : CGSr}

/-- A value that is not among the rejected ones passes. -/
theorem State.chkSysValue_ok {n : Nat} {v : X64} (h1 : n = 0x001 → v.toNat % 8 < 6) (h17 : n ≠ 0x017)
    (h20 : 0x020 ≤ n → n < 0x028 → v.toNat % 32 = 0 ∨ 7 ≤ v.toNat % 32 ∧ v.toNat % 32 ≤ 17) : s.chkSysValue n v = .ok := by
  rw [State.chkSysValue, if_neg h17]
  split
  · next h => simp [need, h1 h]
  · split
    · next h => simpa using h20 h.1 h.2
    · rfl

/-- A register of the fixed numbers, the mask leaving no value that is rejected. -/
theorem wrsr_writes_low {n : Nat} (hn : f.srn.toNat = n) (hp : s.poisonX f.a = false) (hw : sysWritable n = true)
    (hk : n < 0x017 ∧ n ≠ 0) (h1 : n = 0x001 → (s.rdX f.a).toNat % 8 < 6) :
    exec (.wrsr f) s = .next (s.mapSys (fun y => y.write n (s.rdX f.a &&& sysMask n))) :=
  wrsr_writes hn hp (s.sysReg_isSome (by omega)) hw hk.2 (by omega) (by omega) (State.chkSysValue_ok h1 (by omega) (fun _ => by omega))

/-- A register of the numbered blocks. -/
theorem wrsr_writes_block (hp : s.poisonX f.a = false) (hk : sysBlocks f.srn.toNat)
    (h20 : f.srn.toNat < 0x028 → (s.rdX f.a).toNat % 32 = 0 ∨ 7 ≤ (s.rdX f.a).toNat % 32 ∧ (s.rdX f.a).toNat % 32 ≤ 17) :
    exec (.wrsr f) s = .next (s.mapSys (fun y => y.write f.srn.toNat (s.rdX f.a &&& sysMask f.srn.toNat))) := by
  have hn : 0x020 ≤ f.srn.toNat := by unfold sysBlocks at hk; omega
  exact wrsr_writes rfl hp (s.sysReg_isSome_block hk) (sysWritable_block hk) (by omega) (by omega) (by omega)
    (State.chkSysValue_ok (by omega) (by omega) (fun _ => h20))

end

/-- Settles O37: RRB, ERRINJ and CHST by themselves, the others by their masks and blocks. -/
theorem writeSystem : Obligations.WriteSystem := by
  unfold Obligations.WriteSystem
  intro f s hp
  refine ⟨fun h hl hv => wrsr_rrb hp h hl hv, fun h hb => wrsr_rrb_traps h hb,
    fun h hv => wrsr_writes_low h hp rfl (by decide) (fun _ => hv), fun h hv => ?_, fun h => ?_,
    fun h => wrsr_writes_low h hp rfl (by decide) (fun _ => by omega), fun h => wrsr_writes_low h hp rfl (by decide) (fun _ => by omega),
    fun h => wrsr_writes_low h hp rfl (by decide) (fun _ => by omega), fun h => wrsr_writes_low h hp rfl (by decide) (fun _ => by omega),
    fun h => wrsr_writes_low h hp rfl (by decide) (fun _ => by omega), fun h hv => wrsr_errinj h hp hv, fun h hv hg hk => ?_,
    fun h hv hk => wrsr_inject_traps h hp hv hk, fun h hv => wrsr_errinj_traps h hp hv,
    fun h => wrsr_writes_low h hp rfl (by decide) (fun _ => by omega), fun h => wrsr_writes_low h hp rfl (by decide) (fun _ => by omega),
    fun h => wrsr_chst h hp, fun hlo hhi hv => ?_, fun hlo hhi hv => ?_, fun h => wrsr_unlisted rfl (s.sysReg_unlisted h),
    fun hlo hhi => ?_, fun hlo hhi => ?_, fun hlo hhi => ?_, fun h => ?_⟩
  · refine wrsr_rejected h hp (s.sysReg_isSome (by decide)) (by decide) rfl ?_
    simp [State.chkSysValue, need, State.slotVal, Nat.not_lt.mpr hv]
  · have hm : s.rdX f.a &&& sysMask 0x002 = s.rdX f.a := BitVec.and_allOnes
    have hw := wrsr_writes_low h hp rfl (by decide) (fun _ => by omega)
    rwa [hm] at hw
  · exact (wrsr_inject h hp hv hg hk).trans (congrArg _ (State.writeErrinj_rick hv))
  · exact (wrsr_writes_block hp (.inl ⟨hlo, hhi⟩) (fun _ => hv)).trans (by rw [writes_lswz _ hlo hhi])
  · refine wrsr_rejected rfl hp (s.sysReg_isSome_block (.inl ⟨hlo, hhi⟩)) (by omega) (sysWritable_block (.inl ⟨hlo, hhi⟩)) ?_
    have h0 : (s.rdX f.a).toNat % 32 ≠ 0 := by omega
    have h7 : ¬ (7 ≤ (s.rdX f.a).toNat % 32 ∧ (s.rdX f.a).toNat % 32 ≤ 17) := by omega
    simp [State.chkSysValue, need, State.slotVal, hlo, hhi, h0, h7, show f.srn.toNat ≠ 1 by omega, show f.srn.toNat ≠ 23 by omega]
  · exact (wrsr_writes_block hp (.inr ⟨hlo, by omega⟩) (fun _ => by omega)).trans (by rw [writes_bka _ hlo hhi])
  · exact (wrsr_writes_block hp (.inr ⟨by omega, by omega⟩) (fun _ => by omega)).trans (by rw [writes_bkm _ hlo hhi])
  · exact (wrsr_writes_block hp (.inr ⟨by omega, hhi⟩) (fun _ => by omega)).trans (by rw [writes_bkc _ hlo hhi])
  · have hlt : f.srn.toNat < 0x019 := by omega
    refine wrsr_readOnly rfl hp (s.sysReg_isSome hlt) (by omega) ?_
    simp [sysWritable]
    omega

end Sys2Proof.Machine
end

section
/-! The store gate: the bytes that a released store writes, and the order of the entries that a restart point releases (R345, R346, R360). -/
open Sys2Proof Sys2Proof.Machine Sys2Proof.Claims

namespace Sys2Proof.Machine

/-! ### The bytes of a store (R360) -/

/-- A byte after bytes written one by one is the last one written at its place. -/
theorem Memory.byte_foldl_setByte_other {m : Memory} (hw : m.wf = true) (f : Host.Cell → Byte) {c : Nat} (cells : List Host.Cell)
    (hc : ∀ q ∈ cells, q.1 ≠ c) : (cells.foldl (fun m q => m.setByte q.1 (f q)) m).byte c = m.byte c := by
  induction cells generalizing m with
  | nil => rfl
  | cons q cells ih =>
    rw [List.foldl_cons, ih (Memory.setByte_wf _ _ hw) (fun r hr => hc r (List.mem_cons_of_mem _ hr)), Memory.byte_setByte hw,
      if_neg (hc q List.mem_cons_self).symm]

theorem Memory.byte_foldl_setByte_last {m : Memory} (hw : m.wf = true) (f : Host.Cell → Byte) (pre post : List Host.Cell) (q : Host.Cell)
    (hq : ∀ r ∈ post, r.1 ≠ q.1) : ((pre ++ q :: post).foldl (fun m q => m.setByte q.1 (f q)) m).byte q.1 = f q := by
  have hp : (pre.foldl (fun m q => m.setByte q.1 (f q)) m).wf = true := Memory.foldl_wf _ (fun _ _ h => Memory.setByte_wf _ _ h) pre m hw
  rw [List.foldl_append, List.foldl_cons, Memory.byte_foldl_setByte_other (Memory.setByte_wf _ _ hp) f post hq, Memory.byte_setByte hp,
    if_pos rfl]

theorem Memory.byte_store_other {m : Memory} (hw : m.wf = true) {cells : List Host.Cell} (pois : List Nat) {c : Nat}
    (hc : ∀ q ∈ cells, q.1 ≠ c) : (m.store cells pois).byte c = m.byte c := by
  rw [Memory.byte_store, Memory.byte_foldl_setByte_other hw (fun q => storedByte pois q.1 q.2) cells hc]

theorem Memory.byte_store_last {m : Memory} (hw : m.wf = true) (pois : List Nat) {pre post : List Host.Cell} {q : Host.Cell}
    (hq : ∀ r ∈ post, r.1 ≠ q.1) : (m.store (pre ++ q :: post) pois).byte q.1 = storedByte pois q.1 q.2 := by
  rw [Memory.byte_store, Memory.byte_foldl_setByte_last hw (fun q => storedByte pois q.1 q.2) pre post q hq]

theorem storedByte_eq (pois : List Nat) (a : Nat) (b : Byte) :
    storedByte pois a b = if homeOf (physOf a) = .host ∧ a ∈ pois then 0 else b := by
  simp [storedByte]

/-- Poison aside, a store writes bytes alone: no format tag changes. -/
theorem Memory.store_tags (m : Memory) (cells : List Host.Cell) (pois : List Nat) : (m.store cells pois).tags = m.tags := by
  have hfold : ∀ {α : Type} {f : Memory → α → Memory}, (∀ m x, (f m x).tags = m.tags) → ∀ (l : List α) (m : Memory),
      (l.foldl f m).tags = m.tags := by
    intro α f hf l
    induction l with
    | nil => exact fun _ => rfl
    | cons x l ih => exact fun m => (ih _).trans (hf m x)
  rw [Memory.store, hfold, hfold]
  · exact fun _ _ => rfl
  · intro m g
    dsimp only
    split
    · unfold Memory.mark; split <;> rfl
    · split <;> rfl

theorem State.performStore_mem (s : State) (d : StoreData) : (s.performStore d).mem = s.mem.store d.cells d.poisoned := by
  rw [State.performStore, State.keepSys_mem, State.storeAt_mem]

/-! ### The order of a release (R345, R346) -/

/-- An entry lies at or before another in bundle order, and within a bundle in slot order. -/
def GateEntry.precedes (d e : GateEntry) : Prop := d.bundle < e.bundle ∨ d.bundle = e.bundle ∧ d.slot ≤ e.slot

theorem gateInsert_perm (e : GateEntry) : ∀ l : List GateEntry, (gateInsert e l).Perm (e :: l)
  | [] => .refl _
  | b :: t => by
    simp only [gateInsert]
    split
    · exact .refl _
    · exact ((gateInsert_perm e t).cons b).trans (.swap e b t)

/-- An entry that does not lie before another is put after it. -/
theorem gateInsert_sorted (e : GateEntry) : ∀ l : List GateEntry, l.Pairwise GateEntry.precedes → (gateInsert e l).Pairwise GateEntry.precedes
  | [], _ => List.pairwise_singleton _ _
  | b :: t, h => by
    obtain ⟨hb, ht⟩ := List.pairwise_cons.1 h
    simp only [gateInsert]
    split
    · next hlt =>
      have heb : e.precedes b := by simp at hlt; unfold GateEntry.precedes; omega
      refine List.pairwise_cons.2 ⟨fun x hx => ?_, h⟩
      rcases List.mem_cons.1 hx with rfl | hx
      · exact heb
      · have := hb x hx; unfold GateEntry.precedes at *; omega
    · next hge =>
      refine List.pairwise_cons.2 ⟨fun x hx => ?_, gateInsert_sorted e t ht⟩
      rcases List.mem_cons.1 ((gateInsert_perm e t).subset hx) with rfl | hx
      · simp at hge; unfold GateEntry.precedes; omega
      · exact hb x hx

/-- The entries of the earlier bundles are released, each once, in order. -/
theorem Core.releasing_sorts (c : Core) (b : Nat) :
    (c.releasing b).Perm (c.gate.filter (fun e => decide (e.bundle < b))) ∧ (c.releasing b).Pairwise GateEntry.precedes := by
  have hfold : ∀ l acc : List GateEntry, acc.Pairwise GateEntry.precedes →
      (l.foldl (fun l e => gateInsert e l) acc).Perm (l ++ acc) ∧ (l.foldl (fun l e => gateInsert e l) acc).Pairwise GateEntry.precedes := by
    intro l
    induction l with
    | nil => exact fun acc h => ⟨.refl _, h⟩
    | cons e l ih =>
      intro acc h
      obtain ⟨hp, hs⟩ := ih _ (gateInsert_sorted e acc h)
      exact ⟨hp.trans (((gateInsert_perm e acc).append_left l).trans List.perm_middle), hs⟩
  have h := hfold (c.gate.filter (fun e => decide (e.bundle < b))) [] .nil
  rwa [List.append_nil] at h

/-! ### The release of plain stores -/

/-- What an entry that is a store makes of memory. -/
def GateEntry.stored (m : Memory) (e : GateEntry) : Memory :=
  match e.op with
  | .store d => m.store d.cells d.poisoned
  | _ => m

/-- A store that is released writes memory and changes neither the gate nor the accumulators targeted. -/
theorem State.releaseOne_store (s : State) {e : GateEntry} {d : StoreData} (h : e.op = .store d) :
    (s.releaseOne e).mem = e.stored s.mem ∧ (s.releaseOne e).core.gate = s.core.gate ∧ (s.releaseOne e).core.accs = s.core.accs := by
  have hs := State.storeAt_stores (s.keepSrc s.strandIdx e.bundle e.slot (d.cells.map (·.1))) d.cells d.poisoned
  have hr : s.releaseOne e = s.releaseStore e d := by rw [State.releaseOne, h]
  refine ⟨?_, ?_, ?_⟩
  · rw [hr, State.releaseStore_mem, GateEntry.stored, h]
  · rw [hr]; exact (congrArg Core.gate hs.core :)
  · rw [hr]; exact (congrArg Core.accs hs.core :)

theorem State.foldl_releaseOne_stores {l : List GateEntry} (hl : ∀ e ∈ l, ∃ d, e.op = .store d) (s : State) :
    (l.foldl State.releaseOne s).mem = l.foldl GateEntry.stored s.mem ∧ (l.foldl State.releaseOne s).core.gate = s.core.gate ∧
      (l.foldl State.releaseOne s).core.accs = s.core.accs := by
  induction l generalizing s with
  | nil => exact ⟨rfl, rfl, rfl⟩
  | cons e l ih =>
    obtain ⟨d, hd⟩ := hl e List.mem_cons_self
    obtain ⟨hm, hg, ha⟩ := s.releaseOne_store hd
    obtain ⟨ihm, ihg, iha⟩ := ih (fun x hx => hl x (List.mem_cons_of_mem _ hx)) (s.releaseOne e)
    rw [List.foldl_cons, List.foldl_cons, ← hm]
    exact ⟨ihm, ihg.trans hg, iha.trans ha⟩

/-- Settles O22: a store byte by byte, and a release as a stable sort of the earlier bundles' entries. -/
theorem storeGate : Obligations.StoreGate := by
  unfold Obligations.StoreGate
  refine ⟨fun d s hw => ?_, fun s b pc hs => ?_⟩
  · rw [State.performStore_mem]
    refine ⟨Memory.store_wf _ _ hw, fun c hc => Memory.byte_store_other hw _ hc, fun pre q post hd hq => ?_, Memory.store_tags _ _ _⟩
    rw [hd, Memory.byte_store_last hw _ hq, storedByte_eq]
  · obtain ⟨hperm, hsort⟩ := s.core.releasing_sorts b
    have hrel : ∀ e ∈ s.core.releasing b, ∃ d, e.op = .store d := fun e he => hs e (List.mem_filter.1 (hperm.subset he)).1
    obtain ⟨hm, hg, ha⟩ := State.foldl_releaseOne_stores hrel (s.mapCore (fun c => { c with
      gate := c.gate.filter (fun e => !decide (e.bundle < b)),
      inter := c.inter.map (fun i => if i.bundle < b then { i with gated := false } else i),
      accs := [] }))
    refine ⟨hperm, hsort, hg.trans ?_, hm, rfl, rfl, rfl, ha⟩
    exact List.filter_congr fun e _ => by rw [← decide_not]; exact decide_eq_decide.2 Nat.not_lt

end Sys2Proof.Machine
end

section
/-! Traps: their delivery, the ops that trap, return, ask and stop, and fences (R18, R26, R256, R257, R352 to R356, R374). -/
open Sys2Proof Sys2Proof.Machine Sys2Proof.Claims

namespace Sys2Proof.Machine

/-! ### A restart point with an empty gate (R344) -/

/-- The core at a restart point before bundle `b` that releases nothing. -/
def Core.pointAt (c : Core) (b pc : Nat) : Core :=
  { c with inter := c.inter.map (fun i => if i.bundle < b then { i with gated := false } else i), accs := [],
           shadow := { regs := c.regs, pend := c.iss.pend.filter (fun w => decide (w.bundle < b)), pc := pc, bundle := b } }

theorem State.commitAt_of_empty {s : State} (b pc : Nat) (hg : s.core.gate = []) : s.commitAt b pc = s.mapCore (fun c => c.pointAt b pc) := by
  have hr : s.core.releasing b = [] := by simp [Core.releasing, hg]
  have hf : s.core.gate.filter (fun e => !decide (e.bundle < b)) = s.core.gate := by rw [hg]; rfl
  rw [State.commitAt, hr, List.foldl_nil]
  simp only [State.mapCore, hf, Core.pointAt]

/-! ### A handler is entered (R353) -/

/-- Of the core, leaving the queue changes the matrix array alone (R161). -/
theorem Core.dropQueue_eq (c : Core) : c.dropQueue = { c with mx := c.dropQueue.mx } := by
  unfold Core.dropQueue; split <;> rfl

/-- The system registers at the entry of a handler. -/
def SysRegs.trapped (y : SysRegs) (inn cause : Nat) (val : X64) (pc : Nat) : SysRegs :=
  { y with trapc := BitVec.ofNat 64 (cause % 256 + 256 * inn), trappc := trapPc pc, trapval := val }

theorem SysRegs.handles_of {y : SysRegs} (hv : y.trapv.getLsbD 0 = true) (hc : y.trapc.getLsbD 8 = false) : y.handles = true := by
  rw [SysRegs.handles, hv, hc]; rfl

theorem SysRegs.not_handles_of {y : SysRegs} (h : y.trapv.getLsbD 0 = false ∨ y.trapc.getLsbD 8 = true) : y.handles = false := by
  rcases h with h | h
  · rw [SysRegs.handles, h, Bool.false_and]
  · rw [SysRegs.handles, h, Bool.not_true, Bool.and_false]

/-- The core as the handler begins. -/
def Core.entered (c : Core) (cause : Nat) (val : X64) (pc : Nat) : Core :=
  { c with mx := c.dropQueue.mx, regs := { c.regs with sys := c.regs.sys.trapped 1 cause val pc }, iss := c.iss.enter c.regs.sys.handler }

theorem State.takeTrap_enters {s : State} (cause : Nat) (val : X64) (pc : Nat) (hg : s.core.gate = []) (hh : s.core.regs.sys.handles = true) :
    s.takeTrap cause val pc =
      s.mapCore (fun c => (c.entered cause val pc).pointAt (s.core.iss.bundle + 1) s.core.regs.sys.handler) := by
  have hd : ((s.mapCore Core.dropQueue).mapSys (fun y => y.trapped 1 cause val pc)).mapIss (fun i => i.enter s.core.regs.sys.handler) =
      s.mapCore (fun c => c.entered cause val pc) := by
    simp only [State.mapCore, Core.entered]
    rw [Core.dropQueue_eq]
    rfl
  rw [State.takeTrap, if_pos hh]
  exact (congrArg (State.commitAt · _ _) hd).trans (State.commitAt_of_empty _ _ (by simp [Core.entered, hg]))

/-! ### A strand that no handler takes leaves the core (R354) -/

/-- A result that lands touches no register of the trap. -/
theorem Dest.apply_trap (d : Dest) (r : Regs) :
    (d.apply r).sys.trapc = r.sys.trapc ∧ (d.apply r).sys.trappc = r.sys.trappc ∧ (d.apply r).sys.trapval = r.sys.trapval := by
  cases d with
  | x | p | ovfs => simp only [Dest.apply]; split <;> exact ⟨rfl, rfl, rfl⟩
  | loaded => simp only [Dest.apply, SysRegs.countLoaded]; split <;> exact ⟨rfl, rfl, rfl⟩
  | _ => exact ⟨rfl, rfl, rfl⟩

theorem landRest_trap (l : List PWrite) (r : Regs) :
    (landRest l r).sys.trapc = r.sys.trapc ∧ (landRest l r).sys.trappc = r.sys.trappc ∧ (landRest l r).sys.trapval = r.sys.trapval := by
  unfold landRest
  generalize l.filter _ = ws
  induction ws generalizing r with
  | nil => exact ⟨rfl, rfl, rfl⟩
  | cons w ws ih =>
    obtain ⟨h1, h2, h3⟩ := ih (w.dest.apply r)
    obtain ⟨k1, k2, k3⟩ := w.dest.apply_trap r
    exact ⟨h1.trans k1, h2.trans k2, h3.trans k3⟩

/-- A strand that leaves the core has the registers that it leaves with, its results in flight landed. -/
theorem State.leaveCore_saved {s : State} {k : Nat} {u : Strand} (st : StrandState) (pc : Nat) (hr : s.core.running = some k)
    (h : s.dev.strands[k]? = some u) : ∃ w, (s.leaveCore st pc).dev.strands[k]? = some w ∧ w.state = st ∧ w.pc = pc ∧
      w.regs.sys = (landRest s.core.iss.pend s.core.regs).sys := by
  refine ⟨u.saveFrom ((s.mapCore Core.dropQueue).tick (max 1 (s.core.landWait st))).core.landAll st pc, by simp [State.leaveCore, hr, h],
    rfl, rfl, ?_⟩
  show (landRest s.core.dropQueue.iss.pend s.core.dropQueue.regs).sys = _
  rw [Core.dropQueue_iss, Core.dropQueue_regs]

theorem State.leaveCore_iq {s : State} (st : StrandState) (pc : Nat) {k : Nat} (h : s.core.running = some k) :
    (s.leaveCore st pc).core.iss.iq = [] := by
  simp [State.leaveCore, h]

theorem State.takeTrap_leaves {s : State} {k : Nat} {u : Strand} (cause : Nat) (val : X64) (pc : Nat) (hr : s.core.running = some k)
    (hu : s.dev.strands[k]? = some u) (hh : s.core.regs.sys.handles = false) :
    let t := s.takeTrap cause val pc
    t.core.running = none ∧ t.core.iss.iq = [] ∧ t.mem = s.mem ∧
      ∃ w, t.dev.strands[k]? = some w ∧ w.state = .trapped ∧ w.pc = pc ∧ w.regs.sys.trapc.toNat % 256 = cause % 256 ∧
        w.regs.sys.trappc = trapPc pc ∧ w.regs.sys.trapval = val := by
  have ht : ∃ (v : State) (inn : Nat), s.takeTrap cause val pc = v.leaveCore .trapped pc ∧ v.mem = s.mem ∧ v.dev = s.dev ∧
      v.core.running = s.core.running ∧
      v.core.regs.sys = s.core.regs.sys.trapped inn cause val pc := by
    simp only [State.takeTrap, hh]
    refine ⟨_, _, rfl, rfl, rfl, Core.dropQueue_running _, (congrArg Regs.sys (Core.dropQueue_regs _)).trans rfl⟩
  obtain ⟨v, inn, ht, hm, hd, hvr, hv⟩ := ht
  have hrun : v.core.running = some k := hvr.trans hr
  obtain ⟨w, hw, hst, hpc, hsys⟩ := State.leaveCore_saved .trapped pc hrun (hd ▸ hu)
  obtain ⟨h1, h2, h3⟩ := landRest_trap v.core.iss.pend v.core.regs
  rw [ht]
  refine ⟨State.leaveCore_running _ _ _, State.leaveCore_iq _ _ hrun, (State.leaveCore_mem _ _ _).trans hm, w, hw, hst, hpc, ?_, ?_, ?_⟩
  · rw [hsys, h1, hv]
    simp only [SysRegs.trapped, BitVec.toNat_ofNat]
    omega
  · rw [hsys, h2, hv]; rfl
  · rw [hsys, h3, hv]; rfl

/-! ### An issue trap (R18, R352) -/

/-- The core without what the bundle in issue has done. -/
def Core.undone (c : Core) : Core :=
  let b := c.iss.cur.bundle
  { c with
    mx := c.dropQueue.mx,
    iss := { c.iss with iq := c.iss.iq.filter (fun q => decide (q.ctx.bundle < b)),
                        top := { c.iss.top with ctl := { c.iss.top.ctl with stall := 0 } },
                        pend := c.iss.pend.filter (fun w => decide (w.bundle < b)) },
    gate := c.gate.filter (fun e => decide (e.bundle < b)), inter := c.inter.filter (fun i => decide (i.bundle < b)) }

theorem State.issueTrap_eq (s : State) (cause : Nat) (val : X64) :
    s.issueTrap cause val =
      ((s.mapCore Core.undone).commitAt s.core.iss.cur.bundle s.core.iss.cur.addr).takeTrap cause val s.core.iss.cur.addr := by
  rw [State.issueTrap]
  simp only [State.mapCore, Core.undone]
  rw [Core.dropQueue_eq]
  rfl

/-- With nothing in the gate, the handler of an issue trap begins from the state without the bundle. -/
theorem State.issueTrap_enters {s : State} (cause : Nat) (val : X64) (hg : s.core.gate = []) (hh : s.core.regs.sys.handles = true) :
    s.issueTrap cause val = s.mapCore (fun c =>
      (((c.undone.pointAt c.iss.cur.bundle c.iss.cur.addr).entered cause val c.iss.cur.addr).pointAt (c.iss.bundle + 1)
        c.regs.sys.handler)) := by
  have hgu : (s.mapCore Core.undone).core.gate = [] := by simp [Core.undone, hg]
  rw [State.issueTrap_eq, State.commitAt_of_empty _ _ hgu, State.takeTrap_enters]
  · rfl
  · exact hgu
  · exact hh

/-- Settles O38: where a handler is armed it is entered, and else the strand leaves the core. -/
theorem trapDelivery : Obligations.TrapDelivery := by
  unfold Obligations.TrapDelivery
  refine ⟨fun s cause val pc hcause hg => ⟨fun hv hc => ?_, fun k u hk hu hn => ?_⟩, fun s cause val hg hi hv hc hcause => ?_⟩
  · have hcode : cause % 256 + 256 * 1 = cause + 256 := by omega
    rw [State.takeTrap_enters cause val pc hg (SysRegs.handles_of hv hc)]
    refine ⟨?_, rfl, rfl, rfl, rfl, rfl, rfl, rfl, rfl, rfl, rfl, rfl⟩
    rw [← hcode]; rfl
  · obtain ⟨h1, h2, h3, w, h4, h5, h6, h7, h8⟩ := State.takeTrap_leaves cause val pc hk hu (SysRegs.not_handles_of hn)
    exact ⟨h1, h2, h3, w, h4, h5, h6, h7.trans (Nat.mod_eq_of_lt hcause), h8⟩
  · have hcode : cause % 256 + 256 * 1 = cause + 256 := by omega
    rw [State.issueTrap_enters cause val hg (SysRegs.handles_of hv hc)]
    refine ⟨rfl, ?_, ?_, ?_, rfl, rfl, rfl, rfl, rfl, rfl, rfl⟩
    · show s.core.gate.filter _ = []
      rw [hg]; rfl
    · show ((s.core.inter.filter _).map _).map _ = []
      rw [hi]; rfl
    · rw [← hcode]; rfl

/-! ### What a release leaves (R346) -/

/-- From `s` to `t` entries are released: of the issue only the results in flight differ, of the strand's registers only the counters of its
stores (R68, R362). -/
structure State.ReleasesTo (s t : State) : Prop where
  iss : t.core.iss = { s.core.iss with pend := t.core.iss.pend }
  regs : t.core.regs = { s.core.regs with sys := t.core.regs.sys }
  trapc : t.core.regs.sys.trapc = s.core.regs.sys.trapc
  trappc : t.core.regs.sys.trappc = s.core.regs.sys.trappc

theorem State.ReleasesTo.refl (s : State) : s.ReleasesTo s := ⟨rfl, rfl, rfl, rfl⟩

theorem State.ReleasesTo.trans {s t u : State} (h : s.ReleasesTo t) (k : t.ReleasesTo u) : s.ReleasesTo u :=
  ⟨k.iss.trans (by rw [h.iss]), k.regs.trans (by rw [h.regs]), k.trapc.trans h.trapc, k.trappc.trans h.trappc⟩

theorem StoreData.book_trap (d : StoreData) (y : SysRegs) : (d.book y).trapc = y.trapc ∧ (d.book y).trappc = y.trappc := by
  have hset : ∀ (b : Bool) (z : SysRegs), ((if b then z.setOvfs else z).trapc = z.trapc) ∧ (if b then z.setOvfs else z).trappc = z.trappc :=
    fun b z => by cases b <;> exact ⟨rfl, rfl⟩
  have hstored : ∀ (b : Bool) (z : SysRegs), ((if b then countStored z else z).trapc = z.trapc) ∧
      (if b then countStored z else z).trappc = z.trappc := fun b z => by
    cases b
    · exact ⟨rfl, rfl⟩
    · simp only [if_true, countStored]; split <;> exact ⟨rfl, rfl⟩
  have hhost : ∀ (b : Bool) (z : SysRegs), ((if b then countHostz z else z).trapc = z.trapc) ∧
      (if b then countHostz z else z).trappc = z.trappc := fun b z => by
    cases b
    · exact ⟨rfl, rfl⟩
    · simp only [if_true, countHostz]; split <;> exact ⟨rfl, rfl⟩
  simp only [StoreData.book, (hhost _ _).1, (hhost _ _).2, (hstored _ _).1, (hstored _ _).2, (hset _ _).1, (hset _ _).2, and_self]

theorem State.releaseStore_releases (s : State) (e : GateEntry) (d : StoreData) : s.ReleasesTo (s.releaseStore e d) := by
  have hs := (State.storeAt_stores (s.keepSrc s.strandIdx e.bundle e.slot (d.cells.map (·.1))) d.cells d.poisoned).core
  have hregs : ((s.keepSrc s.strandIdx e.bundle e.slot (d.cells.map (·.1))).storeAt d.cells d.poisoned).core.regs = s.core.regs :=
    (congrArg Core.regs hs :)
  have hr : s.ReleasesTo ((s.keepSrc s.strandIdx e.bundle e.slot (d.cells.map (·.1))).storeAt d.cells d.poisoned) :=
    ⟨(congrArg Core.iss hs :), by rw [hregs], (congrArg (fun c : Core => c.regs.sys.trapc) hs :),
      (congrArg (fun c : Core => c.regs.sys.trappc) hs :)⟩
  refine hr.trans ⟨rfl, rfl, (d.book_trap _).1, (d.book_trap _).2⟩

theorem State.releaseOne_releases (s : State) (e : GateEntry) : s.ReleasesTo (s.releaseOne e) := by
  unfold State.releaseOne
  split
  case h_1 d _ => exact s.releaseStore_releases e d
  case h_2 d _ => exact s.releaseStore_releases e d
  case h_8 d nm _ => exact (s.releaseStore_releases e d).trans ⟨rfl, rfl, rfl, rfl⟩
  case h_9 d g _ => exact (s.releaseStore_releases e d).trans ⟨rfl, rfl, rfl, rfl⟩
  all_goals exact ⟨rfl, rfl, rfl, rfl⟩

theorem State.commitAt_releases (s : State) (b pc : Nat) : s.ReleasesTo (s.commitAt b pc) := by
  have hfold : ∀ (l : List GateEntry) (u : State), u.ReleasesTo (l.foldl State.releaseOne u) := by
    intro l
    induction l with
    | nil => exact State.ReleasesTo.refl
    | cons e l ih => exact fun u => (u.releaseOne_releases e).trans (ih _)
  have hpre : s.ReleasesTo (s.mapCore (fun c => { c with
      gate := c.gate.filter (fun e => !decide (e.bundle < b)),
      inter := c.inter.map (fun i => if i.bundle < b then { i with gated := false } else i),
      accs := [] })) := ⟨rfl, rfl, rfl, rfl⟩
  exact (hpre.trans (hfold (s.core.releasing b) _)).trans ⟨rfl, rfl, rfl, rfl⟩

theorem State.serialPoint_releases (s : State) : s.ReleasesTo s.serialPoint := by
  unfold State.serialPoint
  split
  · exact .refl s
  · exact s.commitAt_releases _ _

/-! ### TRAP, RETT, BKPT, CTL and SVC (R26, R356, R374) -/

theorem exec_trap (f : CGCode) (s : State) :
    exec (.trap f) s = .next (s.serialPoint.takeTrap 0x0D (f.code.zeroExtend 64) s.serialPoint.core.iss.nextPc) := by
  show execTrap f s = _
  rw [execTrap, issueSerial_go s _ _ rfl]

theorem rett_returns {s : State} (f : CG) (hi : s.core.regs.sys.trapc.getLsbD 8 = true) :
    Runs (.rett f) s (fun t => t.core.iss.next = .taken s.core.regs.sys.trappc.toNat ∧ t.core.iss.rett = true ∧
      t.core.regs.sys.trapc.getLsbD 8 = false ∧ t.core.regs.sys.trappc = s.core.regs.sys.trappc ∧
      t.core.regs.x = s.core.regs.x ∧ t.core.regs.v = s.core.regs.v) := by
  have hc : chkRett f s = .ok := by simp only [chkRett, hi, need, if_true]
  have hbit : (s.core.regs.sys.trapc &&& ~~~(0x100#64)).getLsbD 8 = false := by simp
  have hr := s.returnFromTrap.serialPoint_releases
  refine ⟨s.returnFromTrap.serialPoint, ?_, (congrArg Issue.next hr.iss :), (congrArg Issue.rett hr.iss :), ?_, hr.trappc,
    (congrArg Regs.x hr.regs :), (congrArg Regs.v hr.regs :)⟩
  · show execRett f s = _
    rw [execRett, hc]; rfl
  · rw [hr.trapc]; exact hbit

theorem rett_traps {s : State} (f : CG) (hi : s.core.regs.sys.trapc.getLsbD 8 = false) : Traps (.rett f) s 0x0D 0xFFFF := by
  show execRett f s = _
  rw [execRett, chkRett, hi]; rfl

theorem bkpt_traps {s : State} {f : CGSr} (hp : s.poisonX f.a = false) (hz : s.rdX f.a ≠ 0) :
    Traps (.bkpt f) s 0x0C (BitVec.ofNat 64 (f.srn.toNat * 2 ^ 16 + 4)) := by
  show execBkpt f s = _
  rw [execBkpt, chkBkpt, needCtl_clean hp, show (s.rdX f.a == 0) = false from beq_false_of_ne hz]; rfl

theorem bkpt_poisoned {s : State} {f : CGSr} (hp : s.poisonX f.a = true) :
    Traps (.bkpt f) s 0x0B (BitVec.ofNat 64 (s.core.iss.cur.slot * 2 ^ 16 + f.a.toNat)) := by
  show execBkpt f s = _
  rw [execBkpt, chkBkpt, needCtl_poisoned hp]; rfl

theorem exec_svc {s : State} {f : CGCode} (hp : s.poisonX f.a = false) :
    let u := s.serialPoint
    exec (.svc f) s = .next ((u.mapDev (fun d => { d with svc := d.svc ++ [(u.core.tenant, u.core.number, f.code, u.rdX f.a)] })).mapIss
      (fun i => { i with waits := some .svc, waitReg := u.px f.d })) := by
  show execSvc f s = _
  rw [execSvc, chkSvc, needCtl_clean hp, issueSerial_go s _ _ rfl]

/-! ### FENCE (R256, R257) -/

theorem fenced_iff (f : CGFence) (s : State) (ps : List Part) :
    fenced f s ps = true ↔ ∃ p ∈ ps, (Kinds.has f.kinds p.kind && s.inScope f.scope p.addr) = true := by
  simp only [fenced, List.any_eq_true]

theorem readyFence_go {f : CGFence} {s : State} (hl : ∀ l ∈ s.core.loads, fenced f s l.left = false)
    (hf : ∀ o ∈ s.core.fars, fenced f s o.parts = false) : readyFence f s = .go := by
  have h1 : s.core.loads.any (fun l => fenced f s l.left) = false := List.any_eq_false.2 fun l h => by simp [hl l h]
  have h2 : s.core.fars.any (fun q => fenced f s q.parts) = false := List.any_eq_false.2 fun o h => by simp [hf o h]
  rw [readyFence, h1, h2]; rfl

theorem readyFence_wait {f : CGFence} {s : State} (h : (∃ l ∈ s.core.loads, fenced f s l.left = true) ∨
    ∃ o ∈ s.core.fars, fenced f s o.parts = true) : readyFence f s = .wait (some .other) := by
  have hor : (s.core.loads.any (fun l => fenced f s l.left) || s.core.fars.any (fun q => fenced f s q.parts)) = true := by
    rwa [Bool.or_eq_true, List.any_eq_true, List.any_eq_true]
  rw [readyFence, hor]; rfl

theorem exec_fence_go {f : CGFence} {s : State} (h : readyFence f s.serialPoint = .go) : exec (.fence f) s = .next s.serialPoint := by
  show execFence f s = _
  rw [execFence, issueSerial_go s _ _ h]

theorem exec_fence_wait {f : CGFence} {s : State} (h : readyFence f s.serialPoint = .wait (some .other)) :
    exec (.fence f) s = .next (s.serialPoint.hold (some .other)) := by
  show execFence f s = _
  rw [execFence, issueSerial_wait s _ _ _ h]

/-- Settles O39: each op by its own checks, and a fence by whether an access in flight is one that it waits for. -/
theorem trapOpsAndFences : Obligations.TrapOpsAndFences := by
  unfold Obligations.TrapOpsAndFences
  refine ⟨⟨exec_trap, fun f s => rett_returns f, fun f s => rett_traps f, fun f s =>
      ⟨exec_bkpt_zero, bkpt_traps, bkpt_poisoned⟩, fun f s => rfl, fun f s hp => ⟨_, exec_svc hp, rfl, rfl, rfl, rfl, rfl⟩⟩,
    fun f s => ⟨fun hl hf => ?_, fun h => ?_⟩⟩
  · refine exec_fence_go (readyFence_go (fun l hm => ?_) (fun o hm => ?_))
    · exact Bool.eq_false_iff.2 fun hc => by
        obtain ⟨p, hp, hmeet⟩ := (fenced_iff _ _ _).1 hc
        exact Bool.false_ne_true ((hl l hm p hp).symm.trans hmeet)
    · exact Bool.eq_false_iff.2 fun hc => by
        obtain ⟨p, hp, hmeet⟩ := (fenced_iff _ _ _).1 hc
        exact Bool.false_ne_true ((hf o hm p hp).symm.trans hmeet)
  · refine exec_fence_wait (readyFence_wait ?_)
    exact h.imp (fun ⟨l, hm, hp⟩ => ⟨l, hm, (fenced_iff _ _ _).2 hp⟩) (fun ⟨o, hm, hp⟩ => ⟨o, hm, (fenced_iff _ _ _).2 hp⟩)

end Sys2Proof.Machine
end

section
/-! Thresher arithmetic: the elements of the sources, and the forms of the ops (R424, R433 to R436). -/
open Sys2Proof Sys2Proof.Machine Sys2Proof.Claims

namespace Sys2Proof.Machine

/-! ### The elements of a source (R432, R433) -/

/-- The number of elements of an op of width `w`: one in the scalar form. -/
def thrCount (scalar : Bool) (w : Nat) : Nat := if scalar then 1 else 512 / w

theorem thrWidth_cases (t : TType) : t.fmt.width = 16 ∨ t.fmt.width = 32 := by
  cases t
  · exact .inr rfl
  · exact .inr rfl
  · exact .inl rfl

theorem thrInt_iff (t : TType) : t.fmt.isInt = true ↔ t = .int32 := by cases t <;> decide

theorem thrCount_le (scalar : Bool) (t : TType) : thrCount scalar t.fmt.width ≤ 512 / t.fmt.width := by
  rcases thrWidth_cases t with h | h <;> rw [h] <;> cases scalar <;> decide

theorem Invocation.elems_eq (v : Invocation) (scalar : Bool) (w : Nat) (n : BitVec 4) :
    v.elems scalar w n = (List.range (thrCount scalar w)).map (tsrc v scalar w n) := by
  cases scalar
  · exact lanesOf_eq_map w _ _
  · rfl

/-- Source B has at least as many elements: a Z register's value stands for all of them. -/
theorem Invocation.elemsB_eq (v : Invocation) (scalar bz : Bool) (w : Nat) (n : BitVec 4) :
    v.elemsB scalar bz w n = (List.range (if bz then 512 / w else thrCount scalar w)).map (tsrcB v scalar bz w n) := by
  cases bz
  · exact v.elems_eq scalar w n
  · exact replicate_eq_map_range _ _

theorem zip_elems (v : Invocation) (scalar bz : Bool) (t : TType) (a b : BitVec 4) :
    (v.elems scalar t.fmt.width a).zip (v.elemsB scalar bz t.fmt.width b) =
      (List.range (thrCount scalar t.fmt.width)).map (fun e => (tsrc v scalar t.fmt.width a e, tsrcB v scalar bz t.fmt.width b e)) := by
  rw [v.elems_eq, v.elemsB_eq, zip_map_range]
  split
  · exact thrCount_le scalar t
  · exact Nat.le_refl _

/-! ### The forms -/

/-- The invocation as its instruction begins: where it stands is noted, and one step fewer is left. -/
def Invocation.begun (v : Invocation) : Invocation := { v with last := v.pc, left := v.left - 1 }

section
variable {s : State} {v : Invocation} (hv : s.thr = some v)
include hv

section
variable {f : State → Invocation → State × Invocation × ThrNext} {t : State} {u : Invocation}

theorem thrInstr_seq (h : f s v.begun = (t, u, .seq)) : thrInstr s f = .next (t.thrGoto u (v.pc + 1)) := by
  unfold Invocation.begun at h
  simp only [thrInstr, hv, h]

theorem thrInstr_jump {k : Nat} (h : f s v.begun = (t, u, .jump k)) : thrInstr s f = .next (t.thrGoto u k) := by
  unfold Invocation.begun at h
  simp only [thrInstr, hv, h]

theorem thrInstr_trap {c x : Nat} (h : f s v.begun = (t, u, .trap c x)) : thrInstr s f = .next (t.thrFinish u (.trap c x v.pc)) := by
  unfold Invocation.begun at h
  simp only [thrInstr, hv, h]

theorem thrInstr_stop (h : f s v.begun = (t, u, .stop)) : thrInstr s f = .next (t.thrStop u) := by
  unfold Invocation.begun at h
  simp only [thrInstr, hv, h]

end

/-- An instruction that writes registers alone goes on at the next word. -/
theorem thrPure_steps (g : Invocation → Invocation) : thrPure s g = .next (s.thrGoto (g v.begun) (v.pc + 1)) := thrInstr_seq hv rfl

theorem thrStep_of_pure {i : Instr} {g : Invocation → Invocation} (hi : exec i s = thrPure s g) : ThrStep i s v g :=
  hi.trans (thrPure_steps hv g)

theorem thrSends_unary {i : Instr} {f : TR} {g x : Nat → Nat} (hi : exec i s = thrUnary f s g)
    (hx : ∀ e, g (tsrc v f.s f.t.fmt.width f.a e) = x e) : ThrSends i s v f.s f.t.fmt.width f.d x := by
  rw [← funext hx]
  refine hi.trans ((thrPure_steps hv _).trans ?_)
  rw [Invocation.elems_eq, List.map_map]
  rfl

theorem thrSends_binary {i : Instr} {f : TR} {g : Nat → Nat → Nat} {x : Nat → Nat} (hi : exec i s = thrBinary f s g)
    (hx : ∀ e, g (tsrc v f.s f.t.fmt.width f.a e) (tsrcB v f.s f.bz f.t.fmt.width f.b e) = x e) :
    ThrSends i s v f.s f.t.fmt.width f.d x := by
  rw [← funext hx]
  refine hi.trans ((thrPure_steps hv _).trans ?_)
  rw [← List.map_uncurry_zip_eq_zipWith, zip_elems, List.map_map]
  rfl

/-- An op of three sources. -/
theorem thrSends_ternary {i : Instr} {f : TR} {g : Nat × Nat → Nat → Nat} {x : Nat → Nat}
    (hi : exec i s = thrPure s (fun v => v.put f.s f.t.fmt.width f.d (List.zipWith g
      ((v.elems f.s f.t.fmt.width f.a).zip (v.elemsB f.s f.bz f.t.fmt.width f.b)) (v.elems f.s f.t.fmt.width f.c))))
    (hx : ∀ e, g (tsrc v f.s f.t.fmt.width f.a e, tsrcB v f.s f.bz f.t.fmt.width f.b e) (tsrc v f.s f.t.fmt.width f.c e) = x e) :
    ThrSends i s v f.s f.t.fmt.width f.d x := by
  rw [← funext hx]
  refine hi.trans ((thrPure_steps hv _).trans ?_)
  rw [← List.map_uncurry_zip_eq_zipWith, zip_elems, Invocation.elems_eq, zip_map_range _ _ (Nat.le_refl _), List.map_map]
  rfl

/-- The compare: of each pair of elements, 1 or 0 (R434). -/
theorem thrSends_cmp (c : TRCmp) :
    ThrSends (.thrCmp c) s v c.s c.t.fmt.width c.d (fun e => if condElem c.cond c.t.fmt (tsrc v c.s c.t.fmt.width c.a e)
      (tsrcB v c.s c.bz c.t.fmt.width c.b e) then 1 else 0) := by
  have hi : exec (.thrCmp c) s = execThrCmp c s := rfl
  refine hi.trans ((thrPure_steps hv _).trans ?_)
  rw [← List.map_uncurry_zip_eq_zipWith, zip_elems, List.map_map]
  rfl

/-- The conversion of the first 16 elements between two different types (R435). -/
theorem thrStep_cvt {k : TRCvt} (hk : k.t ≠ k.t2) :
    ThrStep (.thrCvt k) s v (fun u => u.put k.s k.t.fmt.width k.d ((List.range (if k.s then 1 else 16)).map (fun e =>
      (convertTo k.t.fmt .rne (decide (k.t = .int32)) 0 (decodeElem k.t2.fmt (tsrc v k.s k.t2.fmt.width k.a e))).bits))) := by
  have hint : (k.t.fmt.isInt && k.t2.fmt.isInt) = false := by
    refine Bool.eq_false_iff.2 fun h => ?_
    obtain ⟨h1, h2⟩ := Bool.and_eq_true_iff.1 h
    exact hk (((thrInt_iff _).1 h1).trans ((thrInt_iff _).1 h2).symm)
  have hsat : (k.t == .int32) = decide (k.t = .int32) := rfl
  have htake : (v.elems k.s k.t2.fmt.width k.a).take 16 = (List.range (if k.s then 1 else 16)).map (tsrc v k.s k.t2.fmt.width k.a) := by
    rw [v.elems_eq]
    cases k.s
    · exact take_map_range _ (by rcases thrWidth_cases k.t2 with h | h <;> rw [h] <;> decide)
    · rfl
  have hi : exec (.thrCvt k) s = execThrCvt k s := rfl
  refine hi.trans ((thrPure_steps hv _).trans ?_)
  show Host.Outcome.next (s.thrGoto (Invocation.put _ k.s k.t.fmt.width k.d
    (((v.elems k.s k.t2.fmt.width k.a).take 16).map _)) _) = _
  rw [htake, List.map_map]
  simp only [ConvSpec.elem, hint, hsat, Bool.false_and, Bool.false_eq_true, if_false, Function.comp_def]
  rfl

end

/-- Settles O43: each op has one of three forms, and its value is element by element the model's own. -/
theorem thresherArithmetic : Obligations.ThresherArithmetic := by
  unfold Obligations.ThresherArithmetic
  intro f c k s v hv
  refine ⟨thrSends_binary hv rfl (fun _ => rfl), thrSends_binary hv rfl (fun _ => rfl), thrSends_binary hv rfl (fun _ => rfl),
    thrSends_binary hv rfl (fun _ => rfl), thrSends_binary hv rfl (fun _ => rfl), thrSends_unary hv rfl (fun e => ?_),
    thrSends_unary hv rfl (fun e => ?_), thrSends_ternary hv rfl (fun _ => rfl), thrSends_binary hv rfl (fun _ => rfl),
    thrSends_binary hv rfl (fun _ => rfl), thrSends_binary hv rfl (fun _ => rfl), thrSends_binary hv rfl (fun _ => rfl),
    thrSends_binary hv rfl (fun _ => rfl), thrSends_binary hv rfl (fun e => ?_), thrSends_binary hv rfl (fun e => ?_),
    thrSends_ternary hv rfl (fun e => ?_), thrSends_unary hv rfl (fun _ => rfl), thrSends_unary hv rfl (fun _ => rfl),
    thrSends_cmp hv c, fun hk => thrStep_cvt hv hk⟩
  · rw [Int.natCast_natAbs]; rfl
  · rw [Int.zero_sub]; rfl
  · rw [Nat.cast_pow]; rfl
  · rw [satInt_eq]
  · simp only [ne_eq, ite_not]

end Sys2Proof.Machine
end

section
/-! Thresher moves, the window and the bins, and control (R437 to R443, R447). -/
open Sys2Proof Sys2Proof.Machine Sys2Proof.Claims

namespace Sys2Proof.Machine

/-! ### Addresses (R438, R440) -/

theorem tmAddr_eq (f : TM) (v : Invocation) : tmAddr f v = ((v.rdZ f.a).toNat + f.off.toNat) % 2 ^ 32 := by
  have hoff : (f.off.zeroExtend 32).toNat = f.off.toNat := by
    have := f.off.isLt
    rw [BitVec.toNat_setWidth, Nat.mod_eq_of_lt (by omega)]
  rw [tmAddr, BitVec.toNat_add, hoff]

/-! ### Accesses, and the traps of those that go wrong -/

section
variable {s : State} {v : Invocation} (hv : s.thr = some v)
include hv

section
variable (f : TM) (g : Invocation → Nat → Invocation)

theorem windowAccess_steps (h : tmAddr f v % 4 = 0 ∧ tmAddr f v + tmBytes f ≤ v.windowEnd) :
    windowAccess f s g = .next (s.thrGoto (g v.begun (tmAddr f v)) (v.pc + 1)) := thrInstr_seq hv (if_pos h)

theorem windowAccess_traps (h : ¬ (tmAddr f v % 4 = 0 ∧ tmAddr f v + tmBytes f ≤ v.windowEnd)) :
    windowAccess f s g = .next (s.thrFinish v.begun (.trap 0x02 (tmAddr f v) v.pc)) := thrInstr_trap hv (if_neg h)

end

section
variable (off : Invocation → Nat) (n : Nat) (g : State → Invocation → Nat → State × Invocation)

theorem binAccess_steps (hg : v.binGone = false) (h : off v.begun % 4 = 0 ∧ off v.begun + n ≤ (s.dev.binSet v.kernel).2) :
    binAccess s off n g = .next ((g s v.begun ((s.dev.binSet v.kernel).1 + off v.begun)).1.thrGoto
      (g s v.begun ((s.dev.binSet v.kernel).1 + off v.begun)).2 (v.pc + 1)) :=
  thrInstr_seq hv ((if_neg (Bool.eq_false_iff.1 hg)).trans (if_pos h))

theorem binAccess_gone (hg : v.binGone = true) : binAccess s off n g = .next (s.thrFinish v.begun (.trap 0x05 0 v.pc)) :=
  thrInstr_trap hv (if_pos hg)

theorem binAccess_traps (hg : v.binGone = false) (h : ¬ (off v.begun % 4 = 0 ∧ off v.begun + n ≤ (s.dev.binSet v.kernel).2)) :
    binAccess s off n g = .next (s.thrFinish v.begun (.trap 0x01 (off v.begun) v.pc)) :=
  thrInstr_trap hv ((if_neg (Bool.eq_false_iff.1 hg)).trans (if_neg h))

end

end

/-! ### The instructions -/

section
variable {s : State} {v : Invocation} (hv : s.thr = some v)
include hv

theorem thrStep_addi (b : TIAdd) :
    ThrStep (.thrAddi b) s v (fun u => u.wrZ b.d (BitVec.ofInt 32 ((v.rdZ b.a).toInt + b.imm.toInt))) := by
  refine (thrStep_of_pure hv rfl : ThrStep (.thrAddi b) s v (fun u => u.wrZ b.d (u.rdZ b.a + b.imm.signExtend 32))).trans ?_
  rw [BitVec.ofInt_add, BitVec.ofInt_toInt]
  rfl

theorem thrStep_vext (c : TRLane) :
    ThrStep (.thrVext c) s v (fun u => u.wrZ c.d (BitVec.ofNat 32 ((v.rdW c.a).toNat / 2 ^ (32 * c.x.toNat)))) := by
  have hi : exec (.thrVext c) s = execThrVext c s := rfl
  exact hi.trans (thrPure_steps hv _)

theorem thrStep_vbc (c : TRLane) :
    ThrStep (.thrVbc c) s v (fun u => u.put false 32 c.d (List.replicate 16 (v.rdZ c.a).toNat)) := by
  have hi : exec (.thrVbc c) s = execThrVbc c s := rfl
  exact hi.trans (thrPure_steps hv _)

theorem thrStep_hdr (c : TRLane) : ThrStep (.thrHdr c) s v (fun u => u.wrZ c.d (BitVec.ofNat 32 (headerField v.spec c.x.toNat))) := by
  have hi : exec (.thrHdr c) s = execThrHdr c s := rfl
  exact hi.trans (thrPure_steps hv _)

theorem thrStep_pld (f : TM) (h : tmAddr f v % 4 = 0 ∧ tmAddr f v + tmBytes f ≤ v.windowEnd) :
    ThrStep (.thrPld f) s v (fun u => u.putBytes f ((v.window.drop (tmAddr f v)).take (tmBytes f))) := by
  have hi : exec (.thrPld f) s = execThrPld f s := rfl
  exact hi.trans (windowAccess_steps hv f _ h)

theorem thrStep_pst (f : TM) (h : tmAddr f v % 4 = 0 ∧ tmAddr f v + tmBytes f ≤ v.windowEnd) :
    ThrStep (.thrPst f) s v (fun u =>
      { u with window := v.window.take (tmAddr f v) ++ v.regBytes f ++ v.window.drop (tmAddr f v + tmBytes f) }) := by
  have hi : exec (.thrPst f) s = execThrPst f s := rfl
  exact hi.trans (windowAccess_steps hv f _ h)

theorem thrTraps_window (f : TM) (h : ¬ (tmAddr f v % 4 = 0 ∧ tmAddr f v + tmBytes f ≤ v.windowEnd)) :
    ThrTraps (.thrPld f) s v 0x02 (tmAddr f v) ∧ ThrTraps (.thrPst f) s v 0x02 (tmAddr f v) := by
  have hld : exec (.thrPld f) s = execThrPld f s := rfl
  have hst : exec (.thrPst f) s = execThrPst f s := rfl
  exact ⟨hld.trans (windowAccess_traps hv f _ h), hst.trans (windowAccess_traps hv f _ h)⟩

theorem thrBst_writes (f : TM) (hg : v.binGone = false) (h : tmAddr f v % 4 = 0 ∧ tmAddr f v + tmBytes f ≤ (s.dev.binSet v.kernel).2) :
    exec (.thrBst f) s = .next ((s.mapDev (fun d => d.putBins ((s.dev.binSet v.kernel).1 + tmAddr f v) (v.regBytes f))).thrGoto
      v.begun (v.pc + 1)) := by
  have hi : exec (.thrBst f) s = execThrBst f s := rfl
  have ha : tmAddr f v.begun = tmAddr f v := rfl
  have hb : v.begun.regBytes f = v.regBytes f := rfl
  rw [hi, execThrBst, binAccess_steps hv _ _ _ hg h, ha, hb]

theorem thrBamo_updates (g : TRBamo) (hg : v.binGone = false)
    (h : (v.rdZ g.a).toNat % 4 = 0 ∧ (v.rdZ g.a).toNat + 4 ≤ (s.dev.binSet v.kernel).2) :
    let at' := (s.dev.binSet v.kernel).1 + (v.rdZ g.a).toNat
    let old := natOfBytes (s.dev.binBytes at' 4)
    exec (.thrBamo g) s = .next ((s.mapDev (fun d => d.putBins at' (bytesOfNat 4 (bamoApply g.op old (v.rdZ g.b).toNat)))).thrGoto
      (v.begun.wrZ g.d (BitVec.ofNat 32 old)) (v.pc + 1)) := by
  have hi : exec (.thrBamo g) s = execThrBamo g s := rfl
  have hb : v.begun.rdZ g.b = v.rdZ g.b := rfl
  have ha : v.begun.rdZ g.a = v.rdZ g.a := rfl
  rw [hi, execThrBamo, binAccess_steps hv (fun v => (v.rdZ g.a).toNat) 4 _ hg h]
  simp only [ha, hb]

end

/-- Settles O44: a move writes its register, and an access is performed or traps by its place. -/
theorem thresherMoves : Obligations.ThresherMoves := by
  unfold Obligations.ThresherMoves
  refine ⟨fun a b c f s v hv => ?_, fun f g s v hv => ?_⟩
  · simp only [← tmAddr_eq]
    exact ⟨thrStep_of_pure hv rfl, thrStep_addi hv b, thrStep_vext hv c, thrStep_vbc hv c, thrStep_hdr hv c,
      fun h4 hn => ⟨thrStep_pld hv f ⟨h4, hn⟩, thrStep_pst hv f ⟨h4, hn⟩⟩, thrTraps_window hv f⟩
  · have hld : exec (.thrBld f) s = execThrBld f s := rfl
    have hst : exec (.thrBst f) s = execThrBst f s := rfl
    have hamo : exec (.thrBamo g) s = execThrBamo g s := rfl
    simp only [← tmAddr_eq]
    exact ⟨fun hg h4 hn => ⟨hld.trans (binAccess_steps hv _ _ _ hg ⟨h4, hn⟩), thrBst_writes hv f hg ⟨h4, hn⟩⟩,
      fun hg h4 hn => thrBamo_updates hv g hg ⟨h4, hn⟩,
      fun hg => ⟨hld.trans (binAccess_gone hv _ _ _ hg), hst.trans (binAccess_gone hv _ _ _ hg), hamo.trans (binAccess_gone hv _ _ _ hg)⟩,
      fun hg hn => ⟨hld.trans (binAccess_traps hv _ _ _ hg hn), hst.trans (binAccess_traps hv _ _ _ hg hn)⟩,
      fun hg hn => hamo.trans (binAccess_traps hv _ _ _ hg hn)⟩

/-! ### Control (R441 to R443) -/

theorem tripCount_eq (f : TC) (v : Invocation) :
    tripCount f v = if f.a = 0 then f.k.toNat + 1 else (min (v.rdZ f.a).toInt (f.k.toNat + 1 : Nat)).toNat := by
  have hs : signedOf 32 (v.rdZ f.a).toNat = (v.rdZ f.a).toInt := by
    rw [signedOf, BitVec.toInt_eq_toNat_cond]
    have hlt := (v.rdZ f.a).isLt
    simp only [Nat.mod_eq_of_lt hlt]
    split <;> split <;> omega
  rw [tripCount, hs]

theorem thrLoopi_passes {f : TC} {s : State} {v : Invocation} (hv : s.thr = some v) (h : tripCount f v = 0) :
    exec (.thrLoopi f) s = .next (s.thrGoto v.begun (v.pc + 1 + f.o.toNat)) := by
  have h' : tripCount f v.begun = 0 := h
  have hi : exec (.thrLoopi f) s = execThrLoopi f s := rfl
  exact hi.trans (thrInstr_jump hv (by simp only [h']; rfl))

theorem thrLoopi_enters {f : TC} {s : State} {v : Invocation} (hv : s.thr = some v) {k : Nat} (h : tripCount f v = k + 1) :
    exec (.thrLoopi f) s = .next (s.thrGoto
      { v.begun with trip := some { start := v.pc + 1, stop := v.pc + 1 + f.o.toNat, left := k } } (v.pc + 1)) := by
  have h' : tripCount f v.begun = k + 1 := h
  have hi : exec (.thrLoopi f) s = execThrLoopi f s := rfl
  exact hi.trans (thrInstr_jump hv (by simp only [h']; rfl))

theorem thrBc_goes {f : TC} {s : State} {v : Invocation} (hv : s.thr = some v) :
    exec (.thrBc f) s = .next (s.thrGoto v.begun
      (if intCond (Cond.ofCode f.k.toNat) 32 (v.rdZ f.a).toNat 0 then v.pc + f.o.toNat else v.pc + 1)) := by
  have hi : exec (.thrBc f) s = execThrBc f s := rfl
  by_cases h : intCond (Cond.ofCode f.k.toNat) 32 (v.rdZ f.a).toNat 0 = true
  · rw [if_pos h]
    exact hi.trans (thrInstr_jump hv (congrArg (fun n => (s, v.begun, n)) (if_pos h)))
  · rw [if_neg h]
    exact hi.trans (thrInstr_seq hv (congrArg (fun n => (s, v.begun, n)) (if_neg h)))

theorem State.thrStop_disp (s : State) {v : Invocation} (h : v.disp = .fwd ∨ v.disp = .drop) :
    s.thrStop v = s.thrFinish v (.disp v.disp) := by
  rcases h with h | h <;> simp only [State.thrStop, h]

/-- Settles O45: each control instruction goes on, goes elsewhere or stops. -/
theorem thresherControl : Obligations.ThresherControl := by
  unfold Obligations.ThresherControl
  intro f s v hv
  have hbr : exec (.thrBr f) s = execThrBr f s := rfl
  have hredir : exec (.thrRedir f) s = execThrRedir f s := rfl
  have htrap : exec (.thrTrap f) s = execThrTrap f s := rfl
  have hend : exec (.thrEnd f) s = execThrEnd f s := rfl
  simp only [← tripCount_eq]
  refine ⟨hbr.trans (thrInstr_jump hv rfl), thrBc_goes hv, thrLoopi_passes hv, fun h => ?_, thrStep_of_pure hv rfl, thrStep_of_pure hv rfl,
    hredir.trans (thrPure_steps hv _), htrap.trans (thrInstr_trap hv rfl), hend.trans (thrInstr_stop hv rfl), fun h => ?_⟩
  · exact thrLoopi_enters hv (Nat.succ_pred_eq_of_pos h).symm
  · rw [s.thrStop_disp (v := { v with last := v.pc, left := v.left - 1 }) h]
    exact ⟨rfl, rfl, rfl⟩

end Sys2Proof.Machine
end

section
/-! SEND and RECV (R391 to R393). -/
open Sys2Proof Sys2Proof.Machine Sys2Proof.Claims

namespace Sys2Proof.Machine

/-- The conditions under which the shared checks of SEND and RECV pass (R391). -/
def State.linkReady (s : State) (f : EA) : Prop :=
  linkOk s.dev.ident.index (s.rdX f.a) (s.rdX f.c).toNat = true ∧ (s.rdX f.b).toNat % 256 = 0 ∧
    (s.rdX f.b).toNat + (s.rdX f.c).toNat ≤ lsSize ∧ s.poisonX f.b = false ∧ s.core.gate.length < 64

/-- RECV takes the head message of its queue (R393). -/
def State.headTaken (s : State) (peer : Nat) : State :=
  s.mapDev (fun d => d.mapQueue s.core.tenant peer (fun q =>
    { q with msgs := q.msgs.drop 1, taken := q.taken + (q.msgs.head?.map msgEntries).getD 0 }))

section
variable {s : State} {f : EA}

theorem chkLink_rejected (hb : s.poisonX f.b = false) (h : linkOk s.dev.ident.index (s.rdX f.a) (s.rdX f.c).toNat = false) :
    s.chkLink f.a f.b f.c = .trap 0x12 0x60000 := by
  rw [State.chkLink, needCtl_clean hb, need_fail h]
  rfl

/-- SEND has nothing to wait for: its peer takes no message, is a route, or has granted the credits (R392, log 25). -/
theorem readySend_go (hr : s.dev.unreachable (linkPeer (s.rdX f.a)) = true ∨ 256 ≤ linkPeer (s.rdX f.a) ∨
    (s.rdX f.c).toNat / 256 ≤ (s.queue (linkPeer (s.rdX f.a))).credits) : readySend f s = .go := by
  refine if_pos ?_
  simpa only [Bool.or_eq_true, decide_eq_true_eq, or_assoc] using hr

section
variable (h : s.linkReady f)
include h

theorem chkLink_ok : s.chkLink f.a f.b f.c = .ok := by
  obtain ⟨hok, hal, hls, hb, hg⟩ := h
  rw [State.chkLink, needCtl_clean hb, need_pass hok, need_pass (by simp [hal, hls]), needGate_room hg]
  rfl

/-! ### SEND -/

theorem send_commands (hr : s.dev.unreachable (linkPeer (s.rdX f.a)) = true ∨ 256 ≤ linkPeer (s.rdX f.a)) :
    Commands (.send f) s f.d (.send (linkPeer (s.rdX f.a)) (linkTag (s.rdX f.a)) (s.rdX f.b).toNat ((s.rdX f.c).toNat / 256)
      (s.dev.unreachable (linkPeer (s.rdX f.a)))) := by
  show execSend f s = _
  rw [execSend, chkSend, chkLink_ok h, readySend_go (hr.imp_right .inl), issueOp_go]
  have hc : (s.dev.unreachable (linkPeer (s.rdX f.a)) || decide (256 ≤ linkPeer (s.rdX f.a))) = true := by
    simpa only [Bool.or_eq_true, decide_eq_true_eq] using hr
  simp only [hc, if_true]

theorem send_takes_credits (hu : s.dev.unreachable (linkPeer (s.rdX f.a)) = false) (hp : linkPeer (s.rdX f.a) < 256)
    (hk : (s.rdX f.c).toNat / 256 ≤ (s.queue (linkPeer (s.rdX f.a))).credits) :
    exec (.send f) s = .next ((s.mapDev (fun d => d.mapQueue s.core.tenant (linkPeer (s.rdX f.a)) (fun q =>
      { q with credits := q.credits - (s.rdX f.c).toNat / 256 }))).gateCmd (s.px f.d)
        (.send (linkPeer (s.rdX f.a)) (linkTag (s.rdX f.a)) (s.rdX f.b).toNat ((s.rdX f.c).toNat / 256) false)) := by
  show execSend f s = _
  rw [execSend, chkSend, chkLink_ok h, readySend_go (.inr (.inr hk)), issueOp_go]
  simp only [hu, Bool.false_or, decide_eq_true_eq, Nat.not_le.2 hp, if_false]

/-! ### RECV -/

theorem chkRecv_match {m : LinkMsg} {ms : List LinkMsg} (hm : (s.queue (linkPeer (s.rdX f.a))).msgs = m :: ms)
    (ht : m.tag = linkTag (s.rdX f.a)) (hk : msgEntries m = (s.rdX f.c).toNat / 256) : chkRecv f s = .ok := by
  simp only [chkRecv, chkLink_ok h, hm, ht, hk, need, Chk.ok_and, beq_self_eq_true, Bool.and_self, if_true]

theorem chkRecv_mismatch {m : LinkMsg} {ms : List LinkMsg} (hm : (s.queue (linkPeer (s.rdX f.a))).msgs = m :: ms)
    (hne : m.tag ≠ linkTag (s.rdX f.a) ∨ msgEntries m ≠ (s.rdX f.c).toNat / 256) :
    chkRecv f s = .trap 0x12 (BitVec.ofNat 64 (0x60000 + m.tag % 32 * 2 ^ 8 + msgEntries m % 128)) := by
  simp only [chkRecv, chkLink_ok h, hm, Chk.ok_and]
  refine need_fail (Bool.eq_false_iff.2 fun hc => ?_) _ _
  simp only [Bool.and_eq_true, beq_iff_eq] at hc
  exact hne.elim (· hc.1) (· hc.2)

theorem chkRecv_empty (hm : (s.queue (linkPeer (s.rdX f.a))).msgs = []) : chkRecv f s = .ok := by
  simp only [chkRecv, chkLink_ok h, hm, Chk.ok_and]

end

theorem readyRecv_go (hr : (s.queue (linkPeer (s.rdX f.a))).msgs ≠ [] ∨ s.dev.silent (linkPeer (s.rdX f.a)) = true) :
    readyRecv f s = .go := by
  refine if_neg fun hc => ?_
  rw [Bool.and_eq_true, List.isEmpty_iff, Bool.not_eq_true'] at hc
  exact hr.elim (· hc.1) (by rw [hc.2]; exact Bool.false_ne_true)

theorem readyRecv_waits (hm : (s.queue (linkPeer (s.rdX f.a))).msgs = []) (hs : s.dev.silent (linkPeer (s.rdX f.a)) = false) :
    readyRecv f s = .wait (some (.recv (linkPeer (s.rdX f.a)))) := if_pos (by rw [hm, hs]; rfl)

/-- A RECV that issues takes the head of its queue, and its command carries it. -/
theorem recv_issues (hc : chkRecv f s = .ok) (hr : readyRecv f s = .go) :
    exec (.recv f) s = .next ((s.headTaken (linkPeer (s.rdX f.a))).gateCmd (s.px f.d)
      (.recv (linkPeer (s.rdX f.a)) (linkTag (s.rdX f.a)) (s.rdX f.b).toNat ((s.rdX f.c).toNat / 256)
        (s.queue (linkPeer (s.rdX f.a))).msgs.head?)) := by
  show execRecv f s = _
  rw [execRecv, hc, hr]
  rfl

theorem link_traps (hb : s.poisonX f.b = false) (h : linkOk s.dev.ident.index (s.rdX f.a) (s.rdX f.c).toNat = false) :
    Traps (.send f) s 0x12 0x60000 ∧ Traps (.recv f) s 0x12 0x60000 := by
  refine ⟨?_, ?_⟩
  · show execSend f s = _
    rw [execSend, chkSend, chkLink_rejected hb h]; rfl
  · show execRecv f s = _
    rw [execRecv, chkRecv, chkLink_rejected hb h]; rfl

end

/-- Settles O35: the checks of R391, then what the queue and the peer allow. -/
theorem linkOps : Obligations.LinkOps := by
  unfold Obligations.LinkOps
  intro f s peer tag n k src ok
  refine ⟨fun h hu hp hk => send_takes_credits h hu hp hk, fun h hu => ?_, fun h hu hp => ?_, fun m ms h hm ht hk => ?_,
    fun m ms h hm hne => ?_, fun h hm hs => ?_, fun h hm hs => ?_, link_traps⟩
  · exact (send_commands h (.inl hu)).trans (by rw [hu])
  · exact (send_commands h (.inr hp)).trans (by rw [hu])
  · exact (recv_issues (chkRecv_match h hm ht hk) (readyRecv_go (.inl (by rw [hm]; exact List.cons_ne_nil _ _)))).trans (by rw [hm]; rfl)
  · show execRecv f s = _
    rw [execRecv, chkRecv_mismatch h hm hne]; rfl
  · show execRecv f s = _
    rw [execRecv, chkRecv_empty h hm, readyRecv_waits hm hs]; rfl
  · exact (recv_issues (chkRecv_empty h hm) (readyRecv_go (.inr hs))).trans (by rw [hm]; rfl)

end Sys2Proof.Machine
end

section
/-! The links' events: ports, loss, messages and frames between domains (R387 to R390, R394, R398, R399). -/
open Sys2Proof Sys2Proof.Machine Sys2Proof.Claims

namespace Sys2Proof.Machine

/-! ### The links' tables: one entry a key -/

/-- What is sought is not among what a filter takes out. -/
theorem find?_filter_of_imp {α : Type} {p q : α → Bool} (l : List α) (h : ∀ o, q o = true → p o = true) :
    (l.filter p).find? q = l.find? q := by
  rw [List.find?_filter]
  refine congrArg (fun f => l.find? f) (funext fun o => ?_)
  cases hq : q o
  · rw [decide_eq_false (by simp)]
  · rw [h o hq]; rfl

theorem State.hear_links (s : State) (dev : Nat) : (s.hear dev).dev.links =
    { s.dev.links with heard := (dev, s.core.now) :: s.dev.links.heard.filter (fun q => q.1 != dev) } := rfl

theorem State.heardAt_hear_same (s : State) (dev : Nat) : (s.hear dev).dev.links.heardAt dev = s.core.now := by
  simp [State.hear_links, Links.heardAt]

theorem State.heardAt_hear_other (s : State) {dev o : Nat} (h : o ≠ dev) : (s.hear dev).dev.links.heardAt o = s.dev.links.heardAt o := by
  have hf : (s.dev.links.heard.filter (fun q => q.1 != dev)).find? (fun q => q.1 == o) = s.dev.links.heard.find? (fun q => q.1 == o) :=
    find?_filter_of_imp _ fun q hq => by simpa [beq_iff_eq.1 hq] using h
  have hne : (dev == o) = false := beq_false_of_ne (Ne.symm h)
  simp only [State.hear_links, Links.heardAt, List.find?_cons, hne, hf]

theorem Links.queue_tenant (l : Links) (tn p : Nat) : (l.queue tn p).tenant = tn ∧ (l.queue tn p).peer = p := by
  unfold Links.queue
  cases h : l.queues.find? (fun q => q.tenant == tn && q.peer == p) with
  | none => exact ⟨rfl, rfl⟩
  | some q =>
    have hq := List.find?_some h
    simpa using hq

theorem Links.queue_setQueue (l : Links) (q : LinkQueue) (tn p : Nat) :
    (l.setQueue q).queue tn p = if q.tenant = tn ∧ q.peer = p then q else l.queue tn p := by
  unfold Links.queue Links.setQueue
  by_cases h : q.tenant = tn ∧ q.peer = p
  · obtain ⟨rfl, rfl⟩ := h
    simp
  · have hne : (q.tenant == tn && q.peer == p) = false := by simpa using h
    have hf : (l.queues.filter (fun o => !(o.tenant == q.tenant && o.peer == q.peer))).find? (fun o => o.tenant == tn && o.peer == p) =
        l.queues.find? (fun o => o.tenant == tn && o.peer == p) := find?_filter_of_imp _ fun o ho => by
      obtain ⟨rfl, rfl⟩ : o.tenant = tn ∧ o.peer = p := by simpa using ho
      rw [Bool.not_eq_true', Bool.eq_false_iff, ne_eq, Bool.and_eq_true, beq_iff_eq, beq_iff_eq]
      exact fun hc => h ⟨hc.1.symm, hc.2.symm⟩
    simp only [List.find?_cons, hne, hf, if_neg h]

/-- A change of one queue that keeps whose it is. -/
theorem Dev.queue_mapQueue (d : Dev) {tn p : Nat} {f : LinkQueue → LinkQueue} (hf : ∀ q, (f q).tenant = q.tenant ∧ (f q).peer = q.peer)
    (tn' p' : Nat) : (d.mapQueue tn p f).links.queue tn' p' =
      if tn = tn' ∧ p = p' then f (d.links.queue tn p) else d.links.queue tn' p' := by
  have hq := d.links.queue_tenant tn p
  have hm := hf (d.links.queue tn p)
  rw [Dev.mapQueue, Links.queue_setQueue, hm.1, hm.2, hq.1, hq.2]

theorem Links.routeState_route (l : Links) (r : Nat) : (l.routeState r).route = r := by
  unfold Links.routeState
  cases h : l.routes.find? (fun o => o.route == r) with
  | none => rfl
  | some q => simpa using List.find?_some h

theorem Links.routeState_setRoute (l : Links) (r : RouteState) : (l.setRoute r).routeState r.route = r := by
  simp [Links.routeState, Links.setRoute]

/-! ### Ports -/

section
variable (s : State)

theorem flitReceive_good {port origin : Nat} (hp : port < 8) (ho : s.dev.ident.lost.contains origin = false) :
    exec (.flitReceive port origin true) s = .next ((s.hear origin).mapDev (fun d =>
      { d with links := { d.links with down := d.links.down.filter (fun p => p != port) } })) := by
  show execFlitReceive port origin true s = _
  rw [execFlitReceive, if_neg (by simp only [ho, Bool.false_eq_true, or_false, not_le]; exact hp), if_pos rfl]

theorem flitReceive_bad {port origin : Nat} (hp : port < 8) (ho : s.dev.ident.lost.contains origin = false) :
    exec (.flitReceive port origin false) s = .next (s.mapDev (fun d => d.countErr 0)) := by
  show execFlitReceive port origin false s = _
  rw [execFlitReceive, if_neg (by simp only [ho, Bool.false_eq_true, or_false, not_le]; exact hp), if_neg Bool.false_ne_true]

theorem flitReceive_runs {port origin : Nat} (hp : port < 8) (ho : s.dev.ident.lost.contains origin = false) :
    Runs (.flitReceive port origin true) s (fun t => t.dev.links.down = s.dev.links.down.filter (fun p => p ≠ port) ∧
      t.dev.links.heardAt origin = s.core.now ∧ (∀ o, o ≠ origin → t.dev.links.heardAt o = s.dev.links.heardAt o) ∧
      t.dev.errors = s.dev.errors ∧ t.core = s.core ∧ t.mem = s.mem) := by
  refine ⟨_, flitReceive_good s hp ho, ?_, s.heardAt_hear_same origin, fun o h => s.heardAt_hear_other h, rfl, rfl, rfl⟩
  exact congrArg (fun f => s.dev.links.down.filter f) (funext fun p => by rw [bne, beq_eq_decide, decide_not])

theorem portDown_runs {port : Nat} (hp : port < 8) (hd : port ∉ s.dev.links.down) :
    Runs (.portDown port) s (fun t => t.dev.links.down = s.dev.links.down ++ [port] ∧ t.core = s.core ∧ t.mem = s.mem) :=
  ⟨_, if_pos (by simp [hp, hd]), rfl, rfl, rfl⟩

end

/-! ### Loss (R207, R389) -/

/-- What freeing leases leaves: the claims that were, some of them GONE now. -/
def State.LeasesFreed (s t : State) : Prop :=
  t.core = s.core ∧ t.mem = s.mem ∧ t.dev.ident = s.dev.ident ∧ t.dev.links = s.dev.links ∧ t.dev.msix = s.dev.msix ∧
    t.dev.rounds = s.dev.rounds ∧ ∀ c ∈ t.dev.claims, c.state = .gone ∨ c ∈ s.dev.claims

theorem Dev.foldl_freeLease_frame (l : List ClaimName) (d : Dev) :
    let e := l.foldl Dev.freeLease d
    e.ident = d.ident ∧ e.links = d.links ∧ e.msix = d.msix ∧ e.rounds = d.rounds ∧
      ∀ c ∈ e.claims, c.state = .gone ∨ c ∈ d.claims := by
  induction l generalizing d with
  | nil => exact ⟨rfl, rfl, rfl, rfl, fun c hc => .inr hc⟩
  | cons nm l ih =>
    obtain ⟨hi, hl, hm, hr, hc⟩ := ih (d.freeLease nm)
    refine ⟨hi, hl, hm, hr, fun c h => (hc c h).elim .inl fun h' => ?_⟩
    obtain ⟨c₀, h₀, rfl⟩ := List.mem_map.1 h'
    by_cases hn : (c₀.name == nm) = true
    · exact .inl (by rw [if_pos hn])
    · exact .inr (by rw [if_neg hn]; exact h₀)

theorem State.freeLeases_freed (s : State) (nm : ClaimName) : s.LeasesFreed (s.freeLeases nm) := by
  obtain ⟨hi, hl, hm, hr, hc⟩ := Dev.foldl_freeLease_frame ((s.dev.records.filter (fun r => r.name == nm)).map (·.leases)).flatten
    { s.dev with
      records := s.dev.records.filter (fun r => r.name != nm),
      requestsOut := s.dev.requestsOut ++ ((s.dev.records.filter (fun r => r.name == nm)).map (fun r =>
        r.switches.map (fun w => (w, r.tenant, r.key, true)))).flatten }
  exact ⟨rfl, rfl, hi, hl, hm, hr, hc⟩

theorem State.LeasesFreed.trans {s t u : State} (h : s.LeasesFreed t) (h' : t.LeasesFreed u) : s.LeasesFreed u := by
  obtain ⟨h1, h2, h3, h4, h5, h6, hc⟩ := h
  obtain ⟨h1', h2', h3', h4', h5', h6', hc'⟩ := h'
  exact ⟨h1'.trans h1, h2'.trans h2, h3'.trans h3, h4'.trans h4, h5'.trans h5, h6'.trans h6, fun c hm => (hc' c hm).elim .inl (hc c)⟩

theorem State.foldl_freeLeases_freed (s : State) (l : List RecordState) : s.LeasesFreed (l.foldl (fun (t : State) r => t.freeLeases r.name) s) :=
  List.foldlRecOn l _ (motive := fun t => s.LeasesFreed t) ⟨rfl, rfl, rfl, rfl, rfl, rfl, fun _ hc => .inr hc⟩
    (fun t ht r _ => ht.trans (t.freeLeases_freed r.name))

/-- The names that a shoot-down of several drops are in no cache; the X registers and the device's tables stay. -/
theorem State.foldl_dropCached_frame (l : List ClaimName) (s : State) :
    let t := l.foldl State.dropCached s
    t.core.cache = s.core.cache.filter (fun n => decide (n ∉ l)) ∧ t.core.regs.x = s.core.regs.x ∧ t.mem = s.mem ∧
      ∃ ss, t.dev = { s.dev with strands := ss } := by
  induction l generalizing s with
  | nil => exact ⟨by simp, rfl, rfl, s.dev.strands, rfl⟩
  | cons nm l ih =>
    obtain ⟨hc, hx, hm, ss, hd⟩ := ih (s.dropCached nm)
    refine ⟨hc.trans ?_, hx, hm, ss, hd⟩
    show (s.core.cache.filter (fun n => n != nm)).filter _ = _
    rw [List.filter_filter]
    refine congrArg (fun f => s.core.cache.filter f) (funext fun n => ?_)
    by_cases hn : n = nm <;> simp [hn]

theorem State.endRetires_of_no_token {s : State} (h : ∀ c ∈ s.dev.claims, c.token = none) (serial : Nat) : s.endRetires serial = s :=
  List.foldlRecOn _ _ (motive := fun t => t = s) rfl fun t ht c hc => by
    rw [h c (List.mem_filter.1 hc).1]; exact ht

/-- The serial of a device of the domain. -/
def Dev.serialFor (d : Dev) (dev : Nat) : Nat := ((d.ident.members.find? (fun m => m.1 == dev)).map (·.2)).getD 0

/-- The device with a loss noted: the entries of the lost device's names are GONE, and it is on the list of the lost. -/
def Dev.lossNoted (d : Dev) (dev serial : Nat) : Dev :=
  { d with
    claims := d.claims.map (fun c => let c := c.without dev; if serialOf c.name = serial then { c with state := .gone, token := none } else c),
    ident := { d.ident with lost := d.ident.lost ++ [dev], lostSerials := d.ident.lostSerials ++ [serial] },
    links := { d.links with notices := d.links.notices ++ [dev] } }

/-- The leases that a lost device's records hold end. -/
def State.leasesLost (s : State) (dev : Nat) : State :=
  (s.dev.records.filter (fun r => r.switches.contains dev)).foldl (fun (t : State) r => t.freeLeases r.name) s

/-- The core that has dropped every cached name of a device. -/
def State.shotDown (s : State) (dev : Nat) : State := (s.heldNames (s.dev.serialFor dev)).foldl State.dropCached s

theorem State.loseDevice_eq (s : State) (dev : Nat) :
    let t := ((s.shotDown dev).endRetires (s.dev.serialFor dev)).mapDev (fun d => d.lossNoted dev (s.dev.serialFor dev))
    s.loseDevice dev = ((t.dev.rounds.filter (fun r => r.record.members.contains dev)).foldl (fun (u : State) r => u.abortRound r 7)
      (t.leasesLost dev)).mapDev (fun d => d.raise 0 1) := rfl

theorem State.shotDown_cache (s : State) (dev : Nat) : ∀ m ∈ (s.shotDown dev).core.cache, serialOf m ≠ s.dev.serialFor dev := by
  intro m hm hs
  obtain ⟨hc, -⟩ := State.foldl_dropCached_frame (s.heldNames (s.dev.serialFor dev)) s
  rw [State.shotDown, hc] at hm
  obtain ⟨hm, hn⟩ := List.mem_filter.1 hm
  refine of_decide_eq_true hn (List.mem_filter.2 ⟨?_, beq_iff_eq.2 hs⟩)
  simp only [List.mem_append, hm, true_or]

/-- With no round and no RETIRE under way, a loss is a shoot-down, its note, the leases that end and a vector. -/
theorem State.loseDevice_quiet {s : State} {dev : Nat} (hr : s.dev.rounds = []) (ht : ∀ c ∈ s.dev.claims, c.token = none) :
    s.loseDevice dev = (((s.shotDown dev).mapDev (fun d => d.lossNoted dev (s.dev.serialFor dev))).leasesLost dev).mapDev
      (fun d => d.raise 0 1) := by
  obtain ⟨-, -, -, ss, hd⟩ := State.foldl_dropCached_frame (s.heldNames (s.dev.serialFor dev)) s
  have hclaims : ∀ c ∈ (s.shotDown dev).dev.claims, c.token = none := by rw [State.shotDown, hd]; exact ht
  have hrounds : (s.shotDown dev).dev.rounds = [] := by rw [State.shotDown, hd]; exact hr
  have hfilter : ((s.shotDown dev).mapDev (fun d => d.lossNoted dev (s.dev.serialFor dev))).dev.rounds = [] := hrounds
  rw [State.loseDevice_eq, State.endRetires_of_no_token hclaims, hfilter]
  rfl

/-- The claims of a lost device's names are GONE. -/
theorem Dev.lossNoted_claims (d : Dev) (dev serial : Nat) :
    ∀ c ∈ (d.lossNoted dev serial).claims, serialOf c.name = serial → c.state = .gone := by
  intro c hc hs
  obtain ⟨c₀, -, rfl⟩ := List.mem_map.1 hc
  dsimp only at hs ⊢
  by_cases h : serialOf (c₀.without dev).name = serial
  · rw [if_pos h]
  · rw [if_neg h] at hs; exact absurd hs h

theorem loseDevice_runs {s : State} {dev : Nat} {e : Instr} (he : exec e s = .next (s.loseDevice dev)) (hr : s.dev.rounds = [])
    (htok : ∀ c ∈ s.dev.claims, c.token = none) :
    Runs e s (fun t => t.dev.ident.lost = s.dev.ident.lost ++ [dev] ∧ t.dev.rounds = [] ∧
      t.dev.links.notices = s.dev.links.notices ++ [dev] ∧ t.dev.msix = s.dev.msix ++ [(0, 1)] ∧ t.core.regs.x = s.core.regs.x ∧
      t.mem = s.mem ∧ ∀ n, s.dev.ident.members.find? (fun q => q.1 == dev) = some (dev, n) →
        (∀ m ∈ t.core.cache, serialOf m ≠ n) ∧ ∀ c ∈ t.dev.claims, serialOf c.name = n → c.state = .gone) := by
  obtain ⟨-, hx, hm, ss, hd⟩ := State.foldl_dropCached_frame (s.heldNames (s.dev.serialFor dev)) s
  have hcache := s.shotDown_cache dev
  have hgone := (s.shotDown dev).dev.lossNoted_claims dev (s.dev.serialFor dev)
  obtain ⟨hcore, hmem, hident, hlinks, hmsix, hrounds, hclaims⟩ :=
    State.foldl_freeLeases_freed ((s.shotDown dev).mapDev (fun d => d.lossNoted dev (s.dev.serialFor dev)))
      (((s.shotDown dev).mapDev (fun d => d.lossNoted dev (s.dev.serialFor dev))).dev.records.filter (fun r => r.switches.contains dev))
  refine ⟨_, he.trans (congrArg _ (State.loseDevice_quiet hr htok)), ?_, ?_, ?_, ?_, ?_, ?_, fun n hn => ?_⟩
  · exact (congrArg Ident.lost hident).trans (by rw [State.shotDown, State.mapDev_dev, hd]; rfl)
  · exact hrounds.trans (by rw [State.shotDown, State.mapDev_dev, hd]; exact hr)
  · exact (congrArg Links.notices hlinks).trans (by rw [State.shotDown, State.mapDev_dev, hd]; rfl)
  · exact congrArg (· ++ [(0, 1)]) (hmsix.trans (by rw [State.shotDown, State.mapDev_dev, hd]; rfl))
  · exact (congrArg (fun c : Core => c.regs.x) hcore).trans hx
  · exact hmem.trans hm
  · obtain rfl : s.dev.serialFor dev = n := by rw [Dev.serialFor, hn]; rfl
    refine ⟨fun m hmem => hcache m ?_, fun c hc hs => (hclaims c hc).elim id fun hc => hgone c hc hs⟩
    exact (congrArg (fun c : Core => c.cache) hcore) ▸ hmem

end Sys2Proof.Machine
end

section
/-! Messages and frames between domains (R390, R394, R399), and the settling of the links' events. -/
open Sys2Proof Sys2Proof.Machine Sys2Proof.Claims

namespace Sys2Proof.Machine

/-! ### What the tables depend on -/

theorem Links.queue_congr {l l' : Links} (h : l.queues = l'.queues) (tn p : Nat) : l.queue tn p = l'.queue tn p := by
  rw [Links.queue, Links.queue, h]

theorem Links.routeState_congr {l l' : Links} (h : l.routes = l'.routes) (route : Nat) : l.routeState route = l'.routeState route := by
  rw [Links.routeState, Links.routeState, h]

/-! ### Messages and credits -/

/-- A message whose tenant and TAG have no hook is placed at the end of its queue. -/
theorem State.placeMessage_unhooked {s : State} {m : LinkMsg} (h : s.dev.hook m.tenant m.tag = none) (sender : Nat) :
    s.placeMessage m sender = s.mapDev (fun d => d.mapQueue m.tenant m.peer (fun o => { o with msgs := o.msgs ++ [m] })) := by
  have hk : s.flowKernel m.tenant m.tag = none := by rw [State.flowKernel, h]; rfl
  simp only [State.placeMessage, State.flow, hk, Option.filter_none]

section
variable (s : State)

theorem messageArrival_runs {m : LinkMsg} (ha : (s.dev.page m.tenant).active = true) (hl : s.dev.losable m.peer = true) (ht : m.tag < 32)
    (h1 : 1 ≤ msgEntries m) (h64 : msgEntries m ≤ 64) (hb : m.bytes.length % 256 = 0)
    (hr : s.hasRoom m.tenant m.peer (msgEntries m) = true) (hh : s.dev.hook m.tenant m.tag = none) :
    Runs (.messageArrival m) s (fun t => (t.dev.links.queue m.tenant m.peer).msgs =
        (s.dev.links.queue m.tenant m.peer).msgs ++ [{ m with seq := 0 }] ∧
      (t.dev.links.queue m.tenant m.peer).credits = (s.dev.links.queue m.tenant m.peer).credits ∧
      (∀ tn p, (tn, p) ≠ (m.tenant, m.peer) → t.dev.links.queue tn p = s.dev.links.queue tn p) ∧ t.core = s.core ∧ t.mem = s.mem) := by
  have hp := State.placeMessage_unhooked (s := s.hear m.peer) (m := { m with seq := 0 }) hh m.peer
  have he : exec (.messageArrival m) s = .next ((s.hear m.peer).placeMessage { m with seq := 0 } m.peer) :=
    if_pos (by simp [ha, hl, ht, h1, h64, hb, hr])
  have hq := (s.hear m.peer).dev.queue_mapQueue (tn := m.tenant) (p := m.peer)
    (f := fun o => { o with msgs := o.msgs ++ [{ m with seq := 0 }] }) (fun _ => ⟨rfl, rfl⟩)
  have hsame := (hq m.tenant m.peer).trans (if_pos ⟨rfl, rfl⟩)
  refine ⟨_, he.trans (congrArg _ hp), congrArg LinkQueue.msgs hsame, (congrArg LinkQueue.credits hsame :), fun tn p hne => ?_, rfl, rfl⟩
  exact (hq tn p).trans (if_neg fun h => hne (by rw [h.1, h.2]))

theorem creditReturn_runs (tn p k : Nat) : Runs (.creditReturn tn p k) s (fun t =>
    (t.dev.links.queue tn p).credits = min 64 ((s.dev.links.queue tn p).credits + k) ∧
    (t.dev.links.queue tn p).msgs = (s.dev.links.queue tn p).msgs ∧ t.core = s.core ∧ t.mem = s.mem) := by
  have hq := ((s.hear p).dev.queue_mapQueue (tn := tn) (p := p)
    (f := fun q => { q with credits := min 64 (q.credits + k) }) (fun _ => ⟨rfl, rfl⟩) tn p).trans (if_pos ⟨rfl, rfl⟩)
  exact ⟨_, rfl, congrArg LinkQueue.credits hq, (congrArg LinkQueue.msgs hq :), rfl, rfl⟩

theorem silentFor_iff (dev : Nat) : s.silentFor dev = true ↔ s.dev.links.heardAt dev + 1050 * s.dev.set.lostto ≤ s.core.now ∧
    s.dev.links.losttoAt + 1050 * s.dev.set.lostto ≤ s.core.now := by
  rw [State.silentFor, decide_eq_true_iff]
  omega

theorem losttoExpiry_heard {dev : Nat} (h : s.silentFor dev = false) : exec (.losttoExpiry dev) s = .next s :=
  if_neg (by rw [h, Bool.and_false]; exact Bool.false_ne_true)

end

/-! ### Data frames -/

/-- The message that a single frame holds. -/
def frameMessage (f : Frame) : LinkMsg :=
  { tenant := f.tenant, peer := 256 + f.srcRoute, tag := f.tag, seq := f.seq, bytes := f.payload,
    poisoned := f.payload.map (fun _ => false) }

theorem msgEntries_frameMessage {f : Frame} (h : f.payload.length = 256 * f.entries) : msgEntries (frameMessage f) = f.entries := by
  rw [msgEntries, frameMessage, h]
  exact Nat.mul_div_cancel_left _ (by decide)

section
variable {s : State} {f : Frame}

theorem deaf_of_live {route : Nat} (h : s.dev.routeLive route = true) : s.dev.deaf route = false := by simp [Dev.deaf, h]

theorem deaf_of_down {route : Nat} (hr : route < 768) (h : s.dev.routeLive route = false) : s.dev.deaf route = true := by
  simp [Dev.deaf, h, hr]

theorem deaf_of_beyond {route : Nat} (hr : 768 ≤ route) : s.dev.deaf route = false := by simp [Dev.deaf, Nat.not_lt.2 hr]

theorem exec_dataFrame_deaf (h : s.dev.deaf f.srcRoute = true) : exec (.dataFrame f) s = .next s := if_pos h

theorem exec_dataFrame_bad (h : s.dev.deaf f.srcRoute = false) (hg : frameGood f.head 0 = false) :
    exec (.dataFrame f) s = .next (s.mapDev (fun d => d.countErr 5)) := by
  show execDataFrame f s = _
  simp only [execDataFrame, h, hg, Bool.false_eq_true, if_false, Bool.not_false, if_true]

theorem exec_dataFrame_unknown (hr : 768 ≤ f.srcRoute) (hg : frameGood f.head 0 = true) : exec (.dataFrame f) s = .next s := by
  show execDataFrame f s = _
  simp only [execDataFrame, deaf_of_beyond hr, hg, Bool.false_eq_true, if_false, Bool.not_true, hr, if_true]

section
variable (hr : f.srcRoute < 768) (hl : s.dev.routeLive f.srcRoute = true) (hg : frameGood f.head 0 = true)
include hr hl hg

theorem exec_dataFrame_again (hq : f.seq < (s.dev.links.routeState f.srcRoute).recvSeq) :
    exec (.dataFrame f) s = .next (s.acknowledge f.srcRoute f.seq) := by
  show execDataFrame f s = _
  simp only [execDataFrame, deaf_of_live hl, hg, Nat.not_le.2 hr, hq, Bool.false_eq_true, if_false, Bool.not_true, if_true]

/-- The first fragment that a route holds. -/
theorem exec_dataFrame_first (hq : ¬ f.seq < (s.dev.links.routeState f.srcRoute).recvSeq)
    (hf : (s.dev.links.routeState f.srcRoute).frags = []) :
    exec (.dataFrame f) s = .next (State.placeRoute f.srcRoute 1 (s.mapDev (fun d =>
      { d with links := d.links.setRoute { s.dev.links.routeState f.srcRoute with frags := [f] } }))) := by
  show execDataFrame f s = _
  simp only [execDataFrame, deaf_of_live hl, hg, Nat.not_le.2 hr, hq, hf, Bool.false_eq_true, if_false, Bool.not_true, List.any_nil,
    List.nil_append, List.length_singleton]

end

/-- What a route is once one fragment is held in it. -/
theorem routeState_held (r : RouteState) (hr : r.route = f.srcRoute) :
    (s.dev.links.setRoute r).routeState f.srcRoute = r := by
  rw [← hr]; exact Links.routeState_setRoute _ r

theorem RouteState.whole_later {r : RouteState} (h : r.recvSeq < f.seq) : ({ r with frags := [f] } : RouteState).whole = none := by
  have hne : (f.seq == r.recvSeq) = false := beq_false_of_ne (Nat.ne_of_gt h)
  simp only [RouteState.whole, List.filter_cons, hne, Bool.false_eq_true, if_false, List.filter_nil]

theorem RouteState.whole_single {r : RouteState} (hr : r.route = f.srcRoute) (h : r.recvSeq = f.seq) (hn : f.nfrag = 1) (h0 : f.frag = 0)
    (hlen : f.payload.length = 256 * f.entries) : ({ r with frags := [f] } : RouteState).whole = some (frameMessage f) := by
  simp [RouteState.whole, h, hn, h0, hlen, hr, frameMessage]

theorem State.acknowledge_live {s : State} {route : Nat} (h : s.dev.routeLive route = true) (seq : Nat) :
    s.acknowledge route seq = s.mapDev (fun d => { d with links := { d.links with
      acksOut := d.links.acksOut ++ [(etherOf (s.dev.routeEntry route), ridxOf (s.dev.routeEntry route), seq)] } }) := if_pos h

/-- The route once its next message has been placed. -/
def RouteState.next (r : RouteState) : RouteState := { r with recvSeq := r.recvSeq + 1, frags := r.frags.filter (fun f => f.seq != r.recvSeq) }

/-- A whole message for which there is room takes its place, and is acknowledged. -/
theorem State.placeRoute_one {s : State} {route : Nat} {m : LinkMsg} (hw : (s.dev.links.routeState route).whole = some m)
    (hr : s.hasRoom m.tenant (256 + route) (msgEntries m) = true) :
    State.placeRoute route 1 s = ((s.placeMessage m (Config.foreignIndex route)).mapDev (fun d =>
      { d with links := d.links.setRoute (s.dev.links.routeState route).next })).acknowledge route (s.dev.links.routeState route).recvSeq := by
  simp only [State.placeRoute, hw, hr, if_true]
  rfl

/-- What the placing of a route's next message changes. -/
theorem State.placeRoute_places {s : State} {route : Nat} {m : LinkMsg} (hw : (s.dev.links.routeState route).whole = some m)
    (hr : s.hasRoom m.tenant (256 + route) (msgEntries m) = true) (hp : m.peer = 256 + route) (hh : s.dev.hook m.tenant m.tag = none)
    (hl : s.dev.routeLive route = true) :
    let t := State.placeRoute route 1 s
    (t.dev.links.queue m.tenant (256 + route)).msgs = (s.dev.links.queue m.tenant (256 + route)).msgs ++ [m] ∧
      t.dev.links.routeState route = (s.dev.links.routeState route).next ∧
      t.dev.links.acksOut = s.dev.links.acksOut ++
        [(etherOf (s.dev.routeEntry route), ridxOf (s.dev.routeEntry route), (s.dev.links.routeState route).recvSeq)] ∧
      t.core = s.core ∧ t.mem = s.mem := by
  have hstep := State.placeRoute_one hw hr
  rw [State.placeMessage_unhooked hh] at hstep
  replace hstep := hstep.trans (State.acknowledge_live (by exact hl) _)
  have hqueue := s.dev.queue_mapQueue (tn := m.tenant) (p := m.peer) (f := fun o => { o with msgs := o.msgs ++ [m] })
    (fun _ => ⟨rfl, rfl⟩) m.tenant (256 + route)
  rw [if_pos ⟨rfl, hp⟩] at hqueue
  have hroute := Links.routeState_setRoute (s.dev.mapQueue m.tenant m.peer (fun o => { o with msgs := o.msgs ++ [m] })).links
    (s.dev.links.routeState route).next
  rw [show (s.dev.links.routeState route).next.route = route from Links.routeState_route _ _] at hroute
  intro t
  refine ⟨?_, ?_, by rw [show t = _ from hstep]; rfl, by rw [show t = _ from hstep]; rfl, by rw [show t = _ from hstep]; rfl⟩
  · have ht : t.dev.links.queues = (s.dev.mapQueue m.tenant m.peer (fun o => { o with msgs := o.msgs ++ [m] })).links.queues := by
      rw [show t = _ from hstep]; rfl
    rw [Links.queue_congr ht, hqueue, hp]
  · have ht : t.dev.links.routes = ((s.dev.mapQueue m.tenant m.peer (fun o => { o with msgs := o.msgs ++ [m] })).links.setRoute
        (s.dev.links.routeState route).next).routes := by
      rw [show t = _ from hstep]; rfl
    rw [Links.routeState_congr ht, hroute]

theorem dataFrame_held (hr : f.srcRoute < 768) (hl : s.dev.routeLive f.srcRoute = true) (hg : frameGood f.head 0 = true)
    (hq : (s.dev.links.routeState f.srcRoute).recvSeq < f.seq) (hf : (s.dev.links.routeState f.srcRoute).frags = []) :
    Runs (.dataFrame f) s (fun t => (t.dev.links.routeState f.srcRoute).frags = [f] ∧
      (t.dev.links.routeState f.srcRoute).recvSeq = (s.dev.links.routeState f.srcRoute).recvSeq ∧
      t.dev.links.acksOut = s.dev.links.acksOut ∧ t.core = s.core ∧ t.mem = s.mem) := by
  have hroute := routeState_held (s := s) { s.dev.links.routeState f.srcRoute with frags := [f] } (Links.routeState_route _ _)
  have hplace : State.placeRoute f.srcRoute 1 (s.mapDev (fun d =>
      { d with links := d.links.setRoute { s.dev.links.routeState f.srcRoute with frags := [f] } })) = s.mapDev (fun d =>
      { d with links := d.links.setRoute { s.dev.links.routeState f.srcRoute with frags := [f] } }) := by
    simp only [State.placeRoute, State.mapDev_dev, hroute, RouteState.whole_later hq]
  refine ⟨_, (exec_dataFrame_first hr hl hg (Nat.lt_asymm hq) hf).trans (congrArg _ hplace), ?_, ?_, rfl, rfl, rfl⟩
  · exact congrArg RouteState.frags hroute
  · exact (congrArg RouteState.recvSeq hroute :)

theorem dataFrame_placed (hr : f.srcRoute < 768) (hl : s.dev.routeLive f.srcRoute = true) (hg : frameGood f.head 0 = true)
    (hq : (s.dev.links.routeState f.srcRoute).recvSeq = f.seq) (hf : (s.dev.links.routeState f.srcRoute).frags = [])
    (hn : f.nfrag = 1) (h0 : f.frag = 0) (hlen : f.payload.length = 256 * f.entries)
    (hroom : s.hasRoom f.tenant (256 + f.srcRoute) f.entries = true) (hh : s.dev.hook f.tenant f.tag = none) :
    Runs (.dataFrame f) s (fun t => (t.dev.links.queue f.tenant (256 + f.srcRoute)).msgs =
        (s.dev.links.queue f.tenant (256 + f.srcRoute)).msgs ++ [frameMessage f] ∧
      (t.dev.links.routeState f.srcRoute).recvSeq = (s.dev.links.routeState f.srcRoute).recvSeq + 1 ∧
      (t.dev.links.routeState f.srcRoute).frags = [] ∧
      t.dev.links.acksOut = s.dev.links.acksOut ++
        [(etherOf (s.dev.routeEntry f.srcRoute), ridxOf (s.dev.routeEntry f.srcRoute), f.seq)] ∧
      t.core = s.core ∧ t.mem = s.mem) := by
  generalize hrs : s.dev.links.routeState f.srcRoute = r at *
  have hrr : r.route = f.srcRoute := hrs ▸ Links.routeState_route _ _
  have hfirst := exec_dataFrame_first hr hl hg (by rw [hrs, hq]; exact Nat.lt_irrefl _) (by rw [hrs]; exact hf)
  rw [hrs] at hfirst
  have hheld := routeState_held (s := s) { r with frags := [f] } hrr
  generalize hu : s.mapDev (fun d => { d with links := d.links.setRoute { r with frags := [f] } }) = u at hfirst
  have hur : u.dev.links.routeState f.srcRoute = { r with frags := [f] } := hu ▸ hheld
  have hroom' : u.hasRoom (frameMessage f).tenant (256 + f.srcRoute) (msgEntries (frameMessage f)) = true := by
    rw [msgEntries_frameMessage hlen, ← hu]; exact hroom
  obtain ⟨hmsgs, hroute, hacks, hcore, hmem⟩ := State.placeRoute_places
    ((congrArg RouteState.whole hur).trans (RouteState.whole_single hrr hq hn h0 hlen)) hroom' rfl (hu ▸ hh) (hu ▸ hl)
  rw [hur] at hroute hacks
  refine ⟨_, hfirst, hmsgs.trans (by rw [← hu]; rfl), congrArg RouteState.recvSeq hroute, (congrArg RouteState.frags hroute).trans ?_,
    hacks.trans (by rw [← hu, ← hq]; rfl), hcore.trans (by rw [← hu]; rfl), hmem.trans (by rw [← hu]; rfl)⟩
  simp [RouteState.next, hq]

end

/-! ### Acknowledgements and retransmission (R399) -/

section
variable {s : State}

/-- A SEND that ends is awaited no more, and its command has the token. -/
theorem State.endUnacked_ends (s : State) (u : Unacked) (v : X64) :
    (∀ o ∈ (s.endUnacked u v).dev.links.unacked, o.id ≠ u.id) ∧ (s.endUnacked u v).core.regs = s.core.regs ∧
      (s.endUnacked u v).mem = s.mem ∧
      ∀ e ∈ (s.endUnacked u v).core.engs, e.id = u.id → e.done = some v :=
  ⟨fun _ ho => bne_iff_ne.1 (List.mem_filter.1 ho).2, rfl, rfl, State.collToken_done _ _ _⟩

theorem exec_ackFrame_deaf {h : FrameHead} {route seq : Nat} (hd : s.dev.deaf route = true) : exec (.ackFrame h route seq) s = .next s :=
  if_pos hd

theorem exec_ackFrame_bad {h : FrameHead} {route seq : Nat} (hl : s.dev.routeLive route = true) (hg : frameGood h 1 = false) :
    exec (.ackFrame h route seq) s = .next (s.mapDev (fun d => d.countErr 5)) := by
  show execAckFrame h route seq s = _
  simp only [execAckFrame, deaf_of_live hl, hg, Bool.false_eq_true, if_false, Bool.not_false, if_true]

theorem exec_ackFrame_ends {h : FrameHead} {route seq : Nat} {u : Unacked} (hl : s.dev.routeLive route = true) (hg : frameGood h 1 = true)
    (hu : s.dev.links.unacked.find? (fun u => u.route == route && u.seq == seq) = some u) :
    exec (.ackFrame h route seq) s = .next (s.endUnacked u (token 0 (256 * ((s.sendOf u.id).map (·.2.2)).getD 0))) := by
  show execAckFrame h route seq s = _
  simp only [execAckFrame, deaf_of_live hl, hg, hu, Bool.false_eq_true, if_false, Bool.not_true]

theorem exec_retransmitTimeout_none {tn rt : Nat} (h : s.unansweredOn tn rt = none) : exec (.retransmitTimeout tn rt) s = .next s := by
  show execRetransmitTimeout tn rt s = _
  rw [execRetransmitTimeout, h]

theorem State.unansweredOn_some {tn rt : Nat} {u : Unacked} (h : s.unansweredOn tn rt = some u) :
    u ∈ s.dev.links.unacked ∧ u.tenant = tn ∧ u.route = rt ∧ u.since + 1050 * (u.entry.2 % 2 ^ 24) ≤ s.core.now := by
  have hp := List.find?_some h
  simp only [Unacked.overdue, bitsAt, Bool.and_eq_true, beq_iff_eq, decide_eq_true_eq, pow_zero, Nat.div_one] at hp
  obtain ⟨⟨ht, hr⟩, ho⟩ := hp
  exact ⟨List.mem_of_find?_eq_some h, ht, hr, ho⟩

theorem exec_retransmitTimeout_ends {tn rt : Nat} {u : Unacked} (h : s.unansweredOn tn rt = some u) (ht : 8 ≤ u.tries) :
    exec (.retransmitTimeout tn rt) s = .next (s.endUnacked u (token 7 0)) := by
  show execRetransmitTimeout tn rt s = _
  simp only [execRetransmitTimeout, h, ht, if_true]

/-- The state in which a message goes out again: its bytes are charged, one try more is noted, and its time starts anew. -/
def State.retried (s : State) (u : Unacked) (q : Nat × Nat × Nat) : State :=
  (s.chargeEngine u.id (256 * q.2.2) 1).mapDev (fun d => { d with links := { d.links with
    unacked := d.links.unacked.map (fun o => if o.id == u.id then { o with tries := o.tries + 1, since := s.core.now } else o) } })

theorem exec_retransmitTimeout_resends {tn rt : Nat} {u : Unacked} {q : Nat × Nat × Nat} (h : s.unansweredOn tn rt = some u) (ht : u.tries < 8)
    (hq : s.sendOf u.id = some q) :
    exec (.retransmitTimeout tn rt) s = .next ((s.retried u q).sendFrames u.tenant u.entry u.seq q.1 q.2.1 q.2.2) := by
  show execRetransmitTimeout tn rt s = _
  simp only [execRetransmitTimeout, h, Nat.not_le.2 ht, if_false, hq]
  rfl

theorem State.chargeEngine_dev (s : State) (id bytes hops : Nat) : (s.chargeEngine id bytes hops).dev = s.dev := by
  unfold State.chargeEngine State.charge
  split
  · split <;> rfl
  · rfl

/-- The frames that go out by a live port. -/
theorem State.sendFrames_live {e : Nat × Nat} (h : s.dev.links.carries (etherOf e).iface = true) (tenant seq tag src k : Nat) :
    (s.sendFrames tenant e seq tag src k).dev.links.framesOut = s.dev.links.framesOut ++
      (framesOf tenant (ridxOf e) seq tag (s.messageBytes src (256 * k)).1).map (fun f => (etherOf e, f)) := by
  rw [State.sendFrames, if_pos h]
  rfl

theorem State.retried_frames {u : Unacked} (q : Nat × Nat × Nat) (h : s.dev.links.carries (etherOf u.entry).iface = true) :
    ((s.retried u q).sendFrames u.tenant u.entry u.seq q.1 q.2.1 q.2.2).dev.links.framesOut = s.dev.links.framesOut ++
      (framesOf u.tenant (ridxOf u.entry) u.seq q.1 ((s.retried u q).messageBytes q.2.1 (256 * q.2.2)).1).map (fun f => (etherOf u.entry, f)) := by
  have hd : (s.retried u q).dev.links.framesOut = s.dev.links.framesOut :=
    (congrArg (fun d : Dev => d.links.framesOut) (s.chargeEngine_dev u.id (256 * q.2.2) 1) :)
  have hc : (s.retried u q).dev.links.carries (etherOf u.entry).iface = s.dev.links.carries (etherOf u.entry).iface :=
    (congrArg (fun d : Dev => d.links.carries (etherOf u.entry).iface) (s.chargeEngine_dev u.id (256 * q.2.2) 1) :)
  rw [State.sendFrames_live (hc.trans h), hd]

end

/-- Settles O54: each event of the links, by what it finds. -/
theorem linkEvents : Obligations.LinkEvents := by
  unfold Obligations.LinkEvents
  refine ⟨fun s => ⟨fun port origin hp ho => ⟨flitReceive_runs s hp ho, ?_⟩, fun _ => rfl, fun port hp hd => portDown_runs s hp hd, ?_,
    fun m ha hl ht h1 h64 hb hr hh => messageArrival_runs s ha hl ht h1 h64 hb hr hh, creditReturn_runs s⟩, fun f s => ?_⟩
  · exact ⟨_, flitReceive_bad s hp ho, rfl, rfl, rfl, s.dev.countErr_count (by decide)⟩
  · rintro e dev (⟨rfl, hs⟩ | rfl) hl hr htok
    · exact loseDevice_runs (if_pos (by rw [hl, hs]; rfl)) hr htok
    · exact loseDevice_runs (if_pos hl) hr htok
  · intro route r at' msg
    refine ⟨silentFor_iff s, fun dev h => losttoExpiry_heard s h, fun hr hl => ⟨exec_dataFrame_deaf (deaf_of_down hr hl),
      exec_ackFrame_deaf (deaf_of_down hr hl)⟩, fun hr => ?_, fun h hg => exec_dataFrame_bad (deaf_of_live h.2) hg,
      fun h hg => exec_ackFrame_bad h.2 hg, fun h hg hq => exec_dataFrame_again h.1 h.2 hg hq,
      fun h hg hq hf => dataFrame_held h.1 h.2 hg hq hf,
      fun h hg hq hf hn h0 hlen hroom hh => dataFrame_placed h.1 h.2 hg hq hf hn h0 hlen hroom hh,
      fun u h hg hu => ⟨_, exec_ackFrame_ends h.2 hg hu, s.endUnacked_ends u _⟩, fun tn rt h => exec_retransmitTimeout_none h,
      fun tn rt u h => State.unansweredOn_some h, fun tn rt u h ht => ?_,
      fun tn rt u q h ht hq => ⟨exec_retransmitTimeout_resends h ht hq, State.retried_frames q⟩⟩
    · by_cases hg : frameGood f.head 0 = true
      · rw [if_pos hg]
        exact exec_dataFrame_unknown hr hg
      · rw [if_neg hg]
        exact exec_dataFrame_bad (deaf_of_beyond hr) (Bool.eq_false_iff.2 hg)
    · obtain ⟨hu, -, hm, he⟩ := s.endUnacked_ends u (token 7 0)
      exact ⟨_, exec_retransmitTimeout_ends h ht, hu, hm, he⟩

end Sys2Proof.Machine
end

section
/-! Collective rounds: messages, slots, decisions, beats and ends (R406 to R409, R417 to R420). -/
open Sys2Proof Sys2Proof.Machine Sys2Proof.Claims

namespace Sys2Proof.Machine

/-! ### COLL and its messages -/

theorem exec_coll {f : EA} {s : State} (hc : chkColl f s = .ok) (hr : s.cmds Cmd.isCopy < 16) :
    let r := (s.collRecord (s.rdX f.a)).2
    exec (.coll f) s = .next ((s.chargeParts s.strandIdx r.home).gateCmd (s.px f.d)
      (.coll r (s.partsOf (s.stretch (s.rdX f.b).toNat r.bytes)) (s.partsOf (s.stretch (s.rdX f.c).toNat r.bytes)))) := by
  have hroom : s.readyRoom Cmd.isCopy 16 = .go := if_pos hr
  show execColl f s = _
  rw [execColl, hc, hroom, issueOp_go]

section
variable {m : CollMsg} {s : State}

theorem exec_collMessage_aborted (h : s.dev.aborted.contains (m.tenant, m.key, m.round) = true) : exec (.collMessage m) s = .next s :=
  if_pos h

variable (h : s.dev.aborted.contains (m.tenant, m.key, m.round) = false)
include h

theorem exec_collMessage_early (hr : s.dev.roundOf m.tenant m.key m.round = none) :
    exec (.collMessage m) s = .next (s.mapDev (fun d => { d with early := d.early ++ [m] })) := by
  show execCollMessage m s = _
  simp only [execCollMessage, h, hr, Bool.false_eq_true, if_false]

variable {r : Round} (hr : s.dev.roundOf m.tenant m.key m.round = some r)
include hr

theorem exec_collMessage_differs (hd : m.digest ≠ r.record.digest) : exec (.collMessage m) s = .next (s.abortRound r 11) := by
  show execCollMessage m s = _
  simp only [execCollMessage, h, hr, Bool.false_eq_true, if_false, bne_iff_ne.2 hd, if_true]

theorem exec_collMessage_elsewhere (hd : m.digest = r.record.digest) (ht : m.toRank ≠ r.record.rank) : exec (.collMessage m) s = .next s := by
  show execCollMessage m s = _
  simp only [execCollMessage, h, hr, hd, bne_self_eq_false, Bool.false_eq_true, if_false, bne_iff_ne.2 ht, if_true]

theorem exec_collMessage_agrees (hd : m.digest = r.record.digest) (ht : m.toRank = r.record.rank) (ha : r.agrees m = true) :
    exec (.collMessage m) s = .next (State.settleRound (s.pumpRound { r with early := r.early ++ [m] })) := by
  show execCollMessage m s = _
  simp only [execCollMessage, h, hr, hd, ht, ha, bne_self_eq_false, Bool.false_eq_true, if_false, if_true]

theorem exec_collMessage_disagrees (hd : m.digest = r.record.digest) (ht : m.toRank = r.record.rank) (ha : r.agrees m = false) :
    exec (.collMessage m) s = .next (s.abortRound r 11) := by
  show execCollMessage m s = _
  simp only [execCollMessage, h, hr, hd, ht, ha, bne_self_eq_false, Bool.false_eq_true, if_false]

end

/-! ### Slots (R417) -/

section
variable (s : State) (q : SlotReq)

theorem State.answerRequest_frame (own : Option Round) (yes : Bool) :
    let t := s.answerRequest q own yes
    t.dev.claims = s.dev.claims ∧ t.core = s.core ∧ t.mem = s.mem := by
  cases own <;> exact ⟨rfl, rfl, rfl⟩

variable {s q} (hq : q.release = false)
include hq

theorem slotRequest_grants {i : Nat} (hi : i < 64) (h0 : vget s.dev.slots i none = none)
    (hbelow : ∀ j, j < i → vget s.dev.slots j none ≠ none) (hm : s.mayEnter (homeField s.dev.ident.index 0 0 0) = true) :
    Runs (.slotRequest q []) s (fun t => ∃ c : Claim, t.dev.claims = s.dev.claims ++ [c] ∧ c.ty = .lease ∧ c.owner = q.tenant ∧
      c.state = .live ∧ vget t.dev.slots i none = some (q.tenant, c.name) ∧
      (∀ j, j ≠ i → vget t.dev.slots j none = vget s.dev.slots j none) ∧ t.core = s.core ∧ t.mem = s.mem) := by
  have hfind : (List.range 64).find? (fun i => (vget s.dev.slots i none).isNone) = some i :=
    List.find?_range_eq_some.2 ⟨by rw [h0]; rfl, List.mem_range.2 hi, fun j hj => by
      rw [Bool.not_eq_true', Option.isNone_eq_false_iff, Option.isSome_iff_ne_none]
      exact hbelow j hj⟩
  refine ⟨s.allocate q, rfl, ?_⟩
  simp only [State.allocate, hq, hfind, hm, Bool.not_true, Bool.false_eq_true, if_false, State.answerRequest_slots]
  have hframe := fun (u : State) => u.answerRequest_frame q (s.dev.requesting q) true
  exact ⟨_, (hframe _).1, rfl, rfl, rfl, vget_vset_same _ _ _ _ hi, fun j hj => vget_vset_other _ _ _ _ _ hj, (hframe _).2.1, (hframe _).2.2⟩

theorem slotRequest_refused (h : ∀ i, i < 64 → vget s.dev.slots i none ≠ none) :
    Runs (.slotRequest q []) s (fun t => t.dev.claims = s.dev.claims ∧ t.dev.slots = s.dev.slots ∧ t.core = s.core ∧ t.mem = s.mem) := by
  have hfind : (List.range 64).find? (fun i => (vget s.dev.slots i none).isNone) = none :=
    List.find?_eq_none.2 fun i hi => by simpa using h i (List.mem_range.1 hi)
  refine ⟨s.allocate q, rfl, ?_⟩
  simp only [State.allocate, hq, hfind, Bool.false_eq_true, if_false, State.answerRequest_slots]
  obtain ⟨hc, hcore, hmem⟩ := s.answerRequest_frame q (s.dev.requesting q) false
  exact ⟨hc, trivial, hcore, hmem⟩

end

/-! ### Decisions (R418, R450) -/

section
variable {s : State} {m : DecisionMsg} {came : List (Nat × Bool)}

/-- The round that waits on this device, as its root, for the answers to its requests. -/
def Dev.decidingRoot (d : Dev) (m : DecisionMsg) : Option Round :=
  d.rounds.find? (fun r => r.tenant == m.tenant && r.record.key == m.key && r.record.rank == 0 && r.stage == .deciding)

section
variable {r : Round} {answers : List (Nat × Bool)}

theorem State.decisionOf_waits (h : ∃ w ∈ r.record.tree r.net, ∀ a ∈ answers, a.1 ≠ w) : s.decisionOf r answers = none := by
  obtain ⟨w, hw, hn⟩ := h
  have hany : answers.any (fun a => a.1 == w) = false := List.any_eq_false.2 fun a ha => by simpa using hn a ha
  have hall : (r.record.tree r.net).all (fun w => answers.any (fun a => a.1 == w)) = false :=
    List.all_eq_false.2 ⟨w, hw, by rw [hany]; exact Bool.false_ne_true⟩
  exact if_pos (by rw [hall]; rfl)

section
variable (h : ∀ w ∈ r.record.tree r.net, ∃ a ∈ answers, a.1 = w)
include h

theorem State.decisionOf_answered : s.decisionOf r answers = if !s.kernelOk r then some .gone else if answers.all (·.2) then some .slots
    else some (if r.record.alg = 1 then .walk else .noslot) := by
  have hall : (r.record.tree r.net).all (fun w => answers.any (fun a => a.1 == w)) = true := List.all_eq_true.2 fun w hw => by
    obtain ⟨a, ha, rfl⟩ := h w hw
    exact List.any_eq_true.2 ⟨a, ha, beq_self_eq_true a.1⟩
  exact if_neg (by rw [hall]; exact Bool.false_ne_true)

theorem State.decisionOf_gone (hk : s.kernelOk r = false) : s.decisionOf r answers = some .gone := by
  rw [State.decisionOf_answered h, hk]; rfl

theorem State.decisionOf_slots (hk : s.kernelOk r = true) (ha : ∀ a ∈ answers, a.2 = true) : s.decisionOf r answers = some .slots := by
  rw [State.decisionOf_answered h, hk, List.all_eq_true.2 ha]; rfl

theorem State.decisionOf_refused (hk : s.kernelOk r = true) (ha : ∃ a ∈ answers, a.2 = false) :
    s.decisionOf r answers = some (if r.record.alg = 1 then .walk else .noslot) := by
  have hall : answers.all (·.2) = false := List.all_eq_false.2 (by simpa using ha)
  rw [State.decisionOf_answered h, hk, hall]; rfl

end

end

section
variable {r : Round} (hr : s.dev.decidingRoot m = some r)
include hr

theorem exec_algorithmDecision_waits (h : s.decisionOf r (r.answers ++ came.filter (fun a => a.1 != s.dev.ident.index)) = none) :
    exec (.algorithmDecision m came) s = .next s := by
  rw [Dev.decidingRoot] at hr
  show execAlgorithmDecision m came s = _
  simp only [execAlgorithmDecision, hr, h]

theorem exec_algorithmDecision_decides {d : Decision}
    (h : s.decisionOf r (r.answers ++ came.filter (fun a => a.1 != s.dev.ident.index)) = some d) :
    exec (.algorithmDecision m came) s = .next (((((if d = .slots then s else s.giveBack r (r.answers ++ came.filter (fun a =>
      a.1 != s.dev.ident.index))).learnKernel r).chooseAlg r d).takeDecision
        { r with answers := r.answers ++ came.filter (fun a => a.1 != s.dev.ident.index) } d)) := by
  rw [Dev.decidingRoot] at hr
  show execAlgorithmDecision m came s = _
  simp only [execAlgorithmDecision, hr, h]

end

section
variable (hr : s.dev.decidingRoot m = none)
include hr

theorem exec_algorithmDecision_early (h : s.dev.roundOf m.tenant m.key m.round = none) :
    exec (.algorithmDecision m came) s = .next (s.mapDev (fun d => { d with earlyDecisions := d.earlyDecisions ++ [m] })) := by
  rw [Dev.decidingRoot] at hr
  show execAlgorithmDecision m came s = _
  simp only [execAlgorithmDecision, hr, h]

theorem exec_algorithmDecision_heeds {r : Round} (h : s.dev.roundOf m.tenant m.key m.round = some r) (hk : r.record.rank ≠ 0) :
    exec (.algorithmDecision m came) s = .next (s.heedDecision r m) := by
  rw [Dev.decidingRoot] at hr
  show execAlgorithmDecision m came s = _
  simp only [execAlgorithmDecision, hr, h, hk, if_false]

end

theorem State.heedDecision_differs {r : Round} (h : m.digest ≠ r.record.digest) : s.heedDecision r m = s.abortRound r 11 :=
  if_pos (bne_iff_ne.2 h)

theorem State.heedDecision_takes {r : Round} (h : m.digest = r.record.digest) (hs : r.stage = .deciding)
    (hd : m.decision = .slots ∨ m.decision = .gone ∨ m.decision = .walk ∧ r.record.alg = 1 ∨ m.decision = .noslot ∧ r.record.alg = 2) :
    s.heedDecision r m = s.takeDecision r m.decision := by
  rcases hd with hd | hd | ⟨hd, ha⟩ | ⟨hd, ha⟩
  · simp [State.heedDecision, h, hs, hd]
  · simp [State.heedDecision, h, hs, hd]
  · simp [State.heedDecision, h, hs, hd, ha]
  · simp [State.heedDecision, h, hs, hd, ha]

end

/-! ### Beats (R419) -/

section
variable {b : Beat} {s : State} (ha : s.dev.aborted.contains (b.tenant, b.key, b.round) = false)
include ha

theorem exec_slotBeat_relays {g : Grant} (hg : s.dev.relaying b = some g) :
    exec (.slotBeat b.tenant b.key b.round b.digest b.toBeatIn) s = .next (s.relayBeat g b) := by
  show execSlotBeat b.tenant b.key b.round b.digest b.toBeatIn s = _
  simp only [execSlotBeat, ha, hg, Bool.false_eq_true, if_false]

variable (hg : s.dev.relaying b = none)
include hg

theorem exec_slotBeat_early (hr : s.dev.roundOf b.tenant b.key b.round = none) :
    exec (.slotBeat b.tenant b.key b.round b.digest b.toBeatIn) s = .next (s.mapDev (fun d => { d with earlyBeats := d.earlyBeats ++ [b] })) := by
  show execSlotBeat b.tenant b.key b.round b.digest b.toBeatIn s = _
  simp only [execSlotBeat, ha, hg, hr, Bool.false_eq_true, if_false]

theorem exec_slotBeat_differs {r : Round} (hr : s.dev.roundOf b.tenant b.key b.round = some r) (hd : b.digest ≠ r.record.digest) :
    exec (.slotBeat b.tenant b.key b.round b.digest b.toBeatIn) s = .next (s.abortRound r 11) := by
  show execSlotBeat b.tenant b.key b.round b.digest b.toBeatIn s = _
  simp only [execSlotBeat, ha, hg, hr, Bool.false_eq_true, if_false, bne_iff_ne.2 hd, if_true]

theorem exec_slotBeat_goes_on {r : Round} (hr : s.dev.roundOf b.tenant b.key b.round = some r) (hd : b.digest = r.record.digest) :
    exec (.slotBeat b.tenant b.key b.round b.digest b.toBeatIn) s =
      .next ((s.mapDev (fun d => { d with earlyBeats := d.earlyBeats ++ [b] })).runSlots r) := by
  show execSlotBeat b.tenant b.key b.round b.digest b.toBeatIn s = _
  have hne : (b.digest != r.record.digest) = false := bne_eq_false_iff_eq.2 hd
  simp only [execSlotBeat, ha, hg, hr, Bool.false_eq_true, if_false, hne]

end

/-! ### Ends (R420) -/

/-- What the end of a round leaves: the core's registers, and the device's lists of the aborted rounds. -/
def State.KeepsAborts (s t : State) : Prop :=
  t.core.regs = s.core.regs ∧ t.dev.aborted = s.dev.aborted ∧ t.dev.abortsOut = s.dev.abortsOut

theorem State.KeepsAborts.refl (s : State) : s.KeepsAborts s := ⟨rfl, rfl, rfl⟩

theorem State.KeepsAborts.trans {s t u : State} (h : s.KeepsAborts t) (k : t.KeepsAborts u) : s.KeepsAborts u :=
  ⟨k.1.trans h.1, k.2.1.trans h.2.1, k.2.2.trans h.2.2⟩

theorem State.StoresTo.keepsAborts {s t : State} (h : s.StoresTo t) : s.KeepsAborts t :=
  ⟨(congrArg Core.regs h.core :), (congrArg Dev.aborted h.dev :), (congrArg Dev.abortsOut h.dev :)⟩

theorem Dev.foldl_freeLease_aborts (l : List ClaimName) (d : Dev) :
    (l.foldl Dev.freeLease d).aborted = d.aborted ∧ (l.foldl Dev.freeLease d).abortsOut = d.abortsOut := by
  induction l generalizing d with
  | nil => exact ⟨rfl, rfl⟩
  | cons nm l ih => exact ih (d.freeLease nm)

theorem State.freeLeases_keepsAborts (s : State) (nm : ClaimName) : s.KeepsAborts (s.freeLeases nm) :=
  ⟨rfl, (Dev.foldl_freeLease_aborts _ _).1, (Dev.foldl_freeLease_aborts _ _).2⟩

theorem State.giveUp_keepsAborts (s : State) (r : Round) : s.KeepsAborts (s.giveUp r) := by
  unfold State.giveUp
  split
  · exact ⟨rfl, (Dev.foldl_freeLease_aborts _ _).1, (Dev.foldl_freeLease_aborts _ _).2⟩
  · exact .refl s

theorem State.freeAmong_keepsAborts (s : State) (addrs : List Nat) (past : List (List (Byte × Bool))) : s.KeepsAborts (s.freeAmong addrs past) := by
  unfold State.freeAmong
  split
  · exact .refl s
  · exact (State.storeAt_stores _ _ _).keepsAborts.trans ⟨rfl, rfl, rfl⟩

theorem State.chargeHomes_keepsAborts (s : State) (id : Nat) (addrs : List Nat) : s.KeepsAborts (s.chargeHomes id addrs) := by
  refine ⟨?_, congrArg Dev.aborted (s.chargeHomes_dev id addrs), congrArg Dev.abortsOut (s.chargeHomes_dev id addrs)⟩
  unfold State.chargeHomes
  split
  · next e _ =>
    obtain ⟨m, h⟩ := s.chargeBytes_meter e.strand (addrs.map (fun a => (a, 1)))
    rw [h]; rfl
  · rfl

theorem State.writeBackRecord_keepsAborts (s : State) (r : Round) (status : Nat) (leased : Bool) :
    s.KeepsAborts (s.writeBackRecord r status leased) :=
  (s.chargeHomes_keepsAborts _ _).trans (State.storeAt_stores _ _ _).keepsAborts

theorem State.collToken_keepsAborts (s : State) (id : Nat) (v : X64) : s.KeepsAborts (s.collToken id v) := ⟨rfl, rfl, rfl⟩

theorem State.keepsAborts_ite {c : Prop} [Decidable c] {s t u : State} (ht : s.KeepsAborts t) (hu : s.KeepsAborts u) :
    s.KeepsAborts (if c then t else u) := by
  split
  · exact ht
  · exact hu

/-- A round in flight that fails with TIMEOUT or ABORT is one whose later messages are discarded (R420). -/
theorem State.failRound_frame (s : State) {r : Round} (hr : r.stage ≠ .queued) {status : Nat} (hst : status = 7 ∨ status = 11) :
    (s.failRound r status).core.regs = s.core.regs ∧
      (s.failRound r status).dev.aborted = (r.tenant, r.record.key, r.q) :: s.dev.aborted ∧
      (s.failRound r status).dev.abortsOut = s.dev.abortsOut := by
  have hmoved : (status == 7 || status == 11) = true := by rcases hst with rfl | rfl <;> rfl
  have hab : (true && r.stage != .queued) = true := by rw [Bool.true_and]; exact bne_iff_ne.2 hr
  generalize hu : s.mapDev (fun d => Dev.endEarly { d with
    rounds := d.rounds.filter (fun o => o.id != r.id), aborted := (r.tenant, r.record.key, r.q) :: d.aborted } r) = u
  have hk : u.KeepsAborts (s.failRound r status) := by
    rw [State.failRound]
    simp only [hmoved, hab, if_true, if_neg hr, hu]
    refine .trans ?_ (State.collToken_keepsAborts _ _ _)
    refine .trans ?_ (State.writeBackRecord_keepsAborts _ _ _ _)
    have hfree := ((u.freeAmong_keepsAborts (s.rangeAddrs r.dst) r.past).trans (State.freeAmong_keepsAborts _
      (scratchAddrs r.record.work (4 * r.record.blocks)) r.pastWork)).trans (State.giveUp_keepsAborts _ r)
    exact State.keepsAborts_ite (hfree.trans (State.freeLeases_keepsAborts _ _)) hfree
  obtain ⟨hregs, haborted, hout⟩ := hk
  subst hu
  exact ⟨hregs, haborted, hout⟩

theorem State.failRound_ends (s : State) (r : Round) (status : Nat) :
    (∀ o ∈ (s.failRound r status).dev.rounds, o.id ≠ r.id) ∧
      ∀ e ∈ (s.failRound r status).core.engs, e.id = r.id → e.done = some (token status 0) := by
  obtain ⟨u, hu, hr⟩ := s.failRound_token r status
  rw [hu]
  refine ⟨fun o ho => ?_, u.collToken_done _ _⟩
  have ho' : o ∈ s.dev.rounds.filter (fun o => o.id != r.id) := hr ▸ ho
  exact bne_iff_ne.1 (List.mem_filter.1 ho').2

theorem Dev.roundOf_some {d : Dev} {tenant : Nat} {key : X64} {q : Nat} {r : Round} (h : d.roundOf tenant key q = some r) :
    r.stage ≠ .queued ∧ r.tenant = tenant ∧ r.record.key = key ∧ r.q = q := by
  have hp := List.find?_some h
  simpa only [Bool.and_eq_true, bne_iff_ne, beq_iff_eq, and_assoc] using hp

section
variable {tenant : Nat} {key : X64} {q st : Nat} {r : Round} {s : State}

theorem abortNotice_ends (hr : s.dev.roundOf tenant key q = some r) (hst : st = 7 ∨ st = 11) :
    Runs (.abortNotice ⟨tenant, key⟩ q st) s (fun t => ((∀ o ∈ t.dev.rounds, o.id ≠ r.id) ∧ t.core.regs.x = s.core.regs.x ∧
      ∀ e ∈ t.core.engs, e.id = r.id → e.done = some (token st 0)) ∧ (tenant, key, q) ∈ t.dev.aborted ∧
        t.dev.abortsOut = s.dev.abortsOut) := by
  have hn : ¬ (st ≠ 7 ∧ st ≠ 11) := by omega
  have he : exec (.abortNotice ⟨tenant, key⟩ q st) s = .next (s.failRound r st) := by
    show execAbortNotice ⟨tenant, key⟩ q st s = _
    simp only [execAbortNotice, hn, if_false, hr]
  obtain ⟨hq, rfl, rfl, rfl⟩ := Dev.roundOf_some hr
  obtain ⟨hregs, haborted, hout⟩ := s.failRound_frame hq hst
  obtain ⟨hrounds, htok⟩ := s.failRound_ends r st
  exact ⟨_, he, ⟨hrounds, congrArg Regs.x hregs, htok⟩, haborted ▸ List.mem_cons_self, hout⟩

theorem exec_abortNotice_early (hr : s.dev.roundOf tenant key q = none) (hst : st = 7 ∨ st = 11) :
    exec (.abortNotice ⟨tenant, key⟩ q st) s = .next (s.mapDev (fun d => { d with earlyAborts := d.earlyAborts ++ [(tenant, key, q, st)] })) := by
  have hn : ¬ (st ≠ 7 ∧ st ≠ 11) := by omega
  show execAbortNotice ⟨tenant, key⟩ q st s = _
  simp only [execAbortNotice, hn, if_false, hr]

theorem roundTimeout_aborts
    (hr : s.dev.rounds.find? (fun r => r.tenant == tenant && r.record.key == key && r.timedOut s.core.now) = some r) (hq : r.stage ≠ .queued) :
    Runs (.roundTimeout ⟨tenant, key⟩) s (fun t => ((∀ o ∈ t.dev.rounds, o.id ≠ r.id) ∧ t.core.regs.x = s.core.regs.x ∧
      ∀ e ∈ t.core.engs, e.id = r.id → e.done = some (token 7 0)) ∧
        t.dev.abortsOut = s.dev.abortsOut ++ [(tenant, key, r.q, 7)]) := by
  have he : exec (.roundTimeout ⟨tenant, key⟩) s = .next (s.abortRound r 7) := by
    show execRoundTimeout ⟨tenant, key⟩ s = _
    simp only [execRoundTimeout, hr]
  have hp := List.find?_some hr
  simp only [Bool.and_eq_true, beq_iff_eq] at hp
  obtain ⟨⟨rfl, rfl⟩, -⟩ := hp
  obtain ⟨hregs, -, hout⟩ := s.failRound_frame hq (.inl rfl)
  obtain ⟨hrounds, htok⟩ := s.failRound_ends r 7
  have ha : s.abortRound r 7 = (s.failRound r 7).mapDev (fun d =>
    { d with abortsOut := d.abortsOut ++ [(r.tenant, r.record.key, r.q, 7)] }) := if_neg hq
  refine ⟨_, he.trans (congrArg _ ha), ⟨hrounds, congrArg Regs.x hregs, htok⟩, ?_⟩
  exact congrArg (· ++ [(r.tenant, r.record.key, r.q, 7)]) hout

end

/-- Settles O55: each of the events of a round, by what the device knows of it. -/
theorem collRounds : Obligations.CollRounds := by
  unfold Obligations.CollRounds
  refine ⟨fun f s hc hr => exec_coll hc hr, fun m s => ⟨exec_collMessage_aborted, fun h => ⟨exec_collMessage_early h, fun r hr =>
    ⟨exec_collMessage_differs h hr, exec_collMessage_elsewhere h hr, exec_collMessage_agrees h hr, exec_collMessage_disagrees h hr⟩⟩⟩,
    fun q s hq => ⟨fun i hi h0 hb hm => slotRequest_grants hq hi h0 hb hm, slotRequest_refused hq⟩, fun m came s => ?_, fun b s ha => ?_,
    fun tenant key q st r s => ⟨abortNotice_ends, exec_abortNotice_early, roundTimeout_aborts⟩⟩
  · refine ⟨fun r hr => ⟨fun hw => exec_algorithmDecision_waits hr (State.decisionOf_waits hw), fun ha hk hg => ?_, fun ha hk hg => ?_,
      fun ha hk => ?_⟩, fun r hroot hr hk hs => ⟨fun hd => ?_, fun hd hf => ?_⟩, fun hroot hr => exec_algorithmDecision_early hroot hr⟩
    · exact exec_algorithmDecision_decides hr (State.decisionOf_slots ha hk hg)
    · refine (exec_algorithmDecision_decides hr (State.decisionOf_refused ha hk hg)).trans ?_
      split <;> rfl
    · exact exec_algorithmDecision_decides hr (State.decisionOf_gone ha hk)
    · rw [exec_algorithmDecision_heeds hroot hr hk, State.heedDecision_differs hd]
    · rw [exec_algorithmDecision_heeds hroot hr hk, State.heedDecision_takes hd hs hf]
  · exact ⟨fun g hg => exec_slotBeat_relays ha hg, exec_slotBeat_early ha, fun r hg hr => ⟨exec_slotBeat_differs ha hg hr,
      exec_slotBeat_goes_on ha hg hr⟩⟩

end Sys2Proof.Machine
end

section
/-! The threshers' surroundings: invocations, kernel loads, hooks and the bin window (R424, R444 to R447, R476, R479). -/
open Sys2Proof Sys2Proof.Machine Sys2Proof.Claims

namespace Sys2Proof.Machine

/-! ### The bins (R476) -/

section
variable {l : List Host.Cell} (h : cellsWf 0 l = true) (a : Nat) (f : Nat → Byte)
include h

/-- The cells after a run of bytes is put down from `a` up. -/
theorem cellsWf_foldl_put (n : Nat) : cellsWf 0 (((List.range n).map (fun i => (a + i, f i))).foldl (fun m c => cellsPut m c.1 c.2) l) = true :=
  List.foldlRecOn _ _ (motive := fun m => cellsWf 0 m = true) h (fun m hm c _ => cellsPut_wf c.2 m 0 c.1 (Nat.zero_le _) hm)

theorem cellsGet_foldl_put (n c : Nat) :
    cellsGet (((List.range n).map (fun i => (a + i, f i))).foldl (fun m c => cellsPut m c.1 c.2) l) c =
      if a ≤ c ∧ c < a + n then f (c - a) else cellsGet l c := by
  induction n with
  | zero => rw [if_neg (by omega)]; rfl
  | succ n ih =>
    rw [List.range_succ, List.map_append, List.foldl_append]
    refine (cellsGet_cellsPut (f n) (a + n) c (cellsWf_foldl_put h a f n)).trans ?_
    rw [ih]
    by_cases hc : c = a + n
    · rw [if_pos hc, if_pos (by omega), hc, Nat.add_sub_cancel_left]
    · rw [if_neg hc]
      exact if_congr (by omega) rfl rfl

end

theorem Dev.putBins_bytes {d : Dev} (h : cellsWf 0 d.bins = true) (a n v c : Nat) :
    cellsGet (d.putBins a (bytesOfNat n v)).bins c =
      if a ≤ c ∧ c < a + n then BitVec.ofNat 8 (v / 256 ^ (c - a)) else cellsGet d.bins c := by
  rw [Dev.putBins, bytesOfNat_eq_map, cellsAt_map_range]
  exact cellsGet_foldl_put h a (fun i => BitVec.ofNat 8 (v / 256 ^ i)) n c

theorem Dev.binBytes_putBins {d : Dev} (h : cellsWf 0 d.bins = true) (a n v : Nat) :
    (d.putBins a (bytesOfNat n v)).binBytes a n = bytesOfNat n v := by
  rw [Dev.binBytes, bytesOfNat_eq_map]
  refine List.map_congr_left fun i hi => ?_
  rw [← bytesOfNat_eq_map, Dev.putBins_bytes h, if_pos (by have := List.mem_range.1 hi; omega), Nat.add_sub_cancel_left]

section
variable {s : State} {off len : Nat} (hl : len = 4 ∨ len = 8) (ha : off % len = 0) (hb : off + len ≤ 2 ^ 23)
include hl ha hb

/-- An access of the bin window that is in place. -/
theorem binWindow_ok : ((len == 4 || len == 8) && off % len == 0 && decide (off + len ≤ 2 ^ 23)) = true := by
  rw [decide_eq_true hb, ha]
  rcases hl with rfl | rfl <;> rfl

theorem binWindow_reads : Runs (.binWindowAccess off len none) s (fun t =>
    t.dev.answer = some ((s.dev.binBytes off len).map some) ∧ t.dev.bins = s.dev.bins ∧ t.mem = s.mem) :=
  ⟨_, rfl, if_pos (binWindow_ok hl ha hb), rfl, rfl⟩

theorem binWindow_writes (hw : cellsWf 0 s.dev.bins = true) (v : X64) : Runs (.binWindowAccess off len (some v)) s (fun t =>
    t.dev.binBytes off len = bytesOfNat len v.toNat ∧
      (∀ a, ¬ (off ≤ a ∧ a < off + len) → cellsGet t.dev.bins a = cellsGet s.dev.bins a) ∧ t.mem = s.mem) :=
  ⟨_, if_pos (binWindow_ok hl ha hb), Dev.binBytes_putBins hw _ _ _, fun a h => (Dev.putBins_bytes hw _ _ _ a).trans (if_neg h), rfl⟩

end

/-! ### Hooks (R479) -/

theorem Dev.blockWord_setBlockWord (d : Dev) (off o : Nat) (v : X64) :
    (d.setBlockWord off v).blockWord o = if o = off then v.toNat else d.blockWord o := by
  unfold Dev.blockWord Dev.setBlockWord
  by_cases h : o = off
  · subst h; simp
  · have hne : (off == o) = false := beq_false_of_ne (Ne.symm h)
    have hf : (d.block.filter (fun q => q.1 != off)).find? (fun q => q.1 == o) = d.block.find? (fun q => q.1 == o) :=
      find?_filter_of_imp _ fun q hq => by simpa [beq_iff_eq.1 hq] using h
    simp only [List.find?_cons, hne, hf, if_neg h]

theorem Dev.blockWord_lt (d : Dev) (o : Nat) : d.blockWord o < 2 ^ 64 := by
  unfold Dev.blockWord
  cases d.block.find? (fun q => q.1 == o) with
  | none => decide
  | some q => exact q.2.isLt

/-- Once an entry has taken effect, each of its words is what the block holds. -/
theorem Dev.entryWord_takeEntry (d : Dev) (base : Nat) {j : Nat} (hj : j < 4) :
    (d.takeEntry base).entryWord (base + 8 * j) = d.blockWord (base + 8 * j) := by
  have hfind : (d.takeEntry base).entries.find? (fun q => q.1 == base + 8 * j) =
      some (base + 8 * j, BitVec.ofNat 64 (d.blockWord (base + 8 * j))) := by
    have hj : (List.range 4).find? (fun w => base + 8 * w == base + 8 * j) = some j :=
      List.find?_range_eq_some.2 ⟨beq_self_eq_true _, List.mem_range.2 hj, fun i hi => by
        rw [beq_false_of_ne (by omega)]; rfl⟩
    have hmap : ((List.range 4).map (fun w => (base + 8 * w, BitVec.ofNat 64 (d.blockWord (base + 8 * w))))).find?
        (fun q => q.1 == base + 8 * j) = some (base + 8 * j, BitVec.ofNat 64 (d.blockWord (base + 8 * j))) := by
      rw [List.find?_map]
      exact congrArg (Option.map _) hj
    rw [Dev.takeEntry, List.find?_append, hmap]
    rfl
  rw [Dev.entryWord, hfind]
  exact (BitVec.toNat_ofNat _ _).trans (Nat.mod_eq_of_lt (d.blockWord_lt _))

theorem Dev.blockWord_writeEntry (d : Dev) (base w o : Nat) (v : X64) :
    (d.writeEntry base w v).blockWord o = if o = base + 8 * w then v.toNat else d.blockWord o := by
  rw [← d.blockWord_setBlockWord (base + 8 * w) o v]
  unfold Dev.writeEntry
  dsimp only
  split <;> rfl

theorem hookMask_eq {w : Nat} (h : w < 4) : hookMask w = if w = 0 then 0x8000000000003F1F else if w = 3 then 0 else 0xFFFFFFFFFFFFFFFF := by
  interval_cases w <;> rfl

theorem hookWrite_runs (s : State) {h w : Nat} (v : X64) (hh : h < 64) (hw : w < 4) :
    Runs (.hookWrite h w v) s (fun t => t.dev.blockWord (0x8000 + 32 * h + 8 * w) =
        (v &&& (if w = 0 then 0x8000000000003F1F else if w = 3 then 0 else 0xFFFFFFFFFFFFFFFF)).toNat ∧
      (∀ o, o ≠ 0x8000 + 32 * h + 8 * w → t.dev.blockWord o = s.dev.blockWord o) ∧
      (w ≠ 0 → ∀ o, t.dev.entryWord o = s.dev.entryWord o) ∧
      (w = 0 → ∀ j, j < 4 → t.dev.entryWord (0x8000 + 32 * h + 8 * j) = t.dev.blockWord (0x8000 + 32 * h + 8 * j)) ∧
      t.core = s.core ∧ t.mem = s.mem) := by
  refine ⟨s.mapDev (fun d => d.writeEntry (0x8000 + 32 * h) w (v &&& hookMask w)), if_pos (by simp [hh, hw]), ?_, fun o ho => ?_,
    fun h0 o => ?_, fun h0 j hj => ?_, rfl, rfl⟩
  · rw [← hookMask_eq hw]
    exact (Dev.blockWord_writeEntry _ _ _ _ _).trans (if_pos rfl)
  · exact (Dev.blockWord_writeEntry _ _ _ _ _).trans (if_neg ho)
  · have hd : s.dev.writeEntry (0x8000 + 32 * h) w (v &&& hookMask w) = s.dev.setBlockWord (0x8000 + 32 * h + 8 * w) (v &&& hookMask w) :=
      if_neg h0
    rw [State.mapDev_dev, hd]
    rfl
  · subst h0
    exact Dev.entryWord_takeEntry _ _ hj

/-! ### Invocations (R424, R447) -/

section
variable {s : State} {i : InvSpec} {k : Kernel}

theorem exec_thresherInvocation_begins (h0 : s.thr = none) (hf : s.thrFree i = true) (hk : s.dev.kernel? i.kernel = some k)
    (ht : k.tenant = i.tenant) (hs : k.slot = i.slot) (hp : i.poisoned = false) :
    exec (.thresherInvocation i) s = .next { s with thr := some (Invocation.start k i (s.binsGone k)) } := by
  show execThresherInvocation i s = _
  simp only [execThresherInvocation, hk, hf, Option.filter_some, if_true, ht, hs, bne_self_eq_false, Bool.or_false, Bool.false_eq_true, if_false,
    hp, h0]

theorem exec_thresherInvocation_poisoned (hf : s.thrFree i = true) (hk : s.dev.kernel? i.kernel = some k) (ht : k.tenant = i.tenant)
    (hs : k.slot = i.slot) (hp : i.poisoned = true) : exec (.thresherInvocation i) s = .next { s.thrTrapped i 0x04 0 0 true with
      results := (s.thrTrapped i 0x04 0 0 true).results ++ [(i, .trap 0x04 0 0, i.input ++ i.partialIn)] } := by
  show execThresherInvocation i s = _
  simp only [execThresherInvocation, hk, hf, Option.filter_some, if_true, ht, hs, bne_self_eq_false, Bool.or_false, Bool.false_eq_true, if_false,
    hp]

theorem Invocation.start_window (k : Kernel) (i : InvSpec) (gone : Bool) : (Invocation.start k i gone).window.length = 512 := by
  simp only [Invocation.start, List.length_append, List.length_take, List.length_replicate]
  omega

theorem Invocation.start_regs (k : Kernel) (i : InvSpec) (gone : Bool) (n : BitVec 4) :
    (Invocation.start k i gone).rdZ n = 0 ∧ (Invocation.start k i gone).rdW n = 0 := by
  refine ⟨?_, vget_replicate _ _ _⟩
  rw [Invocation.rdZ]
  split
  · rfl
  · exact vget_replicate _ _ _

/-- A trap of a tenant that keeps no ring of records is counted in its kernel alone. -/
theorem State.thrTrapped_unrecorded {c v w : Nat} {norun : Bool} (h : (s.dev.page i.tenant).trq = 0) :
    s.thrTrapped i c v w norun = s.mapDev (fun d => { d with kernels := d.kernels.map (fun k =>
      if k.name == i.kernel then { k with traps := min (k.traps + 1) (2 ^ 32 - 1) } else k) }) := if_pos h

/-- The kernel whose trap has been counted. -/
theorem Dev.kernel?_counted {d : Dev} (hk : d.kernel? i.kernel = some k) :
    ((d.kernels.map (fun k => if k.name == i.kernel then { k with traps := min (k.traps + 1) (2 ^ 32 - 1) } else k)).find?
      (fun k => k.name == i.kernel)).map (·.traps) = some (min (k.traps + 1) (2 ^ 32 - 1)) := by
  have hn : (k.name == i.kernel) = true := List.find?_some (p := fun k : Kernel => k.name == i.kernel) hk
  have hf : (fun k : Kernel => k.name == i.kernel) ∘
      (fun k => if k.name == i.kernel then { k with traps := min (k.traps + 1) (2 ^ 32 - 1) } else k) =
      fun k => k.name == i.kernel := funext fun k => by
    by_cases h : (k.name == i.kernel) = true
    · simp only [Function.comp_apply, if_pos h]
    · simp only [Function.comp_apply, if_neg h]
  rw [List.find?_map, hf, show d.kernels.find? _ = some k from hk]
  simp only [Option.map_some, hn, if_true]

end

/-! ### Kernel loads (R444, R445) -/

section
variable {s : State} {l : KernelLoad} {image : List Byte}

theorem exec_kernelLoad_refused (hb : l.bins = none) (he : l.elsewhere = none) (ha : (s.dev.page l.tenant).active = true)
    (hl : l.launch = false) (hk : s.kernelOf l.tenant image 0 = none) : exec (.kernelLoad l image) s = .next s := by
  show execKernelLoad l image s = _
  simp only [execKernelLoad, ha, hl, he, State.launchBins, hb, withBinset, hk, State.failLaunch, Option.filter_none, Bool.not_true,
    Bool.false_eq_true, if_false]

theorem kernelLoad_loads {k : Kernel} (hb : l.bins = none) (he : l.elsewhere = none) (ha : (s.dev.page l.tenant).active = true)
    (hl : l.launch = false) (hn : l.knames = []) (hk : s.kernelOf l.tenant image 0 = some k)
    (hm : s.mayEnter (homeField s.dev.ident.index 0 0 0) = true) :
    Runs (.kernelLoad l image) s (fun t => ∃ c : Claim, t.dev.claims = s.dev.claims ++ [c] ∧ c.ty = .kernel ∧ c.owner = l.tenant ∧
      c.state = .live ∧ t.dev.kernels = s.dev.kernels ++ [{ k with name := c.name }] ∧ t.core = s.core ∧ t.mem = s.mem) := by
  refine ⟨(s.enterClaim .kernel l.tenant (homeField s.dev.ident.index 0 0 0) 0 (BitVec.ofNat 64 image.length) (kernelAttr k)).1.mapDev
    (fun d => { d with kernels := d.kernels ++ [{ k with name := (s.enterClaim .kernel l.tenant (homeField s.dev.ident.index 0 0 0) 0
      (BitVec.ofNat 64 image.length) (kernelAttr k)).2 }] }), ?_, _, rfl, rfl, rfl, rfl, rfl, rfl, rfl⟩
  show execKernelLoad l image s = _
  simp only [execKernelLoad, ha, hl, he, State.launchBins, hb, withBinset, hk, hm, Option.filter_some, Bool.not_true,
    Bool.false_eq_true, if_false, if_true, State.fillNames, hn, List.foldl_nil]

/-- A launch of a page that has not begun one fails where its kernel is refused here or elsewhere (R454). -/
theorem kernelLoad_fails (ha : (s.dev.page l.tenant).active = true) (ht : l.tenant < 64) (hl : l.launch = true)
    (hp : (s.dev.page l.tenant).launched = false)
    (hr : l.elsewhere = some none ∨ l.elsewhere = none ∧ l.bins = none ∧ s.kernelOf l.tenant image 0 = none) :
    Runs (.kernelLoad l image) s (fun t => t.dev.page l.tenant = { s.dev.page l.tenant with launchBad := true } ∧
      t.dev.claims = s.dev.claims ∧ t.core = s.core ∧ t.mem = s.mem) := by
  generalize hu : s.mapDev (fun d => d.mapPage l.tenant Page.openLaunch) = u
  have hopen : u.dev.page l.tenant = s.dev.page l.tenant := by
    rw [← hu]
    refine (Dev.mapPage_page _ _ ht).trans ?_
    rw [Page.openLaunch, if_neg (by rw [hp]; exact Bool.false_ne_true)]
  have he : exec (.kernelLoad l image) s = .next (u.mapDev (fun d => d.mapPage l.tenant (fun p => { p with launchBad := true }))) := by
    show execKernelLoad l image s = _
    rcases hr with hr | ⟨hr, hb, hk⟩
    · simp only [execKernelLoad, ha, hl, hr, hu, State.failLaunch, Bool.not_true, Bool.false_eq_true, if_false, if_true]
    · have hk' : u.kernelOf l.tenant image 0 = none := by rw [← hu]; exact hk
      simp only [execKernelLoad, ha, hl, hr, hu, State.launchBins, hb, withBinset, hk', State.failLaunch, Option.filter_none, Bool.not_true,
        Bool.false_eq_true, if_false, if_true]
  refine ⟨_, he, (Dev.mapPage_page _ _ ht).trans (by rw [hopen]), ?_, ?_, ?_⟩
  · rw [← hu]; rfl
  · rw [← hu]; rfl
  · rw [← hu]; rfl

end

/-- Settles O57: invocations, loads, hooks and the bin window. -/
theorem thresherEvents : Obligations.ThresherEvents := by
  unfold Obligations.ThresherEvents
  intro s
  refine ⟨fun i k h0 hf hk ht hs hp => ?_, fun i k h0 hf hk ht hs hp hq => ?_, fun l image hl hb he hn ha => ⟨fun k hk hm =>
    kernelLoad_loads hb he ha hl hn hk hm, exec_kernelLoad_refused hb he ha hl⟩, fun l image hl hb he ha ht hp hk =>
    kernelLoad_fails ha ht hl hp (.inr ⟨he, hb, hk⟩), fun h w v hh hw => hookWrite_runs s v hh hw, fun l image he ha ht hl hp =>
    kernelLoad_fails ha ht hl hp (.inl he), fun off len hl ha hb hw => ⟨binWindow_reads hl ha hb, binWindow_writes hl ha hb hw⟩⟩
  · exact ⟨_, exec_thresherInvocation_begins h0 hf hk ht hs hp, _, rfl, rfl, rfl, rfl, rfl, Invocation.start_regs k i _,
      Invocation.start_window k i _, rfl, rfl, rfl⟩
  · have he := exec_thresherInvocation_poisoned hf hk ht hs hp
    rw [State.thrTrapped_unrecorded hq] at he
    exact ⟨_, he, h0, rfl, Dev.kernel?_counted hk, rfl⟩

end Sys2Proof.Machine
end

section
/-! The power manager, power-off and boot (R202, R458, R459, R471). -/
open Sys2Proof Sys2Proof.Machine Sys2Proof.Claims

namespace Sys2Proof.Machine

/-! ### The power manager (R458, R459) -/

theorem stepLevel_power (l watts limit : Nat) : stepLevel l watts limit =
    if limit < watts then min 7 (l + 1) else if 100 * watts < 95 * limit then l - 1 else l :=
  if_congr (by omega) rfl (if_congr (by omega) rfl rfl)

theorem stepLevel_current (l amps : Nat) : stepLevel l amps 800 =
    if 800 < amps then min 7 (l + 1) else if amps < 760 then l - 1 else l :=
  if_congr (by omega) rfl (if_congr (by omega) rfl rfl)

theorem stepLevel_thermal (l : Nat) (temp : Int) : stepLevel l temp 100 =
    if 100 < temp then min 7 (l + 1) else if temp < 95 then l - 1 else l :=
  if_congr Iff.rfl rfl (if_congr (by omega) rfl rfl)

/-- The power manager after a step. -/
def Power.stepped (p : Power) (y : Settings) (watts : Nat) (temp : Int) (amps : Nat × Nat) : Power :=
  let hold := !p.sensorHeld.isEmpty
  { p with
    ownlvl := y.ownlvl, pblvl := y.pblvl, power := stepLevel p.power watts y.limit,
    thermal := if hold then p.thermal else if 110 ≤ temp then 7 else stepLevel p.thermal temp 100,
    current := if hold then p.current else (stepLevel p.current.1 amps.1 800, stepLevel p.current.2 amps.2 800) }

theorem State.exec_powerStep (s : State) (watts : Nat) (temp : Int) (amps : Nat × Nat) : exec (.powerStep watts temp amps) s =
    .next (s.mapDev (fun d => { d with power := d.power.stepped d.set watts temp amps })) := rfl

/-! ### Power-off (R202, R459) -/

/-- Cells that a filter takes out read as 0. -/
theorem cellsGet_filter_out {p : Host.Cell → Bool} {a : Nat} (h : ∀ v, p (a, v) = false) (l : List Host.Cell) : cellsGet (l.filter p) a = 0 := by
  induction l with
  | nil => rfl
  | cons c l ih =>
    obtain ⟨k, v⟩ := c
    cases hp : p (k, v) with
    | false => rw [List.filter_cons_of_neg (by rw [hp]; exact Bool.false_ne_true), ih]
    | true =>
      rw [List.filter_cons_of_pos hp]
      have hne : k ≠ a := fun e => by rw [e, h] at hp; exact Bool.false_ne_true hp
      simp only [cellsGet, if_neg hne, ih, ite_self]

/-- What the module's own memory holds is lost with its power. -/
theorem Memory.outside_byte (m : Memory) {a : Nat} (ha : a < physSpace) (hh : homeOf a ≠ .host) : m.outside.byte a = 0 := by
  refine cellsGet_filter_out (fun v => ?_) m.cells
  have hp : physOf a = a := Nat.mod_eq_of_lt ha
  rw [hp, Bool.or_eq_false_iff]
  exact ⟨decide_eq_false (Nat.not_le.2 ha), beq_false_of_ne hh⟩

theorem State.off_runs (s : State) {e : Instr} (he : exec e s = .next s.off) :
    Runs e s (fun t => t.dev.ident.powered = false ∧ t.dev.ident.gen = s.dev.ident.gen ∧ t.core = Core.reset ∧ t.dev.strands = [] ∧
      t.dev.claims = [] ∧ ∀ a, a < physSpace → homeOf a ≠ .host → t.mem.byte a = 0) :=
  ⟨s.off, he, rfl, rfl, rfl, rfl, rfl, fun _ ha hh => Memory.outside_byte _ ha hh⟩

/-! ### Boot (R471) -/

section
variable (f : Firmware) (i : FwImage)

/-- An image stored for both dies is the image of each. -/
theorem Firmware.image_stored_both :
    ((f.store 0 i).store 1 i).image i.kind 0 = i ∧ ((f.store 0 i).store 1 i).image i.kind 1 = i := by
  simp [Firmware.image, Firmware.store]

end

theorem recoveryImageAccept_runs {s : State} {img : FwImage} (hr : s.dev.ident.recovery = true) (hk : img.kind = .foreman) :
    Runs (.recoveryImageAccept img) s (fun t => t.core = s.core ∧ t.mem = s.mem ∧
      if s.dev.fw.accepts img = true then t.dev.ident.recovery = false ∧ t.dev.fw.image .foreman 0 = img ∧
        t.dev.fw.image .foreman 1 = img else t = s) := by
  obtain ⟨h0, h1⟩ := s.dev.fw.image_stored_both img
  rw [hk] at h0 h1
  have hf : (img.kind == .foreman) = true := beq_iff_eq.2 hk
  by_cases ha : s.dev.fw.accepts img = true
  · refine ⟨_, if_pos (by rw [hr, hf, ha]; rfl), rfl, rfl, ?_⟩
    rw [if_pos ha]
    exact ⟨rfl, h0, h1⟩
  · refine ⟨s, if_neg (by rw [hr, hf]; exact ha), rfl, rfl, ?_⟩
    rw [if_neg ha]

theorem coldStart_runs {s : State} (h : s.dev.ident.gen < 2 ^ 24 - 1) :
    Runs (.coldStart true) s (fun t => t.dev.ident.powered = true ∧ t.dev.ident.gen = s.dev.ident.gen + 1 ∧ t.dev.ident.count = 1 ∧
      t.dev.ident.issuing = true ∧ t.core = Core.reset ∧ t.dev.strands = [] ∧ t.dev.claims = []) := by
  have hok : (true && decide (s.dev.ident.gen < 2 ^ 24 - 1)) = true := by rw [decide_eq_true h]; rfl
  exact ⟨_, rfl, rfl, if_pos hok, rfl, hok, rfl, rfl, rfl⟩

/-- Settles O52: the power manager's levels, power-off and boot. -/
theorem powerEvents : Obligations.PowerEvents := by
  unfold Obligations.PowerEvents
  intro s
  refine ⟨fun watts temp amps0 amps1 => ⟨_, s.exec_powerStep watts temp (amps0, amps1), rfl, rfl, rfl, rfl, stepLevel_power _ _ _, fun h => ?_,
    fun h => ?_⟩, ⟨_, rfl, rfl, rfl, rfl⟩, fun h => ⟨_, if_pos h, rfl, rfl, rfl⟩, ⟨_, rfl, rfl, rfl, rfl⟩, ?_, coldStart_runs,
    ⟨_, rfl, rfl, rfl, rfl⟩, fun img hr hk => recoveryImageAccept_runs hr hk⟩
  · have hh : (!s.dev.power.sensorHeld.isEmpty) = false := by rw [h]; rfl
    simp only [State.mapDev_dev, Power.stepped, hh, Bool.false_eq_true, if_false, stepLevel_thermal, stepLevel_current, and_self]
  · have hh : (!s.dev.power.sensorHeld.isEmpty) = true := by simpa using h
    simp only [State.mapDev_dev, Power.stepped, hh, if_true, and_self]
  · rintro e temp (rfl | ⟨rfl, ht⟩)
    · exact s.off_runs rfl
    · exact s.off_runs (if_pos ht)

end Sys2Proof.Machine
end

section
/-! The owner runtime's registers: the places of a write and what they hold, and QUIESCE (R397, R458, R460, R468, R476 to R482). -/
open Sys2Proof Sys2Proof.Machine Sys2Proof.Claims

namespace Sys2Proof.Machine

/-! ### The places of BAR0 -/

section
variable (s : State) (v : X64) {off : Nat}

theorem exec_registerWrite_unaligned (fn : Nat) (h8 : off % 8 ≠ 0) : exec (.registerWrite ⟨fn, off⟩ v) s = .next s := if_pos h8

theorem exec_registerWrite_virtual {fn : Nat} (hf : fn ≠ 0) (h8 : off % 8 = 0) :
    exec (.registerWrite ⟨fn, off⟩ v) s = s.writeOwnPage fn off v := by
  show execRegisterWrite ⟨fn, off⟩ v s = _
  simp only [execRegisterWrite]
  rw [if_neg (by omega), if_pos hf]

section
variable (h8 : off % 8 = 0)
include h8

/-- The settings but RAMPT, whose write retimes the duty, and LOSTTO, from whose write silence counts. -/
theorem exec_registerWrite_setting (hlt : off < 0x60) (h1 : off ≠ 0x8) (h2 : off ≠ 0x18) (h3 : off ≠ 0x28) :
    exec (.registerWrite ⟨0, off⟩ v) s = .next (s.mapDev (fun d => { d with set := d.set.write off v.toNat })) := by
  show execRegisterWrite ⟨0, off⟩ v s = _
  simp only [execRegisterWrite]
  rw [if_neg (by omega), if_neg (by omega), if_neg (by omega), if_neg h1, if_neg h2, if_neg (by omega), if_neg h3, if_pos hlt]

theorem exec_registerWrite_bins (hlo : 0x800000 ≤ off) (hhi : off < 0x1000000) :
    exec (.registerWrite ⟨0, off⟩ v) s = exec (.binWindowAccess (off - 0x800000) 8 (some v)) s := by
  show execRegisterWrite ⟨0, off⟩ v s = execBinWindowAccess (off - 0x800000) 8 (some v) s
  simp only [execRegisterWrite]
  rw [if_neg (by omega), if_neg (by omega), if_neg (by omega), if_neg (by omega), if_neg (by omega), if_pos ⟨hlo, hhi⟩]

theorem exec_registerWrite_reserved (h : 0x1400000 ≤ off ∨ 0x9030 ≤ off ∧ off < 0x800000) :
    exec (.registerWrite ⟨0, off⟩ v) s = .next s := by
  show execRegisterWrite ⟨0, off⟩ v s = _
  simp only [execRegisterWrite]
  rw [if_neg (by omega), if_neg (by omega), if_neg (by omega), if_neg (by omega), if_neg (by omega), if_neg (by omega), if_neg (by omega),
    if_neg (by omega), if_neg (by omega), if_neg (by omega), if_neg (by omega), if_neg (by omega), if_neg (by omega)]

end

theorem exec_registerWrite_lostto : exec (.registerWrite ⟨0, 0x28⟩ v) s = .next (s.mapDev (fun d =>
    { d with set := d.set.write 0x28 v.toNat, links := { d.links with losttoAt := s.core.now } })) := rfl

theorem exec_registerWrite_rampt : exec (.registerWrite ⟨0, 0x18⟩ v) s =
    .next ((s.mapCore (fun c => { c with mx := c.mx.retime c.now s.dev.set.rampt s.mmaWaits })).mapDev (fun d =>
      { d with set := d.set.write 0x18 v.toNat })) := rfl

/-- A register of a tenant's page other than TAIL. -/
theorem exec_registerWrite_page {tn o : Nat} (ht : tn < 64) (ho : o < 0x10000) (h8 : o % 8 = 0) (h10 : o ≠ 0x10) :
    exec (.registerWrite ⟨0, 0x1000000 + 0x10000 * tn + o⟩ v) s = .next (s.writePage tn o v) := by
  have htn : (0x1000000 + 0x10000 * tn + o - 0x1000000) / 0x10000 = tn := by omega
  have hoff : (0x1000000 + 0x10000 * tn + o) % 0x10000 = o := by omega
  show execRegisterWrite ⟨0, 0x1000000 + 0x10000 * tn + o⟩ v s = _
  simp only [execRegisterWrite]
  rw [if_neg (by omega), if_neg (by omega), if_pos (by omega), htn, hoff, if_neg h10]

/-- The identity after a write of entry `k` of the serial-to-index map. -/
def State.mapIdent (k : Nat) : Ident := s.dev.ident.writeMap k v.toNat (Config.coldStarts s.freeCtr (bitsAt v.toNat 39 0))

/-- The device after a write of entry `k` of the serial-to-index map. -/
def State.mapWritten (k : Nat) : State :=
  let t := s.mapDev (fun d => { d with ident := s.mapIdent v k })
  if s.dev.ident.indom then t else t.mapDev (fun d => d.setBlockWord (0x1000 + 8 * k) (v &&& 0x800000FFFFFFFFFF))

theorem exec_registerWrite_map {k : Nat} (hk : k < 64) :
    exec (.registerWrite ⟨0, 0x1000 + 8 * k⟩ v) s = .next ((s.mapWritten v k).hear k).bump := by
  have hkk : (0x1000 + 8 * k - 0x1000) / 8 = k := by omega
  show execRegisterWrite ⟨0, 0x1000 + 8 * k⟩ v s = _
  simp only [execRegisterWrite]
  rw [if_neg (by omega), if_neg (by omega), if_neg (by omega), if_neg (by omega), if_neg (by omega), if_neg (by omega), if_neg (by omega),
    if_neg (by omega), if_pos (by omega), hkk]
  rfl

end

/-! ### The settings (R458, R460, R482) -/

theorem bitsAt_low (v hi : Nat) : bitsAt v hi 0 = v % 2 ^ (hi + 1) := by rw [bitsAt, pow_zero, Nat.div_one, Nat.sub_zero]

theorem within_iff (lo hi v : Nat) : within lo hi v = true ↔ lo ≤ v ∧ v ≤ hi := by simp [within]

section
variable (q : Settings) (n : Nat)

theorem Settings.writePwrlim_eq : q.writePwrlim n = if 900 ≤ n % 2 ^ 11 ∧ n % 2 ^ 11 ≤ 1600 ∧ 1 ≤ n / 2 ^ 16 % 8 then
    { q with limit := n % 2 ^ 11, pblvl := n / 2 ^ 16 % 8, ownlvl := n / 2 ^ 24 % 8 } else q := by
  rw [Settings.writePwrlim, bitsAt_low]
  exact if_congr (by rw [Bool.and_eq_true, within_iff, decide_eq_true_eq, and_assoc]; rfl) rfl rfl

theorem Settings.writeClass_eq (c : Nat) : q.writeClass c n =
    if 4096 ≤ n / 2 ^ 32 % 2 ^ 27 ∧ n / 2 ^ 32 % 2 ^ 27 ≤ 2 ^ 26 ∧ 1024 ≤ n % 2 ^ 25 ∧ n % 2 ^ 25 ≤ 2 ^ 24 then
      { q with slice := vset q.slice c (n / 2 ^ 32 % 2 ^ 27), quant := vset q.quant c (n % 2 ^ 25) } else q := by
  rw [Settings.writeClass, bitsAt_low]
  exact if_congr (by rw [Bool.and_eq_true, within_iff, within_iff, and_assoc]; rfl) rfl rfl

theorem Settings.write_qpwdog : q.write 0x20 n = if 1050 ≤ n % 2 ^ 32 then { q with qpwdog := n % 2 ^ 32 } else q := by
  simp only [Settings.write, bitsAt_low]
  refine if_congr ?_ rfl rfl
  rw [within_iff]
  omega

theorem Settings.write_lostto : q.write 0x28 n = if 100 ≤ n % 2 ^ 17 ∧ n % 2 ^ 17 ≤ 100000 then { q with lostto := n % 2 ^ 17 } else q := by
  simp only [Settings.write, bitsAt_low]
  exact if_congr (within_iff _ _ _) rfl rfl

theorem Settings.write_waitq : q.write 0x30 n = if 256 ≤ n % 2 ^ 21 ∧ n % 2 ^ 21 ≤ 2 ^ 20 then { q with waitq := n % 2 ^ 21 } else q := by
  simp only [Settings.write, bitsAt_low]
  exact if_congr (within_iff _ _ _) rfl rfl

theorem Settings.write_winto : q.write 0x38 n = if 10 ≤ n % 2 ^ 14 ∧ n % 2 ^ 14 ≤ 10000 then { q with winto := n % 2 ^ 14 } else q := by
  simp only [Settings.write, bitsAt_low]
  exact if_congr (within_iff _ _ _) rfl rfl

theorem Settings.write_class {c : Nat} (hc : c < 4) : q.write (0x40 + 8 * c) n = q.writeClass c n := by
  interval_cases c <;> rfl

end

/-! ### Tenant pages (R397, R478) -/

theorem Dev.gainWeight_pages (d : Dev) (old : BitVec 32) (t : Nat) : (d.gainWeight old t).pages = d.pages :=
  List.foldlRecOn _ _ (motive := fun e : Dev => e.pages = d.pages) rfl (fun e he c _ => by
    split
    · exact he
    · exact he)

section
variable (s : State) (v : X64) {t : Nat}

theorem State.writePage_pages (off : Nat) : (s.writePage t off v).dev.pages = (s.dev.mapPage t (fun p => p.write off v)).pages := by
  simp only [State.writePage, State.mapDev_dev, apply_ite State.dev, apply_ite Dev.pages, Dev.gainWeight_pages, State.mapCore_dev, ite_self]

theorem State.writePage_page (ht : t < 64) (off : Nat) : (s.writePage t off v).dev.page t = (s.dev.page t).write off v := by
  rw [Dev.page, State.writePage_pages]
  exact Dev.mapPage_page _ _ ht

theorem State.writePage_other (off : Nat) {o : Nat} (h : o ≠ t) : (s.writePage t off v).dev.page o = s.dev.page o := by
  rw [Dev.page, State.writePage_pages]
  exact Dev.mapPage_other _ _ h

theorem State.writePage_core {off : Nat} (h : off ≠ 0x48) : (s.writePage t off v).core = s.core := by
  simp only [State.writePage, h, decide_false, Bool.false_and, Bool.false_eq_true, if_false, State.mapDev_core]

end

/-- A write of a register of a tenant's page other than MAPBASE changes that page alone. -/
theorem pageWrite_runs (s : State) (v : X64) {tn o : Nat} {p : Page} (ht : tn < 64) (ho : o < 0x10000) (h8 : o % 8 = 0) (h10 : o ≠ 0x10)
    (h48 : o ≠ 0x48) (hp : (s.dev.page tn).write o v = p) :
    Runs (.registerWrite ⟨0, 0x1000000 + 0x10000 * tn + o⟩ v) s (fun t =>
      t.dev.page tn = p ∧ (∀ o, o ≠ tn → t.dev.page o = s.dev.page o) ∧ t.core = s.core ∧ t.mem = s.mem) :=
  ⟨_, exec_registerWrite_page s v ht ho h8 h10, (s.writePage_page v ht o).trans hp, fun _ h => s.writePage_other v o h,
    s.writePage_core v h48, by simp⟩

theorem mapbaseWrite_runs (s : State) (v : X64) {tn : Nat} (ht : tn < 64) :
    Runs (.registerWrite ⟨0, (0x1000000 + 0x10000 * tn + 0x48)⟩ v) s (fun t =>
      t.dev.page tn = { s.dev.page tn with mapbase := v &&& 0x00FFFFFFFFFFF800 } ∧ (∀ o, o ≠ tn → t.dev.page o = s.dev.page o) ∧
      (s.core.tableOf = some tn → t.core.tableLaunch = none) ∧ t.core.regs = s.core.regs ∧ t.core.iss = s.core.iss ∧ t.mem = s.mem) := by
  refine ⟨_, exec_registerWrite_page s v ht (by decide) (by decide) (by decide), s.writePage_page v ht 0x48,
    fun _ h => s.writePage_other v 0x48 h, fun h => ?_, ?_, ?_, by simp⟩
  · simp [State.writePage, h]
  · simp only [State.writePage, State.mapDev_core, apply_ite State.core, apply_ite Core.regs, State.mapCore_core, ite_self]
  · simp only [State.writePage, State.mapDev_core, apply_ite State.core, apply_ite Core.iss, State.mapCore_core, ite_self]

/-! ### The serial-to-index map (R389, R477) -/

section
variable {i : Ident} {k n m : Nat}

theorem Ident.writeMap_indom (h : i.indom = true) : i.writeMap k n m = i := if_pos h

section
variable (h : i.indom = false)
include h

theorem Ident.writeMap_map : (i.writeMap k n m).map =
    (if bitsAt n 63 63 = 1 then [(k, bitsAt n 39 0)] else []) ++ i.map.filter (fun m => m.1 != k) := by
  simp only [Ident.writeMap, h, Bool.false_eq_true, if_false]
  split <;> rfl

theorem Ident.writeMap_lost : (i.writeMap k n m).lost = i.lost.filter (fun d => d != k) := by
  simp only [Ident.writeMap, h, Bool.false_eq_true, if_false]
  split <;> rfl

end

end

theorem mapWrite_ignored (s : State) (v : X64) {k : Nat} (hk : k < 64) (h : s.dev.ident.indom = true) :
    Runs (.registerWrite ⟨0, 0x1000 + 8 * k⟩ v) s (fun t => t.dev.ident = s.dev.ident ∧ t.dev.block = s.dev.block) := by
  have hw : s.mapWritten v k = s := by
    rw [State.mapWritten, h, if_pos rfl]
    rw [State.mapIdent, Ident.writeMap_indom h]
    rfl
  refine ⟨_, exec_registerWrite_map s v hk, ?_, ?_⟩
  · rw [hw]; rfl
  · rw [hw]; rfl

theorem mapWrite_writes (s : State) (v : X64) {k : Nat} (hk : k < 64) (h : s.dev.ident.indom = false) :
    Runs (.registerWrite ⟨0, 0x1000 + 8 * k⟩ v) s (fun t =>
      t.dev.ident.map = (if v.getLsbD 63 then [(k, v.toNat % 2 ^ 40)] else []) ++ s.dev.ident.map.filter (fun m => m.1 != k) ∧
      k ∉ t.dev.ident.lost ∧ (∀ j, j ≠ k → (j ∈ t.dev.ident.lost ↔ j ∈ s.dev.ident.lost)) ∧
      t.dev.blockWord (0x1000 + 8 * k) = (v &&& 0x800000FFFFFFFFFF).toNat ∧ t.core = s.core ∧ t.mem = s.mem) := by
  have hw : s.mapWritten v k = (s.mapDev (fun d => { d with ident := s.mapIdent v k })).mapDev (fun d =>
      d.setBlockWord (0x1000 + 8 * k) (v &&& 0x800000FFFFFFFFFF)) := if_neg (by rw [h]; exact Bool.false_ne_true)
  have hlost := Ident.writeMap_lost (k := k) (n := v.toNat) (m := Config.coldStarts s.freeCtr (bitsAt v.toNat 39 0)) h
  have hbit : (bitsAt v.toNat 63 63 = 1) ↔ v.getLsbD 63 = true := by rw [← bitsAt_one, beq_iff_eq]
  have he := exec_registerWrite_map s v hk
  rw [hw] at he
  refine ⟨_, he, ?_, ?_, fun j hj => ?_, ?_, rfl, rfl⟩
  · refine (Ident.writeMap_map h).trans ?_
    rw [bitsAt_low]
    exact congrArg (· ++ _) (if_congr hbit rfl rfl)
  · exact fun hm => by simpa using (List.mem_filter.1 (hlost ▸ hm : k ∈ s.dev.ident.lost.filter (fun d => d != k))).2
  · show j ∈ (s.mapIdent v k).lost ↔ _
    rw [State.mapIdent, hlost, List.mem_filter]
    exact and_iff_left (bne_iff_ne.2 hj)
  · exact (Dev.blockWord_setBlockWord _ _ _ _).trans (if_pos rfl)

/-! ### QUIESCE (R468) -/

/-- A strand that may run is parked. -/
def Strand.parked (u : Strand) : Strand :=
  if u.state = .runnable ∨ u.state = .waiting then { u with state := .parked, wasWaiting := decide (u.state = .waiting) } else u

theorem Strand.parked_parked (u : Strand) : u.parked.parked = u.parked := by
  unfold Strand.parked
  by_cases h : u.state = .runnable ∨ u.state = .waiting
  · rw [if_pos h]; rfl
  · rw [if_neg h, if_neg h]

/-- With no strand on the core, PARK changes the scheduler's record alone. -/
theorem exec_park_idle {s : State} (h : s.core.running = none) (k : Nat) :
    execPark k s = .next (s.mapDev (fun d => d.setStrand k Strand.parked)) := by
  have hne : s.core.running ≠ some k := by rw [h]; exact nofun
  simp only [execPark, if_neg hne]
  rfl

theorem State.parkAll_idle (ks : List Nat) {s : State} (h : s.core.running = none) :
    State.parkAll ks s = s.mapDev (fun d => ks.foldl (fun d k => d.setStrand k Strand.parked) d) := by
  induction ks generalizing s with
  | nil => rfl
  | cons k ks ih =>
    rw [State.parkAll, exec_park_idle h]
    exact ih h

theorem Dev.foldl_park (ks : List Nat) (d : Dev) (j : Nat) : (ks.foldl (fun d k => d.setStrand k Strand.parked) d).strands[j]? =
    if j ∈ ks then d.strands[j]?.map Strand.parked else d.strands[j]? := by
  induction ks generalizing d with
  | nil => rfl
  | cons k ks ih =>
    rw [List.foldl_cons, ih]
    by_cases hj : j = k
    · subst hj
      rw [if_pos List.mem_cons_self]
      cases hu : d.strands[j]? with
      | none =>
        have hn : (d.setStrand j Strand.parked).strands[j]? = none := by simp [Dev.setStrand, hu]
        rw [hn, Option.map_none, ite_self]
      | some u => rw [Dev.setStrand_get d Strand.parked hu, Option.map_some, Option.map_some, Strand.parked_parked, ite_self]
    · rw [Dev.setStrand_other _ _ hj]
      simp [hj]

theorem quiesce_parks {s : State} (h : s.core.running = none) : Runs .quiesce s (fun t => t.core = s.core ∧ t.mem = s.mem ∧
    t.dev.quiesced = true ∧ t.dev.strands = s.dev.strands.map Strand.parked) := by
  have hp := State.parkAll_idle (List.range s.dev.strands.length) h
  refine ⟨_, rfl, ?_, ?_, rfl, ?_⟩
  · rw [hp]; rfl
  · rw [hp]; rfl
  · rw [hp]
    refine List.ext_getElem? fun j => (Dev.foldl_park _ s.dev j).trans ?_
    rw [List.getElem?_map]
    split
    · rfl
    · next hj =>
      have hn : s.dev.strands[j]? = none := List.getElem?_eq_none (Nat.not_lt.1 fun hlt => hj (List.mem_range.2 hlt))
      rw [hn]; rfl

/-! ### The settling -/

section
variable (s : State) (v : X64)

theorem settingWrite_runs {off : Nat} {q : Settings} (h8 : off % 8 = 0) (hlt : off < 0x60) (h1 : off ≠ 0x8) (h2 : off ≠ 0x18) (h3 : off ≠ 0x28)
    (hq : s.dev.set.write off v.toNat = q) : Runs (.registerWrite ⟨0, off⟩ v) s (fun t => t.dev.set = q ∧ t.core = s.core ∧ t.mem = s.mem) :=
  ⟨_, exec_registerWrite_setting s v h8 hlt h1 h2 h3, hq, rfl, rfl⟩

theorem indomWrite_index : Runs (.indomWrite v) s (fun t => t.dev.ident.indom = v.getLsbD 8 ∧
    t.dev.ident.indexReg = (if s.dev.ident.indom then s.dev.ident.indexReg else v.toNat % 64) ∧
    t.dev.ident.index = (if v.getLsbD 8 then t.dev.ident.indexReg else 0) ∧ t.core.regs = s.core.regs ∧ t.mem = s.mem) := by
  refine ⟨_, rfl, ?_⟩
  rw [← bitsAt_one, bitsAt_low]
  split <;> exact ⟨rfl, rfl, rfl, rfl, rfl⟩

theorem ownPageWrite_runs {fn : Nat} (h0 : fn ≠ 0) (hf : fn < 64) : Runs (.registerWrite ⟨fn, 0x08⟩ v) s (fun t =>
    t.dev.page fn = { s.dev.page fn with errint := v.getLsbD 2, inten := v.getLsbD 1 } ∧
    (∀ o, o ≠ fn → t.dev.page o = s.dev.page o) ∧ t.core = s.core ∧ t.mem = s.mem) :=
  ⟨_, exec_registerWrite_virtual s v h0 (by decide), Dev.mapPage_page _ _ hf, fun _ h => Dev.mapPage_other _ _ h, rfl, rfl⟩

theorem exec_registerWrite_readOnly {fn off : Nat} (h0 : fn ≠ 0) (h : off % 8 ≠ 0 ∨ off ≠ 0x08 ∧ off ≠ 0x10) :
    exec (.registerWrite ⟨fn, off⟩ v) s = .next s := by
  by_cases h8 : off % 8 = 0
  · obtain ⟨h1, h2⟩ := h.resolve_left (fun hn => hn h8)
    rw [exec_registerWrite_virtual s v h0 h8, State.writeOwnPage, if_neg h2, if_neg h1]
  · exact exec_registerWrite_unaligned s v fn h8

theorem exec_registerWrite_noPlace {off : Nat} (h : off % 8 ≠ 0 ∨ 0x1400000 ≤ off ∨ (0x9030 ≤ off ∧ off < 0x800000)) :
    exec (.registerWrite ⟨0, off⟩ v) s = .next s := by
  by_cases h8 : off % 8 = 0
  · exact exec_registerWrite_reserved s v h8 (h.resolve_left (fun hn => hn h8))
  · exact exec_registerWrite_unaligned s v 0 h8

end

/-- Settles O59: each place of a register's write, by what it holds afterwards. -/
theorem ownerRegisters : Obligations.OwnerRegisters := by
  unfold Obligations.OwnerRegisters
  intro s v
  refine ⟨⟨?_, ?_, ?_, ?_, fun c hc => ?_⟩, fun tn ht => ⟨?_, ?_, ?_⟩, fun k hk => ⟨mapWrite_ignored s v hk, mapWrite_writes s v hk⟩,
    fun off hlo hhi h8 => exec_registerWrite_bins s v h8 hlo hhi, fun e => rfl, indomWrite_index s v, ?_, ?_, fun tn ht => ?_,
    fun tn ht => mapbaseWrite_runs s v ht, fun tn ht hen => ?_, fun off => exec_registerWrite_noPlace s v, fun fn off h0 =>
    exec_registerWrite_readOnly s v h0, fun fn h0 hf => ownPageWrite_runs s v h0 hf, quiesce_parks⟩
  · exact settingWrite_runs s v (by decide) (by decide) (by decide) (by decide) (by decide) (s.dev.set.writePwrlim_eq v.toNat)
  · exact settingWrite_runs s v (by decide) (by decide) (by decide) (by decide) (by decide) (s.dev.set.write_qpwdog v.toNat)
  · exact ⟨_, exec_registerWrite_lostto s v, s.dev.set.write_lostto v.toNat, rfl, rfl⟩
  · exact settingWrite_runs s v (by decide) (by decide) (by decide) (by decide) (by decide) (s.dev.set.write_winto v.toNat)
  · exact settingWrite_runs s v (by omega) (by omega) (by omega) (by omega) (by omega)
      ((s.dev.set.write_class v.toNat hc).trans (s.dev.set.writeClass_eq v.toNat c))
  · exact pageWrite_runs s v ht (by decide) (by decide) (by decide) (by decide) rfl
  · exact pageWrite_runs s v ht (by decide) (by decide) (by decide) (by decide) (by rw [← bitsAt_low v.toNat 31]; rfl)
  · exact pageWrite_runs s v ht (by decide) (by decide) (by decide) (by decide) (by rw [show 16 = 2 ^ (3 + 1) from rfl, ← bitsAt_low]; rfl)
  · refine ⟨_, exec_registerWrite_rampt s v, ?_, rfl, rfl, rfl⟩
    rw [← bitsAt_low v.toNat 14]; rfl
  · exact settingWrite_runs s v (by decide) (by decide) (by decide) (by decide) (by decide) (s.dev.set.write_waitq v.toNat)
  · exact pageWrite_runs s v ht (by decide) (by decide) (by decide) (by decide) rfl
  · obtain ⟨t, ht, hp, -, hc, hm⟩ := pageWrite_runs s v (o := 0) ht (by decide) (by decide) (by decide) (by decide) rfl
    refine ⟨t, ht, hp.trans ?_, hc, hm⟩
    exact if_pos hen

end Sys2Proof.Machine
end

section
/-! TENANT_CREATE and the table that the core remembers of the tenant's last launch (R204, R390). -/
open Sys2Proof Sys2Proof.Machine Sys2Proof.Claims

namespace Sys2Proof.Machine

/-- The creation of a tenant whose table the core holds makes the core forget the launch that the table was walked for. -/
theorem tenantCreate_forgets {s t : State} {tn : Nat} (ht : tn < 64) (ha : (s.dev.page tn).active = false) (hc : s.core.tableOf = some tn)
    (he : exec (.tenantCreate tn) s = .next t) : t.core.tableLaunch = none := by
  have hcreate : exec (.tenantCreate tn) s = .next ((s.mapCore (fun c => { c with tableLaunch := none })).mapDev (fun d =>
      { (d.setPage tn { Page.reset with active := true }) with links := d.links.clearTenant tn })) := by
    have hok : (decide (tn < 64) && !(s.dev.page tn).active) = true := by rw [decide_eq_true ht, ha]; rfl
    show execTenantCreate tn s = _
    simp only [execTenantCreate, hok, hc, if_true]
  rw [← Host.Outcome.next.inj (hcreate.symm.trans he)]
  rfl

/-- The reset state, but that the core holds the table of tenant 1, which does not exist, as walked for its launch 0. -/
def staleTable : State := State.reset.mapCore (fun c => { c with tableOf := some 1, tableLaunch := some 0 })

/-- Refutes O58: its clause for TENANT_CREATE asks that the core stay as it was. Where the core holds the table of the tenant (`tableOf`), the
model clears the launch that it was walked for (`tableLaunch`), so that the next pickup walks the new tenant's list. The state
`staleTable` and tenant 1 show it. -/
theorem not_serviceEvents : ¬ Obligations.ServiceEvents := by
  unfold Obligations.ServiceEvents
  rintro ⟨-, h⟩
  obtain ⟨-, -, -, -, -, -, -, -, -, -, hcreate, -⟩ := h staleTable
  obtain ⟨t, he, -, -, -, hcore, -⟩ := hcreate 1 (by decide) (by decide)
  have hnone := tenantCreate_forgets (s := staleTable) (by decide) (by decide) rfl he
  rw [hcore] at hnone
  exact absurd hnone (by decide)

end Sys2Proof.Machine
end
